-- ==== Sys2Proof/Word.lean ====
section
/-! DEFINITION. The word types of the model: the widths the spec gives its registers and memory, and the plain data
that every sparse table of the state is held in. -/

namespace Sys2Proof

/-- A byte of memory or of a message. -/
abbrev Byte := BitVec 8

/-- A register word (R62: registers are 32 bits wide). -/
abbrev Word := BitVec 32

/-- A 64-bit register pair or field. -/
abbrev DWord := BitVec 64

/-- A LONG128 result (R155) or any other 128-bit value. -/
abbrev Quad := BitVec 128

/-- A sparse table: keys strictly rising, and no entry whose value is the one an unlisted key reads as. -/
abbrev Sparse (α : Type) := List (Nat × α)

end Sys2Proof
end

