-- ==== Sys2Proof/Syntax.lean ====
section
/-! DEFINITION. The commands the block takes, one constructor per row of spec/opcode_table.json, with their operands.
Operands are what the outside supplies: an initiator and a value written, a message received, a measurement, or which item,
port or stack an event concerns. Wide operands are structures of their own. -/

namespace Sys2Proof

/-- One UDP datagram at a management port, as 02 R41 lays it out. -/
structure Datagram where
  /-- management port 0 or 1, and the request's source (address and UDP port) -/
  port : Nat
  source : Nat
  /-- an IP fragment -/
  fragment : Bool
  magic : Nat
  version : Nat
  opcode : Nat
  session : Nat
  seq : Nat
  length : Nat
  status : Nat
  flags : Nat
  payload : List Byte
  tag : List Byte
  deriving DecidableEq, Repr

/-- A near-memory operation arriving at its controller (11 R362). -/
structure NmOp where
  /-- device address of the element -/
  addr : Nat
  /-- TYPE and OP codes -/
  ty : Nat
  op : Nat
  value : Nat
  poisoned : Bool
  /-- issuing item -/
  region : Nat
  slot : Nat
  /-- residue mismatch in the adder (14 R460) -/
  residue : Bool
  deriving DecidableEq, Repr

/-- Blocks of one scale line written to memory (04 R566). -/
structure LineMerge where
  /-- device address of the scale line -/
  addr : Nat
  /-- device address of its outlier region, none when the stream has no outlier entries -/
  outAddr : Option Nat
  tag : Nat
  /-- the line's first block, and the blocks of the whole stream -/
  first : Nat
  total : Nat
  /-- blocks written: position in the line, scale byte, outlier entries -/
  blocks : List (Nat × Nat × List Nat)
  deriving DecidableEq, Repr

/-- A record operation on its way to its home die (10 R309). -/
structure RecOp where
  /-- source identifier (03 R105) -/
  src : Nat
  /-- sequence and layer -/
  seq : Nat
  layer : Nat
  /-- token index and position of an APPEND, the flat unit that writes the row, and the row: FP32 codes of K after the rotary
  position, then of V -/
  index : Nat
  pos : Nat
  unit : Nat
  row : List Nat
  /-- record image of a PUBLISH, and its flags and expected length -/
  image : Nat
  flags : Nat
  expectLen : Nat
  /-- item of the issuer -/
  region : Nat
  slot : Nat
  deriving DecidableEq, Repr

/-- A fabric packet (13 R415). -/
structure Packet where
  /-- TYPE code -/
  kind : Nat
  dst : Nat
  src : Nat
  tgen : Nat
  igen : Nat
  seq : Nat
  hops : Nat
  /-- the packet carries poison -/
  poisoned : Bool
  body : List Byte
  deriving DecidableEq, Repr

/-- A COLL_DATA packet; `residue`: the reducer that takes it in finds a residue mismatch (14 R457, R460). -/
structure CollFrame where
  pkt : Packet
  residue : Bool
  deriving DecidableEq, Repr

/-- A frame: 8 consecutive codewords of a port's stream, 224 symbols each, as they are sent or received (13 R411, R412). -/
structure Frame where
  words : List (List Byte)
  deriving DecidableEq, Repr

/-- A number for each virtual channel (13 R413). -/
structure Vcs where
  vc0 : Nat := 0
  vc1 : Nat := 0
  vc2 : Nat := 0
  deriving DecidableEq, Repr

/-- Scrambler seeds of the port lanes, received and sent (13 R411). -/
structure Seeds where
  rx : List Nat
  tx : List Nat
  deriving DecidableEq, Repr

/-- HELLO of a link neighbour: its port, id, package generation, Lay parent port, Lay state and ERR_NS (13 R416). -/
structure Hello where
  port : Nat
  id : Nat
  gen : Nat
  parent : Nat
  lay : Nat
  err : Nat
  deriving DecidableEq, Repr

/-- One governor measurement (16 R526). -/
structure PowerSample where
  /-- rail voltages in mV and currents in 0.1 A, sensor temperatures (1/16 °C; none: silent), draw of each region in W -/
  railMv : List Nat
  railCurrent : List Nat
  temps : List (Option Int)
  regionDraw : List Nat
  deriving DecidableEq, Repr

/-- A word the SRAM sweep reads, or the end of a sweep's hour before the sweep has finished (14 R458, R459). -/
structure SramEvent where
  die : Nat
  /-- ARRAY code of 14 R462 -/
  array : Nat
  /-- structure code for control state -/
  structureCode : Nat
  /-- flat index of the owner at the level the structure's domain has -/
  index : Nat
  offset : Nat
  syndrome : Nat
  uncorrectable : Bool
  /-- the sweep of the arrays of `die` has not finished within its hour; the other fields then say nothing -/
  late : Bool
  deriving DecidableEq, Repr

/-- A reset domain: level 0 unit, 1 cluster, 2 region, 3 die, 4 package, and its flat index (14 R461, R471). -/
structure Dom where
  level : Nat
  index : Nat
  deriving DecidableEq, Repr


/-- The commands of the block: one constructor per row of spec/opcode_table.json. -/
inductive Instr where
  /-- OPEN (R517): An Agrex OPEN request authenticates with a key slot and opens a session, deriving its session key and starting sequence number -/
  | agxOpen (dg : Datagram)
  /-- CLOSE (R43): An Agrex CLOSE request ends the session -/
  | agxClose (dg : Datagram)
  /-- CLAIM (R51): An Agrex CLAIM request takes the owner role for a JOB when no session holds it and OWNER_JOB allows it -/
  | agxClaim (dg : Datagram)
  /-- RELEASE (R51): An Agrex RELEASE request from the owner clears OWNER_SESSION and leaves OWNER_JOB unchanged -/
  | agxRelease (dg : Datagram)
  /-- KEEPALIVE (R43): An Agrex KEEPALIVE request keeps the session from lapsing -/
  | agxKeepalive (dg : Datagram)
  /-- READ (R43): An Agrex READ request returns one dictionary entry, after the checks of R39 steps 1 to 7 -/
  | agxRead (dg : Datagram)
  /-- READ_MULTI (R44): An Agrex READ_MULTI request reads up to 32 entries one after another, or is refused with TOO_LARGE -/
  | agxReadMulti (dg : Datagram)
  /-- WRITE (R39): An Agrex WRITE request from the owner writes a plain dictionary entry after the ordered checks -/
  | agxWrite (dg : Datagram)
  /-- GUARDED_WRITE (R67): An Agrex GUARDED_WRITE checks the complement and writes a GW or plain entry, with the management controller performing the guard sequence -/
  | agxGuardedWrite (dg : Datagram)
  /-- AGX_SESSION_LAPSE (R49): A session with no authenticated request for AGX_IDLE_TIMEOUT lapses, freeing its slot and any owner role -/
  | agxSessionLapse (session : Nat)
  /-- DIC_READ (R57): A write of MGT_DIC_CMD with OP read starts a read of a dictionary entry through the local port -/
  | dicRead (ini index sub : Nat)
  /-- DIC_WRITE (R57): A write of MGT_DIC_CMD with OP write starts a dictionary write through the local port -/
  | dicWrite (ini index sub : Nat)
  /-- DIC_GUARDED_WRITE (R57): A write of MGT_DIC_CMD with OP guarded write starts a guarded dictionary write using MGT_DIC_GUARD or the buffer complement -/
  | dicGuardedWrite (ini index sub : Nat)
  /-- DIC_RESERVED_OP (R58): A command with the reserved OP completes with ACCESS_DENIED and length 0, reading and writing nothing -/
  | dicReservedOp (ini : Nat)
  /-- DIC_CMD_DONE (R58): A local-port command finishes, setting DONE, STATUS and LENGTH within 20,000 cycles -/
  | dicCmdDone (ini : Nat)
  /-- REGISTER_WRITE (R37): A direct store to a register without a row of its own applies under its access and apply class, clamping to the entry range and updating the image -/
  | registerWrite (ini addr width value : Nat)
  /-- RC_REGISTER_READ (R64): A read of an RC register returns and clears its events or count, keeping same-cycle events -/
  | rcRegisterRead (ini addr width : Nat)
  /-- GUARD_WRITE (R65): A write of the complement to the guard mirror arms the initiator's guard slot for a GW offset, aborting any armed attempt -/
  | guardWrite (ini addr width value : Nat)
  /-- GW_FIELD_WRITE (R65): A write to a GW field is accepted if the slot is armed with the matching complement within 512 cycles, else aborted -/
  | gwFieldWrite (ini addr width value : Nat)
  /-- GUARD_TIMEOUT (R66): An armed guard slot runs out 512 cycles after its guard write, counting a TIMEOUT abort and disarming -/
  | guardTimeout (ini die : Nat)
  /-- BIT_ALIAS_WRITE (R68): A write to a bit-alias word sets or clears one bit atomically, or aborts as ALIAS on a GW bit -/
  | bitAliasWrite (ini addr value : Nat)
  /-- BIT_ALIAS_READ (R68): A read of a bit-alias word returns one bit and clears it when the bit is RC -/
  | bitAliasRead (ini addr : Nat)
  /-- MBX_CAPTURE_LONG128 (R70): A write of MGT_MBX_SEL with KIND 0x01 captures a LONG128 result slot -/
  | mbxCaptureLong128 (ini die index : Nat)
  /-- MBX_CAPTURE_LAY (R450): A write of MGT_MBX_SEL with KIND 0x02 captures Lay time, cycle counter, state and epoch at one instant -/
  | mbxCaptureLay (ini die index : Nat)
  /-- MBX_CAPTURE_SNARL (R482): A write of MGT_MBX_SEL with KIND 0x03 captures a Snarl descriptor of a domain -/
  | mbxCaptureSnarl (ini die index : Nat)
  /-- MBX_CAPTURE_WIDE (R70): A write of MGT_MBX_SEL with KIND 0x04 captures a WIDE dictionary entry on the hub -/
  | mbxCaptureWide (ini die index : Nat)
  /-- MBX_CAPTURE_DONE (R71): A mailbox capture completes within its latency, setting VALID and clearing BUSY -/
  | mbxCaptureDone (ini die : Nat)
  /-- WRK_SQ_TAIL_WRITE (R92): A write to WRK_SQ_TAIL publishes submitted descriptors, or is ignored with SQ_OVERRUN if it would overfill the ring -/
  | wrkSqTailWrite (ini region value : Nat)
  /-- DESCRIPTOR_ADMIT (R92): The scheduler reads the next descriptor into a free slot and admits or completes it after generation, descriptor and target checks -/
  | descriptorAdmit (region : Nat)
  /-- LAY_GATE_OPEN (R96): The die's Lay time reaches a TIMED item's LAY_GATE and its gate opens -/
  | layGateOpen (region slot : Nat)
  /-- FETCH_BLOCK_ARRIVE (R99): A fetch block with its scales and outlier entries arrives in a unit's stream queue, checked and possibly poisoned -/
  | fetchBlockArrive (region slot stream entry block gen : Nat) (poisoned : Bool)
  /-- ITEM_COMPLETE (R113): An item's last output becomes visible; it contributes to its tracker, writes its completion record and issues its signals -/
  | itemComplete (region slot : Nat)
  /-- WRK_CQ_HEAD_WRITE (R118): A write to WRK_CQ_HEAD retires records and releases records waiting for ring space, or is ignored with CQ_HEAD_ERR -/
  | wrkCqHeadWrite (ini region ring value : Nat)
  /-- CLEAT_SIGNAL (R103): A SIGNAL operation arrives at its Cleat's home die and raises its value, saturating, and re-evaluates waiters -/
  | cleatSignal (src die index amount : Nat)
  /-- CLEAT_DECREMENT (R103): A DECREMENT operation lowers a Cleat's value, stopping at 0 -/
  | cleatDecrement (src die index amount : Nat)
  /-- CLEAT_SET (R109): A guarded store to CLT_SET sets a Cleat's value and re-evaluates waiters -/
  | cleatSet (ini die index value : Nat)
  /-- CLEAT_ARM (R110): A store to CLT_ARM arms a core wait that interrupts when the value reaches the threshold, or is refused beyond 64 -/
  | cleatArm (core die index value : Nat)
  /-- TWINE_MATMUL (R162): A Twine MATMUL item computes exact LONG128 block sums and converts each output once -/
  | twineMatmul (region slot : Nat) (residue : List Nat)
  /-- HAWSER_MATMUL (R194): A Hawser MATMUL item computes its products in the fixed reference order, optionally Turn-fed or writing chunk sums -/
  | hawserMatmul (region slot : Nat) (residue : List Nat)
  /-- SEG_MATMUL (R292): A segmented variant product applies each segment's adapter matrix on the Hawser path -/
  | segMatmul (region slot : Nat)
  /-- REBLOCK (R203): A stand-alone REBLOCK item writes the re-blocked transpose of stream A -/
  | reblock (region slot : Nat)
  /-- MASK (R262): A MASK drawing item writes keep-or-drop values from Bowline words -/
  | mask (region slot : Nat)
  /-- DROPOUT (R262): A DROPOUT drawing item scales kept inputs and zeroes dropped ones -/
  | dropout (region slot : Nat)
  /-- FILL_UNIFORM (R262): A FILL_UNIFORM drawing item writes uniform draws between lo and hi -/
  | fillUniform (region slot : Nat)
  /-- FILL_NORMAL4 (R262): A FILL_NORMAL4 drawing item writes sum-of-four normal draws -/
  | fillNormal4 (region slot : Nat)
  /-- PACK_SPARSE (R277): A PACK_SPARSE item prunes and packs dense weights into a 2:4 or tile-bitmap layout -/
  | packSparse (region slot : Nat)
  /-- ROUTE (R284): A ROUTE item ranks logits, places tokens under capacity and writes dispatch lists, token table and stats -/
  | route (region slot : Nat)
  /-- GATE_ROUTE (R283): A GATE_ROUTE item forms gate logits on Hawser and then routes as ROUTE does -/
  | gateRoute (region slot : Nat)
  /-- ATTEND (R331): An ATTEND item pins a record, walks its pages and forms chunk and tree nodes of attention -/
  | attend (region slot : Nat)
  /-- MERGE (R333): A MERGE item combines pairs of attention node records into their parent node or final output -/
  | merge (region slot : Nat)
  /-- PUBLISH (R323): A PUBLISH item sends a record image to the record's home die for replacement -/
  | publish (region slot : Nat)
  /-- PTE_WRITE (R326): A PTE_WRITE item stores one 64-bit table entry atomically, refused if it would change a valid entry -/
  | pteWrite (region slot : Nat)
  /-- PASS_A (R350): PASS_A forms exact LONG128 sums of squared gradients per tensor, row and column -/
  | passA (region slot : Nat)
  /-- PASS_B (R352): Commit-gated PASS_B computes statistics and the exact sum of squared updates into OUT -/
  | passB (region slot : Nat)
  /-- PASS_C (R347): Commit-gated PASS_C applies the update, writing masters, remainders and working copies to OUT -/
  | passC (region slot : Nat)
  /-- PASS_C_DELAYED (R352): Commit-gated PASS_C_DELAYED computes statistics and applies the update using the previous step's update sum -/
  | passCDelayed (region slot : Nat)
  /-- SEED (R360): A SEED item writes a fresh state block from FP32 masters -/
  | seed (region slot : Nat)
  /-- NM_BATCH (R364): An NM_BATCH item issues a list of near-memory operations -/
  | nmBatch (region slot : Nat)
  /-- NM_OPERATION (R362): A near-memory ADD, MAX or MIN arrives at its controller and is applied atomically to one element -/
  | nmOperation (op : NmOp)
  /-- SEND (R441): A SEND item copies stream A to a peer package as PUT line frames -/
  | send (region slot : Nat)
  /-- ALLREDUCE (R431): An ALLREDUCE item reduces a tensor over the plan's rings with narrow wire hops and gathers the sum -/
  | allreduce (region slot : Nat)
  /-- REDUCE_SCATTER (R431): A REDUCE_SCATTER item leaves each member its reduced piece -/
  | reduceScatter (region slot : Nat)
  /-- ALLGATHER (R434): An ALLGATHER item copies every member's piece to every member -/
  | allgather (region slot : Nat)
  /-- SUM_L128 (R438): A SUM_L128 item forms exact LONG128 sums over all members by a tree -/
  | sumL128 (region slot : Nat)
  /-- MAX_F32 (R438): A MAX_F32 item forms exact FP32 maxima over all members by a tree -/
  | maxF32 (region slot : Nat)
  /-- VOTE (R439): The commit-vote item starts when OUTSTANDING is 0, moves its slot to VOTING and contributes the fault flag -/
  | vote (region slot : Nat)
  /-- COPY (R399): A Fetch-only COPY moves bytes line by line with their poison state -/
  | copy (region slot : Nat)
  /-- SCALES_FROM_MX (R161): A Fetch-only move converts an MX scale byte array into scale lines -/
  | scalesFromMx (region slot : Nat)
  /-- SCALES_TO_MX (R161): A Fetch-only move converts scale lines into an MX scale byte array -/
  | scalesToMx (region slot : Nat)
  /-- GATHER_ROWS (R288): A Fetch-only move gathers the rows named by a dispatch list, padding with zero rows -/
  | gatherRows (region slot : Nat)
  /-- GATHER_SLOTS (R288): A Fetch-only move gathers expert outputs back into token-slot order -/
  | gatherSlots (region slot : Nat)
  /-- SNARL_COPY (R482): A Fetch-only move copies a whole Snarl capture to memory -/
  | snarlCopy (region slot : Nat)
  /-- SCALE_LINE_MERGE (R566): A write of blocks of a scale line is merged atomically at the memory holding the line, relaying the outlier region and recomputing CHECK -/
  | scaleLineMerge (m : LineMerge)
  /-- STEP_OPEN (R227): The OPEN command of a step slot latches step number, epoch and policy and clears the attempt -/
  | stepOpen (ini slot : Nat)
  /-- STEP_REOPEN (R227): The REOPEN command starts a further attempt and arms prepasses for faulted trackers -/
  | stepReopen (ini slot : Nat)
  /-- STEP_ABANDON (R227): The ABANDON command releases held trackers, records widening and signals the outcome Cleat -/
  | stepAbandon (ini slot : Nat)
  /-- STEP_FREE (R227): The FREE command clears a committed or abandoned slot, refused while commit-gated items remain -/
  | stepFree (ini slot : Nat)
  /-- STEP_CMD_RESERVED (R236): A reserved step command is refused as CONFIG_BUSY -/
  | stepCmdReserved (ini slot op : Nat)
  /-- SPL_TRK_CFG_WRITE (R220): A write to a tracker's configuration enables it, clearing history on a 0-to-1 change of EN -/
  | splTrkCfgWrite (ini tracker value : Nat)
  /-- PREPASS_PASS_DONE (R238): An item's prepass pass ends, contributing its amax to PREMAX and itself to PRE_DONE -/
  | prepassPassDone (region slot : Nat)
  /-- VOTE_RESULT (R439): A vote result arrives and the slot commits, replays or is exhausted under R231 -/
  | voteResult (epoch step attempt sum : Nat)
  /-- VOTE_DOUBT_TIMEOUT (R247): A vote without a result within VOTE_DOUBT_MS moves its slot to IN_DOUBT and starts queries -/
  | voteDoubtTimeout (slot : Nat)
  /-- VOTE_QUERY (R440): A received VOTE_QUERY is answered with the kept sum or NONE -/
  | voteQuery (port : Nat) (pkt : Packet)
  /-- VOTE_QUERY_ANSWER (R440): An answer to an in-doubt query arrives; a sum settles the slot's outcome -/
  | voteQueryAnswer (port : Nat) (pkt : Packet)
  /-- VOTE_QUERY_TIMEOUT (R248): With no result from any member within a further VOTE_DOUBT_MS, the slot moves to ABANDONED -/
  | voteQueryTimeout (slot : Nat)
  /-- RECORD_PIN (R309): A PIN returns a snapshot of a sequence record and signals its REF Cleat -/
  | recordPin (op : RecOp)
  /-- RECORD_RELEASE (R310): A RELEASE decrements the REF Cleat that a walker pinned -/
  | recordRelease (op : RecOp)
  /-- RECORD_APPEND (R316): An APPEND places, rewrites or spills one token of a record, taking a fresh page at a page boundary -/
  | recordAppend (op : RecOp)
  /-- RECORD_PUBLISH (R324): A record PUBLISH replaces a record at its home die and moves the REF Cleat counts, or is refused -/
  | recordPublish (op : RecOp)
  /-- SPILL_DRAIN (R320): A cluster drains a spilled token by APPEND once a page or leaf becomes available -/
  | spillDrain (cluster : Nat)
  /-- PAGE_WAIT_TIMEOUT (R321): A reeve item whose spilled tokens remain after PAGE_WAIT_US retires with PAGE_WAIT -/
  | pageWaitTimeout (region slot : Nat)
  /-- PIN_WAIT_TIMEOUT (R322): An item waiting to pin a record with SPILL above 0 completes with PAGE_WAIT after PAGE_WAIT_US -/
  | pinWaitTimeout (region slot : Nat)
  /-- ATE_RING_TAIL_WRITE (R317): A write to ATE_RING_TAIL returns pages to a free-page ring, or is ignored with OVERRUN -/
  | ateRingTailWrite (ini die value : Nat)
  /-- MEM_READ (R382): An HBM line read is decoded, corrected or returned poisoned -/
  | memRead (core : Option Nat) (stack off : Nat) (errs : List (Nat × Nat))
  /-- MEM_WRITE (R384): A whole-line write replaces the line and clears any poison marking -/
  | memWrite (stack off : Nat) (data : List Byte) (poisoned : Bool)
  /-- MEM_PARTIAL_WRITE (R384): A partial-line write reads, merges and writes back, marking poison when the read fails -/
  | memPartialWrite (stack off : Nat) (data : List Byte) (errs : List (Nat × Nat)) (poisoned : Bool)
  /-- SCRUB_READ (R389): The patrol scrub reads, corrects or poisons the next line of its stack -/
  | scrubRead (stack : Nat) (errs : List (Nat × Nat))
  /-- HBM_TRAINING_DONE (R391): Training of a stack completes or fails with a TRAIN_FAIL record -/
  | hbmTrainingDone (stack reason : Nat) (badPins : List (Nat × Nat))
  /-- MAP_LOCK (R380): A write of true to MAP_LOCK locks the memory map -/
  | mapLock (ini : Nat)
  /-- FAR_READ (R397): A far-tier read is served by a CXL device, poisoned when returned with CXL poison -/
  | farRead (core : Option Nat) (addr : Nat) (cxlPoison : Bool)
  /-- FAR_WRITE (R397): A far-tier write becomes visible when the device completes it -/
  | farWrite (addr : Nat) (data : List Byte) (poisoned : Bool)
  /-- FAR_LINK_DOWN (R398): A CXL link going down records FAR_LINK_DOWN; reads are poisoned and writes dropped -/
  | farLinkDown (root : Nat)
  /-- FAR_LINK_RETRAIN (R398): Every 100 ms the hub retrains a down CXL link and reprograms its decoder on success -/
  | farLinkRetrain (root lanes gts : Nat)
  /-- FAR_EVENT (R394): An event read from a CXL device's event log is posted as a FAR_EVENT record -/
  | farEvent (root code off : Nat)
  /-- DRAIN_START (R400): A write of true to DRAIN_START checks the drain list and arms the checkpoint drain -/
  | drainStart (ini : Nat)
  /-- DRAIN_AT_REACHED (R400): The Lay instant DRAIN_AT is reached and the armed drain begins copying -/
  | drainAtReached
  /-- DRAIN_COMPLETE (R400): A drain finishes its extents and signals DRAIN_CLEAT -/
  | drainComplete
  /-- PORT_ENABLE (R408): Enabling a port starts its bring-up; disabling takes it DOWN -/
  | portEnable (ini mask : Nat)
  /-- PORT_RETRAIN (R408): A retrain command starts a full bring-up of a port -/
  | portRetrain (ini mask : Nat)
  /-- LINK_UP (R408): A port completes equalisation, lock, deskew and HELLO and reads UP or DEGRADED; `lanes`: the port lanes that locked at both ends, one bit each; `credit`: cumulative cell credits of the neighbour's first frame -/
  | linkUp (port lanes : Nat) (seeds : Seeds) (credit : Vcs) (nbr : Hello)
  /-- PORT_TRAIN_TIMEOUT (R408): A port without a locked lane at 100 ms starts again, and reads FAILED after three failed starts -/
  | portTrainTimeout (port : Nat)
  /-- LANE_FAIL (R409): A lane losing lock or exceeding LANE_FAIL_UCW drops out and the port retrains narrower -/
  | laneFail (port lane : Nat)
  /-- FRAME_RECEIVE (R412): A frame of eight codewords is received, checked, acknowledged and its cells delivered -/
  | frameReceive (port : Nat) (f : Frame)
  /-- PACKET_FORWARD (R417): A packet for another package is forwarded on PRIMARY or ALT, or dropped -/
  | packetForward (port : Nat) (pkt : Packet)
  /-- HELLO (R416): A HELLO from the link neighbour gives its id, port, generation and Lay parent -/
  | hello (port : Nat) (pkt : Packet)
  /-- MEMBERSHIP (R421): A MEMBERSHIP message updates the peer table and epoch atomically, or is refused -/
  | membership (port : Nat) (pkt : Packet)
  /-- EPOCH_REPLY (R416): An EPOCH_REPLY reports acceptance or refusal and the current epoch -/
  | epochReply (port : Nat) (pkt : Packet)
  /-- ROUTE_SET (R417): A ROUTE_SET from the fabric manager writes route entries on every ply die -/
  | routeSet (port : Nat) (pkt : Packet)
  /-- SUSPECT_REPORT (R490): A SUSPECT_REPORT passing toward a manager endpoint is absorbed by the suspicion filter or forwarded -/
  | suspectReport (port : Nat) (pkt : Packet)
  /-- LAY_SYNC (R446): A LAY_SYNC exchange yields timestamps from which the fabric Lay offset is measured -/
  | laySync (port : Nat) (t1 t2 t3 t4 : Nat)
  /-- PUT (R441): A PUT packet's line frames are written into this package's memory and acknowledged with DELIVERED -/
  | put (port : Nat) (pkt : Packet)
  /-- COLL_DATA (R431): A COLL_DATA line frame is reduced or stored by the receiving collective and acknowledged -/
  | collData (port : Nat) (fr : CollFrame)
  /-- DELIVERED (R418): A DELIVERED acknowledgement completes an outstanding PUT, COLL_DATA or CLEAT_OP -/
  | delivered (port : Nat) (pkt : Packet)
  /-- CLEAT_OP (R442): A remote Cleat operation arrives and is applied with the arrival port's source identifier -/
  | cleatOp (port : Nat) (pkt : Packet)
  /-- COLL_READY (R428): A COLL_READY from a successor lets the sender transmit that level's data -/
  | collReady (port : Nat) (pkt : Packet)
  /-- COLL_ABORT (R428): A COLL_ABORT ends a running collective with PEER_LOST and is passed on -/
  | collAbort (port : Nat) (pkt : Packet)
  /-- SEND_TIMEOUT (R418): A packet without DELIVERED within SEND_TIMEOUT_MS ends its item with PEER_LOST and reports the peer -/
  | sendTimeout (seq : Nat)
  /-- NEIGHBOUR_SILENT (R423): A link neighbour sending no frames for 1 ms is reported as a suspect -/
  | neighbourSilent (port : Nat)
  /-- LAY_PPS_EDGE (R445): A LAY_PPS rising edge marks a whole second and measures the Lay offset -/
  | layPpsEdge (phaseNs : Int)
  /-- LAY_SET_SECONDS (R445): A write to LAY_SET sets the seconds of the next PPS edge -/
  | laySetSeconds (ini seconds : Nat)
  /-- LAY_PPS_LOSS (R445): PPS missing for 1.5 s puts the Lay unit in HOLDOVER -/
  | layPpsLoss
  /-- LAY_REF_LOSS (R445): LAY_REF missing for 1 µs puts the Lay unit in HOLDOVER -/
  | layRefLoss
  /-- LAY_SYNC_TICK (R446): Once per millisecond the package selects its Lay parent and exchanges LAY_SYNC, or enters HOLDOVER -/
  | laySyncTick
  /-- WD_PROGRESS_EXPIRY (R467): The work-item progress Telltale expires: the item completes WATCHDOG and its smallest domain is reset -/
  | wdProgressExpiry (region slot : Nat)
  /-- WD_CLEAT_EXPIRY (R467): The Cleat-wait Telltale expires and the waiting item completes WATCHDOG -/
  | wdCleatExpiry (region slot : Nat)
  /-- WD_CREDIT_EXPIRY (R467): The fabric credit Telltale expires and the port retrains, or goes DOWN on a second stall -/
  | wdCreditExpiry (port vc : Nat)
  /-- WD_HBM_EXPIRY (R467): The HBM request-age Telltale expires; the request completes poisoned, or a repeat resets the die -/
  | wdHbmExpiry (stack line : Nat) (write : Bool)
  /-- POISON_MARK_WRITE (R470): The line of an expired write is written with the poison marking once the stack accepts a write -/
  | poisonMarkWrite (stack : Nat)
  /-- SRAM_SWEEP (R458): The hourly background sweep reads, corrects and rewrites SRAM words -/
  | sramSweep (ev : SramEvent)
  /-- RESET_REQUEST (R476): A RESET_REQUEST starts a recovery of a domain, a package warm reset or a cold boot -/
  | resetRequest (ini level index : Nat)
  /-- FID_QUEUED_START (R487): A queued recovery starts from step 2 when its Fid becomes free -/
  | fidQueuedStart (fid : Nat)
  /-- FID_DRAIN_DONE (R473): Every request of the recovering domain is answered or expired, and the reset step runs -/
  | fidDrainDone (fid : Nat)
  /-- FID_RECOVERY_DONE (R473): Reset and memory checks finish; home fields are rewritten, records written and admission resumed -/
  | fidRecoveryDone (fid : Nat) (badStacks : List Nat)
  /-- FENCE_SET (R494): A write of FENCE_SET fences the named units -/
  | fenceSet (ini sub mask : Nat)
  /-- FENCE_CLEAR (R494): A write of FENCE_CLEAR resets the named units and returns them to service -/
  | fenceClear (ini sub mask : Nat)
  /-- SNARL_ACK (R479): A write of SNARL_ACK frees acknowledged Snarl slots -/
  | snarlAck (ini area mask : Nat)
  /-- ERR_CLEAR (R497): A guarded write of CLR_OVF clears OVERFLOW, LOST_SEV and FIRST_LOST_SRC -/
  | errClear (ini die value : Nat)
  /-- MC_TELLTALE_EXPIRY (R496): The management controller's own Telltale expires and it restarts, checking its image -/
  | mcTelltaleExpiry (imageOk : Bool)
  /-- POWER_OFF_REQUEST (R495): A POWER_OFF_REQUEST asserts PWROFF_REQ_N so that the rails are sequenced off -/
  | powerOffRequest (ini : Nat)
  /-- COLD_BOOT (R508): The rising edge of PWR_GOOD latches the straps and starts the boot ROM -/
  | coldBoot (straps : Nat)
  /-- BOOT_STAGE_DONE (R508): A boot stage completes and the next stage begins, or the start fails and restarts -/
  | bootStageDone (reason : Nat)
  /-- BOOT_STAGE_TIMEOUT (R508): A boot stage overruns its limit and fails with reason 0x0005 -/
  | bootStageTimeout
  /-- SELF_TEST_DONE (R510): The self-test completes, fencing failed units or failing the boot on a die-level structure -/
  | selfTestDone (bad : List Dom)
  /-- FW_DATA (R512): A write of FW_DATA stores 256 bytes of a bundle in the inactive slot -/
  | fwData (ini : Nat) (data : List Byte)
  /-- FW_COMMIT (R512): A write of FW_COMMIT starts verification of the inactive slot -/
  | fwCommit (ini : Nat)
  /-- FW_VERIFY_DONE (R512): Slot verification finishes, marking it VERIFIED or FAILED with a reason -/
  | fwVerifyDone
  /-- ACTIVE_SLOT (R511): A guarded write of ACTIVE_SLOT selects the boot slot in the boot-attempt record -/
  | activeSlot (ini value : Nat)
  /-- BOOT_RECORD_CLEAR (R511): A guarded write of BOOT_RECORD_CLEAR zeroes ATTEMPTS and clears FAILED -/
  | bootRecordClear (ini : Nat)
  /-- ROLLBACK_COMMIT (R513): ROLLBACK_COMMIT raises the anti-rollback fuse counters to the running images' SVNs -/
  | rollbackCommit (ini : Nat)
  /-- OWNER_DIGEST (R504): A guarded write fuses the owner key digest once -/
  | ownerDigest (ini : Nat) (data : List Byte)
  /-- KEY_SLOT (R516): A local-port write of KEY_SLOT rewrites a client key in the key record -/
  | keySlot (ini sub : Nat) (data : List Byte)
  /-- FM_KEY (R516): A local-port write of FM_KEY rewrites the fabric-manager key -/
  | fmKey (ini : Nat) (data : List Byte)
  /-- ATTEST_NONCE (R515): A write of ATTEST_NONCE requests a signed attestation report -/
  | attestNonce (ini : Nat) (data : List Byte)
  /-- ATTEST_REPORT_READY (R515): The attestation report is ready at ATTEST_REPORT within 50 ms -/
  | attestReportReady
  /-- DEBUG_TOKEN (R518): A write of DEBUG_TOKEN stores a 256-byte piece of a debug token -/
  | debugToken (ini sub : Nat) (data : List Byte)
  /-- DEBUG_ENABLE (R518): DEBUG_ENABLE checks the token and, if accepted, causes a warm reset with debug enabled -/
  | debugEnable (ini : Nat)
  /-- CTX_SAVE (R520): CTX_SAVE starts writing the context record to CTX_ADDR, refused unless every slot is FREE -/
  | ctxSave (ini : Nat)
  /-- CTX_SAVE_DONE (R520): A context save finishes, or fails with TOO_LARGE -/
  | ctxSaveDone
  /-- CTX_RESTORE (R520): CTX_RESTORE starts reading and checking a context record -/
  | ctxRestore (ini : Nat)
  /-- CTX_RESTORE_DONE (R521): A context restore applies its sections or fails and changes nothing -/
  | ctxRestoreDone
  /-- GOVERNOR_TICK (R526): Every 10 µs the governor measures draw, temperatures and rails and sets each region's clock point -/
  | governorTick (m : PowerSample)
  /-- FAST_TRIP_END (R528): The 100 µs after a fast trip ends and the governor loop resumes -/
  | fastTripEnd
  /-- RAMP_AT_REACHED (R531): Lay time reaches a ramp entry's AT; the entry starts or is marked HELD -/
  | rampAtReached (entry : Nat)
  /-- RAMP_ENTRY_WRITE (R530): A write of a ramp entry clears its status flags, refused while its ramp is in progress -/
  | rampEntryWrite (ini entry value : Nat)
  /-- POWER_CLASS (R525): A guarded write of POWER_CLASS lowers or restores the class limit within 10 µs -/
  | powerClass (ini value : Nat)
  /-- CRIT_TEMP_TIMEOUT (R534): A region or stack above its critical limit for 100 ms causes a FATAL record and power-off -/
  | critTempTimeout (stack : Bool) (index : Nat)
  /-- THERMAL_TRIP (R535): A junction at 115 °C fires the analogue trip, asserting THERMTRIP_N -/
  | thermalTrip
  /-- HBM_TEMP_SAMPLE (R533): Every 1 ms the governor reads each HBM stack's temperature -/
  | hbmTempSample (temps : List (Option Int))
  /-- AGE_SAMPLE (R536): Every AGE_PERIOD_MIN the ageing manager runs all path-delay monitors -/
  | ageSample (delays : List Nat)
  /-- AGE_STATE (R540): A write of AGE_STATE restores the ageing sums, refused for another serial -/
  | ageState (ini sub : Nat) (data : List Byte)
  /-- RAIL_RANGE_FAULT (R550): A rail outside its operating range for 10 µs writes a FATAL record and requests power-off -/
  | railRangeFault (rail : Nat)
  /-- PWR_GOOD_FALL (R557): A fall of PWR_GOOD puts every block into reset within 1 µs -/
  | pwrGoodFall
  /-- BRD_RST_N_LOW (R557): BRD_RST_N low for 1 ms while PWR_GOOD is high resets the package -/
  | brdRstNLow
  /-- BRD_RST_N_RISE (R557): The rising edge of BRD_RST_N after a board reset samples the straps and starts a cold boot -/
  | brdRstNRise (straps : Nat)
  /-- I3C_DYNAMIC_ADDRESS (R559): SETDASA or ENTDAA assigns the I3C target its dynamic address -/
  | i3cDynamicAddress (addr : Nat)
  /-- I3C_READ (R559): An I3C private read returns sideband status at the written offset -/
  | i3cRead (offset len : Nat)
  /-- I3C_WRITE (R559): An I3C private write clears ALERT_STATUS bits or sets ALERT_MASK, updating ALERT_N -/
  | i3cWrite (offset : Nat) (data : List Byte)
  /-- DIE_TO_DIE_LINK_ERROR (R462): A die-to-die link between ply dies or to the hub retries, retrains or fails, and the event is recorded with SRC 0x05 -/
  | dieToDieLinkError (die edge kind : Nat)
  /-- LAY_REF_RETURN (R445): The LAY_REF input comes back after a loss, and the Lay unit honours PPS edges again and leaves HOLDOVER through ACQUIRING -/
  | layRefReturn
  deriving DecidableEq, Repr

end Sys2Proof
end

