-- ==== Sys2Proof/Decode.lean ====
section
/-! DEFINITION. The part is a block that takes commands, and no row of spec/opcode_table.json gives its command any bits:
there is no word to decode (log entry 3). -/

namespace Sys2Proof

/-- The command that a word spells by the table's bits: none, because no row gives bits. -/
def decodeTableWord (_nbits _w : Nat) : Option Instr := none

end Sys2Proof
end

