-- ==== Sys2Proof/Machine/Bits.lean ====
section
/-! DEFINITION. Bit fields, byte order and small list helpers that the operations are written with. -/

namespace Sys2Proof.Machine

/-- Bits [hi:lo] of a natural number. -/
def bits (x hi lo : Nat) : Nat := x / 2 ^ lo % 2 ^ (hi + 1 - lo)

/-- Bit i as a Bool. -/
def bit (x i : Nat) : Bool := x / 2 ^ i % 2 == 1

/-- A Bool as 0 or 1. -/
def b2n (b : Bool) : Nat := if b then 1 else 0

/-- x with bits [hi:lo] replaced by v. -/
def setBits (x hi lo v : Nat) : Nat :=
  x - bits x hi lo * 2 ^ lo + v % 2 ^ (hi + 1 - lo) * 2 ^ lo

/-- Little-endian value of a list of bytes. -/
def leNat : List Byte → Nat
  | [] => 0
  | b :: bs => b.toNat + 256 * leNat bs

/-- Big-endian value of a list of bytes. -/
def beNat (bs : List Byte) : Nat := leNat bs.reverse

/-- The n low bytes of x, little-endian. -/
def leBytes : Nat → Nat → List Byte
  | 0, _ => []
  | n + 1, x => BitVec.ofNat 8 x :: leBytes n (x / 256)

/-- The n low bytes of x, big-endian. -/
def beBytes (n x : Nat) : List Byte := (leBytes n x).reverse

/-- Field of `n` bytes at byte offset `off` of a little-endian structure held as a number. -/
def fld (x off n : Nat) : Nat := x / 2 ^ (8 * off) % 2 ^ (8 * n)

/-- Two's complement value of the low w bits. -/
def sInt (w x : Nat) : Int :=
  let y := x % 2 ^ w
  if 2 * y < 2 ^ w then (y : Int) else (y : Int) - (2 ^ w : Nat)

/-- The w-bit two's complement code of an integer. -/
def sCode (w : Nat) (z : Int) : Nat := (z % ((2 ^ w : Nat) : Int)).toNat

/-- Addition that stops at 2^32 − 1 (02 R40). -/
def sat32 (x : Nat) : Nat := min x 0xFFFFFFFF

/-- Count up a U32 counter by n, stopping at its end (02 R40). -/
def countUp (x : Word) (n : Nat) : Word := BitVec.ofNat 32 (sat32 (x.toNat + n))

/-- Exclusive or of naturals, bit by bit on `fuel` bits. -/
def xorBits (fuel a b : Nat) : Nat := (BitVec.ofNat fuel a ^^^ BitVec.ofNat fuel b).toNat

/-- Value clamped to a range. -/
def clampNat (lo hi x : Nat) : Nat := if x < lo then lo else if hi < x then hi else x

/-- List of n elements f 0 … f (n − 1). -/
def tabulate {β : Type} (n : Nat) (f : Nat → β) : List β := (List.range n).map f

/-- Cut a list into pieces of n, the first `k` of them. -/
def chunks {β : Type} (n : Nat) : Nat → List β → List (List β)
  | 0, _ => []
  | k + 1, l => l.take n :: chunks n k (l.drop n)

/-- Bitwise complement of the low w bits. -/
def compl (w x : Nat) : Nat := 2 ^ w - 1 - x % 2 ^ w

end Sys2Proof.Machine
end

