-- ==== Sys2Proof/Machine/Sha3.lean ====
section
/-! DEFINITION. SHA3-256 (00 R9: FIPS 202) and the sponge beneath it, which authenticates Agrex messages (02 R42), derives session keys (15 R517)
and measures images (15 R503). Lane (x, y) of the Keccak state is element x + 5y of a list of 25 words. -/

namespace Sys2Proof.Machine

/-- Lane i of a Keccak state. -/
def lane (a : List DWord) (i : Nat) : DWord := a.getD i 0#64

/-- Rotation offsets of ρ, lane by lane. -/
def rhoOff : List Nat :=
  [0, 1, 62, 28, 27, 36, 44, 6, 55, 20, 3, 10, 43, 25, 39, 41, 45, 15, 21, 8, 18, 2, 61, 56, 14]

/-- Round constants of ι. -/
def iotaC : List Nat :=
  [0x0000000000000001, 0x0000000000008082, 0x800000000000808A, 0x8000000080008000, 0x000000000000808B,
   0x0000000080000001, 0x8000000080008081, 0x8000000000008009, 0x000000000000008A, 0x0000000000000088,
   0x0000000080008009, 0x000000008000000A] ++
  [0x000000008000808B, 0x800000000000008B, 0x8000000000008089, 0x8000000000008003, 0x8000000000008002,
   0x8000000000000080, 0x000000000000800A, 0x800000008000000A, 0x8000000080008081, 0x8000000000008080,
   0x0000000080000001, 0x8000000080008008]

/-- θ: each lane takes the parity of two columns. -/
def keccakTheta (a : List DWord) : List DWord :=
  let c := tabulate 5 fun x => lane a x ^^^ lane a (x + 5) ^^^ lane a (x + 10) ^^^ lane a (x + 15) ^^^ lane a (x + 20)
  let d := tabulate 5 fun x => lane c ((x + 4) % 5) ^^^ (lane c ((x + 1) % 5)).rotateLeft 1
  tabulate 25 fun i => lane a i ^^^ lane d (i % 5)

/-- ρ then π: lane (x, y) of the result is lane (x + 3y, x) of the operand, rotated. -/
def keccakRhoPi (a : List DWord) : List DWord :=
  tabulate 25 fun i =>
    let x := i % 5
    let y := i / 5
    let j := (x + 3 * y) % 5 + 5 * x
    (lane a j).rotateLeft (rhoOff.getD j 0)

/-- χ along each row. -/
def keccakChi (a : List DWord) : List DWord :=
  tabulate 25 fun i =>
    let x := i % 5
    let r := i / 5 * 5
    lane a i ^^^ (~~~ (lane a (r + (x + 1) % 5)) &&& lane a (r + (x + 2) % 5))

/-- One round with its constant. -/
def keccakRound (a : List DWord) (rc : Nat) : List DWord :=
  match keccakChi (keccakRhoPi (keccakTheta a)) with
  | [] => []
  | l :: ls => (l ^^^ BitVec.ofNat 64 rc) :: ls

/-- The permutation. -/
def keccakF (a : List DWord) : List DWord := iotaC.foldl keccakRound a

/-- Absorb one block of w words held little-endian in a number. -/
def keccakAbsorb (w : Nat) (a : List DWord) (block : Nat) : List DWord :=
  keccakF (tabulate 25 fun i => if i < w then lane a i ^^^ BitVec.ofNat 64 (block / 2 ^ (64 * i)) else lane a i)

/-- The padded message as whole blocks of w words, `n` of them from block `k` on. -/
def keccakBlocks (w m : Nat) : Nat → Nat → List Nat
  | 0, _ => []
  | n + 1, k => m / 2 ^ (64 * w * k) % 2 ^ (64 * w) :: keccakBlocks w m n (k + 1)

/-- The first `n` blocks squeezed out. -/
def keccakSqueeze (w : Nat) : Nat → List DWord → List Byte
  | 0, _ => []
  | 1, a => (tabulate w fun i => leBytes 8 (lane a i).toNat).flatten
  | n + 2, a => (tabulate w fun i => leBytes 8 (lane a i).toNat).flatten ++ keccakSqueeze w (n + 1) (keccakF a)

/-- The sponge of rate 8w bytes with a suffix of its own: `n` bytes out. -/
def sponge (w suffix : Nat) (msg : List Byte) (n : Nat) : List Byte :=
  let len := msg.length
  let blocks := len / (8 * w) + 1
  let m := leNat msg + suffix * 2 ^ (8 * len) + 0x80 * 2 ^ (8 * (8 * w * blocks - 1))
  (keccakSqueeze w ((n + 8 * w - 1) / (8 * w)) ((keccakBlocks w m blocks 0).foldl (keccakAbsorb w) (List.replicate 25 0#64))).take n

/-- SHA3-256 of a message, 32 bytes. -/
def sha3 (msg : List Byte) : List Byte := sponge 17 6 msg 32

end Sys2Proof.Machine
end

