-- ==== Sys2Proof/Machine/MlDsa.lean ====
section
/-! DEFINITION. ML-DSA-65 (00 R9: FIPS 204), with which images are signed, tokens are taken, and the device attests (15 R504, R514,
R515, R518): key generation from a seed, hedged signing, verification, over pure messages with an empty context. The spec names the
standard and does not repeat it: the algorithms are FIPS 204's (PRESUMED, log entry 11). A polynomial is its 256 coefficients, each
held modulo q. -/

namespace Sys2Proof.Machine.Dsa

/-! ### Parameters -/

def q : Nat := 8380417
/-- Rows and columns of the matrix. -/
def k : Nat := 6
def l : Nat := 5
def tau : Nat := 49
def beta : Nat := 196
def gamma1 : Nat := 2 ^ 19
def gamma2 : Nat := (q - 1) / 32
def omega : Nat := 55

/-- SHAKE128 and SHAKE256. -/
def shake128 (msg : List Byte) (n : Nat) : List Byte := sponge 21 0x1F msg n
def shake256 (msg : List Byte) (n : Nat) : List Byte := sponge 17 0x1F msg n

/-! ### Polynomials -/

abbrev Poly := List Nat

def padd (a b : Poly) : Poly := List.zipWith (fun x y => (x + y) % q) a b
def psub (a b : Poly) : Poly := List.zipWith (fun x y => (x + (q - y)) % q) a b
/-- Product in the NTT domain. -/
def pmul (a b : Poly) : Poly := List.zipWith (fun x y => x * y % q) a b
def psum (ps : List Poly) : Poly := ps.foldl padd (List.replicate 256 0)

/-- The eight bits of i in reverse order. -/
def brev8 (i : Nat) : Nat := (List.range 8).foldl (fun a j => 2 * a + i / 2 ^ j % 2) 0

/-- The points of the transform: ζ to the odd powers 2·brev8(j) + 1, ζ = 1753. -/
def points : List Nat := (List.range 256).map fun j => 1753 ^ (2 * brev8 j + 1) % q

/-- The number-theoretic transform: the polynomial's values at the points. -/
def ntt (w : Poly) : Poly := points.map fun x => w.foldr (fun c a => (c + x * a) % q) 0

/-- Terms of the inverse, coefficient by coefficient: each term takes one more factor of its point's inverse. -/
def inttFrom (inv : List Nat) : Nat → List Nat → Poly
  | 0, _ => []
  | n + 1, t => t.foldl (fun a x => (a + x) % q) 0 * 8347681 % q :: inttFrom inv n (pmul t inv)

/-- The inverse transform; 8347681 is the inverse of 256, and ζ has order 512. -/
def intt (w : Poly) : Poly := inttFrom ((List.range 256).map fun j => 1753 ^ (511 - 2 * brev8 j) % q) 256 w

/-- The magnitude of a coefficient as a number from −(q − 1)/2 to (q − 1)/2. -/
def mag (x : Nat) : Nat := min (x % q) (q - x % q)
def normOf (ps : List Poly) : Nat := ps.foldl (fun a p => p.foldl (fun a x => max a (mag x)) a) 0

/-! ### Packing -/

/-- Numbers of b bits each, the first lowest. -/
def pack (b : Nat) (cs : List Nat) : List Byte := leBytes (cs.length * b / 8) (cs.foldr (fun c a => c % 2 ^ b + 2 ^ b * a) 0)
def unpack (b n : Nat) (bs : List Byte) : List Nat := let v := leNat bs; (List.range n).map fun i => v / 2 ^ (b * i) % 2 ^ b

/-- n pieces of m bytes. -/
def pieces (m : Nat) : Nat → List Byte → List (List Byte)
  | 0, _ => []
  | n + 1, bs => bs.take m :: pieces m n (bs.drop m)

/-! ### Sampling -/

def triples : List Byte → List Nat
  | a :: b :: c :: r => (a.toNat + b.toNat * 2 ^ 8 + c.toNat % 128 * 2 ^ 16) :: triples r
  | _ => []

/-- A uniform polynomial of the NTT domain. Eight blocks of the stream hold far more than enough. -/
def rejNtt (seed : List Byte) : Poly := ((triples (shake128 seed 1344)).filter (· < q)).take 256

/-- A polynomial with coefficients from −4 to 4. -/
def rejBounded (seed : List Byte) : Poly :=
  (((shake256 seed 544).flatMap fun b => [b.toNat % 16, b.toNat / 16]).filter (· < 9)).take 256 |>.map fun z => (q + 4 - z) % q

def expandA (rho : List Byte) : List (List Poly) :=
  (List.range k).map fun r => (List.range l).map fun s => rejNtt (rho ++ [BitVec.ofNat 8 s, BitVec.ofNat 8 r])

/-- One step of the ball: the next byte not above i chooses the place that gives its coefficient to place i. -/
def ballStep (signs : Nat) (acc : Poly × List Byte) (i : Nat) : Poly × List Byte :=
  match acc.2.dropWhile fun b => decide (i < b.toNat) with
  | [] => (acc.1, [])
  | b :: r =>
    let j := b.toNat
    ((acc.1.set i (acc.1.getD j 0)).set j (if signs / 2 ^ (i + tau - 256) % 2 == 1 then q - 1 else 1), r)

/-- The challenge: 49 coefficients ±1. -/
def ball (seed : List Byte) : Poly :=
  let s := shake256 seed 680
  (((List.range tau).map (· + (256 - tau))).foldl (ballStep (leNat (s.take 8))) (List.replicate 256 0, s.drop 8)).1

/-! ### Rounding -/

/-- t = t1 · 2^13 + t0: t1, and t0 modulo q. -/
def power2Round (r : Nat) : Nat × Nat :=
  let r := r % q
  let a := r % 8192
  if a ≤ 4096 then (r / 8192, a) else (r / 8192 + 1, q - (8192 - a))

/-- r = r1 · 2γ2 + r0: r1, r0 is above 0, and the magnitude of r0. -/
def decompose (r : Nat) : Nat × Bool × Nat :=
  let r := r % q
  let a := r % (2 * gamma2)
  let lo := decide (a ≤ gamma2)
  let hi := if lo then r / (2 * gamma2) else r / (2 * gamma2) + 1
  if hi == 16 then (0, false, if lo then a + 1 else 2 * gamma2 - a + 1)
  else (hi, lo && a != 0, if lo then a else 2 * gamma2 - a)

def highBits (r : Nat) : Nat := (decompose r).1
def useHint (h : Bool) (r : Nat) : Nat :=
  let d := decompose r
  if !h then d.1 else if d.2.1 then (d.1 + 1) % 16 else (d.1 + 15) % 16

/-! ### Keys -/

structure Key where
  rho : List Byte
  secret : List Byte
  s1 : List Poly
  s2 : List Poly
  t0 : List Poly
  pub : List Byte

/-- Key generation from a 32-byte seed. -/
def keyGen (seed : List Byte) : Key :=
  let h := shake256 (seed ++ [BitVec.ofNat 8 k, BitVec.ofNat 8 l]) 128
  let rho := h.take 32
  let rhos := (h.drop 32).take 64
  let s1 := (List.range l).map fun r => rejBounded (rhos ++ leBytes 2 r)
  let s2 := (List.range k).map fun r => rejBounded (rhos ++ leBytes 2 (r + l))
  let s1h := s1.map ntt
  let t := List.zipWith (fun row e => padd (intt (psum (List.zipWith pmul row s1h))) e) (expandA rho) s2
  { rho := rho, secret := h.drop 96, s1 := s1, s2 := s2
    t0 := t.map fun p => p.map fun c => (power2Round c).2
    pub := rho ++ t.flatMap fun p => pack 10 (p.map fun c => (power2Round c).1) }

/-- The public key of a seed, 1,952 bytes. -/
def publicKey (seed : List Byte) : List Byte := (keyGen seed).pub

/-- μ of a message under a public key: pure, with an empty context. -/
def messageRep (pub msg : List Byte) : List Byte := shake256 (shake256 pub 64 ++ [0#8, 0#8] ++ msg) 64

/-! ### Verification -/

/-- The positions of one polynomial's hint, rising strictly, as a polynomial of flags. -/
def hintPoly (ys : List Nat) : Option (List Bool) :=
  if (ys.zip (ys.drop 1)).all fun p => decide (p.1 < p.2) then some ((List.range 256).map ys.contains) else none

/-- The hints of a signature, none where they are malformed. -/
def hintsOf (y : List Nat) : Option (List (List Bool)) :=
  let ends := y.drop omega
  let starts := 0 :: ends
  if ((starts.zip ends).all fun p => decide (p.1 ≤ p.2) && decide (p.2 ≤ omega)) && ((y.take omega).drop (ends.getLastD 0)).all (· == 0)
  then ((starts.zip ends).map fun p => hintPoly ((y.drop p.1).take (p.2 - p.1))).foldr
    (fun h acc => match h, acc with | some a, some l => some (a :: l) | _, _ => none) (some [])
  else none

/-- The signature of a message verifies by a public key. -/
def verifies (pub msg sig : List Byte) : Bool :=
  let t1 := (pieces 320 k (pub.drop 32)).map (unpack 10 256)
  let c := sig.take 48
  let z := (pieces 640 l (sig.drop 48)).map fun b => (unpack 20 256 b).map fun x => (q + gamma1 - x) % q
  match hintsOf ((sig.drop (48 + 640 * l)).map (·.toNat)) with
  | none => false
  | some hs =>
    let ch := ntt (ball c)
    let zh := z.map ntt
    let w := List.zipWith (fun row t =>
      intt (psub (psum (List.zipWith pmul row zh)) (pmul ch (ntt (t.map fun x => x * 8192 % q))))) (expandA (pub.take 32)) t1
    let w1 := List.zipWith (List.zipWith useHint) hs w
    pub.length == 32 + 320 * k && sig.length == 48 + 640 * l + omega + k && decide (normOf z < gamma1 - beta)
      && shake256 (messageRep pub msg ++ w1.flatMap (pack 4)) 48 == c

/-! ### Signing -/

/-- One attempt: the signature, none where it is rejected. -/
def attempt (key : Key) (mu mask : List Byte) (kappa : Nat) : Option (List Byte) :=
  let a := expandA key.rho
  let y := (List.range l).map fun r => (unpack 20 256 (shake256 (mask ++ leBytes 2 (kappa + r)) 640)).map fun x => (q + gamma1 - x) % q
  let yh := y.map ntt
  let w := a.map fun row => intt (psum (List.zipWith pmul row yh))
  let c := shake256 (mu ++ w.flatMap fun p => pack 4 (p.map highBits)) 48
  let ch := ntt (ball c)
  let times := fun (p : Poly) => intt (pmul ch (ntt p))
  let z := List.zipWith (fun y s => padd y (times s)) y key.s1
  let r := List.zipWith (fun w s => psub w (times s)) w key.s2
  let ct0 := key.t0.map times
  let hints := List.zipWith (List.zipWith fun x t => highBits (x + t) != highBits x) r ct0
  let low := r.foldl (fun a p => p.foldl (fun a x => max a (decompose x).2.2) a) 0
  if gamma1 - beta ≤ normOf z || gamma2 - beta ≤ low || gamma2 ≤ normOf ct0 || omega < (hints.map fun h => h.count true).sum then none
  else
    let places := hints.map fun h => (List.range 256).filter fun i => h.getD i false
    let flat := places.flatMap id
    let ends := (List.range k).map fun i => ((places.take (i + 1)).map List.length).sum
    some (c ++ z.flatMap (fun p => pack 20 (p.map fun x => (q + gamma1 - x) % q))
      ++ (flat ++ List.replicate (omega - flat.length) 0 ++ ends).map (BitVec.ofNat 8))

/-- The first attempt that is not rejected. FIPS 204 allows a bound of 814 attempts and more; none fails in practice. -/
def tries (key : Key) (mu mask : List Byte) : Nat → Nat → List Byte
  | 0, _ => []
  | n + 1, kappa => match attempt key mu mask kappa with
    | some s => s
    | none => tries key mu mask n (kappa + l)

/-- The hedged signature of a message by the key of a seed, with 32 random bytes: 3,309 bytes. -/
def sign (seed msg rnd : List Byte) : List Byte :=
  let key := keyGen seed
  let mu := messageRep key.pub msg
  tries key mu (shake256 (key.secret ++ rnd ++ mu) 64) 1000 0

end Sys2Proof.Machine.Dsa
end

