-- ==== Sys2Proof/Config.lean ====
section
/-! DEFINITION. The free values: opaque constants that stand for what the spec leaves open and for what the part's manufacture
or surroundings fix. Nothing can evaluate one or prove it equal to a number. -/

namespace Sys2Proof.Config

/-- A value the spec leaves open, chosen afresh by a counter of the state. -/
opaque freeNat : Nat → Nat

/-- A free yes or no. -/
opaque freeBool : Nat → Bool

/-- Free bytes: counter and position. -/
opaque freeByte : Nat → Nat → Byte

/-! ### What the fuses and the boot ROM hold (15 R502, R504, R514, R518, R522) -/

/-- SERIAL. -/
opaque serial : Nat
/-- The unique device secret, 32 bytes. -/
opaque uds : List Byte
/-- The public keys in the boot ROM: Mirior's root key and its debug key. -/
opaque rootKey : List Byte
opaque debugKey : List Byte
/-- The owner's public key, by the digest that OWNER_DIGEST holds of it: R504 does not say where the key itself is kept. -/
opaque ownerKey : (ownerDigest : List Byte) → List Byte
/-- The device certificate in the boot flash, 5,325 bytes. -/
opaque deviceCert : List Byte

/-! ### Links, nonces, the far tier, ageing -/

/-- Cells of a virtual channel that a port's receiver has room for (13 R413 gives credits, and no size). -/
opaque vcRoom : (vc : Nat) → Nat

/-- DEBUG_NONCE of a start, 32 bytes. -/
opaque debugNonce : (start : Nat) → List Byte
/-- The device attached to a CXL root port as the hub enumerates it: capacity, link lanes and GT/s (12 R394). -/
opaque farDevice : (occasion root : Nat) → Option (Nat × Nat × Nat)
/-- SERIAL of the part a saved ageing state comes from: the state's layout has no field for it (16 R540). -/
opaque ageSerial : List Byte → Nat
/-- Delay d0 of a new monitor at a voltage in mV, ps: fused for each monitor (16 R536). -/
opaque monitorDelay : (unit path mv : Nat) → Nat
/-- Voltage of a region's clock point before the first plan, mV (16 R537 says how a plan is made, not what stands before it). -/
opaque startVolt : (region point : Nat) → Nat
/-- Most that ballast can draw on a number of units with no item, W (16 R529, R541: it holds what it can). -/
opaque ballastCap : (units : Nat) → Nat

end Sys2Proof.Config
end

