-- ==== Sys2Proof/Machine/RegTable.lean ====
section
/-! DEFINITION. Every register of the part, by block: its offset, which bits are of which access class, which of them
apply Idle-only or at a Boundary, which its own domain's reset keeps, and its reset value (02 R59 to R64, R68; 03 R91,
R109; 05 R185; 06 R209 to R211; 07 R220, R221, R236; 08 R264; 09 R297, R298; 10 R336, R337; 11 R368; 12 R402; 13 R452,
R453; 14 R497; 15 R501; 16 R543, R544). -/

namespace Sys2Proof.Machine

/-- The blocks registers lie in (02 R60, R61); the last two hold counters to which the spec gives no address. -/
inductive Blk where
  | errB | mgtB | pwrB | layB | memB | memHB | halB | cltB | fabB | ateDB | rtrDB | trkB | stepB | wrkB | ateCB | rtrCB | twnB | hwsB | splB | trnB | hidDB | hidRB
  deriving DecidableEq, Repr

/-- The registers by name. -/
inductive Reg where
  | errStat | errSts | errHead | errTail | errLostCnt | errEvtCfg | errStaleCnt | errClear | errFidStat | errFidQueue
  | errGenUnit | errGenCluster | errGenRegion | errGenDie | errRec | mgtGuardLast | mgtGuardInit | mgtGuardCnt
  | mgtRefuseCnt | mgtRefuseLast | mgtRefuseInit | mgtStrap | pwrStat | pwrSts | pwrClass | pwrDraw | pwrEvtCfg
  | pwrRampCfg | pwrTripCnt | pwrHeldCnt | pwrBreachCnt | pwrRamp | pwrRegFreq | pwrRegCap | pwrVf | pwrTemp
  | pwrHbmTemp | pwrGateCnt | pwrThermCnt | pwrLimitCnt | pwrAge | layNow | layStat | laySts | layCfg | laySet
  | layErr | layOffset | layLateCnt | layLateMax | memStat | memSts | memMap | memScrubCfg | memCeCnt | memUeCnt
  | memPoisonCnt | memSuppCnt | memScrubPos | memPin | memFarPoisCnt | memFarDropCnt | memDrainStat | memDrainPoisCnt
  | halStat | halSts | halTag | halSkipCnt | halRepairCnt | halNmCnt | halNmSatCnt | halBusyCnt | halNsatCnt | halCfg
  | halHp | cltVal | cltSig | cltDec | cltSet | cltCfg | cltStat | cltSts | cltArm | fabPortStat | fabPortSts
  | fabPortCfg | fabPortNbr | fabFecCwCnt | fabFecUcwCnt | fabReplayCnt | fabWidthCnt | fabLaneStat | fabLaneSymCnt
  | fabId | fabEpoch | fabSts | fabRouteDropCnt | fabPgenDropCnt | fabWireFlushCnt | fabWireSatCnt | fabEvtCfg
  | fabEpRoute | fabRoute | ateRingBase | ateRingBaseHi | ateRingCfg | ateRingHead | ateRingTail | ateRingLow
  | ateSts | ateEvtCfg | ateExhLast | ateExhCnt | ateWaitCnt | ateMismCnt | atePoolBase | atePoolBaseHi | ateSlot
  | ateSeqBase | ateSeqBaseHi | ateSeqCfg | ateWaitUs | ateLayout | rtrVarBase | rtrVarBaseHi | rtrVarSites
  | rtrSparseCnt | rtrVarMissCnt | trkCfg | trkStat | trkInit | trkHmax | trkStepmax | trkPremax | trkProd | trkElems
  | trkElemsHi | trkSh0 | trkSh1 | trkSh2 | trkSh3 | trkHist0 | trkHist1 | trkHist2 | trkHist3 | trkHist4 | trkHist5
  | trkHist6 | trkHist7 | trkHist8 | trkHist9 | trkHist10 | trkHist11 | trkHist12 | trkHist13 | trkHist14 | trkHist15
  | stepCmd | stepStat | stepNum | stepNumHi | stepEpoch | stepFault | stepCommit | stepOutcome | stepFitems
  | stepVote | stepBwl | stepGated | splWidened | splSeen | splEvtCfg | bwlSeed | bwlFree | sqBase | sqBaseHi | sqCfg
  | sqHead | sqTail | wrkGen | slotsStat | wrkSts | runahead | wideCnt | cqBase | cqBaseHi | cqCfg | cqHead | cqTail
  | cqFullCnt | wideMap | ateWlkStat | ateClSts | ateTag | ateSpillStat | atePageCnt | ateSkipCnt | ateMergeCnt
  | rtrStat | rtrSts | rtrTag | rtrRefuseCnt | rtrDropCnt | rtrBusyCnt | twnStat | twnSts | twnTag | twnTiles
  | twnResCnt | twnStallCnt | twnBusyCnt | hwsStat | hwsSts | hwsTag | hwsTiles | hwsResCnt | hwsSatCnt | hwsBusyCnt
  | splStat | splSts | splTag | splSkewCnt | splPreCnt | trnStat | trnSts | trnTag | trnFlushCnt | trnSatCnt
  | trnBusyCnt | cltSatCnt | cltUndelCnt | pskipCnt
  deriving DecidableEq, Repr

/-- One register (or one array of registers) of a block. -/
structure RegDef where
  name : Reg
  blk : Blk
  /-- present on ply dies -/
  ply : Bool
  /-- present on the hub -/
  hub : Bool
  /-- offset in the block, stride and number of elements -/
  off : Nat
  stride : Nat := 4
  count : Nat := 1
  /-- bits of each access class; the rest are RO or reserved -/
  rw : Nat := 0
  gw : Nat := 0
  wo : Nat := 0
  rc : Nat := 0
  /-- writable bits that apply Idle-only, and at a Boundary; the rest apply Live -/
  idle : Nat := 0
  bnd : Nat := 0
  /-- bits that the reset of the block's own domain keeps -/
  kept : Nat := 0
  /-- value after a cold boot (strap values are written at the cold boot itself) -/
  reset : Nat := 0
  /-- some bits are computed from the rest of the state -/
  view : Bool := false
  deriving DecidableEq, Repr

/-- Registers of the err block (14 R497). -/
def regsErr : List RegDef :=
  [ ⟨.errStat, .errB, true, true, 0x0, 0x4, 1, 0, 0, 0, 0, 0, 0, 0, 0, true⟩
  , ⟨.errSts, .errB, true, true, 0x4, 0x4, 1, 0, 0, 0, 0x1F, 0, 0, 0, 0, false⟩
  , ⟨.errHead, .errB, true, true, 0x8, 0x4, 1, 0, 0, 0, 0, 0, 0, 0, 0, true⟩
  , ⟨.errTail, .errB, true, true, 0xC, 0x4, 1, 0xFFFFFFFF, 0, 0, 0, 0, 0, 0xFFFFFFFF, 0, false⟩
  , ⟨.errLostCnt, .errB, true, true, 0x10, 0x4, 1, 0, 0, 0, 0xFFFFFFFF, 0, 0, 0xFFFFFFFF, 0, false⟩
  , ⟨.errEvtCfg, .errB, true, true, 0x14, 0x4, 1, 0x801F0003, 0, 0, 0, 0, 0, 0, 0x2, false⟩
  , ⟨.errStaleCnt, .errB, true, true, 0x18, 0x4, 1, 0, 0, 0, 0xFFFFFFFF, 0, 0, 0, 0, false⟩
  , ⟨.errClear, .errB, true, true, 0x1C, 0x4, 1, 0, 0xFFFFFFFF, 0, 0, 0, 0, 0, 0, true⟩
  , ⟨.errFidStat, .errB, true, true, 0x20, 0x4, 1, 0, 0, 0, 0, 0, 0, 0, 0, true⟩
  , ⟨.errFidQueue, .errB, true, true, 0x24, 0x4, 1, 0, 0, 0, 0, 0, 0, 0, 0, true⟩
  , ⟨.errGenUnit, .errB, true, false, 0x400, 0x4, 128, 0, 0, 0, 0, 0, 0, 0, 0, true⟩
  , ⟨.errGenCluster, .errB, true, false, 0x600, 0x4, 32, 0, 0, 0, 0, 0, 0, 0, 0, true⟩
  , ⟨.errGenRegion, .errB, true, false, 0x680, 0x4, 4, 0, 0, 0, 0, 0, 0, 0, 0, true⟩
  , ⟨.errGenDie, .errB, true, false, 0x690, 0x4, 1, 0, 0, 0, 0, 0, 0, 0, 0, true⟩
  , ⟨.errRec, .errB, true, true, 0x1000, 0x4, 2048, 0, 0, 0, 0, 0, 0, 0, 0, true⟩ ]

/-- Registers of the mgt block (02 R66 15 R501). -/
def regsMgt : List RegDef :=
  [ ⟨.mgtGuardLast, .mgtB, true, true, 0x810, 0x4, 1, 0, 0, 0, 0, 0, 0, 0, 0, false⟩
  , ⟨.mgtGuardInit, .mgtB, true, true, 0x814, 0x4, 1, 0, 0, 0, 0, 0, 0, 0, 0, false⟩
  , ⟨.mgtGuardCnt, .mgtB, true, true, 0x818, 0x4, 1, 0, 0, 0, 0xFFFFFFFF, 0, 0, 0, 0, false⟩
  , ⟨.mgtRefuseCnt, .mgtB, true, true, 0x820, 0x4, 1, 0, 0, 0, 0xFFFFFFFF, 0, 0, 0, 0, false⟩
  , ⟨.mgtRefuseLast, .mgtB, true, true, 0x824, 0x4, 1, 0, 0, 0, 0, 0, 0, 0, 0, false⟩
  , ⟨.mgtRefuseInit, .mgtB, true, true, 0x828, 0x4, 1, 0, 0, 0, 0, 0, 0, 0, 0, false⟩
  , ⟨.mgtStrap, .mgtB, false, true, 0x900, 0x4, 1, 0, 0, 0, 0, 0, 0, 0, 0, true⟩ ]

/-- Registers of the pwr block (16 R543 16 R544). -/
def regsPwr : List RegDef :=
  [ ⟨.pwrStat, .pwrB, false, true, 0x0, 0x4, 1, 0, 0, 0, 0, 0, 0, 0, 0, true⟩
  , ⟨.pwrSts, .pwrB, false, true, 0x4, 0x4, 1, 0, 0, 0, 0x1F, 0, 0, 0, 0, false⟩
  , ⟨.pwrClass, .pwrB, false, true, 0x8, 0x4, 1, 0, 0x7, 0, 0, 0, 0, 0, 0, false⟩
  , ⟨.pwrDraw, .pwrB, false, true, 0xC, 0x4, 1, 0, 0, 0, 0, 0, 0, 0, 0, true⟩
  , ⟨.pwrEvtCfg, .pwrB, false, true, 0x10, 0x4, 1, 0x801F0000, 0, 0, 0, 0, 0, 0, 0, false⟩
  , ⟨.pwrRampCfg, .pwrB, false, true, 0x14, 0x4, 1, 0x8000FFFF, 0, 0, 0, 0, 0, 0x80000000, 0x80000028, false⟩
  , ⟨.pwrTripCnt, .pwrB, false, true, 0x20, 0x4, 1, 0, 0, 0, 0xFFFFFFFF, 0, 0, 0, 0, false⟩
  , ⟨.pwrHeldCnt, .pwrB, false, true, 0x24, 0x4, 1, 0, 0, 0, 0xFFFFFFFF, 0, 0, 0, 0, false⟩
  , ⟨.pwrBreachCnt, .pwrB, false, true, 0x28, 0x4, 1, 0, 0, 0, 0xFFFFFFFF, 0, 0, 0, 0, false⟩
  , ⟨.pwrRamp, .pwrB, false, true, 0x100, 0x4, 128, 0xFFFFFFFF, 0, 0, 0, 0, 0, 0, 0, false⟩
  , ⟨.pwrRegFreq, .pwrB, true, false, 0x0, 0x4, 4, 0, 0, 0, 0, 0, 0, 0, 0, true⟩
  , ⟨.pwrRegCap, .pwrB, true, false, 0x10, 0x4, 4, 0xFFF, 0, 0, 0, 0, 0, 0xFFF, 0x834, false⟩
  , ⟨.pwrVf, .pwrB, true, false, 0x100, 0x4, 64, 0, 0, 0, 0, 0, 0, 0, 0, true⟩
  , ⟨.pwrTemp, .pwrB, true, false, 0x400, 0x4, 20, 0, 0, 0, 0, 0, 0, 0, 0, true⟩
  , ⟨.pwrHbmTemp, .pwrB, true, false, 0x480, 0x4, 4, 0, 0, 0, 0, 0, 0, 0, 0, true⟩
  , ⟨.pwrGateCnt, .pwrB, true, false, 0x500, 0x4, 4, 0, 0, 0, 0xFFFFFFFF, 0, 0, 0, 0, false⟩
  , ⟨.pwrThermCnt, .pwrB, true, false, 0x510, 0x4, 4, 0, 0, 0, 0xFFFFFFFF, 0, 0, 0, 0, false⟩
  , ⟨.pwrLimitCnt, .pwrB, true, false, 0x520, 0x4, 4, 0, 0, 0, 0xFFFFFFFF, 0, 0, 0, 0, false⟩
  , ⟨.pwrAge, .pwrB, true, false, 0x800, 0x4, 512, 0, 0, 0, 0, 0, 0, 0, 0, true⟩ ]

/-- Registers of the lay block (13 R453). -/
def regsLay : List RegDef :=
  [ ⟨.layNow, .layB, true, true, 0x0, 0x4, 2, 0, 0, 0, 0, 0, 0, 0, 0, true⟩
  , ⟨.layStat, .layB, true, true, 0x8, 0x4, 1, 0, 0, 0, 0, 0, 0, 0, 0, true⟩
  , ⟨.laySts, .layB, false, true, 0xC, 0x4, 1, 0, 0, 0, 0x7, 0, 0, 0, 0, false⟩
  , ⟨.layCfg, .layB, false, true, 0x10, 0x4, 1, 0x30001F1F, 0, 0, 0, 0, 0, 0, 0x1F1F, false⟩
  , ⟨.laySet, .layB, false, true, 0x14, 0x4, 1, 0, 0, 0xFFFFFFFF, 0, 0, 0, 0, 0, false⟩
  , ⟨.layErr, .layB, false, true, 0x18, 0x4, 1, 0, 0, 0, 0, 0, 0, 0, 0, true⟩
  , ⟨.layOffset, .layB, false, true, 0x1C, 0x4, 1, 0, 0, 0, 0, 0, 0, 0, 0, true⟩
  , ⟨.layLateCnt, .layB, true, false, 0x100, 0x8, 4, 0, 0, 0, 0xFFFFFFFF, 0, 0, 0, 0, false⟩
  , ⟨.layLateMax, .layB, true, false, 0x104, 0x8, 4, 0, 0, 0, 0xFFFFFFFF, 0, 0, 0, 0, false⟩ ]

/-- Registers of the mem block (12 R402). -/
def regsMem : List RegDef :=
  [ ⟨.memStat, .memB, true, false, 0x0, 0x4, 1, 0, 0, 0, 0, 0, 0, 0, 0, true⟩
  , ⟨.memSts, .memB, true, false, 0x4, 0x4, 1, 0, 0, 0, 0x1F, 0, 0, 0, 0, false⟩
  , ⟨.memMap, .memB, true, false, 0x8, 0x4, 1, 0x7F, 0, 0, 0, 0x7F, 0, 0x7F, 0x10, true⟩
  , ⟨.memScrubCfg, .memB, true, false, 0xC, 0x4, 1, 0x800000FF, 0, 0, 0, 0, 0, 0x800000FF, 0x80000018, false⟩
  , ⟨.memCeCnt, .memB, true, false, 0x10, 0x4, 1, 0, 0, 0, 0xFFFFFFFF, 0, 0, 0, 0, false⟩
  , ⟨.memUeCnt, .memB, true, false, 0x14, 0x4, 1, 0, 0, 0, 0xFFFFFFFF, 0, 0, 0, 0, false⟩
  , ⟨.memPoisonCnt, .memB, true, false, 0x18, 0x4, 1, 0, 0, 0, 0xFFFFFFFF, 0, 0, 0, 0, false⟩
  , ⟨.memSuppCnt, .memB, true, false, 0x1C, 0x4, 1, 0, 0, 0, 0xFFFFFFFF, 0, 0, 0, 0, false⟩
  , ⟨.memScrubPos, .memB, true, false, 0x20, 0x4, 2, 0, 0, 0, 0, 0, 0, 0, 0, true⟩
  , ⟨.memPin, .memB, true, false, 0x100, 0x4, 64, 0, 0, 0, 0, 0, 0, 0xFFFFFFFF, 0, false⟩ ]

/-- Registers of the memH block (12 R402). -/
def regsMemH : List RegDef :=
  [ ⟨.memFarPoisCnt, .memHB, false, true, 0x40, 0x8000, 2, 0, 0, 0, 0xFFFFFFFF, 0, 0, 0, 0, false⟩
  , ⟨.memFarDropCnt, .memHB, false, true, 0x44, 0x8000, 2, 0, 0, 0, 0xFFFFFFFF, 0, 0, 0, 0, false⟩
  , ⟨.memDrainStat, .memHB, false, true, 0x10000, 0x4, 1, 0, 0, 0, 0, 0, 0, 0, 0, true⟩
  , ⟨.memDrainPoisCnt, .memHB, false, true, 0x10004, 0x4, 1, 0, 0, 0, 0xFFFFFFFF, 0, 0, 0, 0, false⟩ ]

/-- Registers of the hal block (11 R368). -/
def regsHal : List RegDef :=
  [ ⟨.halStat, .halB, true, false, 0x0, 0x4, 1, 0, 0, 0, 0, 0, 0, 0, 0, false⟩
  , ⟨.halSts, .halB, true, false, 0x4, 0x4, 1, 0, 0, 0, 0x1F, 0, 0, 0, 0, false⟩
  , ⟨.halTag, .halB, true, false, 0x8, 0x4, 1, 0, 0, 0, 0, 0, 0, 0, 0, false⟩
  , ⟨.halSkipCnt, .halB, true, false, 0x10, 0x4, 1, 0, 0, 0, 0xFFFFFFFF, 0, 0, 0, 0, false⟩
  , ⟨.halRepairCnt, .halB, true, false, 0x14, 0x4, 1, 0, 0, 0, 0xFFFFFFFF, 0, 0, 0, 0, false⟩
  , ⟨.halNmCnt, .halB, true, false, 0x18, 0x4, 1, 0, 0, 0, 0xFFFFFFFF, 0, 0, 0, 0, false⟩
  , ⟨.halNmSatCnt, .halB, true, false, 0x1C, 0x4, 1, 0, 0, 0, 0xFFFFFFFF, 0, 0, 0, 0, false⟩
  , ⟨.halBusyCnt, .halB, true, false, 0x20, 0x4, 1, 0, 0, 0, 0xFFFFFFFF, 0, 0, 0, 0, false⟩
  , ⟨.halNsatCnt, .halB, true, false, 0x24, 0x4, 1, 0, 0, 0, 0xFFFFFFFF, 0, 0, 0, 0, false⟩
  , ⟨.halCfg, .halB, true, false, 0x40, 0x4, 1, 0xFFFF0F1F, 0, 0, 0, 0, 0xFFFF0F1F, 0xFFFF0F1F, 0x400104, false⟩
  , ⟨.halHp, .halB, true, false, 0x100, 0x4, 128, 0xFFFFFFFF, 0, 0, 0, 0, 0xFFFFFFFF, 0xFFFFFFFF, 0, false⟩ ]

/-- Registers of the clt block (03 R109). -/
def regsClt : List RegDef :=
  [ ⟨.cltVal, .cltB, true, true, 0x0, 0x4, 1, 0, 0, 0, 0, 0, 0, 0, 0, true⟩
  , ⟨.cltSig, .cltB, true, true, 0x4, 0x4, 1, 0, 0, 0xFFFFFFFF, 0, 0, 0, 0, 0, false⟩
  , ⟨.cltDec, .cltB, true, true, 0x8, 0x4, 1, 0, 0, 0xFFFFFFFF, 0, 0, 0, 0, 0, false⟩
  , ⟨.cltSet, .cltB, true, true, 0xC, 0x4, 1, 0, 0xFFFFFFFF, 0, 0, 0, 0, 0, 0, true⟩
  , ⟨.cltCfg, .cltB, true, true, 0x10, 0x4, 1, 0xF0003FFF, 0, 0, 0, 0, 0, 0, 0, false⟩
  , ⟨.cltStat, .cltB, true, true, 0x14, 0x4, 1, 0, 0, 0, 0, 0, 0, 0, 0, true⟩
  , ⟨.cltSts, .cltB, true, true, 0x18, 0x4, 1, 0, 0, 0, 0x7, 0, 0, 0, 0, false⟩
  , ⟨.cltArm, .cltB, true, true, 0x1C, 0x4, 1, 0, 0, 0xFFFFFFFF, 0, 0, 0, 0, 0, false⟩ ]

/-- Registers of the fab block (13 R452). -/
def regsFab : List RegDef :=
  [ ⟨.fabPortStat, .fabB, true, false, 0x0, 0x1000, 5, 0, 0, 0, 0, 0, 0, 0, 0, true⟩
  , ⟨.fabPortSts, .fabB, true, false, 0x4, 0x1000, 5, 0, 0, 0, 0x7, 0, 0, 0, 0, false⟩
  , ⟨.fabPortCfg, .fabB, true, false, 0x8, 0x1000, 5, 0x80000000, 0, 0x40000000, 0, 0, 0, 0x80000000, 0x80000000, false⟩
  , ⟨.fabPortNbr, .fabB, true, false, 0xC, 0x1000, 5, 0, 0, 0, 0, 0, 0, 0, 0, true⟩
  , ⟨.fabFecCwCnt, .fabB, true, false, 0x10, 0x1000, 5, 0, 0, 0, 0xFFFFFFFF, 0, 0, 0, 0, false⟩
  , ⟨.fabFecUcwCnt, .fabB, true, false, 0x14, 0x1000, 5, 0, 0, 0, 0xFFFFFFFF, 0, 0, 0, 0, false⟩
  , ⟨.fabReplayCnt, .fabB, true, false, 0x18, 0x1000, 5, 0, 0, 0, 0xFFFFFFFF, 0, 0, 0, 0, false⟩
  , ⟨.fabWidthCnt, .fabB, true, false, 0x1C, 0x1000, 5, 0, 0, 0, 0xFFFFFFFF, 0, 0, 0, 0, false⟩
  , ⟨.fabLaneStat, .fabB, true, false, 0x8000, 0x40, 36, 0, 0, 0, 0, 0, 0, 0, 0, true⟩
  , ⟨.fabLaneSymCnt, .fabB, true, false, 0x8004, 0x40, 36, 0, 0, 0, 0xFFFFFFFF, 0, 0, 0, 0, false⟩
  , ⟨.fabId, .fabB, true, false, 0x10000, 0x4, 1, 0, 0, 0, 0, 0, 0, 0, 0, true⟩
  , ⟨.fabEpoch, .fabB, true, false, 0x10004, 0x4, 1, 0, 0, 0, 0, 0, 0, 0, 0, true⟩
  , ⟨.fabSts, .fabB, true, false, 0x10008, 0x4, 1, 0, 0, 0, 0xF, 0, 0, 0, 0, false⟩
  , ⟨.fabRouteDropCnt, .fabB, true, false, 0x1000C, 0x4, 1, 0, 0, 0, 0xFFFFFFFF, 0, 0, 0, 0, false⟩
  , ⟨.fabPgenDropCnt, .fabB, true, false, 0x10010, 0x4, 1, 0, 0, 0, 0xFFFFFFFF, 0, 0, 0, 0, false⟩
  , ⟨.fabWireFlushCnt, .fabB, true, false, 0x10014, 0x4, 1, 0, 0, 0, 0xFFFFFFFF, 0, 0, 0, 0, false⟩
  , ⟨.fabWireSatCnt, .fabB, true, false, 0x10018, 0x4, 1, 0, 0, 0, 0xFFFFFFFF, 0, 0, 0, 0, false⟩
  , ⟨.fabEvtCfg, .fabB, true, false, 0x1001C, 0x4, 1, 0x801F0000, 0, 0, 0, 0, 0, 0, 0, false⟩
  , ⟨.fabEpRoute, .fabB, true, false, 0x18000, 0x4, 128, 0, 0, 0, 0, 0, 0, 0, 0, true⟩
  , ⟨.fabRoute, .fabB, true, false, 0x20000, 0x4, 32768, 0, 0, 0, 0, 0, 0, 0, 0, true⟩ ]

/-- Registers of the ateD block (10 R336). -/
def regsAteD : List RegDef :=
  [ ⟨.ateRingBase, .ateDB, true, false, 0x0, 0x4, 1, 0xFFFFF000, 0, 0, 0, 0xFFFFFFFF, 0, 0xFFFFFFFF, 0, false⟩
  , ⟨.ateRingBaseHi, .ateDB, true, false, 0x4, 0x4, 1, 0xFFFF, 0, 0, 0, 0xFFFFFFFF, 0, 0xFFFFFFFF, 0, false⟩
  , ⟨.ateRingCfg, .ateDB, true, false, 0x8, 0x4, 1, 0x8000001F, 0, 0, 0, 0x1F, 0, 0x8000001F, 0xA, false⟩
  , ⟨.ateRingHead, .ateDB, true, false, 0xC, 0x4, 1, 0, 0, 0, 0, 0, 0, 0xFFFFFFFF, 0, false⟩
  , ⟨.ateRingTail, .ateDB, true, false, 0x10, 0x4, 1, 0xFFFFFFFF, 0, 0, 0, 0, 0, 0xFFFFFFFF, 0, false⟩
  , ⟨.ateRingLow, .ateDB, true, false, 0x14, 0x4, 1, 0xFFFFFFFF, 0, 0, 0, 0, 0, 0xFFFFFFFF, 0, false⟩
  , ⟨.ateSts, .ateDB, true, false, 0x18, 0x4, 1, 0, 0, 0, 0xF, 0, 0, 0, 0, false⟩
  , ⟨.ateEvtCfg, .ateDB, true, false, 0x1C, 0x4, 1, 0x801F0000, 0, 0, 0, 0, 0, 0, 0, false⟩
  , ⟨.ateExhLast, .ateDB, true, false, 0x20, 0x4, 1, 0, 0, 0, 0, 0, 0, 0, 0, false⟩
  , ⟨.ateExhCnt, .ateDB, true, false, 0x24, 0x4, 1, 0, 0, 0, 0xFFFFFFFF, 0, 0, 0, 0, false⟩
  , ⟨.ateWaitCnt, .ateDB, true, false, 0x28, 0x4, 1, 0, 0, 0, 0xFFFFFFFF, 0, 0, 0, 0, false⟩
  , ⟨.ateMismCnt, .ateDB, true, false, 0x2C, 0x4, 1, 0, 0, 0, 0xFFFFFFFF, 0, 0, 0, 0, false⟩
  , ⟨.atePoolBase, .ateDB, true, false, 0x30, 0x4, 1, 0xFFFC0000, 0, 0, 0, 0xFFFFFFFF, 0, 0xFFFFFFFF, 0, false⟩
  , ⟨.atePoolBaseHi, .ateDB, true, false, 0x34, 0x4, 1, 0xFFFF, 0, 0, 0, 0xFFFFFFFF, 0, 0xFFFFFFFF, 0, false⟩
  , ⟨.ateSlot, .ateDB, true, false, 0x38, 0x4, 1, 0x3, 0, 0, 0, 0x3, 0, 0x3, 0x2, false⟩
  , ⟨.ateSeqBase, .ateDB, true, false, 0x40, 0x4, 1, 0xFFFFFFE0, 0, 0, 0, 0xFFFFFFFF, 0, 0xFFFFFFFF, 0, false⟩
  , ⟨.ateSeqBaseHi, .ateDB, true, false, 0x44, 0x4, 1, 0xFFFF, 0, 0, 0, 0xFFFFFFFF, 0, 0xFFFFFFFF, 0, false⟩
  , ⟨.ateSeqCfg, .ateDB, true, false, 0x48, 0x4, 1, 0x1FFF, 0, 0, 0, 0xFFFFFFFF, 0, 0x1FFF, 0, false⟩
  , ⟨.ateWaitUs, .ateDB, true, false, 0x4C, 0x4, 1, 0xFFFFFFFF, 0, 0, 0, 0, 0, 0xFFFFFFFF, 0x7D0, false⟩
  , ⟨.ateLayout, .ateDB, true, false, 0x100, 0x4, 128, 0xFFFFFFFF, 0, 0, 0, 0xFFFFFFFF, 0, 0xFFFFFFFF, 0, false⟩ ]

/-- Registers of the rtrD block (09 R298). -/
def regsRtrD : List RegDef :=
  [ ⟨.rtrVarBase, .rtrDB, true, false, 0x0, 0x4, 1, 0xFFFFFFE0, 0, 0, 0, 0xFFFFFFFF, 0, 0xFFFFFFFF, 0, false⟩
  , ⟨.rtrVarBaseHi, .rtrDB, true, false, 0x4, 0x4, 1, 0xFFFF, 0, 0, 0, 0xFFFFFFFF, 0, 0xFFFFFFFF, 0, false⟩
  , ⟨.rtrVarSites, .rtrDB, true, false, 0x8, 0x4, 1, 0x1FFF, 0, 0, 0, 0xFFFFFFFF, 0, 0x1FFF, 0, false⟩
  , ⟨.rtrSparseCnt, .rtrDB, true, false, 0xC, 0x4, 1, 0, 0, 0, 0xFFFFFFFF, 0, 0, 0, 0, false⟩
  , ⟨.rtrVarMissCnt, .rtrDB, true, false, 0x10, 0x4, 1, 0, 0, 0, 0xFFFFFFFF, 0, 0, 0, 0, false⟩ ]

/-- Registers of the trk block (07 R220). -/
def regsTrk : List RegDef :=
  [ ⟨.trkCfg, .trkB, true, false, 0x0, 0x80, 4096, 0x81FF0000, 0, 0, 0, 0x81FF0000, 0, 0, 0xF0000, false⟩
  , ⟨.trkStat, .trkB, true, false, 0x4, 0x80, 4096, 0, 0, 0, 0, 0, 0, 0, 0, true⟩
  , ⟨.trkInit, .trkB, true, false, 0x8, 0x80, 4096, 0xFFFFFFFF, 0, 0, 0, 0xFFFFFFFF, 0, 0, 0, false⟩
  , ⟨.trkHmax, .trkB, true, false, 0xC, 0x80, 4096, 0, 0, 0, 0, 0, 0, 0, 0, true⟩
  , ⟨.trkStepmax, .trkB, true, false, 0x10, 0x80, 4096, 0, 0, 0, 0, 0, 0, 0, 0, true⟩
  , ⟨.trkPremax, .trkB, true, false, 0x14, 0x80, 4096, 0, 0, 0, 0, 0, 0, 0, 0, true⟩
  , ⟨.trkProd, .trkB, true, false, 0x18, 0x80, 4096, 0, 0, 0, 0, 0, 0, 0, 0, true⟩
  , ⟨.trkElems, .trkB, true, false, 0x20, 0x80, 4096, 0, 0, 0, 0, 0, 0, 0, 0, true⟩
  , ⟨.trkElemsHi, .trkB, true, false, 0x24, 0x80, 4096, 0, 0, 0, 0, 0, 0, 0, 0, true⟩
  , ⟨.trkSh0, .trkB, true, false, 0x28, 0x80, 4096, 0, 0, 0, 0, 0, 0, 0, 0, true⟩
  , ⟨.trkSh1, .trkB, true, false, 0x2C, 0x80, 4096, 0, 0, 0, 0, 0, 0, 0, 0, true⟩
  , ⟨.trkSh2, .trkB, true, false, 0x30, 0x80, 4096, 0, 0, 0, 0, 0, 0, 0, 0, true⟩
  , ⟨.trkSh3, .trkB, true, false, 0x34, 0x80, 4096, 0, 0, 0, 0, 0, 0, 0, 0, true⟩
  , ⟨.trkHist0, .trkB, true, false, 0x40, 0x80, 4096, 0, 0, 0, 0, 0, 0, 0, 0, true⟩
  , ⟨.trkHist1, .trkB, true, false, 0x44, 0x80, 4096, 0, 0, 0, 0, 0, 0, 0, 0, true⟩
  , ⟨.trkHist2, .trkB, true, false, 0x48, 0x80, 4096, 0, 0, 0, 0, 0, 0, 0, 0, true⟩
  , ⟨.trkHist3, .trkB, true, false, 0x4C, 0x80, 4096, 0, 0, 0, 0, 0, 0, 0, 0, true⟩
  , ⟨.trkHist4, .trkB, true, false, 0x50, 0x80, 4096, 0, 0, 0, 0, 0, 0, 0, 0, true⟩
  , ⟨.trkHist5, .trkB, true, false, 0x54, 0x80, 4096, 0, 0, 0, 0, 0, 0, 0, 0, true⟩
  , ⟨.trkHist6, .trkB, true, false, 0x58, 0x80, 4096, 0, 0, 0, 0, 0, 0, 0, 0, true⟩
  , ⟨.trkHist7, .trkB, true, false, 0x5C, 0x80, 4096, 0, 0, 0, 0, 0, 0, 0, 0, true⟩
  , ⟨.trkHist8, .trkB, true, false, 0x60, 0x80, 4096, 0, 0, 0, 0, 0, 0, 0, 0, true⟩
  , ⟨.trkHist9, .trkB, true, false, 0x64, 0x80, 4096, 0, 0, 0, 0, 0, 0, 0, 0, true⟩
  , ⟨.trkHist10, .trkB, true, false, 0x68, 0x80, 4096, 0, 0, 0, 0, 0, 0, 0, 0, true⟩
  , ⟨.trkHist11, .trkB, true, false, 0x6C, 0x80, 4096, 0, 0, 0, 0, 0, 0, 0, 0, true⟩
  , ⟨.trkHist12, .trkB, true, false, 0x70, 0x80, 4096, 0, 0, 0, 0, 0, 0, 0, 0, true⟩
  , ⟨.trkHist13, .trkB, true, false, 0x74, 0x80, 4096, 0, 0, 0, 0, 0, 0, 0, 0, true⟩
  , ⟨.trkHist14, .trkB, true, false, 0x78, 0x80, 4096, 0, 0, 0, 0, 0, 0, 0, 0, true⟩
  , ⟨.trkHist15, .trkB, true, false, 0x7C, 0x80, 4096, 0, 0, 0, 0, 0, 0, 0, 0, true⟩ ]

/-- Registers of the step block (07 R236 08 R264). -/
def regsStep : List RegDef :=
  [ ⟨.stepCmd, .stepB, false, true, 0x0, 0x100, 16, 0, 0xFFFFFFFF, 0, 0, 0, 0, 0, 0, true⟩
  , ⟨.stepStat, .stepB, false, true, 0x4, 0x100, 16, 0, 0, 0, 0, 0, 0, 0, 0, true⟩
  , ⟨.stepNum, .stepB, false, true, 0x8, 0x100, 16, 0xFFFFFFFF, 0, 0, 0, 0xFFFFFFFF, 0, 0, 0, false⟩
  , ⟨.stepNumHi, .stepB, false, true, 0xC, 0x100, 16, 0xFFFFFFFF, 0, 0, 0, 0xFFFFFFFF, 0, 0, 0, false⟩
  , ⟨.stepEpoch, .stepB, false, true, 0x10, 0x100, 16, 0xFFFFFFFF, 0, 0, 0, 0xFFFFFFFF, 0, 0, 0, false⟩
  , ⟨.stepFault, .stepB, false, true, 0x14, 0x100, 16, 0, 0, 0, 0, 0, 0, 0, 0, true⟩
  , ⟨.stepCommit, .stepB, false, true, 0x18, 0x100, 16, 0xF0003FFF, 0, 0, 0, 0xFFFFFFFF, 0, 0, 0, false⟩
  , ⟨.stepOutcome, .stepB, false, true, 0x1C, 0x100, 16, 0xF0003FFF, 0, 0, 0, 0xFFFFFFFF, 0, 0, 0, false⟩
  , ⟨.stepFitems, .stepB, false, true, 0x20, 0x100, 16, 0, 0, 0, 0, 0, 0, 0, 0, true⟩
  , ⟨.stepVote, .stepB, false, true, 0x24, 0x100, 16, 0, 0, 0, 0, 0, 0, 0, 0, true⟩
  , ⟨.stepBwl, .stepB, false, true, 0x28, 0x100, 16, 0xFFFFFFFF, 0, 0, 0, 0xFFFFFFFF, 0, 0, 0, false⟩
  , ⟨.stepGated, .stepB, false, true, 0x2C, 0x100, 16, 0, 0, 0, 0, 0, 0, 0, 0, true⟩
  , ⟨.splWidened, .stepB, false, true, 0x1000, 0x4, 128, 0, 0, 0, 0, 0, 0, 0, 0, true⟩
  , ⟨.splSeen, .stepB, false, true, 0x1200, 0x4, 128, 0, 0, 0, 0xFFFFFFFF, 0, 0, 0, 0, false⟩
  , ⟨.splEvtCfg, .stepB, false, true, 0x1400, 0x4, 1, 0x801F0000, 0, 0, 0, 0, 0, 0, 0, false⟩
  , ⟨.bwlSeed, .stepB, false, true, 0x1500, 0x4, 2, 0, 0xFFFFFFFF, 0, 0, 0xFFFFFFFF, 0, 0, 0, false⟩
  , ⟨.bwlFree, .stepB, false, true, 0x1508, 0x4, 1, 0xFFFFFFFF, 0, 0, 0, 0, 0, 0, 0, false⟩ ]

/-- Registers of the wrk block (03 R91 06 R211). -/
def regsWrk : List RegDef :=
  [ ⟨.sqBase, .wrkB, true, false, 0x0, 0x4, 1, 0xFFFFF000, 0, 0, 0, 0xFFFFFFFF, 0, 0xFFFFFFFF, 0, false⟩
  , ⟨.sqBaseHi, .wrkB, true, false, 0x4, 0x4, 1, 0xFFFF, 0, 0, 0, 0xFFFFFFFF, 0, 0xFFFFFFFF, 0, false⟩
  , ⟨.sqCfg, .wrkB, true, false, 0x8, 0x4, 1, 0x8000000F, 0, 0, 0, 0xF, 0, 0x8000000F, 0x6, false⟩
  , ⟨.sqHead, .wrkB, true, false, 0xC, 0x4, 1, 0, 0, 0, 0, 0, 0, 0xFFFFFFFF, 0, false⟩
  , ⟨.sqTail, .wrkB, true, false, 0x10, 0x4, 1, 0xFFFFFFFF, 0, 0, 0, 0, 0, 0xFFFFFFFF, 0, false⟩
  , ⟨.wrkGen, .wrkB, true, false, 0x14, 0x4, 1, 0, 0, 0, 0, 0, 0, 0, 0, true⟩
  , ⟨.slotsStat, .wrkB, true, false, 0x18, 0x4, 1, 0, 0, 0, 0, 0, 0, 0, 0, true⟩
  , ⟨.wrkSts, .wrkB, true, false, 0x1C, 0x4, 1, 0, 0, 0, 0x1F, 0, 0, 0, 0, false⟩
  , ⟨.runahead, .wrkB, true, false, 0x20, 0x4, 1, 0x7F, 0, 0, 0, 0, 0x7F, 0x7F, 0x40, false⟩
  , ⟨.wideCnt, .wrkB, true, false, 0x24, 0x4, 1, 0, 0, 0, 0xFFFFFFFF, 0, 0, 0, 0, false⟩
  , ⟨.cqBase, .wrkB, true, false, 0x100, 0x20, 8, 0xFFFFF000, 0, 0, 0, 0xFFFFFFFF, 0, 0xFFFFFFFF, 0, false⟩
  , ⟨.cqBaseHi, .wrkB, true, false, 0x104, 0x20, 8, 0xFFFF, 0, 0, 0, 0xFFFFFFFF, 0, 0xFFFFFFFF, 0, false⟩
  , ⟨.cqCfg, .wrkB, true, false, 0x108, 0x20, 8, 0x801F010F, 0, 0, 0, 0xF, 0, 0x801F010F, 0x6, false⟩
  , ⟨.cqHead, .wrkB, true, false, 0x10C, 0x20, 8, 0xFFFFFFFF, 0, 0, 0, 0, 0, 0xFFFFFFFF, 0, false⟩
  , ⟨.cqTail, .wrkB, true, false, 0x110, 0x20, 8, 0, 0, 0, 0, 0, 0, 0xFFFFFFFF, 0, false⟩
  , ⟨.cqFullCnt, .wrkB, true, false, 0x114, 0x20, 8, 0, 0, 0, 0xFFFFFFFF, 0, 0, 0, 0, false⟩
  , ⟨.wideMap, .wrkB, true, false, 0x400, 0x4, 128, 0xFFFFFFFF, 0, 0, 0, 0, 0, 0xFFFFFFFF, 0, false⟩ ]

/-- Registers of the ateC block (10 R337). -/
def regsAteC : List RegDef :=
  [ ⟨.ateWlkStat, .ateCB, true, false, 0x0, 0x4, 1, 0, 0, 0, 0, 0, 0, 0, 0, false⟩
  , ⟨.ateClSts, .ateCB, true, false, 0x4, 0x4, 1, 0, 0, 0, 0x7, 0, 0, 0, 0, false⟩
  , ⟨.ateTag, .ateCB, true, false, 0x8, 0x4, 1, 0, 0, 0, 0, 0, 0, 0, 0, false⟩
  , ⟨.ateSpillStat, .ateCB, true, false, 0xC, 0x4, 1, 0, 0, 0, 0, 0, 0, 0, 0, true⟩
  , ⟨.atePageCnt, .ateCB, true, false, 0x10, 0x4, 1, 0, 0, 0, 0xFFFFFFFF, 0, 0, 0, 0, false⟩
  , ⟨.ateSkipCnt, .ateCB, true, false, 0x14, 0x4, 1, 0, 0, 0, 0xFFFFFFFF, 0, 0, 0, 0, false⟩
  , ⟨.ateMergeCnt, .ateCB, true, false, 0x18, 0x4, 1, 0, 0, 0, 0xFFFFFFFF, 0, 0, 0, 0, false⟩ ]

/-- Registers of the rtrC block (09 R297). -/
def regsRtrC : List RegDef :=
  [ ⟨.rtrStat, .rtrCB, true, false, 0x0, 0x4, 1, 0, 0, 0, 0, 0, 0, 0, 0, false⟩
  , ⟨.rtrSts, .rtrCB, true, false, 0x4, 0x4, 1, 0, 0, 0, 0x7, 0, 0, 0, 0, false⟩
  , ⟨.rtrTag, .rtrCB, true, false, 0x8, 0x4, 1, 0, 0, 0, 0, 0, 0, 0, 0, false⟩
  , ⟨.rtrRefuseCnt, .rtrCB, true, false, 0xC, 0x4, 1, 0, 0, 0, 0xFFFFFFFF, 0, 0, 0, 0, false⟩
  , ⟨.rtrDropCnt, .rtrCB, true, false, 0x10, 0x4, 1, 0, 0, 0, 0xFFFFFFFF, 0, 0, 0, 0, false⟩
  , ⟨.rtrBusyCnt, .rtrCB, true, false, 0x14, 0x4, 1, 0, 0, 0, 0xFFFFFFFF, 0, 0, 0, 0, false⟩ ]

/-- Registers of the twn block (05 R185). -/
def regsTwn : List RegDef :=
  [ ⟨.twnStat, .twnB, true, false, 0x0, 0x4, 1, 0, 0, 0, 0, 0, 0, 0, 0, false⟩
  , ⟨.twnSts, .twnB, true, false, 0x4, 0x4, 1, 0, 0, 0, 0x7, 0, 0, 0, 0, false⟩
  , ⟨.twnTag, .twnB, true, false, 0x8, 0x4, 1, 0, 0, 0, 0, 0, 0, 0, 0, false⟩
  , ⟨.twnTiles, .twnB, true, false, 0xC, 0x4, 1, 0, 0, 0, 0, 0, 0, 0, 0, false⟩
  , ⟨.twnResCnt, .twnB, true, false, 0x10, 0x4, 1, 0, 0, 0, 0xFFFFFFFF, 0, 0, 0, 0, false⟩
  , ⟨.twnStallCnt, .twnB, true, false, 0x14, 0x4, 1, 0, 0, 0, 0xFFFFFFFF, 0, 0, 0, 0, false⟩
  , ⟨.twnBusyCnt, .twnB, true, false, 0x18, 0x4, 1, 0, 0, 0, 0xFFFFFFFF, 0, 0, 0, 0, false⟩ ]

/-- Registers of the hws block (06 R209). -/
def regsHws : List RegDef :=
  [ ⟨.hwsStat, .hwsB, true, false, 0x0, 0x4, 1, 0, 0, 0, 0, 0, 0, 0, 0, false⟩
  , ⟨.hwsSts, .hwsB, true, false, 0x4, 0x4, 1, 0, 0, 0, 0x7, 0, 0, 0, 0, false⟩
  , ⟨.hwsTag, .hwsB, true, false, 0x8, 0x4, 1, 0, 0, 0, 0, 0, 0, 0, 0, false⟩
  , ⟨.hwsTiles, .hwsB, true, false, 0xC, 0x4, 1, 0, 0, 0, 0, 0, 0, 0, 0, false⟩
  , ⟨.hwsResCnt, .hwsB, true, false, 0x10, 0x4, 1, 0, 0, 0, 0xFFFFFFFF, 0, 0, 0, 0, false⟩
  , ⟨.hwsSatCnt, .hwsB, true, false, 0x14, 0x4, 1, 0, 0, 0, 0xFFFFFFFF, 0, 0, 0, 0, false⟩
  , ⟨.hwsBusyCnt, .hwsB, true, false, 0x18, 0x4, 1, 0, 0, 0, 0xFFFFFFFF, 0, 0, 0, 0, false⟩ ]

/-- Registers of the spl block (07 R221). -/
def regsSpl : List RegDef :=
  [ ⟨.splStat, .splB, true, false, 0x0, 0x4, 1, 0, 0, 0, 0, 0, 0, 0, 0xFFFF, false⟩
  , ⟨.splSts, .splB, true, false, 0x4, 0x4, 1, 0, 0, 0, 0xF, 0, 0, 0, 0, false⟩
  , ⟨.splTag, .splB, true, false, 0x8, 0x4, 1, 0, 0, 0, 0, 0, 0, 0, 0, false⟩
  , ⟨.splSkewCnt, .splB, true, false, 0xC, 0x4, 1, 0, 0, 0, 0xFFFFFFFF, 0, 0, 0, 0, false⟩
  , ⟨.splPreCnt, .splB, true, false, 0x10, 0x4, 1, 0, 0, 0, 0xFFFFFFFF, 0, 0, 0, 0, false⟩ ]

/-- Registers of the trn block (06 R210). -/
def regsTrn : List RegDef :=
  [ ⟨.trnStat, .trnB, true, false, 0x0, 0x4, 1, 0, 0, 0, 0, 0, 0, 0, 0, false⟩
  , ⟨.trnSts, .trnB, true, false, 0x4, 0x4, 1, 0, 0, 0, 0x3, 0, 0, 0, 0, false⟩
  , ⟨.trnTag, .trnB, true, false, 0x8, 0x4, 1, 0, 0, 0, 0, 0, 0, 0, 0, false⟩
  , ⟨.trnFlushCnt, .trnB, true, false, 0xC, 0x4, 1, 0, 0, 0, 0xFFFFFFFF, 0, 0, 0, 0, false⟩
  , ⟨.trnSatCnt, .trnB, true, false, 0x10, 0x4, 1, 0, 0, 0, 0xFFFFFFFF, 0, 0, 0, 0, false⟩
  , ⟨.trnBusyCnt, .trnB, true, false, 0x14, 0x4, 1, 0, 0, 0, 0xFFFFFFFF, 0, 0, 0, 0, false⟩ ]

/-- Registers of the hidD block (03 R100, R111: home of 0x4021; the spec gives no address 03 R100, R111: home of 0x4022). -/
def regsHidD : List RegDef :=
  [ ⟨.cltSatCnt, .hidDB, true, true, 0x0, 0x4, 1, 0, 0, 0, 0xFFFFFFFF, 0, 0, 0xFFFFFFFF, 0, false⟩
  , ⟨.cltUndelCnt, .hidDB, true, true, 0x4, 0x4, 1, 0, 0, 0, 0xFFFFFFFF, 0, 0, 0xFFFFFFFF, 0, false⟩ ]

/-- Registers of the hidR block (03 R100: home of 0x4023). -/
def regsHidR : List RegDef :=
  [ ⟨.pskipCnt, .hidRB, true, false, 0x0, 0x4, 1, 0, 0, 0, 0xFFFFFFFF, 0, 0, 0, 0, false⟩ ]

/-- The registers of a block. -/
def blkRegs : Blk → List RegDef
  | .errB => regsErr
  | .mgtB => regsMgt
  | .pwrB => regsPwr
  | .layB => regsLay
  | .memB => regsMem
  | .memHB => regsMemH
  | .halB => regsHal
  | .cltB => regsClt
  | .fabB => regsFab
  | .ateDB => regsAteD
  | .rtrDB => regsRtrD
  | .trkB => regsTrk
  | .stepB => regsStep
  | .wrkB => regsWrk
  | .ateCB => regsAteC
  | .rtrCB => regsRtrC
  | .twnB => regsTwn
  | .hwsB => regsHws
  | .splB => regsSpl
  | .trnB => regsTrn
  | .hidDB => regsHidD
  | .hidRB => regsHidR

/-- Which block a register lies in. -/
def regBlk : Reg → Blk
  | .errStat | .errSts | .errHead | .errTail | .errLostCnt | .errEvtCfg | .errStaleCnt | .errClear
  | .errFidStat | .errFidQueue | .errGenUnit | .errGenCluster | .errGenRegion | .errGenDie | .errRec => .errB
  | .mgtGuardLast | .mgtGuardInit | .mgtGuardCnt | .mgtRefuseCnt | .mgtRefuseLast | .mgtRefuseInit | .mgtStrap => .mgtB
  | .pwrStat | .pwrSts | .pwrClass | .pwrDraw | .pwrEvtCfg | .pwrRampCfg | .pwrTripCnt | .pwrHeldCnt
  | .pwrBreachCnt | .pwrRamp | .pwrRegFreq | .pwrRegCap | .pwrVf | .pwrTemp | .pwrHbmTemp | .pwrGateCnt
  | .pwrThermCnt | .pwrLimitCnt | .pwrAge => .pwrB
  | .layNow | .layStat | .laySts | .layCfg | .laySet | .layErr | .layOffset | .layLateCnt | .layLateMax => .layB
  | .memStat | .memSts | .memMap | .memScrubCfg | .memCeCnt | .memUeCnt | .memPoisonCnt | .memSuppCnt
  | .memScrubPos | .memPin => .memB
  | .memFarPoisCnt | .memFarDropCnt | .memDrainStat | .memDrainPoisCnt => .memHB
  | .halStat | .halSts | .halTag | .halSkipCnt | .halRepairCnt | .halNmCnt | .halNmSatCnt | .halBusyCnt
  | .halNsatCnt | .halCfg | .halHp => .halB
  | .cltVal | .cltSig | .cltDec | .cltSet | .cltCfg | .cltStat | .cltSts | .cltArm => .cltB
  | .fabPortStat | .fabPortSts | .fabPortCfg | .fabPortNbr | .fabFecCwCnt | .fabFecUcwCnt | .fabReplayCnt
  | .fabWidthCnt | .fabLaneStat | .fabLaneSymCnt | .fabId | .fabEpoch | .fabSts | .fabRouteDropCnt
  | .fabPgenDropCnt | .fabWireFlushCnt | .fabWireSatCnt | .fabEvtCfg | .fabEpRoute | .fabRoute => .fabB
  | .ateRingBase | .ateRingBaseHi | .ateRingCfg | .ateRingHead | .ateRingTail | .ateRingLow | .ateSts
  | .ateEvtCfg | .ateExhLast | .ateExhCnt | .ateWaitCnt | .ateMismCnt | .atePoolBase | .atePoolBaseHi
  | .ateSlot | .ateSeqBase | .ateSeqBaseHi | .ateSeqCfg | .ateWaitUs | .ateLayout => .ateDB
  | .rtrVarBase | .rtrVarBaseHi | .rtrVarSites | .rtrSparseCnt | .rtrVarMissCnt => .rtrDB
  | .trkCfg | .trkStat | .trkInit | .trkHmax | .trkStepmax | .trkPremax | .trkProd | .trkElems | .trkElemsHi
  | .trkSh0 | .trkSh1 | .trkSh2 | .trkSh3 | .trkHist0 | .trkHist1 | .trkHist2 | .trkHist3 | .trkHist4
  | .trkHist5 | .trkHist6 | .trkHist7 | .trkHist8 | .trkHist9 | .trkHist10 | .trkHist11 | .trkHist12
  | .trkHist13 | .trkHist14 | .trkHist15 => .trkB
  | .stepCmd | .stepStat | .stepNum | .stepNumHi | .stepEpoch | .stepFault | .stepCommit | .stepOutcome
  | .stepFitems | .stepVote | .stepBwl | .stepGated | .splWidened | .splSeen | .splEvtCfg | .bwlSeed | .bwlFree => .stepB
  | .sqBase | .sqBaseHi | .sqCfg | .sqHead | .sqTail | .wrkGen | .slotsStat | .wrkSts | .runahead | .wideCnt
  | .cqBase | .cqBaseHi | .cqCfg | .cqHead | .cqTail | .cqFullCnt | .wideMap => .wrkB
  | .ateWlkStat | .ateClSts | .ateTag | .ateSpillStat | .atePageCnt | .ateSkipCnt | .ateMergeCnt => .ateCB
  | .rtrStat | .rtrSts | .rtrTag | .rtrRefuseCnt | .rtrDropCnt | .rtrBusyCnt => .rtrCB
  | .twnStat | .twnSts | .twnTag | .twnTiles | .twnResCnt | .twnStallCnt | .twnBusyCnt => .twnB
  | .hwsStat | .hwsSts | .hwsTag | .hwsTiles | .hwsResCnt | .hwsSatCnt | .hwsBusyCnt => .hwsB
  | .splStat | .splSts | .splTag | .splSkewCnt | .splPreCnt => .splB
  | .trnStat | .trnSts | .trnTag | .trnFlushCnt | .trnSatCnt | .trnBusyCnt => .trnB
  | .cltSatCnt | .cltUndelCnt => .hidDB
  | .pskipCnt => .hidRB

/-- The definition of a register. -/
def regDef (r : Reg) : RegDef :=
  ((blkRegs (regBlk r)).find? (fun d => d.name == r)).getD ⟨r, regBlk r, false, false, 0, 4, 0, 0, 0, 0, 0, 0, 0, 0, 0, false⟩

/-- The bits of array element `e` that are not reserved where the elements of a register differ: word +0x1C of a hyperparameter set
(11 R368), and the reserved bits of a layout record (10 R300). -/
def elMask (r : Reg) (e : Nat) : Nat :=
  match r, e % 8 with
  | .halHp, 7 => 0
  | .ateLayout, 0 => 0xFCFFFFFF
  | .ateLayout, 3 => 0xFFFF
  | .ateLayout, 5 => 0xFFFF
  | .ateLayout, 6 => 0
  | .ateLayout, 7 => 0
  | _, _ => 0xFFFFFFFF

end Sys2Proof.Machine
end

