-- ==== Sys2Proof/Machine/DictTable.lean ====
section
/-! DEFINITION. Every entry of the parameter dictionary: index and subindex ranges, type, access, default, range, apply
class and home (02 R28 to R32, R40, R77, R78; 00 R2; 03 R100; 05 R186; 06 R212; 07 R249; 08 R265; 09 R299; 10 R338; 11 R369;
12 R403; 13 R454; 14 R498; 15 R511, R522; 16 R545; 17 R553, R555). -/

namespace Sys2Proof.Machine

/-- Entry types (02 R29). -/
inductive DTy where
  | u8 | u16 | u32 | u64 | i32 | f32 | bool | str | blob | wide
  deriving DecidableEq, Repr

/-- Type codes (02 R29). -/
def DTy.code : DTy → Nat
  | .u8 => 1 | .u16 => 2 | .u32 => 3 | .u64 => 4 | .i32 => 5 | .f32 => 6 | .bool => 7 | .str => 8 | .blob => 9 | .wide => 10

/-- Access rights (00, writing conventions). -/
inductive Acc where
  | ro | rw | wo | rc | gw
  deriving DecidableEq, Repr

/-- Apply classes (02 R73 to R76); `na` for entries that cannot be written. -/
inductive Apply where
  | na | live | bnd | idle
  deriving DecidableEq, Repr

/-- Legal ranges of writable entries. -/
inductive Rng where
  /-- every value of the type -/
  | any
  | nat (lo hi : Nat)
  /-- two's complement, from −m to m -/
  | int32 (m : Nat)
  | bool
  /-- an FP32 value between two FP32 codes, both non-negative -/
  | f32 (lo hi : Nat)
  /-- multiples of m below 2^48 -/
  | mult (m : Nat)
  | slotKib | layout | ringLow | portList | snarlWindow | resetReq | powerClass | rampEntry | cleatWord | tCtrl | tCrit | freqCap
  | widenSteps | widenMax | pkgId | localGib | fwOffset
  deriving DecidableEq, Repr

/-- How the subindex names instances (02 R31, R32): `plain` entries have no instances; `table` entries (per unit, per
layer, per package, chunked) have instances up to subindex 0xFF or beyond one index, and no broadcast. -/
inductive Scheme where
  | plain | die | ply | region | stack | cluster | inst | table
  deriving DecidableEq, Repr

/-- Where an entry's value is held: by the management controller, in the rest of the state (`view`), or in a field of the
registers named. -/
inductive Home where
  | mc | view
  /-- bits from `lo`, `w` of them, of the die's register -/
  | die (r : Reg) (lo w : Nat)
  | region (r : Reg) (lo w : Nat)
  | regionLay (r : Reg)
  | regionPwr (r : Reg) (lo w : Nat)
  | stack (r : Reg) (lo w : Nat)
  | cluster (r : Reg)
  | unit (r : Reg)
  | everyPly (r : Reg) (lo w : Nat)
  | everyPly64 (r hi : Reg)
  | everyPlyBlob (r : Reg)
  | everyCtrl (r : Reg) (lo w : Nat)
  | hp
  | wide
  | hub (r : Reg) (lo w : Nat)
  | hub64 (r : Reg)
  | hubPair (r : Reg)
  | hubBlob (r : Reg)
  | root (r : Reg)
  | slot (r : Reg)
  | port (r : Reg) (lo w : Nat)
  | portBits (r : Reg) (b : Nat)
  | cqSum
  deriving DecidableEq, Repr

/-- One row of the dictionary. -/
structure DEntry where
  /-- first index and number of consecutive indexes -/
  idx : Nat
  idxN : Nat
  /-- first subindex and number of subindexes -/
  sub : Nat
  subN : Nat
  ty : DTy
  /-- length in bytes; 0 for the STR entry, whose length is carried -/
  len : Nat
  acc : Acc
  /-- default (02 R35); strap-set defaults are written at the cold boot -/
  dflt : Nat
  rng : Rng
  apply : Apply
  home : Home
  scheme : Scheme
  deriving DecidableEq, Repr

/-- Entries 0x1___. -/
def dict1a : List DEntry :=
  [ ⟨0x1000, 1, 0, 1, .u32, 4, .ro, 0x10000, .any, .na, .mc, .plain⟩ -- DICT_REVISION
  , ⟨0x1001, 1, 0, 1, .str, 0, .ro, 0, .any, .na, .view, .plain⟩ -- PART_NUMBER
  , ⟨0x1001, 1, 1, 1, .u64, 8, .ro, 0, .any, .na, .view, .plain⟩ -- HBM_CAPACITY
  , ⟨0x1002, 1, 0, 1, .u64, 8, .ro, 0, .any, .na, .view, .plain⟩ -- SERIAL
  , ⟨0x1003, 1, 0, 1, .u16, 2, .ro, 0x9, .any, .na, .mc, .plain⟩ -- MEMBER_CODE
  , ⟨0x1010, 1, 0, 1, .u32, 4, .ro, 0, .any, .na, .view, .plain⟩ -- STRAPS
  , ⟨0x1020, 1, 0, 5, .u32, 4, .ro, 0, .any, .na, (.die .errStat 0 32), .die⟩ -- ERR_SUMMARY
  , ⟨0x1021, 1, 0, 5, .u32, 4, .ro, 0, .any, .na, (.die .errHead 0 32), .die⟩ -- ERR_HEAD
  , ⟨0x1030, 1, 0, 1, .u8, 1, .ro, 0, .any, .na, .view, .plain⟩ -- BOOT_STAGE
  , ⟨0x1031, 1, 0, 1, .u32, 4, .ro, 0, .any, .na, .view, .plain⟩ -- BOOT_MS
  , ⟨0x1032, 1, 0, 1, .u8, 1, .ro, 0, .any, .na, .view, .plain⟩ -- BOOT_SLOT
  , ⟨0x1100, 5, 0, 256, .blob, 32, .ro, 0, .any, .na, .view, .table⟩ -- ERR_RECORD
  , ⟨0x1400, 5, 0, 17, .wide, 64, .ro, 0, .any, .na, .view, .inst⟩ -- SNARL_DESC
  , ⟨0x1410, 1, 0, 1, .u32, 4, .rw, 0, .snarlWindow, .live, .mc, .plain⟩ -- SNARL_WINDOW
  , ⟨0x1411, 1, 0, 256, .blob, 256, .ro, 0, .any, .na, .view, .table⟩ -- SNARL_DATA
  , ⟨0x1412, 1, 0, 5, .u32, 4, .wo, 0, (.nat 0 0x1FFFF), .live, .view, .inst⟩ -- SNARL_ACK
  , ⟨0x1420, 1, 0, 8, .u64, 8, .ro, 0, .any, .na, .view, .inst⟩ -- FENCED_UNITS
  , ⟨0x1421, 1, 0, 1, .u16, 2, .ro, 0, .any, .na, .view, .plain⟩ -- FENCED_COUNT
  , ⟨0x1422, 1, 0, 8, .u64, 8, .gw, 0, .any, .live, .view, .inst⟩ -- FENCE_SET
  , ⟨0x1423, 1, 0, 8, .u64, 8, .gw, 0, .any, .live, .view, .inst⟩ -- FENCE_CLEAR
  , ⟨0x1F00, 1, 0, 1, .bool, 1, .ro, 0, .any, .na, .view, .plain⟩ -- BITTER_ACTIVE
  , ⟨0x1F01, 1, 0, 1, .u8, 1, .ro, 0, .any, .na, .view, .plain⟩ -- BITTER_CAUSE
  , ⟨0x1F02, 1, 0, 3, .u32, 4, .ro, 0, .any, .na, .view, .plain⟩ -- FAILED_START
  , ⟨0x1F03, 1, 0, 1, .u8, 1, .ro, 0, .any, .na, .view, .plain⟩ -- BOOT_ATTEMPTS
  , ⟨0x1F04, 1, 0, 1, .u8, 1, .gw, 0, (.nat 0 1), .live, .view, .plain⟩ -- ACTIVE_SLOT
  , ⟨0x1F05, 1, 0, 1, .bool, 1, .gw, 0, .bool, .live, .view, .plain⟩ -- BOOT_RECORD_CLEAR
  , ⟨0x1F06, 1, 0, 2, .u32, 4, .ro, 0, .any, .na, .view, .inst⟩ -- SLOT_STATE
  ]

/-- Entries 0x2___. -/
def dict2a : List DEntry :=
  [ ⟨0x2040, 1, 0, 1, .u32, 4, .rw, 0x7530, (.nat 1000 600000), .live, .mc, .plain⟩ -- AGX_IDLE_TIMEOUT
  , ⟨0x2040, 1, 1, 1, .u8, 1, .rw, 0x8, (.nat 1 8), .live, .mc, .plain⟩ -- AGX_MAX_SESSIONS
  , ⟨0x2041, 1, 0, 1, .u64, 8, .ro, 0, .any, .na, .view, .plain⟩ -- OWNER_JOB
  , ⟨0x2041, 1, 1, 1, .u32, 4, .ro, 0, .any, .na, .view, .plain⟩ -- OWNER_SESSION
  , ⟨0x2050, 1, 0, 16, .u8, 1, .rw, 0x40, (.nat 4 64), .bnd, (.region .runahead 0 7), .region⟩ -- WRK_RUNAHEAD
  , ⟨0x2060, 1, 0, 1, .u64, 8, .rw, 0, (.mult 32), .idle, (.everyPly64 .rtrVarBase .rtrVarBaseHi), .plain⟩ -- VAR_TABLE_BASE
  , ⟨0x2061, 1, 0, 1, .u16, 2, .rw, 0, (.nat 0 4096), .idle, (.everyPly .rtrVarSites 0 13), .plain⟩ -- VAR_SITES
  , ⟨0x2070, 1, 0, 1, .u64, 8, .rw, 0, (.mult 0x40000), .idle, (.everyPly64 .atePoolBase .atePoolBaseHi), .plain⟩ -- ATE_POOL_BASE
  , ⟨0x2071, 1, 0, 1, .u16, 2, .rw, 0x80, .slotKib, .idle, (.everyPly .ateSlot 0 2), .plain⟩ -- ATE_SLOT_KIB
  , ⟨0x2072, 1, 0, 1, .u64, 8, .rw, 0, (.mult 32), .idle, (.everyPly64 .ateSeqBase .ateSeqBaseHi), .plain⟩ -- ATE_SEQ_BASE
  , ⟨0x2073, 1, 0, 1, .u16, 2, .rw, 0, (.nat 0 4096), .idle, (.everyPly .ateSeqCfg 0 13), .plain⟩ -- ATE_LAYERS
  , ⟨0x2074, 1, 0, 16, .blob, 32, .rw, 0, .layout, .idle, (.everyPlyBlob .ateLayout), .inst⟩ -- ATE_LAYOUT
  , ⟨0x2075, 1, 0, 1, .u32, 4, .rw, 0x7D0, (.nat 10 1000000), .live, (.everyPly .ateWaitUs 0 32), .plain⟩ -- PAGE_WAIT_US
  , ⟨0x2076, 1, 0, 4, .u32, 4, .rw, 0, .ringLow, .live, (.die .ateRingLow 0 32), .ply⟩ -- RING_LOW
  , ⟨0x2080, 1, 0, 1, .u8, 1, .rw, 0, (.nat 0 2), .live, (.hub .layCfg 28 2), .plain⟩ -- LAY_SOURCE
  , ⟨0x2081, 1, 0, 1, .u32, 4, .rw, 0x3E8, (.nat 100 1000000), .live, .mc, .plain⟩ -- LAY_STEP_NS
  , ⟨0x2082, 1, 0, 1, .u32, 4, .rw, 0x2710, (.nat 100 10000000), .live, .mc, .plain⟩ -- LAY_LATE_NS
  , ⟨0x2083, 1, 0, 1, .u16, 2, .rw, 0x1F1F, .portList, .live, (.hub .layCfg 0 16), .plain⟩ -- LAY_PORT_LIST
  , ⟨0x2084, 1, 0, 1, .u32, 4, .wo, 0, .any, .live, .view, .plain⟩ -- LAY_SET_SECONDS
  , ⟨0x2085, 1, 0, 1, .i32, 4, .rw, 0, (.int32 1000000), .live, .mc, .plain⟩ -- LAY_PPS_COMP_PS
  , ⟨0x2090, 1, 0, 1, .u32, 4, .rw, 0x32, (.nat 1 10000), .live, .mc, .plain⟩ -- WD_PROGRESS_MS
  , ⟨0x2091, 1, 0, 1, .u32, 4, .rw, 0x7D0, (.nat 10 600000), .live, .mc, .plain⟩ -- WD_CLEAT_MS
  , ⟨0x2092, 1, 0, 1, .u16, 2, .rw, 0xA, (.nat 1 1000), .live, .mc, .plain⟩ -- WD_CREDIT_MS
  , ⟨0x2093, 1, 0, 1, .u32, 4, .rw, 0x3E8, (.nat 100 100000), .live, .mc, .plain⟩ -- WD_HBM_US
  , ⟨0x2094, 1, 0, 1, .u16, 2, .rw, 0xA, (.nat 1 1000), .live, .mc, .plain⟩ -- SUSPECT_WINDOW_MS
  , ⟨0x2095, 1, 0, 1, .u8, 1, .rw, 0x3, (.nat 1 255), .live, .mc, .plain⟩ -- FENCE_REPEATS
  , ⟨0x2096, 1, 0, 1, .u16, 2, .rw, 0x18, (.nat 1 720), .live, .mc, .plain⟩ -- FENCE_WINDOW_H
  , ⟨0x2097, 1, 0, 1, .u32, 4, .gw, 0, .resetReq, .live, .view, .plain⟩ -- RESET_REQUEST
  , ⟨0x2098, 1, 0, 1, .bool, 1, .gw, 0, .bool, .live, .view, .plain⟩ -- POWER_OFF_REQUEST
  , ⟨0x2099, 1, 0, 1, .u64, 8, .ro, 0, .any, .na, .view, .plain⟩ -- LAY_NOW_MC
  , ⟨0x20A0, 1, 0, 1, .u64, 8, .rw, 0, (.mult 4096), .live, .mc, .plain⟩ -- CTX_ADDR
  , ⟨0x20A0, 1, 1, 1, .u64, 8, .rw, 0, .any, .live, .mc, .plain⟩ -- CTX_LEN
  , ⟨0x20A0, 1, 2, 1, .bool, 1, .wo, 0, .bool, .live, .view, .plain⟩ -- CTX_SAVE
  , ⟨0x20A0, 1, 3, 1, .bool, 1, .wo, 0, .bool, .live, .view, .plain⟩ -- CTX_RESTORE
  , ⟨0x20B0, 1, 0, 1, .u8, 1, .gw, 0, .powerClass, .live, (.hub .pwrClass 0 3), .plain⟩ -- POWER_CLASS
  , ⟨0x20B1, 1, 0, 1, .u16, 2, .rw, 0x28, (.nat 1 1000), .live, (.hub .pwrRampCfg 0 16), .plain⟩ -- RAMP_W_PER_MS
  , ⟨0x20B2, 1, 0, 1, .bool, 1, .rw, 0x1, .bool, .live, (.hub .pwrRampCfg 31 1), .plain⟩ -- FLOOR_EN
  , ⟨0x20B3, 1, 0, 16, .blob, 32, .rw, 0, .rampEntry, .live, (.hubBlob .pwrRamp), .inst⟩ -- RAMP_ENTRY
  , ⟨0x20B4, 1, 0, 1, .u8, 1, .rw, 0x5F, .tCtrl, .live, .mc, .plain⟩ -- T_CTRL_C
  , ⟨0x20B5, 1, 0, 1, .u8, 1, .rw, 0x69, .tCrit, .live, .mc, .plain⟩ -- T_CRIT_C
  ]

/-- Entries 0x2___. -/
def dict2b : List DEntry :=
  [ ⟨0x20B6, 1, 0, 1, .u8, 1, .rw, 0x5F, (.nat 75 100), .live, .mc, .plain⟩ -- HBM_T_CTRL_C
  , ⟨0x20B7, 1, 0, 1, .u16, 2, .rw, 0xA, (.nat 1 1440), .live, .mc, .plain⟩ -- AGE_PERIOD_MIN
  , ⟨0x20B8, 1, 0, 1, .u8, 1, .rw, 0xF, (.nat 5 50), .bnd, .mc, .plain⟩ -- AGE_GUARD_PS
  , ⟨0x20B9, 1, 0, 16, .u16, 2, .rw, 0x834, .freqCap, .live, (.regionPwr .pwrRegCap 0 12), .region⟩ -- FREQ_CAP_MHZ
  , ⟨0x20BA, 1, 0, 25, .blob, 256, .rw, 0, .any, .idle, .view, .table⟩ -- AGE_STATE
  ]

/-- Entries 0x3___. -/
def dict3a : List DEntry :=
  [ ⟨0x3000, 1, 0, 1, .u8, 1, .rw, 0x10, (.nat 1 16), .bnd, .mc, .plain⟩ -- HISTORY_LEN
  , ⟨0x3001, 1, 0, 1, .u8, 1, .rw, 0x1, (.nat 0 8), .bnd, .mc, .plain⟩ -- HEADROOM
  , ⟨0x3002, 1, 0, 1, .u8, 1, .rw, 0, (.nat 0 4), .bnd, .mc, .plain⟩ -- PREPASS_HEADROOM
  , ⟨0x3003, 1, 0, 1, .f32, 4, .rw, 0x3F800000, (.f32 0x00800000 0x7F000000), .bnd, .mc, .plain⟩ -- INIT_COARSE
  , ⟨0x3010, 1, 0, 1, .u16, 2, .rw, 0x40, .any, .bnd, .mc, .plain⟩ -- SAT_THRESH
  , ⟨0x3011, 1, 0, 1, .u16, 2, .rw, 0x1000, .any, .bnd, .mc, .plain⟩ -- FLUSH_THRESH
  , ⟨0x3012, 1, 0, 1, .u16, 2, .rw, 0x10, .any, .bnd, .mc, .plain⟩ -- OVF_THRESH
  , ⟨0x3013, 1, 0, 1, .u32, 4, .rw, 0x400, (.nat 16 16777216), .bnd, .mc, .plain⟩ -- SHARE_MIN_ELEMENTS
  , ⟨0x3020, 1, 0, 1, .u8, 1, .rw, 0x2, (.nat 0 8), .bnd, .mc, .plain⟩ -- REPLAY_LIMIT
  , ⟨0x3021, 1, 0, 1, .u8, 1, .rw, 0x2, (.nat 1 16), .bnd, .mc, .plain⟩ -- WIDEN_FAULTS
  , ⟨0x3022, 1, 0, 1, .u8, 1, .rw, 0x10, (.nat 1 64), .bnd, .mc, .plain⟩ -- WIDEN_WINDOW
  , ⟨0x3023, 1, 0, 1, .u16, 2, .rw, 0x100, .widenSteps, .bnd, .mc, .plain⟩ -- WIDEN_STEPS
  , ⟨0x3024, 1, 0, 1, .u16, 2, .rw, 0x1000, .widenMax, .bnd, .mc, .plain⟩ -- WIDEN_STEPS_MAX
  , ⟨0x3025, 1, 0, 1, .u16, 2, .rw, 0x400, .any, .bnd, .mc, .plain⟩ -- REWIDEN_WINDOW
  , ⟨0x3026, 1, 0, 1, .u16, 2, .rw, 0x3E8, (.nat 1 1000), .bnd, .mc, .plain⟩ -- GLOBAL_WIDEN_PERMILLE
  , ⟨0x3027, 1, 0, 1, .u32, 4, .rw, 0x1F4, (.nat 10 60000), .live, .mc, .plain⟩ -- VOTE_DOUBT_MS
  , ⟨0x3100, 1, 0, 64, .u64, 8, .rw, 0, .any, .live, .wide, .inst⟩ -- WIDE_LAYERS
  , ⟨0x3200, 1, 0, 64, .u64, 8, .ro, 0, .any, .na, (.hubPair .splWidened), .inst⟩ -- WIDENED_LAYERS
  , ⟨0x3210, 16, 0, 256, .u64, 8, .ro, 0, .any, .na, .view, .table⟩ -- WIDEN_UNTIL
  , ⟨0x3230, 1, 0, 1, .bool, 1, .ro, 0, .any, .na, .view, .plain⟩ -- GLOBAL_WIDEN
  , ⟨0x3230, 1, 1, 1, .u16, 2, .ro, 0, .any, .na, .view, .plain⟩ -- WIDE_IN_USE
  , ⟨0x3230, 1, 2, 1, .u16, 2, .ro, 0, .any, .na, .view, .plain⟩ -- IN_USE
  , ⟨0x3300, 1, 0, 1, .u64, 8, .gw, 0, .any, .idle, (.hub64 .bwlSeed), .plain⟩ -- BWL_SEED
  , ⟨0x3301, 1, 0, 1, .u32, 4, .rw, 0, .any, .live, (.hub .bwlFree 0 32), .plain⟩ -- BWL_FREE_STREAM
  , ⟨0x3302, 1, 0, 16, .u32, 4, .rw, 0, .any, .idle, (.slot .stepBwl), .inst⟩ -- BWL_SLOT_OFFSET
  , ⟨0x3400, 16, 0, 1, .f32, 4, .rw, 0, (.f32 0x0 0x3F800000), .bnd, .hp, .plain⟩ -- LR
  , ⟨0x3400, 16, 1, 1, .f32, 4, .rw, 0x3F666666, (.f32 0x0 0x3F7FFFFF), .bnd, .hp, .plain⟩ -- BETA1
  , ⟨0x3400, 16, 2, 1, .f32, 4, .rw, 0x3F7FBE77, (.f32 0x0 0x3F7FFFFF), .bnd, .hp, .plain⟩ -- BETA2
  , ⟨0x3400, 16, 3, 1, .f32, 4, .rw, 0xD800000, (.f32 0x800000 0x3A800000), .bnd, .hp, .plain⟩ -- EPS1
  , ⟨0x3400, 16, 4, 1, .f32, 4, .rw, 0x3F800000, (.f32 0x3A800000 0x44800000), .bnd, .hp, .plain⟩ -- CLIP_D
  , ⟨0x3400, 16, 5, 1, .f32, 4, .rw, 0, (.f32 0x0 0x3F800000), .bnd, .hp, .plain⟩ -- WD
  , ⟨0x3400, 16, 6, 1, .f32, 4, .rw, 0x3F800000, (.f32 0x1F800000 0x5F800000), .bnd, .hp, .plain⟩ -- TAU
  , ⟨0x3410, 1, 0, 1, .u8, 1, .rw, 0x4, (.nat 1 16), .bnd, (.everyCtrl .halCfg 0 5), .plain⟩ -- WHIST_LEN
  , ⟨0x3410, 1, 1, 1, .u8, 1, .rw, 0x1, (.nat 0 4), .bnd, (.everyCtrl .halCfg 8 4), .plain⟩ -- W_HEADROOM
  , ⟨0x3410, 1, 2, 1, .u16, 2, .rw, 0x40, .any, .bnd, (.everyCtrl .halCfg 16 16), .plain⟩ -- REPAIR_THRESH
  ]

/-- Entries 0x4___. -/
def dict4a : List DEntry :=
  [ ⟨0x4010, 1, 0, 5, .u32, 4, .rc, 0, .any, .na, (.die .mgtGuardCnt 0 32), .die⟩ -- GUARD_ABORTS
  , ⟨0x4011, 1, 0, 5, .u32, 4, .rc, 0, .any, .na, (.die .mgtRefuseCnt 0 32), .die⟩ -- CONFIG_BUSY_REFUSALS
  , ⟨0x4012, 1, 0, 1, .u32, 4, .rc, 0, .any, .na, .mc, .plain⟩ -- AGX_AUTH_FAILURES
  , ⟨0x4012, 1, 1, 1, .u32, 4, .rc, 0, .any, .na, .mc, .plain⟩ -- AGX_SEQ_ERRORS
  , ⟨0x4012, 1, 2, 1, .u32, 4, .rc, 0, .any, .na, .mc, .plain⟩ -- AGX_SESSION_LAPSES
  , ⟨0x4020, 1, 0, 16, .u32, 4, .rc, 0, .any, .na, .cqSum, .region⟩ -- WRK_CQ_WAITS
  , ⟨0x4021, 1, 0, 5, .u32, 4, .rc, 0, .any, .na, (.die .cltSatCnt 0 32), .die⟩ -- CLEAT_SATURATIONS
  , ⟨0x4022, 1, 0, 5, .u32, 4, .rc, 0, .any, .na, (.die .cltUndelCnt 0 32), .die⟩ -- SIGNALS_UNDELIVERED
  , ⟨0x4023, 1, 0, 16, .u32, 4, .rc, 0, .any, .na, (.region .pskipCnt 0 32), .region⟩ -- PREDICATE_SKIPS
  , ⟨0x4024, 1, 0, 16, .u32, 4, .rc, 0, .any, .na, (.region .wideCnt 0 32), .region⟩ -- WIDE_REFUSALS
  , ⟨0x4030, 2, 0, 256, .u32, 4, .rc, 0, .any, .na, (.unit .twnResCnt), .table⟩ -- TWN_RESIDUE_ERRORS
  , ⟨0x4032, 2, 0, 256, .u32, 4, .rc, 0, .any, .na, (.unit .twnStallCnt), .table⟩ -- TWN_ESCAPE_STALLS
  , ⟨0x4034, 2, 0, 256, .u32, 4, .rc, 0, .any, .na, (.unit .twnBusyCnt), .table⟩ -- TWN_BUSY_CYCLES
  , ⟨0x4036, 2, 0, 256, .u32, 4, .rc, 0, .any, .na, (.unit .hwsResCnt), .table⟩ -- HWS_RESIDUE_ERRORS
  , ⟨0x4038, 2, 0, 256, .u32, 4, .rc, 0, .any, .na, (.unit .hwsSatCnt), .table⟩ -- HWS_ACC_SATURATIONS
  , ⟨0x403A, 2, 0, 256, .u32, 4, .rc, 0, .any, .na, (.unit .hwsBusyCnt), .table⟩ -- HWS_BUSY_CYCLES
  , ⟨0x403C, 2, 0, 256, .u32, 4, .rc, 0, .any, .na, (.unit .trnFlushCnt), .table⟩ -- TRN_FLUSHED
  , ⟨0x403E, 2, 0, 256, .u32, 4, .rc, 0, .any, .na, (.unit .trnSatCnt), .table⟩ -- TRN_SATURATED
  , ⟨0x4040, 2, 0, 256, .u32, 4, .rc, 0, .any, .na, (.unit .splSkewCnt), .table⟩ -- SPL_SKEW_ABORTS
  , ⟨0x4042, 2, 0, 256, .u32, 4, .rc, 0, .any, .na, (.unit .splPreCnt), .table⟩ -- SPL_PREPASSES
  , ⟨0x4044, 1, 0, 1, .u32, 4, .rc, 0, .any, .na, .mc, .plain⟩ -- STEPS_COMMITTED
  , ⟨0x4044, 1, 1, 1, .u32, 4, .rc, 0, .any, .na, .mc, .plain⟩ -- STEPS_REPLAYED
  , ⟨0x4044, 1, 2, 1, .u32, 4, .rc, 0, .any, .na, .mc, .plain⟩ -- STEPS_EXHAUSTED
  , ⟨0x4044, 1, 3, 1, .u32, 4, .rc, 0, .any, .na, .mc, .plain⟩ -- STEPS_ABANDONED
  , ⟨0x4044, 1, 4, 1, .u32, 4, .rc, 0, .any, .na, .mc, .plain⟩ -- STEPS_IN_DOUBT
  , ⟨0x4044, 1, 5, 1, .u32, 4, .rc, 0, .any, .na, .mc, .plain⟩ -- PREPASS_STEPS
  , ⟨0x4044, 1, 6, 1, .u32, 4, .rc, 0, .any, .na, .mc, .plain⟩ -- LAYER_WIDENINGS
  , ⟨0x4044, 1, 7, 1, .u32, 4, .rc, 0, .any, .na, .mc, .plain⟩ -- GLOBAL_WIDEN_EVENTS
  , ⟨0x4044, 1, 8, 1, .u32, 4, .rc, 0, .any, .na, .mc, .plain⟩ -- COARSE_CLAMPS
  , ⟨0x4050, 1, 0, 128, .u32, 4, .rc, 0, .any, .na, (.cluster .rtrRefuseCnt), .cluster⟩ -- ROUTER_REFUSALS
  , ⟨0x4051, 1, 0, 128, .u32, 4, .rc, 0, .any, .na, (.cluster .rtrDropCnt), .cluster⟩ -- ROUTER_DROPS
  , ⟨0x4052, 1, 0, 128, .u32, 4, .rc, 0, .any, .na, (.cluster .rtrBusyCnt), .cluster⟩ -- ROUTER_BUSY_CYCLES
  , ⟨0x4053, 1, 0, 4, .u32, 4, .rc, 0, .any, .na, (.die .rtrSparseCnt 0 32), .ply⟩ -- SPARSE_LAYOUT_ERRORS
  , ⟨0x4054, 1, 0, 4, .u32, 4, .rc, 0, .any, .na, (.die .rtrVarMissCnt 0 32), .ply⟩ -- VARIANT_MISSES
  , ⟨0x4060, 1, 0, 4, .u32, 4, .rc, 0, .any, .na, (.die .ateExhCnt 0 32), .ply⟩ -- PAGE_EXHAUSTED_EVENTS
  , ⟨0x4061, 1, 0, 4, .u32, 4, .rc, 0, .any, .na, (.die .ateWaitCnt 0 32), .ply⟩ -- PAGE_WAITS
  , ⟨0x4062, 1, 0, 4, .u32, 4, .rc, 0, .any, .na, (.die .ateMismCnt 0 32), .ply⟩ -- PAGE_MISMATCHES
  , ⟨0x4063, 1, 0, 4, .u32, 4, .ro, 0, .any, .na, .view, .ply⟩ -- RING_DEPTH
  , ⟨0x4064, 1, 0, 128, .u32, 4, .rc, 0, .any, .na, (.cluster .atePageCnt), .cluster⟩ -- PAGES_FETCHED
  , ⟨0x4065, 1, 0, 128, .u32, 4, .rc, 0, .any, .na, (.cluster .ateSkipCnt), .cluster⟩ -- PAGES_SKIPPED
  ]

/-- Entries 0x4___. -/
def dict4b : List DEntry :=
  [ ⟨0x4070, 1, 0, 16, .u32, 4, .rc, 0, .any, .na, (.stack .halSkipCnt 0 32), .stack⟩ -- HAL_ROWS_SKIPPED
  , ⟨0x4071, 1, 0, 16, .u32, 4, .rc, 0, .any, .na, (.stack .halRepairCnt 0 32), .stack⟩ -- HAL_COPY_REPAIRS
  , ⟨0x4072, 1, 0, 16, .u32, 4, .rc, 0, .any, .na, (.stack .halNmCnt 0 32), .stack⟩ -- NM_OPS
  , ⟨0x4073, 1, 0, 16, .u32, 4, .rc, 0, .any, .na, (.stack .halNmSatCnt 0 32), .stack⟩ -- NM_SATURATIONS
  , ⟨0x4074, 1, 0, 16, .u32, 4, .rc, 0, .any, .na, (.stack .halBusyCnt 0 32), .stack⟩ -- HAL_BUSY_CYCLES
  , ⟨0x4075, 1, 0, 16, .u32, 4, .rc, 0, .any, .na, (.stack .halNsatCnt 0 32), .stack⟩ -- HAL_NORM_SATURATIONS
  , ⟨0x4080, 1, 0, 16, .u32, 4, .rc, 0, .any, .na, (.stack .memCeCnt 0 32), .stack⟩ -- HBM_CORRECTED
  , ⟨0x4081, 1, 0, 16, .u32, 4, .rc, 0, .any, .na, (.stack .memUeCnt 0 32), .stack⟩ -- HBM_UNCORRECTABLE
  , ⟨0x4082, 1, 0, 16, .u32, 4, .rc, 0, .any, .na, (.stack .memPoisonCnt 0 32), .stack⟩ -- POISON_READS
  , ⟨0x4083, 1, 0, 16, .u32, 4, .rc, 0, .any, .na, (.stack .memSuppCnt 0 32), .stack⟩ -- CE_RECORDS_SUPPRESSED
  , ⟨0x4084, 1, 0, 16, .u32, 4, .ro, 0, .any, .na, .view, .stack⟩ -- PINS_ERASED
  , ⟨0x4085, 1, 0, 2, .u32, 4, .rc, 0, .any, .na, (.root .memFarPoisCnt), .inst⟩ -- FAR_POISON_READS
  , ⟨0x4086, 1, 0, 2, .u32, 4, .rc, 0, .any, .na, (.root .memFarDropCnt), .inst⟩ -- FAR_LINK_DROPS
  , ⟨0x4087, 1, 0, 1, .u32, 4, .rc, 0, .any, .na, (.hub .memDrainPoisCnt 0 32), .plain⟩ -- DRAIN_POISONED
  , ⟨0x4090, 1, 0, 18, .u32, 4, .rc, 0, .any, .na, (.port .fabFecCwCnt 0 32), .inst⟩ -- FEC_CORRECTED
  , ⟨0x4091, 1, 0, 18, .u32, 4, .rc, 0, .any, .na, (.port .fabFecUcwCnt 0 32), .inst⟩ -- FEC_UNCORRECTABLE
  , ⟨0x4092, 1, 0, 18, .u32, 4, .rc, 0, .any, .na, (.port .fabReplayCnt 0 32), .inst⟩ -- LINK_REPLAYS
  , ⟨0x4093, 1, 0, 18, .u32, 4, .rc, 0, .any, .na, (.port .fabWidthCnt 0 32), .inst⟩ -- WIDTH_LOSSES
  , ⟨0x4094, 1, 0, 4, .u32, 4, .rc, 0, .any, .na, (.die .fabRouteDropCnt 0 32), .ply⟩ -- ROUTE_DROPS
  , ⟨0x4095, 1, 0, 4, .u32, 4, .rc, 0, .any, .na, (.die .fabPgenDropCnt 0 32), .ply⟩ -- PGEN_DROPS
  , ⟨0x4096, 1, 0, 4, .u32, 4, .rc, 0, .any, .na, (.die .fabWireFlushCnt 0 32), .ply⟩ -- WIRE_FLUSHED
  , ⟨0x4097, 1, 0, 16, .u32, 4, .rc, 0, .any, .na, (.regionLay .layLateCnt), .region⟩ -- LAY_LATE_ITEMS
  , ⟨0x4098, 1, 0, 16, .u32, 4, .rc, 0, .any, .na, (.regionLay .layLateMax), .region⟩ -- LAY_LATE_MAX_NS
  , ⟨0x4099, 1, 0, 1, .u32, 4, .rc, 0, .any, .na, .mc, .plain⟩ -- MEMBERSHIP_REFUSALS
  , ⟨0x4099, 1, 1, 1, .u32, 4, .rc, 0, .any, .na, .mc, .plain⟩ -- LAY_STEPS_FWD
  , ⟨0x4099, 1, 2, 1, .u32, 4, .rc, 0, .any, .na, .mc, .plain⟩ -- LAY_STEPS_BACK
  , ⟨0x409A, 1, 0, 4, .u32, 4, .rc, 0, .any, .na, (.die .fabWireSatCnt 0 32), .ply⟩ -- WIRE_SATURATED
  , ⟨0x40A0, 1, 0, 5, .u32, 4, .rc, 0, .any, .na, (.die .errStaleCnt 0 32), .die⟩ -- STALE_REPLIES
  , ⟨0x40A1, 1, 0, 5, .u32, 4, .rc, 0, .any, .na, .mc, .plain⟩ -- RECOVERIES
  , ⟨0x40A2, 1, 0, 1, .u32, 4, .rc, 0, .any, .na, .mc, .plain⟩ -- ESCALATIONS
  , ⟨0x40A3, 1, 0, 5, .u32, 4, .rc, 0, .any, .na, (.die .errLostCnt 0 32), .die⟩ -- ERR_RECORDS_LOST
  , ⟨0x40A4, 1, 0, 4, .u32, 4, .rc, 0, .any, .na, .mc, .plain⟩ -- TELLTALE_EXPIRIES
  , ⟨0x40A5, 1, 0, 1, .u32, 4, .rc, 0, .any, .na, .mc, .plain⟩ -- SUSPECT_REPORTS_SENT
  , ⟨0x40A5, 1, 1, 1, .u32, 4, .rc, 0, .any, .na, .mc, .plain⟩ -- SUSPECT_REPEATS_HELD
  , ⟨0x40A5, 1, 2, 1, .u32, 4, .rc, 0, .any, .na, .mc, .plain⟩ -- SUSPECT_FILTER_FULL
  , ⟨0x40A6, 1, 0, 5, .u32, 4, .rc, 0, .any, .na, .mc, .die⟩ -- SNARL_SKIPPED
  , ⟨0x40A7, 1, 0, 5, .u32, 4, .rc, 0, .any, .na, .mc, .die⟩ -- SRAM_SWEEP_LATE
  , ⟨0x40A8, 2, 0, 256, .u32, 4, .ro, 0, .any, .na, .view, .table⟩ -- UNIT_FAULTS
  , ⟨0x40B0, 1, 0, 4, .u16, 2, .ro, 0, .any, .na, .view, .plain⟩ -- DRAW_W
  , ⟨0x40B1, 1, 0, 16, .u16, 2, .ro, 0x4B0, .any, .na, (.regionPwr .pwrRegFreq 0 12), .region⟩ -- REGION_MHZ
  ]

/-- Entries 0x4___. -/
def dict4c : List DEntry :=
  [ ⟨0x40B2, 1, 0, 16, .u16, 2, .ro, 0x834, .any, .na, .view, .region⟩ -- REGION_TOP_MHZ
  , ⟨0x40B3, 1, 0, 16, .u32, 4, .rc, 0, .any, .na, (.regionPwr .pwrLimitCnt 0 32), .region⟩ -- LIMIT_THROTTLE_US
  , ⟨0x40B4, 1, 0, 16, .u32, 4, .rc, 0, .any, .na, (.regionPwr .pwrThermCnt 0 32), .region⟩ -- THERMAL_THROTTLE_US
  , ⟨0x40B5, 1, 0, 16, .u32, 4, .rc, 0, .any, .na, (.regionPwr .pwrGateCnt 0 32), .region⟩ -- ISSUE_GATED_US
  , ⟨0x40B6, 1, 0, 1, .u32, 4, .rc, 0, .any, .na, (.hub .pwrTripCnt 0 32), .plain⟩ -- FAST_TRIPS
  , ⟨0x40B6, 1, 1, 1, .u32, 4, .rc, 0, .any, .na, (.hub .pwrHeldCnt 0 32), .plain⟩ -- RAMPS_HELD
  , ⟨0x40B6, 1, 2, 1, .u32, 4, .rc, 0, .any, .na, (.hub .pwrBreachCnt 0 32), .plain⟩ -- RAMP_BREACHES
  , ⟨0x40B7, 1, 0, 5, .i32, 4, .ro, 0, .any, .na, .view, .die⟩ -- TEMP_MAX
  , ⟨0x40B8, 1, 0, 16, .i32, 4, .ro, 0, .any, .na, .view, .stack⟩ -- HBM_TEMP
  , ⟨0x40C0, 2, 0, 256, .i32, 4, .ro, 0, .any, .na, .view, .table⟩ -- UNIT_MARGIN_PS
  , ⟨0x40C2, 1, 0, 16, .u32, 4, .ro, 0xFFFFFFFF, .any, .na, .view, .region⟩ -- REGION_FORECAST_H
  , ⟨0x40C3, 1, 0, 1, .u32, 4, .ro, 0xFFFFFFFF, .any, .na, .view, .plain⟩ -- FENCE_FORECAST_H
  , ⟨0x40C4, 1, 0, 1, .u32, 4, .ro, 0, .any, .na, .view, .plain⟩ -- AGE_HOURS
  , ⟨0x40D0, 1, 0, 13, .u16, 2, .ro, 0, .any, .na, .view, .inst⟩ -- RAIL_MV
  , ⟨0x40D1, 1, 0, 13, .u16, 2, .ro, 0, .any, .na, .view, .inst⟩ -- RAIL_CURRENT
  , ⟨0x40D2, 1, 0, 13, .u32, 4, .rc, 0, .any, .na, .mc, .inst⟩ -- RAIL_FAST_TRIPS
  , ⟨0x40D3, 1, 0, 13, .u32, 4, .rc, 0, .any, .na, .mc, .inst⟩ -- RAIL_RANGE_FAULTS
  ]

/-- Entries 0x5___. -/
def dict5a : List DEntry :=
  [ ⟨0x5000, 1, 0, 1, .u32, 4, .rw, 0xFFFFFFFF, .pkgId, .idle, .mc, .plain⟩ -- FAB_PKG_ID
  , ⟨0x5001, 1, 0, 1, .u8, 1, .rw, 0, .any, .live, .mc, .plain⟩ -- FM_NODE
  , ⟨0x5002, 1, 0, 1, .u32, 4, .ro, 0, .any, .na, .view, .plain⟩ -- PEER_EPOCH
  , ⟨0x5003, 1, 0, 1, .u16, 2, .rw, 0x14, (.nat 1 1000), .live, .mc, .plain⟩ -- SEND_TIMEOUT_MS
  , ⟨0x5004, 1, 0, 1, .u16, 2, .rw, 0x4, (.nat 1 1000), .live, .mc, .plain⟩ -- LANE_FAIL_UCW
  , ⟨0x5005, 1, 0, 1, .u8, 1, .rw, 0x10, (.nat 2 64), .live, .mc, .plain⟩ -- LINK_REPLAY_LIMIT
  , ⟨0x5006, 1, 0, 1, .u8, 1, .rw, 0x40, (.nat 16 255), .live, .mc, .plain⟩ -- VOTE_KEEP
  , ⟨0x5007, 1, 0, 1, .u32, 4, .rw, 0x3FFFF, (.nat 0 0x3FFFF), .live, (.portBits .fabPortCfg 31), .plain⟩ -- PORT_ENABLE
  , ⟨0x5008, 1, 0, 1, .u32, 4, .wo, 0, (.nat 0 0x3FFFF), .live, .view, .plain⟩ -- PORT_RETRAIN
  , ⟨0x5010, 1, 0, 18, .u32, 4, .ro, 0, .any, .na, (.port .fabPortStat 0 32), .inst⟩ -- PORT_STATE
  , ⟨0x5011, 1, 0, 18, .u32, 4, .ro, 0, .any, .na, (.port .fabPortNbr 0 32), .inst⟩ -- PORT_NEIGHBOUR
  , ⟨0x5100, 256, 0, 256, .u64, 8, .ro, 0, .any, .na, .view, .table⟩ -- PEER
  ]

/-- Entries 0x6___. -/
def dict6a : List DEntry :=
  [ ⟨0x6000, 1, 0, 1, .u8, 1, .rw, 0x10, .localGib, .idle, (.everyCtrl .memMap 0 7), .plain⟩ -- LOCAL_GIB
  , ⟨0x6001, 1, 0, 1, .bool, 1, .wo, 0, .bool, .live, .view, .plain⟩ -- MAP_LOCK
  , ⟨0x6001, 1, 1, 1, .bool, 1, .ro, 0, .any, .na, .view, .plain⟩ -- MAP_LOCKED
  , ⟨0x6002, 1, 0, 1, .u64, 8, .ro, 0, .any, .na, .view, .plain⟩ -- INTERLEAVED_BYTES
  , ⟨0x6003, 1, 0, 4, .u64, 8, .ro, 0, .any, .na, .view, .ply⟩ -- DIE_LOCAL_BYTES
  , ⟨0x6010, 1, 0, 1, .bool, 1, .rw, 0x1, .bool, .live, (.everyCtrl .memScrubCfg 31 1), .plain⟩ -- SCRUB_EN
  , ⟨0x6011, 1, 0, 1, .u16, 2, .rw, 0x18, (.nat 1 168), .live, (.everyCtrl .memScrubCfg 0 8), .plain⟩ -- SCRUB_HOURS
  , ⟨0x6012, 1, 0, 1, .u16, 2, .rw, 0x10, (.nat 0 1000), .live, .mc, .plain⟩ -- CE_RECORD_MAX
  , ⟨0x6013, 1, 0, 1, .u16, 2, .rw, 0x8, (.nat 2 1000), .live, .mc, .plain⟩ -- PIN_ERASE_THRESH
  , ⟨0x6020, 1, 0, 2, .u64, 8, .ro, 0, .any, .na, .view, .inst⟩ -- FAR_BYTES
  , ⟨0x6021, 1, 0, 2, .u32, 4, .ro, 0, .any, .na, .view, .inst⟩ -- FAR_LINK
  , ⟨0x6022, 1, 0, 1, .bool, 1, .rw, 0, .bool, .idle, .mc, .plain⟩ -- FAR_INTERLEAVE
  , ⟨0x6030, 1, 0, 1, .u64, 8, .rw, 0, (.mult 32), .live, .mc, .plain⟩ -- DRAIN_LIST
  , ⟨0x6030, 1, 1, 1, .u32, 4, .rw, 0, (.nat 1 65536), .live, .mc, .plain⟩ -- DRAIN_COUNT
  , ⟨0x6030, 1, 2, 1, .u64, 8, .rw, 0, .any, .live, .mc, .plain⟩ -- DRAIN_AT
  , ⟨0x6030, 1, 3, 1, .u32, 4, .rw, 0, .cleatWord, .live, .mc, .plain⟩ -- DRAIN_CLEAT
  , ⟨0x6030, 1, 4, 1, .bool, 1, .wo, 0, .bool, .live, .view, .plain⟩ -- DRAIN_START
  , ⟨0x6030, 1, 5, 1, .u16, 2, .rw, 0x100, (.nat 1 256), .live, .mc, .plain⟩ -- DRAIN_GBPS
  ]

/-- Entries 0x7___. -/
def dict7a : List DEntry :=
  [ ⟨0x7000, 16, 0, 1, .u8, 1, .ro, 0, .any, .na, .view, .plain⟩ -- PROGRESS_STATE
  , ⟨0x7000, 16, 1, 1, .u64, 8, .ro, 0, .any, .na, .view, .plain⟩ -- PROGRESS_POSITION
  , ⟨0x7000, 16, 2, 1, .u64, 8, .ro, 0, .any, .na, .view, .plain⟩ -- PROGRESS_TOTAL
  , ⟨0x7000, 16, 3, 1, .u16, 2, .ro, 0, .any, .na, .view, .plain⟩ -- PROGRESS_PERMILLE
  , ⟨0x7000, 16, 4, 1, .u32, 4, .ro, 0, .any, .na, .view, .plain⟩ -- PROGRESS_OPERATION
  , ⟨0x7000, 16, 5, 1, .u64, 8, .ro, 0, .any, .na, .view, .plain⟩ -- PROGRESS_STARTED
  , ⟨0x7000, 16, 6, 1, .u16, 2, .ro, 0, .any, .na, .view, .plain⟩ -- PROGRESS_LAST_ERROR
  , ⟨0x7000, 16, 7, 1, .u32, 4, .ro, 0, .any, .na, .view, .plain⟩ -- PROGRESS_RUNS
  , ⟨0x7000, 16, 8, 1, .wide, 40, .ro, 0, .any, .na, .view, .plain⟩ -- PROGRESS_SNAPSHOT
  , ⟨0x7010, 16, 0, 1, .u8, 1, .ro, 0, .any, .na, .view, .plain⟩ -- PROGRESS_STATE
  , ⟨0x7010, 16, 1, 1, .u64, 8, .ro, 0, .any, .na, .view, .plain⟩ -- PROGRESS_POSITION
  , ⟨0x7010, 16, 2, 1, .u64, 8, .ro, 0, .any, .na, .view, .plain⟩ -- PROGRESS_TOTAL
  , ⟨0x7010, 16, 3, 1, .u16, 2, .ro, 0, .any, .na, .view, .plain⟩ -- PROGRESS_PERMILLE
  , ⟨0x7010, 16, 4, 1, .u32, 4, .ro, 0, .any, .na, .view, .plain⟩ -- PROGRESS_OPERATION
  , ⟨0x7010, 16, 5, 1, .u64, 8, .ro, 0, .any, .na, .view, .plain⟩ -- PROGRESS_STARTED
  , ⟨0x7010, 16, 6, 1, .u16, 2, .ro, 0, .any, .na, .view, .plain⟩ -- PROGRESS_LAST_ERROR
  , ⟨0x7010, 16, 7, 1, .u32, 4, .ro, 0, .any, .na, .view, .plain⟩ -- PROGRESS_RUNS
  , ⟨0x7010, 16, 8, 1, .wide, 40, .ro, 0, .any, .na, .view, .plain⟩ -- PROGRESS_SNAPSHOT
  , ⟨0x7020, 2, 0, 1, .u8, 1, .ro, 0, .any, .na, .view, .plain⟩ -- PROGRESS_STATE
  , ⟨0x7020, 2, 1, 1, .u64, 8, .ro, 0, .any, .na, .view, .plain⟩ -- PROGRESS_POSITION
  , ⟨0x7020, 2, 2, 1, .u64, 8, .ro, 0, .any, .na, .view, .plain⟩ -- PROGRESS_TOTAL
  , ⟨0x7020, 2, 3, 1, .u16, 2, .ro, 0, .any, .na, .view, .plain⟩ -- PROGRESS_PERMILLE
  , ⟨0x7020, 2, 4, 1, .u32, 4, .ro, 0, .any, .na, .view, .plain⟩ -- PROGRESS_OPERATION
  , ⟨0x7020, 2, 5, 1, .u64, 8, .ro, 0, .any, .na, .view, .plain⟩ -- PROGRESS_STARTED
  , ⟨0x7020, 2, 6, 1, .u16, 2, .ro, 0, .any, .na, .view, .plain⟩ -- PROGRESS_LAST_ERROR
  , ⟨0x7020, 2, 7, 1, .u32, 4, .ro, 0, .any, .na, .view, .plain⟩ -- PROGRESS_RUNS
  , ⟨0x7020, 2, 8, 1, .wide, 40, .ro, 0, .any, .na, .view, .plain⟩ -- PROGRESS_SNAPSHOT
  , ⟨0x7030, 1, 0, 1, .u8, 1, .ro, 0, .any, .na, .view, .plain⟩ -- PROGRESS_STATE
  , ⟨0x7030, 1, 1, 1, .u64, 8, .ro, 0, .any, .na, .view, .plain⟩ -- PROGRESS_POSITION
  , ⟨0x7030, 1, 2, 1, .u64, 8, .ro, 0, .any, .na, .view, .plain⟩ -- PROGRESS_TOTAL
  , ⟨0x7030, 1, 3, 1, .u16, 2, .ro, 0, .any, .na, .view, .plain⟩ -- PROGRESS_PERMILLE
  , ⟨0x7030, 1, 4, 1, .u32, 4, .ro, 0, .any, .na, .view, .plain⟩ -- PROGRESS_OPERATION
  , ⟨0x7030, 1, 5, 1, .u64, 8, .ro, 0, .any, .na, .view, .plain⟩ -- PROGRESS_STARTED
  , ⟨0x7030, 1, 6, 1, .u16, 2, .ro, 0, .any, .na, .view, .plain⟩ -- PROGRESS_LAST_ERROR
  , ⟨0x7030, 1, 7, 1, .u32, 4, .ro, 0, .any, .na, .view, .plain⟩ -- PROGRESS_RUNS
  , ⟨0x7030, 1, 8, 1, .wide, 40, .ro, 0, .any, .na, .view, .plain⟩ -- PROGRESS_SNAPSHOT
  , ⟨0x7040, 1, 0, 1, .u8, 1, .ro, 0, .any, .na, .view, .plain⟩ -- PROGRESS_STATE
  , ⟨0x7040, 1, 1, 1, .u64, 8, .ro, 0, .any, .na, .view, .plain⟩ -- PROGRESS_POSITION
  , ⟨0x7040, 1, 2, 1, .u64, 8, .ro, 0, .any, .na, .view, .plain⟩ -- PROGRESS_TOTAL
  , ⟨0x7040, 1, 3, 1, .u16, 2, .ro, 0, .any, .na, .view, .plain⟩ -- PROGRESS_PERMILLE
  ]

/-- Entries 0x7___. -/
def dict7b : List DEntry :=
  [ ⟨0x7040, 1, 4, 1, .u32, 4, .ro, 0, .any, .na, .view, .plain⟩ -- PROGRESS_OPERATION
  , ⟨0x7040, 1, 5, 1, .u64, 8, .ro, 0, .any, .na, .view, .plain⟩ -- PROGRESS_STARTED
  , ⟨0x7040, 1, 6, 1, .u16, 2, .ro, 0, .any, .na, .view, .plain⟩ -- PROGRESS_LAST_ERROR
  , ⟨0x7040, 1, 7, 1, .u32, 4, .ro, 0, .any, .na, .view, .plain⟩ -- PROGRESS_RUNS
  , ⟨0x7040, 1, 8, 1, .wide, 40, .ro, 0, .any, .na, .view, .plain⟩ -- PROGRESS_SNAPSHOT
  , ⟨0x7050, 1, 0, 1, .u8, 1, .ro, 0, .any, .na, .view, .plain⟩ -- PROGRESS_STATE
  , ⟨0x7050, 1, 1, 1, .u64, 8, .ro, 0, .any, .na, .view, .plain⟩ -- PROGRESS_POSITION
  , ⟨0x7050, 1, 2, 1, .u64, 8, .ro, 0, .any, .na, .view, .plain⟩ -- PROGRESS_TOTAL
  , ⟨0x7050, 1, 3, 1, .u16, 2, .ro, 0, .any, .na, .view, .plain⟩ -- PROGRESS_PERMILLE
  , ⟨0x7050, 1, 4, 1, .u32, 4, .ro, 0, .any, .na, .view, .plain⟩ -- PROGRESS_OPERATION
  , ⟨0x7050, 1, 5, 1, .u64, 8, .ro, 0, .any, .na, .view, .plain⟩ -- PROGRESS_STARTED
  , ⟨0x7050, 1, 6, 1, .u16, 2, .ro, 0, .any, .na, .view, .plain⟩ -- PROGRESS_LAST_ERROR
  , ⟨0x7050, 1, 7, 1, .u32, 4, .ro, 0, .any, .na, .view, .plain⟩ -- PROGRESS_RUNS
  , ⟨0x7050, 1, 8, 1, .wide, 40, .ro, 0, .any, .na, .view, .plain⟩ -- PROGRESS_SNAPSHOT
  ]

/-- Entries 0x8___. -/
def dict8a : List DEntry :=
  [ ⟨0x8000, 1, 0, 4, .u8, 1, .ro, 0, .any, .na, .view, .plain⟩ -- ROLLBACK
  , ⟨0x8001, 1, 0, 1, .bool, 1, .gw, 0, .bool, .live, .view, .plain⟩ -- ROLLBACK_COMMIT
  , ⟨0x8002, 1, 0, 1, .blob, 32, .gw, 0, .any, .live, .view, .plain⟩ -- OWNER_DIGEST
  , ⟨0x8010, 1, 0, 21, .blob, 256, .ro, 0, .any, .na, .view, .table⟩ -- DEVICE_CERT
  , ⟨0x8011, 1, 0, 21, .blob, 256, .ro, 0, .any, .na, .view, .table⟩ -- ATTEST_CERT
  , ⟨0x8020, 1, 0, 1, .blob, 32, .wo, 0, .any, .live, .view, .plain⟩ -- ATTEST_NONCE
  , ⟨0x8021, 1, 0, 14, .blob, 256, .ro, 0, .any, .na, .view, .table⟩ -- ATTEST_REPORT
  , ⟨0x8030, 1, 0, 8, .blob, 32, .wo, 0, .any, .live, .view, .inst⟩ -- KEY_SLOT
  , ⟨0x8031, 1, 0, 1, .blob, 32, .wo, 0, .any, .live, .view, .plain⟩ -- FM_KEY
  , ⟨0x8040, 1, 0, 14, .blob, 256, .wo, 0, .any, .live, .view, .table⟩ -- DEBUG_TOKEN
  , ⟨0x8041, 1, 0, 1, .blob, 32, .ro, 0, .any, .na, .view, .plain⟩ -- DEBUG_NONCE
  , ⟨0x8041, 1, 1, 1, .bool, 1, .gw, 0, .bool, .live, .view, .plain⟩ -- DEBUG_ENABLE
  , ⟨0x8041, 1, 2, 1, .u8, 1, .ro, 0, .any, .na, .view, .plain⟩ -- DEBUG_LEVEL
  , ⟨0x8050, 1, 0, 1, .u32, 4, .rw, 0, .fwOffset, .live, .mc, .plain⟩ -- FW_OFFSET
  , ⟨0x8051, 1, 0, 1, .blob, 256, .wo, 0, .any, .live, .view, .plain⟩ -- FW_DATA
  , ⟨0x8052, 1, 0, 1, .bool, 1, .wo, 0, .bool, .live, .view, .plain⟩ -- FW_COMMIT
  ]

/-- The whole dictionary. -/
def dictTable : List DEntry :=
  dict1a ++ dict2a ++ dict2b ++ dict3a ++ dict4a ++ dict4b ++ dict4c ++ dict5a ++ dict6a ++ dict7a ++ dict7b ++ dict8a

/-- The row of an index:subindex, the row's instance range not yet checked. -/
def dictFind (idx sub : Nat) : Option DEntry :=
  dictTable.find? (fun e => decide (e.idx ≤ idx) && decide (idx < e.idx + e.idxN) &&
    (if e.scheme == .plain then decide (e.sub ≤ sub) && decide (sub < e.sub + e.subN) else true))

/-- The key of index:subindex in the image and in the management controller's tables. -/
def dkey (idx sub : Nat) : Nat := idx * 256 + sub

/-- The default of index:subindex (02 R35). -/
def dictDefault (key : Nat) : Nat :=
  match dictFind (key / 256) (key % 256) with
  | none => 0
  | some e => e.dflt

end Sys2Proof.Machine
end

