-- ==== Sys2Proof/Machine/Tables.lean ====
section
/-! DEFINITION. Reading and writing a sparse table (Sys2Proof.Sparse) in its one canonical form: keys strictly rising,
and no entry whose value is the default of its key. `d` gives what an unlisted key reads as. -/

namespace Sys2Proof.Machine

variable {α : Type}

/-- The value of key `k`. -/
def tget (d : Nat → α) : Sparse α → Nat → α
  | [], k => d k
  | (j, v) :: m, k => if k = j then v else if k < j then d k else tget d m k

/-- Remove key `k`. -/
def tdel : Sparse α → Nat → Sparse α
  | [], _ => []
  | (j, v) :: m, k => if k = j then m else if k < j then (j, v) :: m else (j, v) :: tdel m k

/-- Put `v` at key `k`, whatever `v` is. -/
def tput : Sparse α → Nat → α → Sparse α
  | [], k, v => [(k, v)]
  | (j, w) :: m, k, v =>
    if k = j then (j, v) :: m else if k < j then (k, v) :: (j, w) :: m else (j, w) :: tput m k v

/-- Write `v` at key `k`; the default of `k` is written by removing the entry. -/
def tset [DecidableEq α] (d : Nat → α) (m : Sparse α) (k : Nat) (v : α) : Sparse α :=
  if v = d k then tdel m k else tput m k v

/-- Keys strictly rising from above `lo` (none: no bound), no entry at its default. -/
def twfFrom [DecidableEq α] (d : Nat → α) : Option Nat → Sparse α → Bool
  | _, [] => true
  | lo, (k, v) :: m =>
    (match lo with | none => true | some b => decide (b < k)) && decide (v ≠ d k) && twfFrom d (some k) m

/-- The canonical form. -/
def twf [DecidableEq α] (d : Nat → α) (m : Sparse α) : Bool := twfFrom d none m

/-- Keep the entries whose key satisfies `p`; the others read as their default again. -/
def tkeep (p : Nat → Bool) (m : Sparse α) : Sparse α := m.filter (fun e => p e.1)

/-- Change the value of key `k` by `f`. -/
def tmod [DecidableEq α] (d : Nat → α) (m : Sparse α) (k : Nat) (f : α → α) : Sparse α :=
  tset d m k (f (tget d m k))

/-- The tables' usual defaults. -/
def d0 : Nat → Nat := fun _ => 0
def dW : Nat → Word := fun _ => 0
def dB : Nat → Byte := fun _ => 0
def dF : Nat → Bool := fun _ => false
def dN : Nat → Option α := fun _ => none

end Sys2Proof.Machine
end

