-- ==== Sys2Proof/Machine/Regs.lean ====
section
/-! DEFINITION. Where the registers lie: the register space of 02 R59 to R63, the place of each block instance, the key
under which the state keeps a register word, and the value each word takes at a cold boot. -/

namespace Sys2Proof.Machine

/-- Flat indices (00 R4). -/
def unitRegion (u : Nat) : Nat := u / 32
def unitCluster (u : Nat) : Nat := u / 4
def unitDie (u : Nat) : Nat := u / 128
def clusterRegion (c : Nat) : Nat := c / 8
def clusterDie (c : Nat) : Nat := c / 32
def regionDie (r : Nat) : Nat := r / 4
def stackDie (k : Nat) : Nat := k / 4
/-- Flat unit index of u of cluster c of flat region r, as bit c × 4 + u of a UNIT_MASK names it. -/
def regionUnit (r b : Nat) : Nat := r * 32 + b

/-- The hub's die number in every per-die table (02 R31). -/
def hubDie : Nat := 4

/-- Die and die-level offset of the first byte of block `b`, instance `i`: the die of a die-level block, the stack of
MEM_ and HAL_, die × 16,384 + index of a Cleat, the flat region, cluster or unit of the others. -/
def blkBase (b : Blk) (i : Nat) : Nat × Nat :=
  match b with
  | .errB => (i, 0)
  | .mgtB => (i, 0x10000)
  | .pwrB => (i, 0x20000)
  | .layB => (i, 0x30000)
  | .memB => (stackDie i, 0x40000 + i % 4 * 0x20000)
  | .halB => (stackDie i, 0x50000 + i % 4 * 0x20000)
  | .memHB => (hubDie, 0x200000)
  | .cltB => (i / 16384, 0x100000 + i % 16384 * 0x80)
  | .fabB => (i, 0x300000)
  | .ateDB => (i, 0x400000)
  | .rtrDB => (i, 0x410000)
  | .trkB => (i, 0x500000)
  | .stepB => (hubDie, 0x500000)
  | .wrkB => (regionDie i, 0x1000000 * (i % 4 + 1))
  | .ateCB => (clusterDie i, 0x1000000 * (clusterRegion i % 4 + 1) + 0x100000 * (i % 8 + 1))
  | .rtrCB => (clusterDie i, 0x1000000 * (clusterRegion i % 4 + 1) + 0x100000 * (i % 8 + 1) + 0x10000)
  | .twnB => unitBase i 0x0
  | .hwsB => unitBase i 0x4000
  | .splB => unitBase i 0x8000
  | .trnB => unitBase i 0xC000
  | .hidDB => (8 + i, 0)
  | .hidRB => (16 + i, 0)
where
  unitBase (u o : Nat) : Nat × Nat :=
    (unitDie u, 0x1000000 * (unitRegion u % 4 + 1) + 0x100000 * (unitCluster u % 8 + 1) + 0x20000 * (u % 4 + 1) + o)

/-- The block instance that die-level offset `off` of die `die` lies in, and the offset within it (02 R60, R61). -/
def locate (die off : Nat) : Option (Blk × Nat × Nat) :=
  if off < 0x10000 then some (.errB, die, off)
  else if off < 0x20000 then some (.mgtB, die, off - 0x10000)
  else if off < 0x30000 then some (.pwrB, die, off - 0x20000)
  else if off < 0x40000 then some (.layB, die, off - 0x30000)
  else if die < 4 && off < 0xC0000 then
    let k := die * 4 + (off - 0x40000) / 0x20000
    let x := (off - 0x40000) % 0x20000
    if x < 0x10000 then some (.memB, k, x) else some (.halB, k, x - 0x10000)
  else if 0x100000 ≤ off && off < (if die < 4 then 0x300000 else 0x180000) then
    some (.cltB, die * 16384 + (off - 0x100000) / 0x80, off % 0x80)
  else if die == 4 && 0x200000 ≤ off && off < 0x220000 then some (.memHB, 0, off - 0x200000)
  else if die == 4 && 0x500000 ≤ off && off < 0x502000 then some (.stepB, 0, off - 0x500000)
  else if die < 4 && 0x300000 ≤ off && off < 0x340000 then some (.fabB, die, off - 0x300000)
  else if die < 4 && 0x400000 ≤ off && off < 0x410000 then some (.ateDB, die, off - 0x400000)
  else if die < 4 && 0x410000 ≤ off && off < 0x420000 then some (.rtrDB, die, off - 0x410000)
  else if die < 4 && 0x500000 ≤ off && off < 0x580000 then some (.trkB, die, off - 0x500000)
  else if die < 4 && 0x1000000 ≤ off && off < 0x5000000 then
    let r := die * 4 + (off / 0x1000000 - 1)
    let x := off % 0x1000000
    if x < 0x100000 then some (.wrkB, r, x)
    else if 0x900000 ≤ x then none
    else
      let c := r * 8 + (x / 0x100000 - 1)
      let y := x % 0x100000
      if y < 0x10000 then some (.ateCB, c, y)
      else if y < 0x20000 then some (.rtrCB, c, y - 0x10000)
      else if 0xA0000 ≤ y then none
      else
        let u := c * 4 + (y / 0x20000 - 1)
        let z := y % 0x20000
        if z < 0x4000 then some (.twnB, u, z)
        else if z < 0x8000 then some (.hwsB, u, z - 0x4000)
        else if z < 0xC000 then some (.splB, u, z - 0x8000)
        else if z < 0x10000 then some (.trnB, u, z - 0xC000)
        else none
  else none

/-- The register (with the element of an array) whose word lies at local offset `x` of a block on a ply die or the hub. -/
def regIn (rs : List RegDef) (onHub : Bool) (x : Nat) : Option (RegDef × Nat) :=
  match rs with
  | [] => none
  | d :: ds =>
    if (if onHub then d.hub else d.ply) && decide (d.off ≤ x) && (x - d.off) % d.stride == 0
        && decide ((x - d.off) / d.stride < d.count)
    then some (d, (x - d.off) / d.stride) else regIn ds onHub x

/-- The register at a die-level offset: its definition, the block instance and the array element. -/
def regAt (die off : Nat) : Option (RegDef × Nat × Nat) :=
  match locate die off with
  | none => none
  | some (b, i, x) =>
    match regIn (blkRegs b) (die == 4) x with
    | none => none
    | some (d, e) => some (d, i, e)

/-- Die and die-level offset of a register's word. -/
def regPlace (r : Reg) (i e : Nat) : Nat × Nat :=
  let d := regDef r
  let b := blkBase d.blk i
  (b.1, b.2 + d.off + d.stride * e)

/-- The key of the word at a die-level offset. -/
def offKey (die off : Nat) : Nat := die * 2 ^ 28 + off / 4

/-- The key of a register's word. -/
def regKey (r : Reg) (i e : Nat) : Nat :=
  let p := regPlace r i e
  offKey p.1 p.2

/-- The FP32 defaults of a hyperparameter set, by word (11 R369). -/
def hpReset : Nat → Word
  | 1 => 0x3F666666#32
  | 2 => 0x3F7FBE77#32
  | 3 => 0x0D800000#32
  | 4 => 0x3F800000#32
  | 6 => 0x3F800000#32
  | _ => 0#32

/-- What a register word that nothing has written reads as: its value after a cold boot. -/
def regReset (key : Nat) : Word :=
  match regAt (key / 2 ^ 28) (key % 2 ^ 28 * 4) with
  | none => 0#32
  | some (d, _, e) => if d.name == .halHp then hpReset (e % 8) else BitVec.ofNat 32 d.reset

end Sys2Proof.Machine
end

