-- ==== Sys2Proof/Machine/State.lean ====
section
/-! DEFINITION. The state of the block: every register, buffer, ring, table, counter, mode and pin the spec gives the
package, as plain data, with the queue of waiting commands; and the state right after reset. Each field names the rule
that gives it and its reset value. Sparse tables list only what differs from the value an unlisted key reads as. -/

namespace Sys2Proof.Machine

/-- Why the machine stops. No meaning of this model raises one: every command the spec describes has an effect, and an
event whose condition does not hold leaves the state as it is (log entry 2). -/
inductive Fault where
  /-- never raised; it stands for a command that the spec would let stop the package with no state described (safe). -/
  | halted
  deriving DecidableEq, Repr

/-- Why a command has no meaning in the model. -/
inductive Refusal where
  /-- raised by Dispatch alone, for a command whose meaning is not written yet (safe). -/
  | notModelled (mnemonic : String)
  deriving DecidableEq, Repr

/-! ### What leaves the block -/

/-- One thing the block sent out. -/
inductive Out where
  /-- data returned to an initiator's load (02 R62) -/
  | busData (ini value : Nat)
  /-- a bus error to an initiator (02 R62, 12 R374, R565) -/
  | busError (ini : Nat)
  /-- an interrupt to application core `core`: which block raised it, and what names the event -/
  | irq (core cause detail : Nat)
  /-- an Agrex response from a management port to a source (02 R41, R48) -/
  | agrex (port dest opcode session seq status flags : Nat) (payload tag : List Byte)
  /-- a packet whose cells have left in frames on a fabric port (13 R413) -/
  | packet (port : Nat) (pkt : Packet)
  /-- a frame sent on a fabric port (13 R412) -/
  | frame (port : Nat) (f : Frame)
  /-- bytes read by the I3C controller, and an in-band interrupt of the I3C target (17 R558, R559) -/
  | i3c (data : List Byte)
  | ibi (bits : Nat)
  deriving DecidableEq, Repr

/-! ### Registers, the guard slots, the local dictionary port, the mailboxes (02) -/

/-- A guard slot of one initiator on one die, armed (02 R65). -/
structure Guard where
  /-- die-level offset the slot is armed for -/
  off : Nat
  /-- the complement that was written to the guard mirror, and its bytes, 4 or 8 -/
  comp : Nat
  width : Nat
  /-- core cycle of the guard write -/
  at' : Nat
  deriving DecidableEq, Repr

/-- One initiator's bank of the local dictionary port (02 R56, R57, R58). -/
structure DicBank where
  /-- MGT_DIC_DATA; reset DESIGN CHOICE 0 -/
  data : DWord := 0
  /-- MGT_DIC_GUARD; reset DESIGN CHOICE 0 -/
  guard : DWord := 0
  /-- MGT_DIC_BUF, 256 bytes, little-endian, byte 0 lowest; reset DESIGN CHOICE 0 -/
  buf : Nat := 0
  /-- MGT_DIC_STAT [31] -/
  done : Bool := false
  /-- MGT_DIC_STAT [30] -/
  busy : Bool := false
  /-- MGT_DIC_STAT [29] -/
  stale : Bool := false
  /-- MGT_DIC_STAT [23:16] -/
  status : Nat := 0
  /-- MGT_DIC_STAT [15:0] -/
  length : Nat := 0
  /-- the outcome of the command in progress, shown when it finishes: status, length, stale, value read and whether it goes to the buffer -/
  pendStatus : Nat := 0
  pendLength : Nat := 0
  pendStale : Bool := false
  pendValue : Option (Nat × Bool) := none
  deriving DecidableEq, Repr

/-- One initiator's bank of one die's wide-value mailbox (02 R69, R71). -/
structure MbxBank where
  /-- MGT_MBX_ARG; reset DESIGN CHOICE 0 -/
  arg : Word := 0
  /-- MGT_MBX_STAT [31] -/
  valid : Bool := false
  /-- MGT_MBX_STAT [30] -/
  busy : Bool := false
  /-- MGT_MBX_STAT [29] -/
  err : Bool := false
  /-- MGT_MBX_STAT [23:16] -/
  error : Nat := 0
  /-- MGT_MBX_STAT [15:8] -/
  seq : Nat := 0
  /-- the words captured; they read zero while BUSY is 1 -/
  data : List DWord := []
  /-- the ERROR code of the capture in progress, 0 when it will be VALID -/
  pendError : Nat := 0
  deriving DecidableEq, Repr

/-- A slot of the key record (15 R516): the key, and the number of times the slot was written. -/
structure KeySlot where
  key : List Byte
  ver : Nat
  deriving DecidableEq, Repr

/-! ### Agrex sessions and ownership (02 R42 to R51; 15 R516, R517) -/

/-- One Agrex session (02 R46, R49). -/
structure Session where
  /-- SESSION identifier -/
  id : Nat
  /-- the 32-byte session key -/
  key : List Byte
  /-- the expected sequence number E -/
  expected : Nat
  /-- the cached response of request E − 1: opcode, status, flags, payload -/
  cached : Option (Nat × Nat × Nat × List Byte)
  /-- core cycle of the last authenticated request -/
  lastAt : Nat
  deriving DecidableEq, Repr

/-! ### Error records (14 R461 to R466) -/

/-- An error record (14 R461). -/
structure ErrRec where
  lay : Nat
  seq : Nat
  src : Nat
  sev : Nat
  level : Nat
  action : Nat
  index : Nat
  gen : Nat
  payload : Nat
  deriving DecidableEq, Repr

/-- One die's error ring and the bookkeeping beside it (14 R463 to R465). -/
structure ErrDie where
  /-- ERR_HEAD, free-running; reset 0 (14 R497: cleared by a package warm reset) -/
  head : Word := 0
  /-- ERR_TAIL; reset 0 -/
  tail : Word := 0
  /-- SEQ of the die's next record; reset DESIGN CHOICE 0 -/
  seq : BitVec 16 := 0
  /-- ERR_REC0–255; reset DESIGN CHOICE: nothing recorded, reads zero -/
  recs : Sparse (Option ErrRec) := []
  /-- ERR_STAT OVERFLOW; reset 0 -/
  overflow : Bool := false
  /-- ERR_STAT LOST_SEV; reset 0 -/
  lostSev : Nat := 0
  /-- ERR_STAT FIRST_LOST_SRC; reset 0 -/
  firstLost : Nat := 0
  /-- the management controller's copy, newest first, at most 256; reset DESIGN CHOICE empty -/
  copy : List ErrRec := []
  /-- corrected records written in the present Lay second, by source: (SRC, second, count); reset DESIGN CHOICE empty -/
  corrected : List (Nat × Nat × Nat) := []
  deriving DecidableEq, Repr

/-! ### Reset domains and the Fids (14 R471 to R488) -/

/-- A recovery a Fid runs or holds queued (14 R473, R487). -/
structure Recovery where
  dom : Dom
  /-- step of R473, 1–7 -/
  step : Nat
  /-- Lay time of step 1 -/
  began : Nat
  /-- keys of the Snarl captures it took; none when skipped -/
  snarl : List Nat
  /-- generation of the domain before step 1 -/
  genBefore : Nat
  /-- Lay time at which step 2 began -/
  from2 : Nat
  /-- SEQ and SRC of the causing record -/
  causeSeq : Nat
  causeSrc : Nat
  /-- the event came from the die's HBM (14 R479) -/
  fromHbm : Bool
  /-- the requests of the domain were drained (step 3 ended) -/
  drained : Bool
  /-- cycle of step 1 -/
  beganCyc : Nat
  deriving DecidableEq, Repr

/-- A Fid: 0–3 of the ply dies, 4 of the hub (14 R471, R487). -/
structure Fid where
  /-- the recovery in progress; reset none -/
  active : Option Recovery := none
  /-- queued recoveries in order of detection, at most 16; reset none -/
  queue : List Recovery := []
  deriving DecidableEq, Repr

/-- A Snarl slot's capture (14 R478 to R482). -/
structure Snarl where
  /-- ply die it belongs to -/
  die : Nat
  lay : Nat
  seq : Nat
  dom : Dom
  genBefore : Nat
  genAfter : Nat
  causeSeq : Nat
  causeSrc : Nat
  /-- 1 die area, 2 fallback area -/
  loc : Nat
  slot : Nat
  acked : Bool
  trunc : Bool
  poisoned : Bool
  escalated : Bool
  length : Nat
  sections : Nat
  layDone : Nat
  durUs : Nat
  deriving DecidableEq, Repr

/-- One live entry of the suspicion filter (14 R489). -/
structure Suspect where
  id : Nat
  pgen : Nat
  /-- Lay time of the report that created it -/
  at' : Nat
  held : Nat
  cause : Nat
  deriving DecidableEq, Repr

/-! ### Work items (03) -/

/-- The state of one wait slot of an item (03 R94, R111). -/
inductive WaitSt where
  | off | registered | satisfied | discarded
  deriving DecidableEq, Repr

/-- The stage of a scheduler slot's item (03, stage table). -/
inductive Stage where
  | admitted | ready | running | finished | recordWaiting
  deriving DecidableEq, Repr

/-- The eight counters of a completion record (03 R113, 04 R159). -/
structure Counts where
  saturated : Nat := 0
  flushed : Nat := 0
  clipped : Nat := 0
  zeros : Nat := 0
  nonfinite : Nat := 0
  escaped : Nat := 0
  outlierOvf : Nat := 0
  zeroBlocks : Nat := 0
  deriving DecidableEq, Repr

/-- What an item's run left for its completion (03 R113 to R115). -/
structure Result where
  /-- the status codes that apply, each with its DETAIL (R115 chooses the one shown); share checks, non-finite faults,
  discards and undelivered signals are added at the completion -/
  statuses : List (Nat × Nat) := []
  poison : Bool := false
  partialOut : Bool := false
  counts : Counts := {}
  /-- LONG128 value for RESULT_SLOT and whether it is poisoned (R90, R122) -/
  result : Option (Quad × Bool) := none
  /-- amax of the watched outputs, as an FP32 code (07 R217) -/
  amax : Nat := 0
  /-- elements written, for the shares of 07 R222 -/
  elements : Nat := 0
  /-- some output was written in FMT 0x0–0xB, so that the thresholds are checked (07 R223) -/
  shares : Bool := false
  /-- elements and counts of the watched streams, where the item has outputs beside them (07 R214, R217) -/
  watched : Option (Nat × Counts) := none
  /-- a SCALE_FAULT under 04 R150 applies -/
  nonfin : Bool := false
  /-- for each instance of the engine it ran on: the low fields of its STAT word while the item drains (chunk, page, tokens or record
  last worked), and of TRN_STAT -/
  stat : List Nat := []
  turn : List Nat := []
  deriving DecidableEq, Repr

/-- What a walker pinned (10 R309): the record's DIR, LEN, LAST_POS, LAYOUT and the REF word it signalled. -/
structure Pin where
  dir : Nat
  len : Nat
  lastPos : Nat
  layout : Nat
  ref : Nat
  /-- the record's line was poisoned -/
  bad : Bool
  deriving DecidableEq, Repr

/-- A token in a spill slot (10 R319): its row's bits. -/
structure SpillTok where
  seq : Nat
  layer : Nat
  index : Nat
  pos : Nat
  /-- coarse scale of the page it goes to, an FP32 code -/
  coarse : Nat
  /-- elements of K and of V, and per block the scale byte and outlier entries -/
  kBytes : List Byte
  kBlocks : List (Nat × List Nat)
  vBytes : List Byte
  vBlocks : List (Nat × List Nat)
  poison : Bool
  /-- die whose unit wrote it (R317), and the item: region and count -/
  die : Nat
  region : Nat
  item : Nat
  deriving DecidableEq, Repr

/-- A work item in a scheduler slot (03). -/
structure Item where
  /-- the 128-byte descriptor, little-endian -/
  raw : Nat
  /-- its count in the submission ring, which orders items (R93) -/
  count : Nat
  stage : Stage
  w0 : WaitSt
  w1 : WaitSt
  /-- the Lay gate is open, or the item is not TIMED (R96) -/
  gateOpen : Bool
  /-- units the item runs on, as in UNIT_MASK (R83) -/
  units : Nat
  /-- region generation at admission (R113) -/
  gen : Nat
  /-- Lay time of the start, none while it has not started (R113) -/
  start : Option Nat
  startCyc : Nat
  admitCyc : Nat
  /-- cycle of the last progress, for the Telltales of 14 R467 -/
  progCyc : Nat
  late : Bool
  retried : Bool
  chained : Bool
  /-- the prepass of 07 R238: 0 none, 1 to run, 2 waiting between the passes, 3 done -/
  prepass : Nat
  /-- register words latched at the start, for Boundary fields (02 R74) -/
  latched : List Word
  /-- bytes of fetch blocks that have arrived, by device address, and their poisoned lines (R99) -/
  fetched : Sparse (Option Byte)
  fetchedPoison : Sparse Bool
  /-- fetch blocks queued per stream A–D (R100) -/
  queued : List Nat
  /-- WRK_RUNAHEAD as it stood at the start, a Boundary field (R100, 02 R74) -/
  runahead : Nat
  /-- a near-memory operation was issued (07 R243) -/
  nmIssued : Bool
  /-- what its operations at the controllers left: a poisoned result, saturations (11 R362, R367) -/
  nmPoison : Bool
  nmSats : Nat
  /-- an output was written -/
  wrote : Bool
  /-- Bowline seed and stream identifier taken at admission (08 R254, R255) -/
  seed : Nat
  bwl : Nat
  /-- the predicate was evaluated true (R97) -/
  predDone : Bool
  /-- how the step slot counts the item: 0 not, 1 in OUTSTANDING, 2 in GATED (07 R231, R236) -/
  counted : Nat
  /-- FMT of stream C, for OFMT -/
  ofmt : Nat
  /-- the completion record that waits: ring, its 512 bits, and whether a recovery holds it (R116, R119) -/
  waiting : Option (Nat × Nat × Bool)
  /-- order of completion, for waiting records (R117) -/
  doneSeq : Nat
  /-- cycle from which the item waits on a spill or a pin, none when it does not (10 R321, R322) -/
  waitCyc : Option Nat
  /-- the record snapshot its walker holds (10 R309) -/
  pin : Option Pin
  res : Result
  deriving DecidableEq, Repr

/-- A wait a core armed (03 R110). -/
structure Arm where
  core : Nat
  die : Nat
  index : Nat
  thr : Nat
  deriving DecidableEq, Repr

/-- The operations that change a Cleat. -/
inductive CleatOp where
  | signal (n : Nat)
  | decrement (n : Nat)
  | set (v : Nat)
  deriving DecidableEq, Repr

/-- A Cleat operation that waits for a die on its way to recover (01 R12; 14 R475). -/
structure HeldOp where
  /-- issuing die -/
  issuer : Nat
  die : Nat
  index : Nat
  op : CleatOp
  deriving DecidableEq, Repr

/-! ### Memory and the far tier (12) -/

/-- A progress object (02 R77). -/
structure Progress where
  /-- 0 IDLE, 1 RUNNING, 2 DONE, 3 FAILED, 4 ABORTED, 5 PAUSED -/
  state : Nat := 0
  position : Nat := 0
  total : Nat := 0
  operation : Nat := 0
  started : Nat := 0
  lastError : Nat := 0
  runs : Nat := 0
  deriving DecidableEq, Repr

/-- A CXL root port (12 R394, R398). -/
structure FarPort where
  /-- a device is attached and enumerated -/
  present : Bool := false
  /-- its capacity in bytes, at most 2 TiB -/
  capacity : Nat := 0
  up : Bool := false
  lanes : Nat := 0
  gts : Nat := 0
  /-- cycle at which the link went down, for the retrain every 100 ms -/
  downCyc : Nat := 0
  deriving DecidableEq, Repr

/-- The memory of the package (12). Bytes lie at physical places (Ops.lean), so that the map may be moved while it is
unlocked. -/
structure Mem where
  /-- bytes; an unlisted byte reads 0 (DESIGN CHOICE: the spec gives no contents after power-on) -/
  bytes : Sparse Byte := []
  /-- lines, by physical line number, that carry the poison marking (12 R383) or CXL poison; reset DESIGN CHOICE none -/
  poison : Sparse Bool := []
  /-- the map is locked (12 R380); reset false -/
  mapLocked : Bool := false
  /-- FAR_INTERLEAVE in force (12 R395); reset false -/
  farInterleave : Bool := false
  far0 : FarPort := {}
  far1 : FarPort := {}
  /-- stacks trained, in self-refresh (12 R402), by stack; reset not trained -/
  trained : Sparse Bool := []
  selfRef : Sparse Bool := []
  /-- lines with corrections per pin in the present scrub pass (12 R386): key (stack × 64 + pc) × 36 + pin; reset DESIGN CHOICE empty -/
  pinLines : Sparse (List Nat) := []
  /-- pins, by the same key, that reached the threshold in the present scrub pass (12 R386); reset DESIGN CHOICE none -/
  pinDone : Sparse Bool := []
  /-- MEM_SCRUB_POS, by stack (12 R390); reset 0 -/
  scrubPos : Sparse Nat := []
  /-- CE records written in the present Lay second, by stack: (second, count) (12 R388); reset DESIGN CHOICE none -/
  ceSec : Sparse (Nat × Nat) := []
  /-- lines of expired writes waiting for their poison marking (14 R470), physical line numbers; reset DESIGN CHOICE none -/
  markDue : List Nat := []
  /-- the drain that passed its checks waits for DRAIN_AT (true) or copies (false) (12 R400); reset false -/
  drainWaits : Bool := false
  /-- extents of the drain in progress: source, destination, length; reset none -/
  drainList : List (Nat × Nat × Nat) := []
  deriving DecidableEq, Repr

/-! ### Splice trackers and step slots (07) -/

/-- A tracker of the package's table (07 R215 to R220): local tracker i of die d is number d × 4,096 + i. Its CFG and
INIT words are registers. -/
structure Tracker where
  held : Bool := false
  slot : Nat := 0
  /-- charged in the last failed attempt, or already in the present one -/
  faulted : Bool := false
  /-- charged in the present attempt -/
  faultNow : Bool := false
  prepass : Bool := false
  /-- the attempt takes its scale from PREMAX (R218, R238) -/
  usePre : Bool := false
  nonfin : Bool := false
  /-- producer items contributed in the current attempt -/
  items : Nat := 0
  /-- h of the current attempt, FP32 code -/
  hmax : Nat := 0
  stepmax : Nat := 0
  premax : Nat := 0
  preDone : Nat := 0
  producers : Nat := 0
  elems : Nat := 0
  counts : Counts := {}
  /-- history, newest first, FP32 codes, at most 16 -/
  hist : List Nat := []
  deriving DecidableEq, Repr

/-- A step slot of the hub's step table (07 R226 to R236). NUM, EPOCH, COMMIT, OUTCOME and BWL are registers; the latched
values are here. -/
structure StepSlot where
  /-- STATE: 0 FREE, 1 OPEN, 2 VOTING, 3 COMMITTED, 4 REPLAY, 5 EXHAUSTED, 6 IN_DOUBT, 7 ABANDONED -/
  state : Nat := 0
  attempt : Nat := 0
  outstanding : Nat := 0
  /-- FAULT bits [7:0] (R230) -/
  fault : Nat := 0
  fitems : Nat := 0
  vote : Nat := 0
  gated : Nat := 0
  /-- latched at OPEN -/
  num : Nat := 0
  epoch : Nat := 0
  bwl : Nat := 0
  /-- policy values latched at OPEN or REOPEN (R249): index of the entry and its value -/
  policy : List (Nat × Nat) := []
  /-- layers charged in this attempt and in any attempt of the step (R240, R241) -/
  charged : List Nat := []
  chargedAny : List Nat := []
  /-- cycle of the vote's start, and of the entry to IN_DOUBT (R247, R248) -/
  voteCyc : Nat := 0
  doubtCyc : Nat := 0
  /-- members asked in doubt that have not answered, and members still to be asked (R247, 13 R440) -/
  asked : List Nat := []
  toAsk : List Nat := []
  deriving DecidableEq, Repr

/-- The widening records of one layer (07 R240). -/
structure LayerRec where
  /-- step numbers of the charged faults, newest first, at most 16 -/
  steps : List Nat := []
  /-- step at which the layer narrows again; 0 when narrow -/
  until' : Nat := 0
  narrowedAt : Option Nat := none
  dur : Nat := 0
  deriving DecidableEq, Repr

/-! ### The fabric (13) -/

/-- An entry of the peer table (13 R420). -/
structure Peer where
  /-- 0 ABSENT, 1 MEMBER, 2 SUSPECT, 3 RETIRED -/
  state : Nat := 0
  pgen : Nat := 0
  since : Nat := 0
  deriving DecidableEq, Repr

/-- A packet sent and not yet acknowledged with DELIVERED (13 R418). -/
structure Send where
  seq : Nat
  /-- TYPE of the packet -/
  kind : Nat
  dst : Nat
  /-- region and slot of the item that sent it -/
  region : Nat
  slot : Nat
  /-- which signal slot, for a CLEAT_OP -/
  sig : Nat
  at' : Nat
  deriving DecidableEq, Repr

/-- A reduction plan as a fabric item read it at admission (13 R427). -/
structure Plan where
  epoch : Nat
  p : Nat
  levels : Nat
  radix : Nat
  sizes : List Nat
  members : List Nat
  deriving DecidableEq, Repr

/-- A part of a COLL_DATA body that takes several packets: sender, bytes 0 to 11 of the body, part number, bytes, poison. -/
structure Frag where
  src : Nat
  key : List Byte
  part : Nat
  bytes : List Byte
  poison : Bool
  deriving DecidableEq, Repr

/-- A collective that runs here: what its item has formed, received and not yet sent (13 R428 to R438). Levels 0 to 2 are
the rings, level 3 is the tree. -/
structure Coll where
  id : Nat
  /-- an exact collective, over the tree -/
  tree : Bool
  plan : Plan
  /-- this package's rank -/
  rank : Nat
  /-- COLL_READYs received: level and rank of the sender -/
  ready : List (Nat × Nat) := []
  /-- frames formed and not yet sent: level, rank of the receiver, body, poison -/
  outq : List (Nat × Nat × List Byte × Bool) := []
  /-- val(level, line): FP32 codes with poison marks, by level × 2^32 + line -/
  vals : Sparse (List (Nat × Bool)) := []
  /-- residuals of the level-0 sends, FP32 codes with poison marks, by line -/
  resid : Sparse (List (Nat × Bool)) := []
  /-- gathered frames, by line -/
  got : Sparse (List Byte) := []
  /-- tree values from children and of this member: rank, codes with poison marks -/
  parts : List (Nat × List (Nat × Bool)) := []
  /-- the tree's result as it came down -/
  down : Option (List (Nat × Bool)) := none
  /-- elements that an addition here limited to the largest magnitude: by line, of the residuals by 2^32 + line, of the tree by 2^33 -/
  lim : Sparse (List Bool) := []
  /-- parts of COLL_DATA bodies that take several packets -/
  frags : List Frag := []
  deriving DecidableEq, Repr

/-- The hub's exchange of one commit vote (13 R439). -/
structure VoteX where
  slot : Nat
  num : Nat
  attempt : Nat
  collId : Nat
  plan : Plan
  rank : Nat
  resultSlot : Nat
  /-- item that started it -/
  region : Nat
  item : Nat
  /-- this package's contribution, LONG128 code -/
  own : Nat
  /-- contributions received: rank and LONG128 code -/
  got : List (Nat × Nat) := []
  /-- COLL_READYs received, by rank -/
  ready : List Nat := []
  /-- the subtree's sum has gone to the parent, or, at rank 0, the sum has been formed -/
  passed : Bool := false
  deriving DecidableEq, Repr

/-- A fabric port beside its registers (13 R408 to R414, R423). -/
structure Port where
  /-- failed starts since the port was last enabled or told to retrain -/
  starts : Nat := 0
  /-- cycle of the present start -/
  trainCyc : Nat := 0
  /-- frame last received in order, and whether a replay is awaited -/
  rxSeq : Nat := 0
  rxWait : Bool := false
  /-- frame last sent, and last acknowledged -/
  txSeq : Nat := 0
  txAck : Nat := 0
  /-- frames sent and not acknowledged: number, and its cells, each a packet and the cell's place in it -/
  kept : List (Nat × List (Packet × Nat)) := []
  /-- replays in a row -/
  replays : Nat := 0
  /-- cycle of the last frame received -/
  rxCyc : Nat := 0
  /-- port lanes that failed, out of use until a full retrain -/
  failed : List Nat := []
  /-- packets that wait for their turn and for credit -/
  queue : List Packet := []
  /-- cells sent in each VC, the neighbour's cumulative credits, and the cells received in each VC and passed on -/
  txCells : Vcs := {}
  txLim : Vcs := {}
  rxCells : Vcs := {}
  /-- cycle since which packets of each VC wait with no credit returned (14 R467) -/
  since : Vcs := {}
  /-- bytes of the packet whose last cell has not come yet -/
  rxBuf : List Byte := []
  /-- codewords of the port's stream sent and received, and the scrambler state of each port lane, oldest bit at bit 0 (R411) -/
  txCw : Nat := 0
  rxCw : Nat := 0
  txScr : List Nat := [0, 0, 0, 0, 0, 0, 0, 0]
  rxScr : List Nat := [0, 0, 0, 0, 0, 0, 0, 0]
  /-- uncorrectable codewords of the last millisecond: lane and cycle (R409) -/
  ucw : List (Nat × Nat) := []
  /-- what the neighbour's HELLO reported: package generation, Lay state, Lay parent port, ERR_NS -/
  nbrGen : Nat := 0
  nbrLay : Nat := 0
  nbrParent : Nat := 0xFF
  nbrErr : Nat := 0xFFFFFFFF
  deriving DecidableEq, Repr

/-! ### Lay time (13) -/

/-- The Lay unit and its replicas (13 R443 to R450). -/
structure Lay where
  /-- Lay time, [63:32] seconds and [31:0] fraction; reset 0 -/
  now : Nat := 0
  /-- part of a unit carried from cycle to cycle, in fine units (Tick.layFine to one Lay unit); reset 0 -/
  rem : Nat := 0
  /-- 0 FREE, 1 ACQUIRING, 2 LOCKED, 3 HOLDOVER; reset 0 -/
  state : Nat := 0
  /-- port taken from under FABRIC, 0xFF none; reset 0xFF -/
  parent : Nat := 0xFF
  /-- last measured offset, ns; reset 0 -/
  offset : Int := 0
  /-- offset still to be slewed, fine units; reset 0 -/
  slew : Int := 0
  /-- fine units still to be run out at half rate; reset 0 -/
  back : Nat := 0
  /-- consecutive offsets below 50 ns; reset 0 -/
  good : Nat := 0
  /-- seconds written to LAY_SET, for the next PPS edge; reset none -/
  setSec : Option Nat := none
  /-- LAY_REF is missing; reset false -/
  refLost : Bool := false
  /-- cycle of the last PPS edge; reset 0 -/
  ppsCyc : Nat := 0
  /-- ERR_NS at entry to HOLDOVER, else the parent's ERR_NS under FABRIC; and the cycle of the entry; reset 0 -/
  errNs : Nat := 0
  errCyc : Nat := 0
  /-- cycle of the last millisecond exchange; reset 0 -/
  syncCyc : Nat := 0
  deriving DecidableEq, Repr

/-! ### Start-up, firmware and security (15) -/

/-- A copy of the boot-attempt record (15 R505). -/
structure BootRec where
  seq : Nat
  attempts : Nat
  active : Nat
  /-- FAILED, newest first: stage × 2^16 + reason -/
  failed : List Nat
  /-- FAILED holds an entry written since ATTEMPTS was last raised (R506) -/
  noted : Bool
  deriving DecidableEq, Repr

/-- What is known of a firmware slot (15 R511). -/
structure SlotInfo where
  verified : Bool := false
  /-- kinds present, bit per KIND, and the lowest SVN -/
  kinds : Nat := 0
  svn : Nat := 0
  deriving DecidableEq, Repr

/-- The start in progress or the last one, and what lives in fuses and in the boot flash (15). -/
structure Boot where
  /-- PWR_GOOD is high; reset true: the machine right after reset is at the rising edge of PWR_GOOD -/
  power : Bool := true
  /-- BRD_RST_N has reset the package and is still low (17 R557); reset false -/
  boardLow : Bool := false
  /-- MGT_STRAP (15 R501); reset DESIGN CHOICE 0: every strap tied low -/
  straps : Nat := 0
  /-- BOOT_STAGE, 0–7 (15 R508); reset 0 -/
  stage : Nat := 0
  /-- cycle at which the start and the present stage began; reset 0 -/
  began : Nat := 0
  stageCyc : Nat := 0
  /-- the start in progress is a package warm reset (15 R509); reset false -/
  warm : Bool := false
  /-- BOOT_MS; reset 0 -/
  bootMs : Nat := 0
  /-- Bitter-end mode and its cause (15 R511); reset false, 0 -/
  bitter : Bool := false
  cause : Nat := 0
  /-- slot whose images run or are tried, and the other one has been tried (15 R507); reset 0, false -/
  slot : Nat := 0
  second : Bool := false
  /-- ATTEMPTS before the start in progress (15 R506); reset 0 -/
  before : Nat := 0
  /-- the two copies of the boot-attempt record (15 R505); reset DESIGN CHOICE: the first holds a fresh record -/
  copy0 : Option BootRec := some ⟨0, 0, 0, [0, 0, 0], false⟩
  copy1 : Option BootRec := none
  /-- starts since manufacture, which names the debug nonce of each; reset 0 -/
  starts : Nat := 0
  /-- bytes of the boot flash in the two firmware slots, by flash address (15 R502); reset DESIGN CHOICE: 0 -/
  flash : Sparse Byte := []
  /-- SLOT_STATE of slots A and B (15 R511); reset DESIGN CHOICE not VERIFIED -/
  slotA : SlotInfo := {}
  slotB : SlotInfo := {}
  /-- anti-rollback counters of KIND 1–4 (15 R513), a fuse value; reset DESIGN CHOICE 0 -/
  rollback : List Nat := [0, 0, 0, 0]
  /-- OWNER_DIGEST (15 R504), a fuse value; reset DESIGN CHOICE blank -/
  ownerDigest : Option (List Byte) := none
  /-- nonce of the attestation report being made, and the cycle of its request (15 R515); reset none -/
  nonce : Option (List Byte) := none
  nonceCyc : Nat := 0
  /-- ATTEST_REPORT; reset empty -/
  report : List Byte := []
  /-- pieces of DEBUG_TOKEN, by subindex (15 R518); reset empty -/
  token : Sparse (List Byte) := []
  /-- debug level in force, 0 none; reset 0 -/
  debug : Nat := 0
  /-- debug level that the warm reset in progress will bring into force; reset 0 -/
  debugNext : Nat := 0
  /-- address and length of the context save or restore in progress (15 R520); reset 0 -/
  ctxAddr : Nat := 0
  ctxLen : Nat := 0
  deriving DecidableEq, Repr

/-! ### Power, temperatures, ageing, pins and the sideband (16, 17) -/

/-- The governor's state for one region (16 R526 to R537). -/
structure RegionPwr where
  /-- POINT; reset 0 (16 R544) -/
  point : Nat := 0
  /-- TOP and TCAP; reset 18 -/
  top : Nat := 18
  tcap : Nat := 18
  /-- GATE: g of 16 R527, 0 when not gated; reset 0 -/
  gate : Nat := 0
  /-- g for the budget alone, 0 when not gated for it (16 R527, R541); reset 0 -/
  budgetGate : Nat := 0
  /-- its voltages have been planned (16 R537); reset false -/
  planned : Bool := false
  /-- hottest sensor, 1/16 °C; reset DESIGN CHOICE 0 -/
  temp : Int := 0
  /-- 10 µs intervals for which the region has been above its limit, below it, above the critical limit, below point 18; reset 0 -/
  hot : Nat := 0
  cool : Nat := 0
  crit : Nat := 0
  low : Nat := 0
  deriving DecidableEq, Repr

/-- A stack's temperature (16 R533, R534). -/
structure StackPwr where
  /-- 1/16 °C; reset DESIGN CHOICE 0 -/
  temp : Int := 0
  /-- cycle from which it is above 105 °C; reset none -/
  critCyc : Option Nat := none
  /-- its refresh rate is doubled; reset false -/
  refresh : Bool := false
  deriving DecidableEq, Repr

/-- A unit's ageing sums (16 R539, R540). -/
structure UnitAge where
  /-- S1 and S2, F32 codes; reset 0 -/
  s1 : Nat := 0
  s2 : Nat := 0
  /-- last Δ, per 65,536, and the number of samples; reset 0 -/
  delta : Nat := 0
  count : Nat := 0
  deriving DecidableEq, Repr

/-- Power, temperatures and ageing (16). -/
structure Power where
  /-- the floor F, in 1/100 W; reset 0 (16 R529) -/
  floor : Nat := 0
  /-- ramp entry in progress; reset none -/
  active : Option Nat := none
  /-- hold of each ramp entry: satisfied once its Cleat reached the threshold (16 R530); reset false -/
  holdMet : Sparse Bool := []
  /-- package draw of the last 100 intervals of 10 µs, W, newest first; reset empty -/
  draws : List Nat := []
  /-- draw of the ballast, W; reset 0 -/
  ballast : Nat := 0
  /-- a fall below F is not held (16 R541); reset false -/
  breach : Bool := false
  /-- cycle of the fast trip within whose 100 µs the package is; reset none -/
  tripCyc : Option Nat := none
  /-- by region -/
  regions : Sparse RegionPwr := []
  /-- by stack -/
  hbm : Sparse StackPwr := []
  /-- sensors, 1/16 °C, by die × 20 + sensor, the hub's from 80 on; reset DESIGN CHOICE 0 -/
  sensors : Sparse Int := []
  /-- sensors counted failed; reset none -/
  failed : Sparse Bool := []
  /-- voltage of each point, mV, by region × 19 + point, 0 for an unusable one; meaningful once the region is planned (R537) -/
  volts : Sparse Nat := []
  /-- last measured rail voltages, mV, and currents, 0.1 A; reset 0 -/
  railMv : List Nat := []
  railCurrent : List Nat := []
  /-- measured draw of each region in the last interval, W; reset empty -/
  regionDraw : List Nat := []
  /-- ageing: monitors (Δ per 65,536 and last delay, ps), by unit × 4 + path; sums by unit; AGE_HOURS in 1/64 h; reset 0 -/
  monitors : Sparse (Nat × Nat) := []
  ages : Sparse UnitAge := []
  ageHours : Nat := 0
  /-- AGE_GUARD_PS of the plans in force: its Boundary is the next re-plan (16 R545); reset the entry's default -/
  guardPs : Nat := 15
  /-- cycle of the last sampling, and of the last count of AGE_HOURS; reset 0 -/
  ageCyc : Nat := 0
  hourCyc : Nat := 0
  /-- AGE_STATE pieces written and not yet complete, by subindex; reset none -/
  ageIn : Sparse (List Byte) := []
  /-- PWROFF_REQ_N and THERMTRIP_N asserted (17 R552, R558); reset false -/
  offReq : Bool := false
  tripPin : Bool := false
  /-- I3C dynamic address (17 R559); reset none -/
  i3cAddr : Option Nat := none
  /-- ALERT_STATUS and ALERT_MASK (17 R559); reset 0 -/
  alert : Nat := 0
  alertMask : Nat := 0
  deriving DecidableEq, Repr

/-- The state of the block. -/
structure State where
  /-- the part is the CK9-768-LC (00 R1); reset DESIGN CHOICE false: a CK9-1T-LC -/
  small : Bool
  /-- commands waiting, first in, first out; reset empty -/
  pending : List Instr
  /-- core cycles of 2.1 GHz since the cold boot (00, "cycle"); reset 0 -/
  cycle : Nat
  /-- register words, by Regs.regKey; an unlisted word reads its value after a cold boot (02 R59 to R64) -/
  regs : Sparse Word
  /-- guard slots, by die × 64 + initiator (02 R65); reset disarmed -/
  guards : Sparse (Option Guard)
  /-- local dictionary port banks, by initiator (02 R56) -/
  dic : Sparse DicBank
  /-- mailbox banks, by die × 64 + initiator (02 R69) -/
  mbx : Sparse MbxBank
  /-- the dictionary image: RW and GW values, by index × 256 + subindex (02 R34); unlisted: the default -/
  image : Sparse Nat
  /-- counters and values held only by the management controller, by index × 256 + subindex (02 R28, Home MC); unlisted: the default -/
  mc : Sparse Nat
  /-- values last observed at the homes of RO and RC entries, by index × 256 + subindex (02 R36); unlisted: the default -/
  observed : Sparse Nat
  /-- Agrex sessions; reset none (02 R49) -/
  sessions : List Session
  /-- number that names the next session (DESIGN CHOICE: the spec gives no rule for identifiers); reset 1 -/
  nextSession : Nat
  /-- OWNER_JOB and OWNER_SESSION (02 R51); reset 0 -/
  ownerJob : Nat
  ownerSession : Nat
  /-- key record: client slots 0–7, 8 the fabric manager's (15 R516); reset empty -/
  keys : Sparse (Option KeySlot)
  /-- error rings, by die, 4 the hub (14 R463) -/
  err : Sparse ErrDie
  /-- generations, by level × 2^16 + flat index, units to dies (14 R483); reset 1 -/
  gens : Sparse Nat
  /-- Fids 0–3 of the ply dies, 4 of the hub (14 R471) -/
  fids : Sparse Fid
  /-- Snarl slots, by area × 32 + slot, areas 0–3 of the ply dies and 4 the fallback area (14 R478); reset none -/
  snarl : Sparse (Option Snarl)
  /-- capture count per die (14 R482); reset DESIGN CHOICE 0 -/
  snarlSeq : Sparse Nat
  /-- fenced units (14 R493); reset none -/
  fenced : Sparse Bool
  /-- fences decided during a recovery, taking effect at its end (14 R493): level and flat index; reset none -/
  fenceDue : List (Nat × Nat)
  /-- unfences asked while the unit's region recovers (14 R500); reset none -/
  unfenceDue : List Nat
  /-- faults: level, flat index and Lay time of each, newest first (14 R492); reset none -/
  faults : List (Nat × Nat × Nat)
  /-- last expiry of a Telltale of kind 2 per port and of kind 3 per stack, in cycles (14 R467); reset none -/
  creditExp : Sparse (Option Nat)
  /-- writes of Telltale values: entry, cycle, and the value before, newest first; a new value applies to timers started after it (14
  R498); reset empty -/
  wdPast : List (Nat × Nat × Nat)
  hbmExp : Sparse (Option Nat)
  /-- suspicion filter (14 R489); reset empty -/
  suspects : List Suspect
  /-- progress objects, by dictionary index (02 R77); reset IDLE -/
  prog : Sparse Progress
  /-- memory of every kind (12) -/
  mem : Mem
  /-- Cleat values, by die × 16,384 + index (03 R103); reset 0 (03 R111) -/
  cleats : Sparse Word
  /-- Cleat operations that wait for a die they cross to recover, oldest first (01 R12; 14 R475); reset none -/
  heldOps : List HeldOp
  /-- armed waits (03 R110); reset none -/
  arms : List Arm
  /-- scheduler slots, by region × 256 + slot (03 R92); reset free -/
  items : Sparse (Option Item)
  /-- LONG128 result slots 0–1,023 and their poison marks (03 R90, R122); reset 0 (03 R90) -/
  results : Sparse Quad
  resultPoison : Sparse Bool
  /-- trackers, by package number (07 R215); reset cleared (07 R220) -/
  trk : Sparse Tracker
  /-- step slots 0–15 (07 R226); reset FREE -/
  steps : Sparse StepSlot
  /-- widening records, by layer (07 R240); reset none -/
  layers : Sparse LayerRec
  /-- layers in use since the last package reset (07 R242); reset none -/
  seenEver : Sparse Bool
  /-- GLOBAL_WIDEN (07 R242); reset false -/
  globalWiden : Bool
  /-- STEP_NUM of the last OPEN (07 R240); reset DESIGN CHOICE 0 -/
  lastOpen : Nat
  /-- counter of completions, which orders waiting records (03 R117); reset 0 -/
  doneCtr : Nat
  /-- peer table and PEER_EPOCH (13 R420); reset every entry ABSENT, 0 -/
  peers : Sparse Peer
  peerEpoch : Nat
  /-- package generation (13 R418); reset DESIGN CHOICE 0 -/
  pkgGen : Nat
  /-- spill slots, by cluster, oldest first (10 R319); reset empty -/
  spills : Sparse (List SpillTok)
  /-- tokens whose page-exhausted event was raised while their spill slot was full, by sequence, layer and index (10 R339); reset none -/
  exhSeen : List (Nat × Nat × Nat)
  /-- packets sent and not acknowledged (13 R418); reset none -/
  sends : List Send
  /-- name of the next packet sent (the model's own); reset 0 -/
  sendSeq : Nat
  /-- collectives that run, by region × 256 + slot (13 R428); reset none -/
  colls : Sparse (Option Coll)
  /-- COLL_READYs that came before their collective was admitted: COLL_ID, level, sender (13 R428); reset none -/
  earlyReady : List (Nat × Nat × Nat)
  /-- vote exchanges carried by the hub (13 R439); reset none -/
  votes : List VoteX
  /-- vote results kept, newest first: EPOCH, STEP_NUM, ATTEMPT, SUM (13 R440); reset none -/
  voteKept : List (Nat × Nat × Nat × Nat)
  /-- ports 0–17 (13 R406) -/
  ports : Sparse Port
  /-- Lay time (13 R443) -/
  lay : Lay
  /-- start-up, fuses and the boot flash (15) -/
  boot : Boot
  /-- power, temperatures, ageing, pins and the sideband (16, 17) -/
  power : Power
  /-- what the block sent out: interrupts, read data, messages, packets, newest first; reset empty (the model's own record of its outputs) -/
  out : List Out
  /-- counter that selects the next free value (the MODEL's own field, DESIGN CHOICE; no claim rests on it); reset 0 -/
  freeCtr : Nat
  deriving DecidableEq, Repr

/-- The machine right after reset. -/
def State.reset : State where
  small := false
  pending := []
  cycle := 0
  regs := []
  guards := []
  dic := []
  mbx := []
  image := []
  mc := []
  observed := []
  sessions := []
  nextSession := 1
  ownerJob := 0
  ownerSession := 0
  keys := []
  err := []
  gens := []
  fids := []
  snarl := []
  snarlSeq := []
  fenced := []
  fenceDue := []
  unfenceDue := []
  faults := []
  creditExp := []
  wdPast := []
  hbmExp := []
  suspects := []
  prog := []
  mem := {}
  cleats := []
  heldOps := []
  arms := []
  items := []
  results := []
  resultPoison := []
  trk := []
  steps := []
  layers := []
  seenEver := []
  globalWiden := false
  lastOpen := 0
  doneCtr := 0
  peers := []
  peerEpoch := 0
  pkgGen := 0
  spills := []
  exhSeen := []
  sends := []
  sendSeq := 0
  colls := []
  earlyReady := []
  votes := []
  voteKept := []
  ports := []
  lay := {}
  boot := {}
  power := {}
  out := []
  freeCtr := 0

end Sys2Proof.Machine
end

