-- ==== Sys2Proof/Machine/Ops.lean ====
section
/-! DEFINITION. The named operations over the state: registers, dictionary values, counters, outputs, generations, error
records, the device address map and its memory, and Cleats. Meanings are written over these. -/

namespace Sys2Proof.Machine

/-! ### Registers, dictionary values and outputs -/

def State.regK (s : State) (k : Nat) : Word := tget regReset s.regs k
def State.setRegK (s : State) (k : Nat) (v : Word) : State := { s with regs := tset regReset s.regs k v }

/-- The word of a register: block instance `i`, array element `e`. -/
def State.reg (s : State) (r : Reg) (i : Nat := 0) (e : Nat := 0) : Word := s.regK (regKey r i e)
def State.setReg (s : State) (r : Reg) (i e : Nat) (v : Word) : State := s.setRegK (regKey r i e) v

/-- Count n events in an RC counter register, stopping at its end (02 R40). -/
def State.bump (s : State) (r : Reg) (i e : Nat) (n : Nat) : State := s.setReg r i e (countUp (s.reg r i e) n)

/-- Set event bits of a register. -/
def State.flag (s : State) (r : Reg) (i e : Nat) (m : Nat) : State := s.setReg r i e (s.reg r i e ||| BitVec.ofNat 32 m)

/-- A 48-bit address held in a pair of registers. -/
def State.pair (s : State) (lo hi : Reg) (i : Nat) : Nat := (s.reg lo i 0).toNat + (s.reg hi i 0).toNat * 2 ^ 32

/-- The value of an RW or GW entry in the dictionary image (02 R34). -/
def State.dv (s : State) (idx sub : Nat) : Nat := tget dictDefault s.image (dkey idx sub)
def State.setDv (s : State) (idx sub v : Nat) : State := { s with image := tset dictDefault s.image (dkey idx sub) v }

/-- The value of a Telltale's entry for a timer that started at a cycle: a later write does not apply to it (14 R498). -/
def State.limitFor (s : State) (idx start : Nat) : Nat :=
  match s.wdPast.reverse.find? fun e => e.1 == idx && decide (start < e.2.1) with
  | some e => e.2.2
  | none => s.dv idx 0

/-- A value that the management controller alone holds. -/
def State.mcv (s : State) (idx sub : Nat) : Nat := tget dictDefault s.mc (dkey idx sub)
def State.setMc (s : State) (idx sub v : Nat) : State := { s with mc := tset dictDefault s.mc (dkey idx sub) v }

/-- Count n events in a counter of the management controller (02 R40). -/
def State.mcBump (s : State) (idx sub n : Nat) : State := s.setMc idx sub (sat32 (s.mcv idx sub + n))

/-- Send something out. -/
def State.emit (s : State) (o : Out) : State := { s with out := o :: s.out }

/-- Interrupt under an event register of the layout [31] IRQ_EN, [20:16] CORE (10 R336, 14 R497). -/
def State.irqBy (s : State) (cfg : Word) (cause detail : Nat) : State :=
  if bit cfg.toNat 31 then s.emit (.irq (bits cfg.toNat 20 16) cause detail) else s

/-- Causes of the interrupts, one per rule that raises one. -/
def causeCleat : Nat := 1
def causeRecord : Nat := 2
def causeError : Nat := 3
def causePolicy : Nat := 4
def causeRing : Nat := 5
def causeFabric : Nat := 6
def causePower : Nat := 7

/-- Draw a free value; the counter moves on. -/
def State.free (s : State) : Nat × State := (Config.freeNat s.freeCtr, { s with freeCtr := s.freeCtr + 1 })

/-! ### Lay time and durations -/

/-- Lay units (2^−32 s) in n nanoseconds, rounded down. -/
def layOfNs (n : Nat) : Nat := n * 2 ^ 32 / 10 ^ 9

/-- Nanoseconds in a Lay difference, rounded down. -/
def nsOfLay (x : Nat) : Nat := x * 10 ^ 9 / 2 ^ 32

/-- Core cycles in n microseconds (2.1 GHz). -/
def cycOfUs (n : Nat) : Nat := n * 2100
def cycOfMs (n : Nat) : Nat := n * 2100000

/-- LAY_SOURCE in force: 0 PINS, 1 FABRIC, 2 FREE (13 R444, R453). -/
def State.laySource (s : State) : Nat := min 2 (bits (s.reg .layCfg 4).toNat 29 28)

/-- ERR_NS (13 R448): by source, except in HOLDOVER, where it grows from its value at entry by 1 ns a millisecond. -/
def State.layErrNs (s : State) : Nat :=
  if s.laySource == 2 || s.lay.state == 0 then 0xFFFFFFFF
  else if s.lay.state == 3 then sat32 (s.lay.errNs + (s.cycle - s.lay.errCyc) / cycOfMs 1)
  else if s.laySource == 0 then 2
  else sat32 (s.lay.errNs + 4)

/-! ### Generations (14 R483) -/

def dGen : Nat → Nat := fun _ => 1
def genKey (level i : Nat) : Nat := level * 65536 + i
def State.gen (s : State) (level i : Nat) : Nat := tget dGen s.gens (genKey level i)
def State.bumpGen (s : State) (level i : Nat) : State :=
  { s with gens := tset dGen s.gens (genKey level i) ((s.gen level i + 1) % 65536) }

/-! ### Error records (14 R461 to R466) -/

def dErr : Nat → ErrDie := fun _ => {}
def State.errDie (s : State) (die : Nat) : ErrDie := tget dErr s.err die
def State.setErrDie (s : State) (die : Nat) (e : ErrDie) : State := { s with err := tset dErr s.err die e }

/-- Severities (14 R461). -/
def sevCorrected : Nat := 0
def sevDeferred : Nat := 1
def sevRecover : Nat := 2
def sevFatal : Nat := 3

/-- The ring of a die is full when 256 records lie between ERR_TAIL and ERR_HEAD (14 R463). -/
def State.errFull (s : State) (die : Nat) : Bool := (s.errDie die).head - s.reg .errTail die == 256#32

/-- Corrected records of a source already written in the present Lay second (14 R465). -/
def ErrDie.correctedNow (e : ErrDie) (src sec : Nat) : Nat :=
  match e.corrected.find? (fun x => x.1 == src && x.2.1 == sec) with
  | some x => x.2.2
  | none => 0

/-- Count one more corrected record of a source in the present Lay second. -/
def ErrDie.noteCorrected (e : ErrDie) (src sec : Nat) : ErrDie :=
  { e with corrected := (src, sec, e.correctedNow src sec + 1) :: e.corrected.filter (fun x => x.1 != src) }

/-- Write a record into the die's ring, or lose and count it when the ring is full (14 R463), and deliver it to the
management controller's copy (14 R464). -/
def State.errPut (s : State) (die : Nat) (r : ErrRec) : State :=
  let e := s.errDie die
  let e := { e with seq := e.seq + 1, copy := (r :: e.copy).take 256 }
  if s.errFull die then
    (s.setErrDie die { e with
      overflow := true
      lostSev := max e.lostSev r.sev
      firstLost := if e.overflow then e.firstLost else r.src }).bump .errLostCnt die 0 1
  else
    (s.setErrDie die { e with
      head := e.head + 1
      recs := tset dN e.recs (e.head.toNat % 256) (some r) }).flag .errSts die 0 1

/-- Set bits of the sideband's ALERT_STATUS; a bit newly set and not masked raises an in-band interrupt (17 R558, R559). -/
def State.alert (s : State) (m : Nat) : State :=
  let old : BitVec 6 := BitVec.ofNat 6 s.power.alert
  let add : BitVec 6 := BitVec.ofNat 6 m &&& ~~~old
  let s := { s with power := { s.power with alert := (old ||| add).toNat } }
  let seen := (add &&& ~~~(BitVec.ofNat 6 s.power.alertMask)).toNat
  if seen == 0 then s else s.emit (.ibi seen)

/-- Record an event: the record, ERR_STS, the interrupt of R466, and the suppression of corrected events of R465 (which
does not apply to SRC 0x06, whose limit is 12 R388). -/
def State.record (s : State) (die src sev level action index gen payload : Nat) : State :=
  let e := s.errDie die
  let sec := s.lay.now / 2 ^ 32
  if sev == 0 && src != 6 && decide (16 ≤ e.correctedNow src sec) then s
  else
    let r : ErrRec := ⟨s.lay.now, e.seq.toNat, src, sev, level, action, index, gen, payload⟩
    let s := if sev == 0 && src != 6 then s.setErrDie die (e.noteCorrected src sec) else s
    let s := s.errPut die r
    let s := if 2 ≤ sev then (s.flag .errSts die 0 2).alert (if sev == 3 then 3 else 1) else s
    if decide (bits (s.reg .errEvtCfg die).toNat 1 0 ≤ sev) || src == 9
    then s.irqBy (s.reg .errEvtCfg die) causeError die else s

/-- The SEQ the next record of a die will carry. -/
def State.nextSeq (s : State) (die : Nat) : Nat := (s.errDie die).seq.toNat

/-! ### Reset domains -/

/-- Domain `a` lies within domain `b`, or is `b` (14 R471). -/
def domWithin (a b : Dom) : Bool :=
  if b.level == 4 then true
  else if a.level > b.level then false
  else if b.level == 3 then
    (if a.level == 0 then unitDie a.index else if a.level == 1 then clusterDie a.index
     else if a.level == 2 then regionDie a.index else a.index) == b.index
  else if b.level == 2 then
    (if a.level == 0 then unitRegion a.index else if a.level == 1 then clusterRegion a.index else a.index) == b.index
  else if b.level == 1 then (if a.level == 0 then unitCluster a.index else a.index) == b.index
  else a.index == b.index

/-- The domain that contains a domain directly. -/
def domParent (a : Dom) : Dom :=
  if a.level == 0 then ⟨1, unitCluster a.index⟩
  else if a.level == 1 then ⟨2, clusterRegion a.index⟩
  else if a.level == 2 then ⟨3, regionDie a.index⟩
  else ⟨4, 0⟩

/-- The number of instances of a level. -/
def levelCount (level : Nat) : Nat := [512, 128, 16, 4, 1].getD level 0

/-- The die on which a domain's records are kept: its own, or the hub for the package. -/
def domDie (a : Dom) : Nat :=
  if a.level == 0 then unitDie a.index else if a.level == 1 then clusterDie a.index
  else if a.level == 2 then regionDie a.index else if a.level == 3 then a.index else hubDie

def dFid : Nat → Fid := fun _ => {}
def State.fid (s : State) (f : Nat) : Fid := tget dFid s.fids f
def State.setFid (s : State) (f : Nat) (x : Fid) : State := { s with fids := tset dFid s.fids f x }

/-- Recoveries running or queued, on all Fids: every such domain is frozen (14 R473, R487). -/
def State.frozenDoms (s : State) : List Dom :=
  (List.range 5).flatMap fun f =>
    (match (s.fid f).active with | some r => [r.dom] | none => []) ++ (s.fid f).queue.map (·.dom)

/-- The dies are held in reset: power is not good, the board holds the package in reset, or Bitter-end mode (15 R511; 17 R557). -/
def State.held (s : State) : Bool := !s.boot.power || s.boot.boardLow || s.boot.bitter

/-- A domain, or one that contains it, is in recovery or queued for it, or is held in reset. -/
def State.frozen (s : State) (d : Dom) : Bool := s.held || s.frozenDoms.any (fun f => domWithin d f)

/-- A ply die (0–3) or the hub (4) is in reset or recovery. -/
def State.dieDown (s : State) (die : Nat) : Bool :=
  if die < 4 then s.frozen ⟨3, die⟩ else s.frozen ⟨4, 0⟩

/-- A die's reset has begun: it is held in reset, or its recovery has drained it (14 R473, step 4 and later). -/
def State.dieReset (s : State) (die : Nat) : Bool :=
  s.held || (match (s.fid 4).active with
    | some r => decide (4 ≤ r.step) && domWithin (if die < 4 then ⟨3, die⟩ else ⟨4, 0⟩) r.dom
    | none => false)

/-- Traffic between opposite ply dies crosses a die in recovery: bit 12 of the address chooses the one it passes (01 R12). -/
def State.pathDown (s : State) (src dst : Nat) (b : Bool) : Bool :=
  decide (src < 4) && decide (dst < 4) && (dst + 4 - src) % 4 == 2 && s.dieDown (if b then (src + 3) % 4 else (src + 1) % 4)

/-! ### Snarl slots (14 R478, R479) -/

def snarlKey (area slot : Nat) : Nat := area * 32 + slot
/-- The capture in a slot: areas 0–3 of the ply dies, 4 the fallback area. -/
def State.snarlIn (s : State) (area slot : Nat) : Option Snarl := tget dN s.snarl (snarlKey area slot)
def State.setSnarl (s : State) (area slot : Nat) (x : Option Snarl) : State :=
  { s with snarl := tset dN s.snarl (snarlKey area slot) x }

/-! ### The device address map (12 R373 to R379, R395) -/

/-- Bytes of one stack, C (12 R372). -/
def State.stackBytes (s : State) : Nat := (if s.small then 48 else 64) * 2 ^ 30

/-- LOCAL_GIB of a stack, in bytes, L. -/
def State.localBytes (s : State) (stack : Nat) : Nat := bits (s.reg .memMap stack).toNat 6 0 * 2 ^ 30

/-- Physical places: stack s offset o at s × 2^40 + o; on-die SRAM of die d at 2^48 + d × 2^32; root port p at
2^50 + p × 2^42. -/
def placeHbm (stack off : Nat) : Nat := stack * 2 ^ 40 + off
def placeSram (die off : Nat) : Nat := 2 ^ 48 + die * 2 ^ 32 + off
def placeFar (p off : Nat) : Nat := 2 ^ 50 + p * 2 ^ 42 + off

/-- Fold a page number's nibbles (12 R375). -/
def foldPage4 (p : Nat) : Nat :=
  xorBits 4 (xorBits 4 (bits p 3 0) (bits p 7 4)) (xorBits 4 (bits p 11 8) (bits p 15 12))
def foldPage2 (p : Nat) : Nat :=
  xorBits 2 (xorBits 2 (bits p 1 0) (bits p 3 2)) (xorBits 2 (bits p 5 4) (bits p 7 6))

def State.farPort (s : State) (p : Nat) : FarPort := if p == 0 then s.mem.far0 else s.mem.far1
def State.setFarPort (s : State) (p : Nat) (f : FarPort) : State :=
  if p == 0 then { s with mem := { s.mem with far0 := f } } else { s with mem := { s.mem with far1 := f } }

/-- Where device address `a` lies, or none outside the address map (12 R374). -/
def State.place (s : State) (a : Nat) : Option Nat :=
  if a < 2 ^ 40 then
    let p := a / 4096
    let k := foldPage4 p
    let o := p / 16 * 4096 + a % 4096
    if o + s.localBytes k < s.stackBytes then some (placeHbm k o) else none
  else if a < 2 ^ 40 + 2 ^ 40 then
    let d := (a - 2 ^ 40) / 2 ^ 38
    let b := (a - 2 ^ 40) % 2 ^ 38
    let p := b / 4096
    let k := 4 * d + foldPage2 p
    let o := (s.stackBytes - s.localBytes k) + p / 4 * 4096 + b % 4096
    if o + 64 * 2 ^ 20 < s.stackBytes then some (placeHbm k o) else none
  else if 2 ^ 41 ≤ a && a < 2 ^ 41 + 5 * 2 ^ 32 then
    let d := (a - 2 ^ 41) / 2 ^ 32
    let x := (a - 2 ^ 41) % 2 ^ 32
    if d == 4 then (if x < 2 ^ 24 then some (placeSram 4 x) else none)
    else if x < 4 * 2 ^ 24 then some (placeSram d x)
    else if 0x10000000 ≤ x && x < 0x10000000 + 32 * 0x800000 && (x - 0x10000000) % 0x800000 < 0x600000
    then some (placeSram d x) else none
  else if 2 ^ 42 ≤ a && a < 2 ^ 43 then
    let b := a - 2 ^ 42
    if s.mem.farInterleave && s.mem.far0.present && s.mem.far1.present then
      let o := b / 8192 * 4096 + b % 4096
      if o < min s.mem.far0.capacity s.mem.far1.capacity then some (placeFar (b / 4096 % 2) o) else none
    else
      let p := b / 2 ^ 41
      let o := b % 2 ^ 41
      if (s.farPort p).present && o < (s.farPort p).capacity then some (placeFar p o) else none
  else none

/-- The address lies in HBM (12 R396). -/
def isHbm (a : Nat) : Bool := decide (a < 2 ^ 41)

/-- The root port of a far-tier address. -/
def State.farRoot (s : State) (a : Nat) : Nat :=
  if s.mem.farInterleave && s.mem.far0.present && s.mem.far1.present then (a - 2 ^ 42) / 4096 % 2 else (a - 2 ^ 42) / 2 ^ 41

/-- A far-tier address whose link is down (12 R398). -/
def State.farDown (s : State) (a : Nat) : Bool :=
  decide (2 ^ 42 ≤ a) && decide (a < 2 ^ 43) && !(s.farPort (s.farRoot a)).up

/-- The die that serves a physical place: the hub serves the root ports. -/
def placeDie (p : Nat) : Nat := if p < 2 ^ 48 then stackDie (p / 2 ^ 40) else if p < 2 ^ 50 then (p - 2 ^ 48) / 2 ^ 32 else hubDie

/-- The memory at a device address is held from a die: the die that serves it is in recovery or reset, or the way to it crosses
one that is (14 R475). -/
def State.heldAt (s : State) (die a : Nat) : Bool :=
  match s.place a with
  | some p => s.dieDown (placeDie p) || s.pathDown die (placeDie p) (bit a 12)
  | none => false

/-- Some byte of [a, a + n) is held: one byte of each 4 KiB page decides. -/
def State.spanHeld (s : State) (die a n : Nat) : Bool :=
  n != 0 && (List.range ((a % 4096 + n - 1) / 4096 + 1)).any fun i => s.heldAt die (if i == 0 then a else a / 4096 * 4096 + i * 4096)

/-- No die is in recovery or reset. -/
def State.calm (s : State) : Bool := (List.range 5).all fun d => !s.dieDown d

/-- Every byte of [a, a + n) lies in the map. Windows are populated in whole 4 KiB pages, so one byte of each page, and
the last byte, decide. -/
def State.mapped (s : State) (a n : Nat) : Bool :=
  (n == 0) || ((List.range ((a % 4096 + n - 1) / 4096 + 1)).all fun i =>
    (s.place (if i == 0 then a else a / 4096 * 4096 + i * 4096)).isSome)

/-! ### Memory -/

/-- The byte at a physical place. -/
def Mem.byteAt (m : Mem) (p : Nat) : Byte := tget dB m.bytes p
/-- The poison marking of a physical line. -/
def Mem.poisonAt (m : Mem) (l : Nat) : Bool := tget dF m.poison l

/-- A physical line reads poisoned: it carries the marking, or a write of it expired and the marking is still to be written
(14 R470). -/
def Mem.marked (m : Mem) (l : Nat) : Bool := m.poisonAt l || m.markDue.contains l

/-- The byte at a device address; 0 outside the map (callers check the map first). -/
def State.rdByte (s : State) (a : Nat) : Byte :=
  match s.place a with
  | some p => s.mem.byteAt p
  | none => 0#8

/-- n bytes at a device address. -/
def State.rdBytes (s : State) (a n : Nat) : List Byte := (List.range n).map fun i => s.rdByte (a + i)

/-- n bytes at a device address as a little-endian number. -/
def State.rd (s : State) (a n : Nat) : Nat := leNat (s.rdBytes a n)

/-- The line that holds a device address reads poisoned. -/
def State.poisoned (s : State) (a : Nat) : Bool :=
  s.farDown a ||
  match s.place a with
  | some p => s.mem.marked (p / 64)
  | none => false

/-- Some line of [a, a + n) reads poisoned. -/
def State.poisonedIn (s : State) (a n : Nat) : Bool :=
  (n != 0) && (List.range ((a % 64 + n - 1) / 64 + 1)).any fun i => s.poisoned (a / 64 * 64 + i * 64)

/-- Store a byte at a physical place. -/
def Mem.setByte (m : Mem) (p : Nat) (b : Byte) : Mem := { m with bytes := tset dB m.bytes p b }
def Mem.setPoison (m : Mem) (l : Nat) (b : Bool) : Mem := { m with poison := tset dF m.poison l b }

/-- Store bytes from a physical place on. -/
def Mem.setBytes (m : Mem) (p : Nat) : List Byte → Mem
  | [] => m
  | b :: bs => (m.setByte p b).setBytes (p + 1) bs

/-- Write part or the whole of one line at a physical place: a whole line clears the poison marking, part of a line
keeps it, and poisoned data sets it (12 R384). A marking still to be written goes before it (14 R470). -/
def Mem.writeLine (m : Mem) (p : Nat) (bs : List Byte) (bad : Bool) : Mem :=
  { (m.setBytes p bs).setPoison (p / 64) (bad || (bs.length != 64 && m.marked (p / 64))) with
    markDue := m.markDue.filter (· != p / 64) }

/-- Write bytes at a device address, line by line, `fuel` lines at most. A write to a root port whose link is down is
dropped and counted (12 R398). -/
def State.wrLines (s : State) : Nat → Nat → List Byte → Bool → State
  | 0, _, _, _ => s
  | fuel + 1, a, bs, bad =>
    if bs.isEmpty then s else
    let n := min bs.length (64 - a % 64)
    let s' :=
      if s.farDown a then s.bump .memFarDropCnt 0 (s.farRoot a) 1
      else match s.place a with
        | some p => { s with mem := s.mem.writeLine p (bs.take n) bad }
        | none => s
    s'.wrLines fuel (a + n) (bs.drop n) bad

/-- Write bytes at a device address. -/
def State.wr (s : State) (a : Nat) (bs : List Byte) (bad : Bool := false) : State :=
  s.wrLines (bs.length / 64 + 2) a bs bad

/-! ### Cleats (03 R103 to R112) -/

/-- The Cleats that exist (03 R103). -/
def cleatExists (die i : Nat) : Bool := (die < 4 && i < 16384) || (die == 4 && i < 4096)
def cleatKey (die i : Nat) : Nat := die * 16384 + i
def State.cleat (s : State) (die i : Nat) : Word := tget dW s.cleats (cleatKey die i)
def State.putCleat (s : State) (die i : Nat) (v : Word) : State := { s with cleats := tset dW s.cleats (cleatKey die i) v }

/-- The value after an operation (03 R103). -/
def CleatOp.value (o : CleatOp) (v : Nat) : Nat :=
  match o with
  | .signal n => min (v + n) 0xFFFFFFFF
  | .decrement n => v - n
  | .set x => x % 2 ^ 32

/-- CLT_STS bits an operation sets: SATURATED or UNDERFLOW (03 R103, R109). -/
def CleatOp.event (o : CleatOp) (v : Nat) : Nat :=
  match o with
  | .signal n => if 0xFFFFFFFF < v + n then 1 else 0
  | .decrement n => if v < n then 2 else 0
  | .set _ => 0

def dItem : Nat → Option Item := dN
def itemKey (region slot : Nat) : Nat := region * 256 + slot
def State.item (s : State) (region slot : Nat) : Option Item := tget dItem s.items (itemKey region slot)
def State.setItem (s : State) (region slot : Nat) (x : Option Item) : State :=
  { s with items := tset dItem s.items (itemKey region slot) x }

/-- Fields of a wait slot (03 R94). -/
def waitThr (w : Nat) : Nat := bits w 63 32
def waitDie (w : Nat) : Nat := bits w 31 29
def waitEn (w : Nat) : Bool := bit w 28
def waitIdx (w : Nat) : Nat := bits w 13 0

/-- A wait slot after the Cleat named took the value v. -/
def WaitSt.after (st : WaitSt) (w die i v : Nat) : WaitSt :=
  if st = .registered ∧ waitDie w = die ∧ waitIdx w = i ∧ waitThr w ≤ v then .satisfied else st

/-- An item after a Cleat took the value v (03 R94, R104). -/
def Item.wake (x : Item) (die i v : Nat) : Item :=
  { x with w0 := x.w0.after (fld x.raw 0x28 8) die i v, w1 := x.w1.after (fld x.raw 0x30 8) die i v }

/-- Every wait slot evaluated against a Cleat's value. -/
def State.wakeItems (s : State) (die i v : Nat) : State :=
  { s with items := s.items.map fun e => (e.1, e.2.map fun x => x.wake die i v) }

/-- Armed waits on the Cleat whose threshold is reached interrupt their cores and are removed (03 R110). -/
def State.fireArms (s : State) (die i v : Nat) : State :=
  let hit := fun (a : Arm) => a.die == die && a.index == i && decide (a.thr ≤ v)
  { s with
    arms := s.arms.filter fun a => !hit a
    out := (s.arms.filter hit).reverse.map (fun a => Out.irq a.core causeCleat (die * 16384 + i)) ++ s.out }

/-! ### Ramp entries as the Cleats see them (16 R530, R531) -/

/-- Word i of ramp entry e. -/
def State.rampWord (s : State) (e i : Nat) : Nat := (s.reg .pwrRamp 4 (8 * e + i)).toNat
def State.rampAt (s : State) (e : Nat) : Nat := s.rampWord e 0 + s.rampWord e 1 * 2 ^ 32
def State.rampHold (s : State) (e : Nat) : Nat := s.rampWord e 2 + s.rampWord e 3 * 2 ^ 32
def State.rampFlags (s : State) (e : Nat) : Nat := s.rampWord e 5 % 256

/-- A Cleat took the value v: holds that wait for it are satisfied (R530). -/
def State.wakeHolds (s : State) (die i v : Nat) : State :=
  let hit := (List.range 16).filter fun e =>
    let w := s.rampHold e
    bit (s.rampFlags e) 0 && waitEn w && waitDie w == die && waitIdx w == i && decide (waitThr w ≤ v)
  { s with power := { s.power with holdMet := hit.foldl (fun t e => tset dF t e true) s.power.holdMet } }

/-- An operation at the Cleat's home die: value, events, waiters (03 R103, R104). -/
def State.cleatApply (s : State) (die i : Nat) (o : CleatOp) : State :=
  let v := (s.cleat die i).toNat
  let v' := o.value v
  let s := s.putCleat die i (BitVec.ofNat 32 v')
  let s := if o.event v == 0 then s
    else (s.flag .cltSts (cleatKey die i) 0 (o.event v)).bump .cltSatCnt die 0 1
  ((s.wakeItems die i v').wakeHolds die i v').fireArms die i v'

/-- What becomes of a Cleat operation on its way from its issuing die (01 R12; 03 R112; 14 R475). -/
inductive CleatWay where
  /-- its home die is in recovery, or the Cleat does not exist: dropped -/
  | lost
  /-- it crosses a die in recovery: held -/
  | held
  | open
  deriving DecidableEq, Repr

/-- Traffic without a memory address passes the die of the next higher number (01 R12). -/
def State.cleatWay (s : State) (issuer die i : Nat) : CleatWay :=
  if !cleatExists die i || s.dieDown die then .lost else if s.pathDown issuer die false then .held else .open

def State.holdOp (s : State) (issuer die i : Nat) (o : CleatOp) : State := { s with heldOps := s.heldOps ++ [⟨issuer, die, i, o⟩] }

/-- The zero notice of a decrement (03 R108): the target signalled by 1, or the notice dropped and counted at the home die. -/
def State.zeroNotice (s : State) (die i : Nat) (before : Nat) : State :=
  let cfg := (s.reg .cltCfg (cleatKey die i)).toNat
  let zd := bits cfg 30 28
  let zi := bits cfg 13 0
  if bit cfg 31 && before != 0 && (s.cleat die i).toNat == 0 then
    match s.cleatWay die zd zi with
    | .open => s.cleatApply zd zi (.signal 1)
    | .held => s.holdOp die zd zi (.signal 1)
    | .lost => s.bump .cltUndelCnt die 0 1
  else s

/-- A Cleat operation from a die's logic, a region or a core: applied at its home die, held on its way, or dropped and counted at the
issuing die (03 R112; 14 R475). -/
def State.cleatOp (s : State) (issuer die i : Nat) (o : CleatOp) : State :=
  match s.cleatWay issuer die i with
  | .open =>
    let before := (s.cleat die i).toNat
    let s := s.cleatApply die i o
    match o with
    | .decrement _ => s.zeroNotice die i before
    | _ => s
  | .held => s.holdOp issuer die i o
  | .lost => s.bump .cltUndelCnt issuer 0 1

/-- Operations held on their way go on, in the order of their issue; those whose way is still closed stay held (03 R104). -/
def State.releaseOps (s : State) : State :=
  s.heldOps.foldl (fun t h => t.cleatOp h.issuer h.die h.index h.op) { s with heldOps := [] }

/-! ### Guard slots (02 R65, R66) -/

def dGuard : Nat → Option Guard := dN
def guardKey (ini die : Nat) : Nat := die * 64 + ini % 64
def State.guardOf (s : State) (ini die : Nat) : Option Guard := tget dGuard s.guards (guardKey ini die)
def State.setGuard (s : State) (ini die : Nat) (g : Option Guard) : State := { s with guards := tset dGuard s.guards (guardKey ini die) g }

/-- An abort: counted, and the most recent one recorded. -/
def State.abort (s : State) (ini die reason off : Nat) : State :=
  ((s.bump .mgtGuardCnt die 0 1).setReg .mgtGuardLast die 0 (BitVec.ofNat 32 (reason % 8 * 2 ^ 29 + off % 2 ^ 24))).setReg .mgtGuardInit
    die 0 (BitVec.ofNat 32 (ini % 64))

/-- A slot that ran out aborts as TIMEOUT and disarms; at 512 cycles when `due`, else once they are over. -/
def State.expire (s : State) (ini die : Nat) (due : Bool) : State :=
  match s.guardOf ini die with
  | some g => if g.at' + 512 < s.cycle + b2n due then (s.setGuard ini die none).abort ini die 1 g.off else s
  | none => s

/-- A write of the initiator to another address of the die: an armed attempt aborts as INTERVENING. -/
def State.intervene (s : State) (ini die : Nat) (off : Option Nat) : State :=
  let s := s.expire ini die false
  match s.guardOf ini die with
  | some g => if off == some g.off then s else (s.setGuard ini die none).abort ini die 3 g.off
  | none => s

end Sys2Proof.Machine
end

