-- ==== Sys2Proof/Machine/Rs.lean ====
section
/-! DEFINITION. The field of 12 R381 and the pin-aligned code of an HBM line (12 R381 to R383): RS(72,64) over GF(2^8), its check symbols,
the poison marking, and the decoder with erased symbols. Symbol j of n is the coefficient of x^(n − 1 − j). -/

namespace Sys2Proof.Machine

/-- Product by α = 0x02 modulo x^8 + x^4 + x^3 + x^2 + 1. -/
def gfDouble (a : Byte) : Byte := (a <<< 1) ^^^ (if a.msb then 0x1D#8 else 0#8)

/-- Product in GF(2^8), by the low `n` bits of b. -/
def gfMulAux : Nat → Byte → Byte → Byte
  | 0, _, _ => 0#8
  | n + 1, a, b => (if b.getLsbD 0 then a else 0#8) ^^^ gfMulAux n (gfDouble a) (b >>> 1)
def gfMul (a b : Byte) : Byte := gfMulAux 8 a b

/-- α^n. -/
def gfExp : Nat → Byte
  | 0 => 1#8
  | n + 1 => gfDouble (gfExp n)

/-- a^(2^n) products: the inverse is a^254. -/
def gfInvAux : Nat → Byte → Byte
  | 0, _ => 1#8
  | n + 1, a => gfMul (gfMul a a) (gfInvAux n (gfMul a a))
def gfInv (a : Byte) : Byte := gfInvAux 7 a

/-- Polynomials, constant term first. -/
def gpAdd : List Byte → List Byte → List Byte
  | [], q => q
  | p, [] => p
  | a :: p, b :: q => (a ^^^ b) :: gpAdd p q
def gpScale (c : Byte) (p : List Byte) : List Byte := p.map (gfMul c)
def gpMul : List Byte → List Byte → List Byte
  | [], _ => []
  | a :: p, q => gpAdd (gpScale a q) (0#8 :: gpMul p q)
def gpEval (p : List Byte) (x : Byte) : Byte := p.foldr (fun c acc => c ^^^ gfMul x acc) 0#8

/-- The generator g(x) = Π (x − α^i), i = 0 … 7, constant term first. -/
def rsGen : List Byte := (List.range 8).foldl (fun p i => gpMul p [gfExp i, 1#8]) [1#8]

/-- The check symbols of a line, in order from x^7 to x^0: the remainder of m(x) × x^8 by g(x), kept as a shift register. -/
def rsCheck (data : List Byte) : List Byte :=
  data.foldl (fun reg b =>
    match reg with
    | [] => []
    | r :: rs =>
      let fb := r ^^^ b
      let taps := (rsGen.take 8).reverse.map (gfMul fb)
      (rs ++ [0#8]).zipWith (· ^^^ ·) taps) (List.replicate 8 0#8)

/-- The poison marking: what the eight check symbols are XORed with, from x^7 to x^0 (12 R383). -/
def poisonMark : List Byte := [0x50#8, 0x4F#8, 0x49#8, 0x53#8, 0x4F#8, 0x4E#8, 0x21#8, 0x21#8]

/-- The marking as an error vector of 72 symbols. -/
def poisonVec : List Byte := List.replicate 64 0#8 ++ poisonMark

/-- The locator of symbol j of n, α^(n − 1 − j). -/
def rsLoc (n j : Nat) : Byte := gfExp (n - 1 - j)

/-- The syndromes S_0 … S_(c − 1) of an error vector. -/
def rsSyn (c : Nat) (v : List Byte) : List Byte := tabulate c fun i => gpEval v.reverse (gfExp i)

/-- One step of Berlekamp–Massey over the syndromes read so far (newest first): locator, previous locator, degree. -/
def bmStep (st : List Byte × List Byte × Nat × List Byte) (t : Byte) : List Byte × List Byte × Nat × List Byte :=
  let (lam, b, l, seen) := st
  let seen := t :: seen
  let n := seen.length
  let d := (List.range (l + 1)).foldl (fun acc i => acc ^^^ gfMul (lam.getD i 0#8) (seen.getD i 0#8)) 0#8
  let b := 0#8 :: b
  if d == 0#8 then (lam, b, l, seen)
  else
    let lam' := gpAdd lam (gpScale d b)
    if 2 * l < n then (lam', gpScale (gfInv d) lam, n - l, seen) else (lam', b, l, seen)

/-- Bounded-distance decoding of n symbols with c check symbols, the syndromes of an error vector given: the error vector of weight e
outside the f erased symbols with 2 × e + f ≤ c that has them, or none. The vector found is checked against them. -/
def rsSolve (n c : Nat) (syn : List Byte) (erased : List Nat) : Option (List Byte) :=
  let f := erased.length
  if syn.all (· == 0#8) then some (List.replicate n 0#8) else
  let gam := erased.foldl (fun p j => gpMul p [1#8, rsLoc n j]) [1#8]
  let xi := (gpMul syn gam).take c
  let (lam, _, l, _) := (xi.drop f).foldl bmStep ([1#8], [1#8], 0, [])
  if c < 2 * l + f then none else
  let roots := (List.range n).filter fun j => !erased.contains j && gpEval lam (gfInv (rsLoc n j)) == 0#8
  if roots.length != l then none else
  let psi := gpMul lam gam
  let om := (gpMul syn psi).take c
  -- the formal derivative, evaluated: the odd coefficients
  let dpsi := (List.range psi.length).filterMap fun i => if i % 2 == 1 then some (i - 1, psi.getD i 0#8) else none
  let val := fun (j : Nat) =>
    let x := rsLoc n j
    let y := gfInv x
    let den := dpsi.foldl (fun acc c => acc ^^^ gfMul c.2 ((List.range c.1).foldl (fun p _ => gfMul p y) 1#8)) 0#8
    gfMul x (gfMul (gpEval om y) (gfInv den))
  let u := tabulate n fun j => if roots.contains j || erased.contains j then val j else 0#8
  if rsSyn c u == syn then some u else none

/-- The decoder of an HBM line: 2 × e + f ≤ 8 (12 R382). -/
def rsDecode (v : List Byte) (erased : List Nat) : Option (List Byte) := rsSolve 72 8 (rsSyn 8 v) erased

end Sys2Proof.Machine
end

