-- ==== Sys2Proof/Machine/Memory.lean ====
section
/-! DEFINITION. HBM lines and their code, patrol scrub, training, the memory map's lock, the far tier and the checkpoint
drain (12). -/

namespace Sys2Proof.Machine

/-! ### Progress objects (02 R77 to R79) -/

def dProg : Nat → Progress := fun _ => {}
def State.progress (s : State) (i : Nat) : Progress := tget dProg s.prog i
def State.setProgress (s : State) (i : Nat) (p : Progress) : State := { s with prog := tset dProg s.prog i p }

/-- Start an operation: RUNNING from POSITION 0, STARTED now, one more run. -/
def State.startProgress (s : State) (i op total : Nat) : State :=
  let p := s.progress i
  s.setProgress i { state := 1, position := 0, total := total, operation := op, started := s.lay.now,
                    lastError := 0, runs := sat32 (p.runs + 1) }

/-- The operation is in progress, so that a command to start it is refused with CONFIG_BUSY (02 R79). -/
def Progress.busy (p : Progress) : Bool := p.state == 1 || p.state == 5

/-- End an operation in a state with a reason. -/
def State.endProgress (s : State) (i st err : Nat) : State :=
  s.setProgress i { s.progress i with state := st, lastError := err }

/-- PERMILLE of a progress object (02 R77): 1,000 only in DONE. With TOTAL 0 the quotient is not defined: 1,000 in DONE, else 0
(DESIGN CHOICE, log entry 99). -/
def Progress.permille (p : Progress) : Nat :=
  if p.total == 0 then (if p.state == 2 then 1000 else 0)
  else
    let x := p.position * 1000 / p.total
    if p.state == 2 then x else min x 999

def progTrain (k : Nat) : Nat := 0x7000 + k
def progScrub (k : Nat) : Nat := 0x7010 + k
def progDrain : Nat := 0x7050

/-! ### Erased pins (12 R386, R402) -/

/-- Erased pins of a pseudo-channel, from MEM_PIN_PC. -/
def State.erasedPins (s : State) (stack pc : Nat) : List Nat :=
  let w := (s.reg .memPin stack pc).toNat
  (if bit w 23 then [bits w 21 16] else []) ++ (if bit w 31 then [bits w 29 24] else [])

/-- Both symbols of each erased pin. -/
def pinSymbols (pins : List Nat) : List Nat := pins.flatMap fun p => [2 * p, 2 * p + 1]

/-- Put an erased pin into the first free slot of MEM_PIN_PC (12 R402). -/
def State.erasePin (s : State) (stack pc pin : Nat) : State :=
  let w := (s.reg .memPin stack pc).toNat
  s.setReg .memPin stack pc (BitVec.ofNat 32
    (if bit w 23 then setBits (setBits w 29 24 pin) 31 31 1 else setBits (setBits w 21 16 pin) 23 23 1))

/-! ### Records (12 R387, R388) -/

/-- The 16-byte payload of a memory event. -/
def memPayload (kind unit pc : Nat) (scrub wb : Bool) (erased line syms : Nat) : Nat :=
  kind * 2 ^ 120 + unit % 16 * 2 ^ 116 + pc % 64 * 2 ^ 110 + b2n scrub * 2 ^ 109 + b2n wb * 2 ^ 108
    + erased % 4 * 2 ^ 106 + line % 2 ^ 32 * 2 ^ 72 + syms % 2 ^ 72

/-- Record a memory event of a stack in its die's ring, charged to the die's domain (log entry 20). -/
def State.memRecord (s : State) (stack sev action payload : Nat) : State :=
  s.record (stackDie stack) 6 sev 3 action (stackDie stack) (s.gen 3 (stackDie stack)) payload

/-- Record a far-tier event in the hub's ring. -/
def State.farRecord (s : State) (root sev action kind line syms : Nat) : State :=
  s.record hubDie 6 sev 7 action 0 0 (memPayload kind root 0 false false 0 line syms)

def dCe : Nat → Nat × Nat := fun _ => (0, 0)

/-- Record a corrected line, or only count it beyond CE_RECORD_MAX in a Lay second (12 R388). -/
def State.recordCe (s : State) (stack payload : Nat) : State :=
  let sec := s.lay.now / 2 ^ 32
  let c := tget dCe s.mem.ceSec stack
  let n := if c.1 == sec then c.2 else 0
  if n < s.dv 0x6012 0 then
    ({ s with mem := { s.mem with ceSec := tset dCe s.mem.ceSec stack (sec, n + 1) } }).memRecord stack 0 1 payload
  else s.bump .memSuppCnt stack 0 1

/-! ### Reading a line (12 R382 to R386) -/

/-- How a line read ended. -/
inductive LineRead where
  | clean
  /-- corrected: the error vector the decoder took off -/
  | corrected (u : List Byte)
  | poison
  | uncorrectable
  deriving DecidableEq, Repr

/-- The 72-symbol error vector of a list of symbols in error with their differences. -/
def errVec (errs : List (Nat × Nat)) : List Byte :=
  tabulate 72 fun j => errs.foldl (fun acc x => if x.1 == j then acc ^^^ BitVec.ofNat 8 x.2 else acc) 0#8

def vxor (a b : List Byte) : List Byte := a.zipWith (· ^^^ ·) b

/-- Symbols of a vector that are not zero. -/
def vsyms (v : List Byte) : List Nat := (List.range 72).filter fun j => v.getD j 0#8 != 0#8

/-- Decode the line whose cells differ from the stored codeword by `v`, the marking included. -/
def lineDecode (v : List Byte) (erased : List Nat) : LineRead :=
  let isMark := match rsDecode (vxor v poisonVec) erased with
    | some u => decide (((vsyms u).filter fun j => !erased.contains j).length ≤ 1)
    | none => false
  if isMark then .poison
  else match rsDecode v erased with
    | some u => if (vsyms u).isEmpty then .clean else .corrected u
    | none => .uncorrectable

def lineNo (stack off : Nat) : Nat := placeHbm stack off / 64

/-- What a read of the line of stack offset `off` gives, its cells in error in the symbols `errs`. -/
def State.readLine (s : State) (stack off : Nat) (errs : List (Nat × Nat)) : LineRead :=
  let v := errVec errs
  let v := if s.mem.marked (lineNo stack off) then vxor v poisonVec else v
  lineDecode v (pinSymbols (s.erasedPins stack (bits off 11 6)))

/-- The 64 bytes of a line. -/
def State.lineBytes (s : State) (stack off : Nat) : List Byte :=
  (List.range 64).map fun i => s.mem.byteAt (placeHbm stack (off / 64 * 64) + i)

def dLines : Nat → List Nat := fun _ => []

/-- Erase a pin: the PIN_ERASED record, which shows the count before, and MEM_STS (12 R386, R402). -/
def State.eraseRecorded (s : State) (stack pc pin line : Nat) (scrub : Bool) : State :=
  ((s.memRecord stack 0 1 (memPayload 3 stack pc scrub false (s.erasedPins stack pc).length line pin)).erasePin stack pc pin).flag .memSts stack 0 8

/-- Attribute a corrected symbol to its pin: note the line, and erase the pin, or flag the limit, when the pin reaches
PIN_ERASE_THRESH distinct lines within the scrub pass, once in the pass (12 R386). The threshold is Live: a pin that already has more
lines than a lowered threshold acts at its next line. -/
def State.notePin (s : State) (stack pc line pin : Nat) (scrub : Bool) : State :=
  let key := (stack * 64 + pc) * 36 + pin
  let ls := tget dLines s.mem.pinLines key
  if ls.contains line then s
  else
    let ls := line :: ls
    let s := { s with mem := { s.mem with pinLines := tset dLines s.mem.pinLines key ls } }
    if s.dv 0x6013 0 ≤ ls.length && !tget dF s.mem.pinDone key then
      let er := s.erasedPins stack pc
      let s := { s with mem := { s.mem with pinDone := tset dF s.mem.pinDone key true } }
      if er.length < 2 then s.eraseRecorded stack pc pin line scrub
      else (s.memRecord stack 0 1 (memPayload 4 stack pc scrub false er.length line pin)).flag .memSts stack 0 16
    else s

/-- The state after a line read that ended as `r`: counters, records, pins, and the write-back of a correction on a pin
that is not erased (12 R382 to R388). `v` is the difference of the cells from the codeword stored. -/
def State.afterRead (s : State) (stack off : Nat) (errs : List (Nat × Nat)) (scrub : Bool) (r : LineRead) : State :=
  let pc := bits off 11 6
  let line := off / 4096
  let er := s.erasedPins stack pc
  match r with
  | .clean => s
  | .poison => (s.bump .memPoisonCnt stack 0 1).flag .memSts stack 0 4
  | .uncorrectable =>
    let s := ((s.bump .memUeCnt stack 0 1).flag .memSts stack 0 2).memRecord stack 1 2
      (memPayload 2 stack pc scrub false er.length line 0)
    if scrub then { s with mem := s.mem.setPoison (lineNo stack off) true } else s
  | .corrected u =>
    let live := (vsyms u).filter fun j => !er.contains (j / 2)
    let wb := !live.isEmpty
    let s := (s.bump .memCeCnt stack 0 1).flag .memSts stack 0 1
    let s := s.recordCe stack (memPayload 1 stack pc scrub wb er.length line ((vsyms u).map (2 ^ ·)).sum)
    let s := ((live.map (· / 2)).eraseDups).foldl (fun s pin => s.notePin stack pc line pin scrub) s
    if wb then
      -- a pattern near another codeword is taken for that codeword: the bytes written back are the cells less u
      { s with mem := (s.mem.setBytes (placeHbm stack (off / 64 * 64))
          ((vxor (s.lineBytes stack off) (vxor ((errVec errs).take 64) (u.take 64))))).setPoison (lineNo stack off) false }
    else s

/-- MEM_READ (R382): a demand read of one line, for an application core when one is named. A read of a die in recovery is
held, so nothing happens (14 R475). -/
def execMemRead (core : Option Nat) (stack off : Nat) (errs : List (Nat × Nat)) (s : State) :
    Host.Outcome State Fault Refusal :=
  if s.dieDown (stackDie stack) then .next s
  else
    let r := s.readLine stack off errs
    let t := s.afterRead stack off errs false r
    .next (match core with
      | none => t
      | some c =>
        match r with
        | .poison => t.emit (.busError c)
        | .uncorrectable => t.emit (.busError c)
        | _ => t.emit (.busData c (leNat (t.lineBytes stack off))))

/-- MEM_WRITE (R384): a whole line replaces what the line held, and clears or sets its poison marking. -/
def execMemWrite (stack off : Nat) (data : List Byte) (poisoned : Bool) (s : State) : Host.Outcome State Fault Refusal :=
  .next { s with
    mem := { (s.mem.setBytes (placeHbm stack (off / 64 * 64)) (data.take 64)).setPoison (lineNo stack off) poisoned with
      markDue := s.mem.markDue.filter (· != lineNo stack off) } }

/-- MEM_PARTIAL_WRITE (R384): the line is read, merged and written back; a poisoned or uncorrectable read, or poisoned
data, leaves the line with the poison marking and the merged data. -/
def execMemPartialWrite (stack off : Nat) (data : List Byte) (errs : List (Nat × Nat)) (poisoned : Bool) (s : State) :
    Host.Outcome State Fault Refusal :=
  let r := s.readLine stack off errs
  let s := s.afterRead stack off errs false r
  let bad := poisoned || r == .poison || r == .uncorrectable
  .next { s with
    mem := { (s.mem.setBytes (placeHbm stack off) (data.take (64 - off % 64))).setPoison (lineNo stack off) bad with
      markDue := s.mem.markDue.filter (· != lineNo stack off) } }

/-! ### Patrol scrub (12 R389, R390) -/

def State.scrubAt (s : State) (stack : Nat) : Nat := tget d0 s.mem.scrubPos stack
/-- Lines of a stack (12 R372). -/
def State.stackLines (s : State) : Nat := s.stackBytes / 64

/-- The scrub of a stack moves to the next line; at the end of a pass POSITION returns to 0, STARTED takes the Lay time and
RUNS advances, and the corrections counted toward erasures start afresh (12 R386, R390). -/
def State.scrubNext (s : State) (stack : Nat) : State :=
  let pos := s.scrubAt stack + 1
  let last := pos == s.stackLines
  let pos := if last then 0 else pos
  let p := s.progress (progScrub stack)
  let s := { s with mem := { s.mem with
    scrubPos := tset d0 s.mem.scrubPos stack pos
    pinLines := if last then tkeep (fun k => k / (64 * 36) != stack) s.mem.pinLines else s.mem.pinLines
    pinDone := if last then tkeep (fun k => k / (64 * 36) != stack) s.mem.pinDone else s.mem.pinDone } }
  s.setProgress (progScrub stack) { p with
    state := 1, position := pos, total := s.stackLines, operation := 0x101, lastError := 0
    started := if last then s.lay.now else p.started
    runs := if last then sat32 (p.runs + 1) else p.runs }

/-- The patrol scrub of a trained stack runs: the first pass since the cold boot starts, and a pass that a reset aborted resumes at
its kept position with RUNS and STARTED unchanged (12 R390). -/
def State.scrubRuns (s : State) (stack : Nat) : State :=
  let p := s.progress (progScrub stack)
  if p.runs == 0 then s.startProgress (progScrub stack) 0x101 s.stackLines
  else if p.state == 4 then s.setProgress (progScrub stack) { p with state := 1, lastError := 0 }
  else s

/-- SCRUB_READ (R389): the patrol scrub reads the next line of its stack, unless it is paused by SCRUB_EN. -/
def execScrubRead (stack : Nat) (errs : List (Nat × Nat)) (s : State) : Host.Outcome State Fault Refusal :=
  if !bit (s.reg .memScrubCfg stack).toNat 31 || s.dieDown (stackDie stack) then .next s
  else
    let off := s.scrubAt stack * 64
    let s := s.scrubRuns stack
    .next ((s.afterRead stack off errs true (s.readLine stack off errs)).scrubNext stack)

/-! ### Training (12 R391 to R393) -/

/-- Training clears the erasures of a stack and erases the pins whose eye fails, each with its record (12 R386, R391). -/
def State.setErasures (s : State) (stack : Nat) (bad : List (Nat × Nat)) : State :=
  let s := (List.range 64).foldl (fun s pc => s.setReg .memPin stack pc 0#32) s
  bad.foldl (fun s x => s.eraseRecorded stack x.1 x.2 0 false) s

/-- Pseudo-channels trained `t` Lay units after the start: none in the first 0.2 s, then all 64 in 5 s (12 R391; the even pace between
the two instants is a DESIGN CHOICE, log entry 100). -/
def trainedChannels (t : Nat) : Nat := min 64 ((nsOfLay t - 200000000) * 64 / 5000000000)

/-- More than two pins of one pseudo-channel. -/
def tooManyPins (bad : List (Nat × Nat)) : Bool :=
  (List.range 64).any fun pc => decide (2 < (bad.filter fun x => x.1 == pc).length)

/-! ### The far tier (12 R394 to R398, R565) -/

/-- FAR_READ (R397): a read of a line of the far tier, with the device's CXL poison indication; for an application core
when one is named. -/
def execFarRead (core : Option Nat) (addr : Nat) (cxlPoison : Bool) (s : State) : Host.Outcome State Fault Refusal :=
  let a := addr / 64 * 64
  let err := fun (t : State) => match core with | some c => t.emit (.busError c) | none => t
  if !(decide (2 ^ 42 ≤ a) && decide (a < 2 ^ 43)) || (s.place a).isNone then .next (err s)
  else if s.farDown a then .next (err s)
  else if cxlPoison || s.poisoned a then
    let p := s.farRoot a
    .next (err ((s.bump .memFarPoisCnt 0 p 1).farRecord p 1 2 0x10 ((s.place a).getD 0 % 2 ^ 42 / 4096) 0))
  else .next (match core with | some c => s.emit (.busData c (s.rd a 64)) | none => s)

/-- FAR_WRITE (R397): the device completes a write, poison indication included; on a link that is down it is dropped and
counted. -/
def execFarWrite (addr : Nat) (data : List Byte) (poisoned : Bool) (s : State) : Host.Outcome State Fault Refusal :=
  if decide (2 ^ 42 ≤ addr) && decide (addr < 2 ^ 43) && s.mapped addr data.length then .next (s.wr addr data poisoned)
  else .next s

/-- A drain in progress ends FAILED (12 R401). -/
def State.failDrain (s : State) (err : Nat) : State :=
  if (s.progress progDrain).state == 1 then
    ({ s with mem := { s.mem with drainWaits := false, drainList := [] } }).endProgress progDrain 3 err
  else s

/-- FAR_LINK_DOWN (R398): a link that was up goes down: recorded, counted, and a drain in progress fails. -/
def execFarLinkDown (root : Nat) (s : State) : Host.Outcome State Fault Refusal :=
  if !(s.farPort root).up then .next s
  else
    let s := s.setFarPort root { s.farPort root with up := false, downCyc := s.cycle }
    let s := (s.bump .memFarDropCnt 0 root 1).farRecord root 1 1 0x11 0 0
    .next (s.failDrain 0x0101)

/-- A link width and rate of the far tier (12 R394). -/
def farRateOk (lanes gts : Nat) : Bool :=
  (lanes == 16 || lanes == 8 || lanes == 4) && (gts == 64 || gts == 32 || gts == 16)

/-- FAR_LINK_RETRAIN (R398): 100 ms after the link went down, or after the last try, the hub retrains it; a legal width and
rate is success. -/
def execFarLinkRetrain (root lanes gts : Nat) (s : State) : Host.Outcome State Fault Refusal :=
  let f := s.farPort root
  if !f.present || f.up || decide (s.cycle < f.downCyc + cycOfMs 100) then .next s
  else if farRateOk lanes gts then .next (s.setFarPort root { f with up := true, lanes := lanes, gts := gts })
  else .next (s.setFarPort root { f with downCyc := s.cycle })

/-- FAR_EVENT (R394): an event of the device's log is posted as a record. -/
def execFarEvent (root code off : Nat) (s : State) : Host.Outcome State Fault Refusal :=
  .next (s.farRecord root 0 1 0x12 (off / 4096) (code % 65536))

/-! ### The checkpoint drain (12 R400, R401) -/

/-- An entry of the drain list: source, destination, length. -/
def State.drainEntry (s : State) (i : Nat) : Nat × Nat × Nat :=
  let a := s.dv 0x6030 0 + 32 * i
  (s.rd a 8, s.rd (a + 8) 8, s.rd (a + 16) 8)

/-- An extent lies wholly in the populated HBM or far-tier windows. -/
def State.extentOk (s : State) (a n : Nat) : Bool :=
  s.mapped a n && (decide (a + n ≤ 2 ^ 41) || (decide (2 ^ 42 ≤ a) && decide (a + n ≤ 2 ^ 43)))

def overlaps (a n b m : Nat) : Bool := n != 0 && m != 0 && decide (a < b + m) && decide (b < a + n)

/-- The checks of a drain list: alignment, extents, and no source overlapping a destination. -/
def State.drainOk (s : State) (es : List (Nat × Nat × Nat)) : Bool :=
  (es.all fun e => e.1 % 64 == 0 && e.2.1 % 64 == 0 && e.2.2 % 64 == 0 &&
    s.extentOk e.1 e.2.2 && s.extentOk e.2.1 e.2.2) &&
  (es.all fun e => es.all fun f => !overlaps e.1 e.2.2 f.2.1 f.2.2)

/-- Start the drain: CONFIG_BUSY while one runs (02 R79); otherwise the whole list is checked, and the drain fails, waits
for DRAIN_AT or begins. -/
def State.startDrain (s : State) : State × Nat :=
  if (s.progress progDrain).busy then (s, 0x08)
  else
    let n := s.dv 0x6030 1
    let es := if s.mapped (s.dv 0x6030 0) (32 * n) then (List.range n).map s.drainEntry else []
    let s := s.startProgress progDrain 0x150 ((es.map fun e => e.2.2).sum)
    if n == 0 || es.isEmpty || !s.drainOk es then (s.endProgress progDrain 3 0x000A, 0)
    else
      let at' := s.dv 0x6030 2
      ({ s with mem := { s.mem with drainWaits := at' != 0 && decide (s.lay.now < at'), drainList := es } }, 0)

/-- DRAIN_START (R400). -/
def execDrainStart (_ini : Nat) (s : State) : Host.Outcome State Fault Refusal := .next s.startDrain.1

/-- DRAIN_AT_REACHED (R400): the drain that waits begins once Lay time has reached DRAIN_AT. -/
def execDrainAtReached (s : State) : Host.Outcome State Fault Refusal :=
  if (s.progress progDrain).state == 1 && s.mem.drainWaits && decide (s.dv 0x6030 2 ≤ s.lay.now)
  then .next { s with mem := { s.mem with drainWaits := false } }
  else .next s

/-- Copy one line with its poison state (12 R399). -/
def State.copyLine (s : State) (src dst : Nat) : State := s.wr dst (s.rdBytes src 64) (s.poisoned src)

/-- Copy n lines, counting those poisoned at DRAIN_POISONED. -/
def State.drainLines (s : State) (src dst : Nat) : Nat → State
  | 0 => s
  | n + 1 =>
    let s' := if s.poisoned src then s.bump .memDrainPoisCnt 0 0 1 else s
    (s'.copyLine src dst).drainLines (src + 64) (dst + 64) n

/-- A Cleat named by a word of the form [31] EN, [30:28] DIE, [13:0] INDEX is signalled by 1 from the hub (12 R400,
07 R236). -/
def State.signalWord (s : State) (w : Nat) : State :=
  if bit w 31 then s.cleatOp hubDie (bits w 30 28) (bits w 13 0) (.signal 1) else s

/-- The controller of a physical line: its stack, or 16 + root port; 18 for SRAM. -/
def lineHolder (l : Nat) : Nat := if l * 64 < 2 ^ 48 then l * 64 / 2 ^ 40 else if l * 64 < 2 ^ 50 then 18 else 16 + (l * 64 - 2 ^ 50) / 2 ^ 42

/-- POISON_MARK_WRITE (14 R470): the stack accepts writes again, and every line of an expired write that waits is written
with the poison marking. -/
def execPoisonMarkWrite (stack : Nat) (s : State) : Host.Outcome State Fault Refusal :=
  let due := s.mem.markDue.filter fun l => lineHolder l == stack
  .next { s with mem := { (due.foldl (fun m l => m.setPoison l true) s.mem) with
    markDue := s.mem.markDue.filter fun l => lineHolder l != stack } }

end Sys2Proof.Machine
end

