-- ==== Sys2Proof/Machine/Link.lean ====
section
/-! DEFINITION. The fabric link: the code RS(224,200), the scrambler and CRC-32C, the image of packets and frames on the lanes of a port,
virtual channels and their credits, frames sent, kept and replayed, and a packet's way to a port (13 R411 to R417). -/

namespace Sys2Proof.Machine

/-! ### Codewords (R411) -/

/-- Exclusive or of the entries that the bits of x select. -/
def xorSel : List Nat → Nat → Nat
  | [], _ => 0
  | t :: ts, x => (if x % 2 == 1 then t else 0) ^^^ xorSel ts (x / 2)

/-- The generator of RS(224,200), roots α^0 to α^23, without its leading term: its 24 coefficients times α^0 … α^7, the one of x^k in
bits [8k + 7:8k]. -/
def fabTaps : List Nat :=
  [ 0x7a76a946b2edd8667396e54982483d2bce01edf77fd99075, 0xf4ec4f8c79c7adcce631d79219907a568102c7f3feaf3dea
  , 0xf5c59e05f2934785d162b339323df4ac1f0493fbe1437ac9, 0xf797210af93b8e17bfc47b72647af5453e083bebdf86f48f
  , 0xf3334214ef76012e6395f6e4c8f4f78a7c1076cba311f503, 0xfb668428c3ec025cc637f1d58df5f309f820ec8b5b22f706
  , 0xebcc15509bc504b8916effb707f7fb12ed40c50bb644f30c, 0xcb852aa02b97086d3fdce3730ef3eb24c78097167188fb18 ]

/-- The 24 check symbols of 200 data symbols, the one of x^23 first: the remainder of m(x) × x^24 by the generator. -/
def fabCheck (data : List Byte) : List Byte :=
  (leBytes 24 (data.foldl (fun reg b => (reg % 2 ^ 184 * 256) ^^^ xorSel fabTaps ((reg / 2 ^ 184) ^^^ b.toNat)) 0)).reverse

/-- A codeword as it is sent: 200 data symbols, then 24 check symbols. -/
def fabEncode (data : List Byte) : List Byte := data ++ fabCheck data

/-- A codeword as it was received: its data and the number of symbols corrected, at most 12; none when it is uncorrectable. -/
def fabDecode (w : List Byte) : List Byte × Option Nat :=
  let data := w.take 200
  let diff := (fabCheck data).zipWith (· ^^^ ·) (w.drop 200)
  if diff.all (· == 0#8) then (data, some 0)
  else match rsSolve 224 24 (rsSyn 24 diff) [] with
    | some e => (data.zipWith (· ^^^ ·) e, some (e.filter (· != 0#8)).length)
    | none => (data, none)

/-- `n` times 25 bits of the additive sequence x^31 + x^28 + 1 from a state of 31 bits, the oldest at bit 0: the bits, and the state
after them. -/
def scrBits : Nat → Nat → Nat × Nat
  | 0, st => (0, st)
  | n + 1, st =>
    let b := (st ^^^ (st / 8)) % 2 ^ 25
    let r := scrBits n (st / 2 ^ 25 + b * 2 ^ 6)
    (b + 2 ^ 25 * r.1, r.2)

/-- The payload of a codeword scrambled, or descrambled: the sequence is added to its bits, bit 0 of its first byte first. -/
def scramble (st : Nat) (b : List Byte) : List Byte × Nat :=
  let r := scrBits 64 st
  (leBytes 200 (leNat b ^^^ r.1), r.2)

/-! ### CRC-32C -/

def crcTaps : List Nat :=
  [0xF26B8303, 0xE13B70F7, 0xC79A971F, 0x8AD958CF, 0x105EC76F, 0x20BD8EDE, 0x417B1DBC, 0x82F63B78]

/-- CRC-32C of a string of bytes. -/
def crc32c (b : List Byte) : Nat :=
  b.foldl (fun c x => (c / 256) ^^^ xorSel crcTaps ((c % 256) ^^^ x.toNat)) 0xFFFFFFFF ^^^ 0xFFFFFFFF

/-! ### Cells of a packet (R413, R415) -/

/-- VC of a packet TYPE (R416). -/
def kindVc (k : Nat) : Nat := if k == 0x40 || k == 0x41 then 0 else if 0x50 ≤ k then 1 else 2

end Sys2Proof.Machine

namespace Sys2Proof

open Sys2Proof.Machine

def Vcs.get (v : Vcs) (c : Nat) : Nat := if c == 0 then v.vc0 else if c == 1 then v.vc1 else v.vc2
def Vcs.set (v : Vcs) (c x : Nat) : Vcs :=
  if c == 0 then { v with vc0 := x } else if c == 1 then { v with vc1 := x } else { v with vc2 := x }
def Vcs.map (f : Nat → Nat) : Vcs := ⟨f 0, f 1, f 2⟩

/-- CELLS of a packet: its header, its body, and 16 bytes at the end of its last cell for what a receiver needs and the header does not
hold (log entry 115). -/
def Packet.cells (p : Packet) : Nat := (32 + p.body.length + 63) / 64

/-- A packet as it travels: header, body, zeros, and its last 16 bytes: sequence number, length of the body, poison. -/
def Packet.bytes (p : Packet) : List Byte :=
  leBytes 4 p.dst ++ leBytes 4 p.src ++ leBytes 1 p.kind ++ leBytes 1 (p.hops % 64 + 64 * kindVc p.kind) ++ leBytes 2 p.cells
    ++ leBytes 2 p.tgen ++ leBytes 2 p.igen ++ p.body ++ List.replicate (64 * p.cells - 32 - p.body.length) 0#8
    ++ leBytes 8 p.seq ++ leBytes 2 p.body.length ++ leBytes 1 (b2n p.poisoned) ++ List.replicate 5 0#8

end Sys2Proof

namespace Sys2Proof.Machine

/-- The packet in a run of cells. -/
def packetOf (b : List Byte) : Packet :=
  let f := fun (off n : Nat) => leNat ((b.drop off).take n)
  let e := b.length - 16
  { dst := f 0 4, src := f 4 4, kind := f 8 1, hops := f 9 1 % 64, tgen := f 12 2, igen := f 14 2
    body := (b.drop 16).take (f (e + 8) 2), seq := f e 8, poisoned := f (e + 10) 1 == 1 }

/-- Cell i of a packet. -/
def cellBytes (c : Packet × Nat) : List Byte := (c.1.bytes.drop (64 * c.2)).take 64

/-- Cells that arrived, joined to the bytes of a packet not yet whole: the packets that are now whole with their cells, and what is left.
A cell that begins no packet, CELLS being out of 1–32, is an idle cell (log entry 115). -/
def takeCells (buf : List Byte) (cells : List (List Byte)) : List (Packet × Nat) × List Byte :=
  cells.foldl (fun (acc : List (Packet × Nat) × List Byte) c =>
    let b := acc.2 ++ c
    let n := leNat ((b.drop 10).take 2)
    if acc.2.isEmpty && (n == 0 || decide (32 < n)) then acc
    else if 64 * n ≤ b.length then (acc.1 ++ [(packetOf b, n)], [])
    else (acc.1, b)) ([], buf)

/-! ### Frames (R412) -/

/-- Link header of a frame. -/
structure LinkHdr where
  seq : Nat
  ack : Nat
  nak : Bool
  retrain : Bool
  /-- cumulative cell credits -/
  credit : Vcs

/-- The 1,600 payload bytes of a frame: cell 0, then up to 24 cells, then idle cells of zeros. -/
def frameBytes (h : LinkHdr) (cells : List (List Byte)) : List Byte :=
  let head := leBytes 2 h.seq ++ leBytes 2 h.ack ++ leBytes 1 (b2n h.nak + 2 * b2n h.retrain) ++ List.replicate 3 0#8
    ++ leBytes 4 h.credit.vc0 ++ leBytes 4 h.credit.vc1 ++ leBytes 4 h.credit.vc2 ++ List.replicate 40 0#8
  let b := cells.flatMap id
  let rest := b ++ List.replicate (1536 - b.length) 0#8
  head ++ leBytes 4 (crc32c (head ++ rest)) ++ rest

/-- A frame's payload read: its link header and cells 1–24, or none when the CRC is wrong. -/
def readFrame (b : List Byte) : Option (LinkHdr × List (List Byte)) :=
  let f := fun (off n : Nat) => leNat ((b.drop off).take n)
  if f 0x3C 4 == crc32c (b.take 0x3C ++ b.drop 0x40) then
    some ({ seq := f 0 2, ack := f 2 2, nak := bit (f 4 1) 0, retrain := bit (f 4 1) 1, credit := ⟨f 8 4, f 12 4, f 16 4⟩ },
      chunks 64 24 (b.drop 0x40))
  else none

/-- The port lane that carries codeword i of a port's stream: the i mod w-th good one, in ascending order (R411). -/
def laneOf (good : List Nat) (i : Nat) : Nat := good.getD (i % good.length) 0

/-- A frame's payload as 8 codewords on the good lanes: each part scrambled with its lane's sequence, and encoded. -/
def Port.wordsOut (x : Port) (good : List Nat) (b : List Byte) : Port × List (List Byte) :=
  (chunks 200 8 b).foldl (fun (acc : Port × List (List Byte)) part =>
    let x := acc.1
    let lane := laneOf good x.txCw
    let r := scramble (x.txScr.getD lane 0) part
    ({ x with txScr := x.txScr.set lane r.2, txCw := x.txCw + 1 }, acc.2 ++ [fabEncode r.1])) (x, [])

/-- The codewords of a frame received: its payload, and of each codeword its lane and the number of symbols corrected, none when it was
uncorrectable. -/
def Port.wordsIn (x : Port) (good : List Nat) (words : List (List Byte)) : Port × List Byte × List (Nat × Option Nat) :=
  words.foldl (fun (acc : Port × List Byte × List (Nat × Option Nat)) w =>
    let x := acc.1
    let lane := laneOf good x.rxCw
    let d := fabDecode w
    let r := scramble (x.rxScr.getD lane 0) d.1
    ({ x with rxScr := x.rxScr.set lane r.2, rxCw := x.rxCw + 1 }, acc.2.1 ++ r.1, acc.2.2 ++ [(lane, d.2)])) (x, [], [])

/-! ### Ports (R406, R408) -/

/-- Home die of a port, and its place in the die's FAB_ block (R406, R452). -/
def portDie (p : Nat) : Nat := if p < 16 then p / 4 else if p == 16 then 0 else 2
def portEl (p : Nat) : Nat := if p < 16 then p % 4 else 4

/-- FAB_PORT_STAT of a port, and its STATE. -/
def State.portStat (s : State) (p : Nat) : Nat := (s.reg .fabPortStat (portDie p) (portEl p)).toNat
def State.portState (s : State) (p : Nat) : Nat := bits (s.portStat p) 31 29
/-- The port is UP or DEGRADED. -/
def State.portUp (s : State) (p : Nat) : Bool := s.portState p == 2 || s.portState p == 3

/-- Port lanes in use, as a mask and in ascending order. -/
def State.portGood (s : State) (p : Nat) : Nat := bits (s.portStat p) 23 16
def State.portLanes (s : State) (p : Nat) : List Nat := (List.range 8).filter (bit (s.portGood p) ·)

def dPort : Nat → Port := fun _ => {}
def State.port (s : State) (p : Nat) : Port := tget dPort s.ports p
def State.setPort (s : State) (p : Nat) (x : Port) : State := { s with ports := tset dPort s.ports p x }

/-! ### Sending frames (R413, R414) -/

/-- CREDIT of a frame: for each VC, the cells this port has room for and those it has passed on. -/
def Port.grant (x : Port) : Vcs := Vcs.map fun v => (Config.vcRoom v + x.rxCells.get v) % 2 ^ 32

/-- A frame goes out on a port, new or again. -/
def State.frameOut (s : State) (p seq : Nat) (nak retrain : Bool) (cells : List (Packet × Nat)) : State :=
  let x := s.port p
  let r := x.wordsOut (s.portLanes p) (frameBytes ⟨seq, x.rxSeq, nak, retrain, x.grant⟩ (cells.map cellBytes))
  (s.setPort p r.1).emit (.frame p { words := r.2 })

/-- A new frame: numbered, and kept among the last 256 until it is acknowledged. -/
def State.newFrame (s : State) (p : Nat) (nak retrain : Bool) (cells : List (Packet × Nat)) : State :=
  let x := s.port p
  let n := (x.txSeq + 1) % 65536
  (s.setPort p { x with txSeq := n, kept := (x.kept ++ [(n, cells)]).drop (x.kept.length - 255) }).frameOut p n nak retrain cells

/-- What leaves the queue of a port: credit left, VCs that wait, cells that may still go, the packets taken and those left. -/
structure Fill where
  credit : Vcs
  waits : List Nat
  room : Nat
  taken : List Packet
  left : List Packet

/-- The next packet of a VC: sent only when the VC holds credit for all its cells and no packet before it waits. -/
def Fill.add (f : Fill) (p : Packet) : Fill :=
  let v := kindVc p.kind
  if f.waits.contains v || decide (f.credit.get v < p.cells) || decide (f.room < p.cells) then
    { f with waits := v :: f.waits, left := f.left ++ [p] }
  else { f with credit := f.credit.set v (f.credit.get v - p.cells), room := f.room - p.cells, taken := f.taken ++ [p] }

/-- Cells a port may still send in each VC. -/
def Port.credit (x : Port) : Vcs := Vcs.map fun v => (x.txLim.get v + 2 ^ 32 - x.txCells.get v % 2 ^ 32) % 2 ^ 32

/-- What may go of the packets waiting at a port, VC2 first, then VC1, then VC0; at most 256 frames stay unacknowledged. -/
def Port.fill (x : Port) : Fill :=
  ([2, 1, 0].flatMap fun v => x.queue.filter fun p => kindVc p.kind == v).foldl Fill.add
    ⟨x.credit, [], (256 - x.kept.length) * 24, [], []⟩

/-- The packets that may go leave in frames of 24 cells, one packet's cells after another's. -/
def State.pump (s : State) (p : Nat) : State :=
  if !s.portUp p then s
  else
    let x := s.port p
    let f := x.fill
    let cells := f.taken.flatMap fun q => (List.range q.cells).map fun i => (q, i)
    let used := Vcs.map fun v => (x.txCells.get v + ((f.taken.filter fun q => kindVc q.kind == v).map Packet.cells).sum) % 2 ^ 32
    let s := s.setPort p { x with queue := f.left, txCells := used }
    let s := (chunks 24 ((cells.length + 23) / 24) cells).foldl (fun s c => s.newFrame p false false c) s
    f.taken.foldl (fun s q => s.emit (.packet p q)) s

/-- A packet is handed to a port: it waits for its turn and its credit. -/
def State.portSend (s : State) (p : Nat) (q : Packet) : State :=
  let x := s.port p
  let v := kindVc q.kind
  let since := if x.queue.any fun r => kindVc r.kind == v then x.since else x.since.set v s.cycle
  (s.setPort p { x with queue := x.queue ++ [q], since := since }).pump p

/-- Packets of a port that have not been acknowledged whole, then those that wait; what is for the link neighbour alone is dropped. -/
def Port.unsent (x : Port) : List Packet :=
  (x.kept.flatMap (fun f => f.2.filterMap fun c => if c.2 + 1 == c.1.cells then some c.1 else none) ++ x.queue).filter fun p =>
    p.kind != 0x01 && p.kind != 0x20

/-- Every frame not acknowledged goes out again; `ask`: the first one asks the neighbour to retrain. -/
def State.resend (s : State) (p : Nat) (ask : Bool) : State :=
  let s := (s.bump .fabReplayCnt (portDie p) (portEl p) 1).flag .fabPortSts (portDie p) (portEl p) 1
  ((s.port p).kept.zipIdx).foldl (fun s f => s.frameOut p f.1.1 false (ask && f.2 == 0) f.1.2) s

/-- A port retrains at the width of its good lanes (R409): no frame is lost, as those not acknowledged are sent again. -/
def State.linkRetrain (s : State) (p : Nat) (ask : Bool) : State :=
  let x := s.port p
  let s := s.setPort p { x with replays := 0 }
  if x.kept.isEmpty then (if ask then s.newFrame p false true [] else s) else s.resend p ask

/-- A NAK: every frame after ACK is sent again; LINK_REPLAY_LIMIT times in a row force a retrain (R414). -/
def State.replay (s : State) (p : Nat) : State :=
  let x := s.port p
  if s.dv 0x5005 0 ≤ x.replays + 1 then s.linkRetrain p true
  else (s.setPort p { x with replays := x.replays + 1 }).resend p false

/-! ### Routes (R417) -/

/-- A discarded packet, counted at ROUTE_DROPS of a ply die (R416, R417, R452). -/
def State.routeDrop (s : State) (die : Nat) : State := (s.bump .fabRouteDropCnt die 0 1).flag .fabSts die 0 2

/-- The entry for a destination in a ply die's route table. -/
def State.routeEntry (s : State) (die dst : Nat) : Nat :=
  if dst < 0x10000 then bits (s.reg .fabRoute die (dst / 2)).toNat (16 * (dst % 2) + 15) (16 * (dst % 2))
  else bits (s.reg .fabEpRoute die ((dst - 0x10000) / 2)).toNat (16 * (dst % 2) + 15) (16 * (dst % 2))

/-- The ports of an entry: PRIMARY then ALT, those that are usable. -/
def State.routePorts (s : State) (die dst : Nat) : List Nat :=
  let w := s.routeEntry die dst
  if bit w 15 then [bits w 14 10, bits w 9 5].filter fun p => p < 18 && s.portUp p else []

/-- A packet leaves a ply die on its route there, or is discarded and counted at the die. -/
def State.sendFrom (s : State) (die : Nat) (p : Packet) : State :=
  match s.routePorts die p.dst with
  | [] => s.routeDrop die
  | q :: _ => s.portSend q p

/-- The ply die whose table the hub's packets take: the first one that holds a VALID entry for the destination (log entry 61). -/
def State.hubRoute (s : State) (dst : Nat) : Nat := ((List.range 4).find? fun d => bit (s.routeEntry d dst) 15).getD 0

/-- A packet from the hub leaves on its route. -/
def State.sendPacket (s : State) (p : Packet) : State := s.sendFrom (s.hubRoute p.dst) p

end Sys2Proof.Machine
end

