-- ==== Sys2Proof/Machine/Num.lean ====
section
/-! DEFINITION. Exact values, the number formats, rounding, the conversion of a block with its scale byte and escapes
(04 R123 to R159), and the Bowline words (08 R252 to R258). -/

namespace Sys2Proof.Machine

/-! ### Exact values -/

/-- An exact value: m × 2^e, an infinity, or NaN (NaR). -/
inductive XV where
  | fin (m e : Int)
  | inf (neg : Bool)
  | nan
  deriving DecidableEq, Repr

def XV.zero : XV := .fin 0 0
def XV.ofInt (z : Int) : XV := .fin z 0
def XV.isFinite : XV → Bool
  | .fin _ _ => true
  | _ => false
def XV.isZero : XV → Bool
  | .fin m _ => m == 0
  | _ => false
def XV.isNeg : XV → Bool
  | .fin m _ => decide (m < 0)
  | .inf n => n
  | .nan => false

def pow2 (n : Int) : Nat := 2 ^ n.toNat

def XV.neg : XV → XV
  | .fin m e => .fin (-m) e
  | .inf n => .inf !n
  | .nan => .nan

def XV.abs : XV → XV
  | .fin m e => .fin m.natAbs e
  | .inf _ => .inf false
  | .nan => .nan

/-- Exact sum (R149: ∞ − ∞ is NaN). -/
def XV.add : XV → XV → XV
  | .nan, _ => .nan
  | _, .nan => .nan
  | .inf a, .inf b => if a == b then .inf a else .nan
  | .inf a, _ => .inf a
  | _, .inf b => .inf b
  | .fin a ea, .fin b eb =>
    if a == 0 then .fin b eb
    else if b == 0 then .fin a ea
    else if ea ≤ eb then .fin (a + b * (pow2 (eb - ea) : Int)) ea
    else .fin (a * (pow2 (ea - eb) : Int) + b) eb

def XV.sub (a b : XV) : XV := a.add b.neg

/-- Exact product (R149: 0 × ∞ is NaN). -/
def XV.mul : XV → XV → XV
  | .nan, _ => .nan
  | _, .nan => .nan
  | .inf a, .inf b => .inf (a != b)
  | .inf a, .fin b _ => if b == 0 then .nan else .inf (a != decide (b < 0))
  | .fin a _, .inf b => if a == 0 then .nan else .inf (decide (a < 0) != b)
  | .fin a ea, .fin b eb => .fin (a * b) (ea + eb)

/-- Multiply by 2^k. -/
def XV.scale (x : XV) (k : Int) : XV :=
  match x with
  | .fin m e => .fin m (e + k)
  | y => y

/-- Ordered comparison of finite values: a ≤ b. -/
def leF (a ea b eb : Int) : Bool :=
  if ea ≤ eb then decide (a ≤ b * (pow2 (eb - ea) : Int)) else decide (a * (pow2 (ea - eb) : Int) ≤ b)

/-- a ≤ b under R158: false with NaN. -/
def XV.le : XV → XV → Bool
  | .nan, _ => false
  | _, .nan => false
  | .inf true, _ => true
  | _, .inf false => true
  | .inf false, _ => false
  | _, .inf true => false
  | .fin a ea, .fin b eb => leF a ea b eb

/-- a < b under R158. -/
def XV.lt : XV → XV → Bool
  | .nan, _ => false
  | _, .nan => false
  | a, b => !(XV.le b a)

/-- Equality of values under R158. -/
def XV.eqv (a b : XV) : Bool := XV.le a b && XV.le b a

/-- max and min of R158: NaN if either is NaN. -/
def XV.max (a b : XV) : XV := if a == .nan || b == .nan then .nan else if XV.le a b then b else a
def XV.min (a b : XV) : XV := if a == .nan || b == .nan then .nan else if XV.le a b then a else b

/-- Magnitude of m × 2^e as a fraction of naturals. -/
def magFrac (m e : Int) : Nat × Nat := (m.natAbs * pow2 e, pow2 (-e))

/-! ### Magnitude grids (R123, R125 to R130) -/

/-- A magnitude grid: G[k] is k × 2^emin below 2^(mb+1), and further binades of 2^mb points; `last` is the index of Max.
Grid indexes are the magnitude codes. -/
structure Grid where
  mb : Nat
  emin : Int
  last : Nat
  deriving DecidableEq, Repr

/-- The grid of a format; LONG128 in units of U. -/
def grid (fmt : Nat) : Grid :=
  match fmt with
  | 0 => ⟨8, 0, 1⟩
  | 1 => ⟨0, 0, 3⟩
  | 2 => ⟨8, 0, 7⟩
  | 3 => ⟨1, -1, 7⟩
  | 4 => ⟨2, -4, 31⟩
  | 5 => ⟨3, -9, 0x7E⟩
  | 6 => ⟨2, -16, 0x7B⟩
  | 7 => ⟨7, -133, 0x7F7F⟩
  | 8 => ⟨10, -24, 0x7BFF⟩
  | 9 => ⟨23, -149, 0x7F7FFFFF⟩
  | 10 => ⟨8, 0, 127⟩
  | 11 => ⟨32, 0, 2 ^ 31 - 1⟩
  | _ => ⟨128, -80, 2 ^ 127 - 1⟩

/-- Bits of an element (R123). -/
def fmtBits (fmt : Nat) : Nat := [2, 3, 4, 4, 6, 8, 8, 16, 16, 32, 8, 32, 128].getD fmt 128

/-- Formats with an escape code: T2, T3, T4i, T4f. -/
def hasEsc (fmt : Nat) : Bool := decide (fmt ≤ 3)
def escCode (fmt : Nat) : Nat := [2, 4, 8, 8].getD fmt 0

/-- Formats of R123 marked scaled; FMT 0xA is scaled INT8 only where block scales are carried. -/
def fmtScaled (fmt : Nat) : Bool := decide (fmt ≤ 6) || fmt == 10

/-- The value G[k]. -/
def gval (g : Grid) (k : Nat) : Int × Int :=
  if k < 2 ^ (g.mb + 1) then (k, g.emin)
  else ((2 ^ g.mb + k % 2 ^ g.mb : Nat), g.emin + (k / 2 ^ g.mb - 1 : Nat))

/-- Rounding modes (R81 ROUND). -/
def mRN : Nat := 0
def mRZ : Nat := 1
def mSR : Nat := 2

/-- round_mag of R142 on the magnitude n / d: the grid index and whether it saturated. -/
def roundQ (g : Grid) (mode r n d : Nat) : Nat × Bool :=
  let n := n * pow2 (-g.emin)
  let d := d * pow2 g.emin
  let q := n / d
  let sh := if q < 2 ^ (g.mb + 1) then 0 else Nat.log2 q - g.mb
  let den := d * 2 ^ sh
  let lo := sh * 2 ^ g.mb + n / den
  let rem := n % den
  if g.last < lo || (lo == g.last && rem != 0) then (g.last, true)
  else if rem == 0 then (lo, false)
  else if mode == mRZ then (lo, false)
  else if mode == mSR then (if 16 ≤ 16 * rem / den + r then lo + 1 else lo, false)
  else if 2 * rem < den then (lo, false)
  else if den < 2 * rem then (lo + 1, false)
  else (if lo % 2 == 0 then lo else lo + 1, false)

/-- round_mag of the square root of n / d: the largest grid point not above it is found on the squares. Only RN is used. -/
def roundSqrt (g : Grid) (n d : Nat) : Nat × Bool :=
  -- √(n/d) = √(n × d) / d; 2^(2k) more bits make the truncated root exact enough to break every tie but an exact one
  let k := 2 * (g.mb + 4) + 2 * g.emin.natAbs
  let big := n * d * 4 ^ k
  let x := Nat.sqrt big
  let exact := x * x == big
  -- an inexact root lies strictly between x and x + 1: 2x + 1 halves stand for it
  roundQ g mRN 0 (if exact then 2 * x else 2 * x + 1) (2 * d * 2 ^ k)

/-! ### Codes and values -/

/-- The signed code of a grid index (R125 to R130); zero is +0 (R146). -/
def signCode (fmt : Nat) (neg : Bool) (k : Nat) : Nat :=
  if k == 0 || !neg then k
  else match fmt with
    | 0 => 3
    | 1 => 4 + k
    | 2 => 16 - k
    | 10 => 256 - k
    | 11 => 2 ^ 32 - k
    | 12 => 2 ^ 128 - k
    | f => 2 ^ (fmtBits f - 1) + k

/-- The value of an element code; none for the escape code (R125 to R130, R155). -/
def codeVal (fmt c : Nat) : Option XV :=
  let fl := fun (w : Nat) =>
    let k := c % 2 ^ (w - 1)
    let v := gval (grid fmt) k
    if c / 2 ^ (w - 1) % 2 == 1 then XV.fin (-v.1) v.2 else XV.fin v.1 v.2
  match fmt with
  | 0 => if c == 2 then none else some (.ofInt (if c == 3 then -1 else c))
  | 1 => if c == 4 then none else some (fl 3)
  | 2 => if c == 8 then none else some (.ofInt (sInt 4 c))
  | 3 => if c == 8 then none else some (fl 4)
  | 4 => some (fl 6)
  | 5 => some (if c % 128 == 0x7F then .nan else fl 8)
  | 6 => some (if c % 128 == 0x7C then .inf (bit c 7) else if 0x7C < c % 128 then .nan else fl 8)
  | 7 => some (if c % 2 ^ 15 == 0x7F80 then .inf (bit c 15) else if 0x7F80 < c % 2 ^ 15 then .nan else fl 16)
  | 8 => some (if c % 2 ^ 15 == 0x7C00 then .inf (bit c 15) else if 0x7C00 < c % 2 ^ 15 then .nan else fl 16)
  | 9 => some (if c % 2 ^ 31 == 0x7F800000 then .inf (bit c 31) else if 0x7F800000 < c % 2 ^ 31 then .nan else fl 32)
  | 10 => some (.ofInt (sInt 8 c))
  | 11 => some (.ofInt (sInt 32 c))
  | _ => some (if c == 2 ^ 127 then .nan else .fin (sInt 128 c) (-80))

/-- The value of an FP32 code. -/
def f32 (c : Nat) : XV := (codeVal 9 c).getD .nan

/-- The NaN the device writes (R128, R129); NaR for LONG128. -/
def nanCode (fmt : Nat) : Nat :=
  match fmt with
  | 5 => 0x7F
  | 6 => 0x7E
  | 7 => 0x7FC0
  | 8 => 0x7E00
  | 9 => 0x7FC00000
  | 12 => 2 ^ 127
  | _ => 0

/-- What a non-finite value is written as, without escapes (R148). -/
def nonfinCode (fmt : Nat) : XV → Nat
  | .inf neg =>
    match fmt with
    | 5 => 0x7F
    | 6 => if neg then 0xFC else 0x7C
    | 7 => if neg then 0xFF80 else 0x7F80
    | 8 => if neg then 0xFC00 else 0x7C00
    | 9 => if neg then 0xFF800000 else 0x7F800000
    | 12 => 2 ^ 127
    | f => signCode f neg (grid f).last
  | _ => nanCode fmt

/-- One value written in a format without a block scale: code and whether it saturated (R142, R145 to R148, R154, R157). -/
def convCode (fmt mode r : Nat) (x : XV) : Nat × Bool :=
  match x with
  | .fin m e =>
    let q := magFrac m e
    let k := roundQ (grid fmt) mode r q.1 q.2
    (signCode fmt (decide (m < 0)) k.1, k.2)
  | y => (nonfinCode fmt y, false)

/-- The FP32 code of a value (rounded to nearest). -/
def f32Code (x : XV) : Nat := (convCode 9 mRN 0 x).1

/-- An FP32 operation's exact result rounded (R154). -/
def rnd32 (mode r : Nat) (x : XV) : XV × Bool :=
  match x with
  | .fin _ _ => let c := convCode 9 mode r x; (f32 c.1, c.2)
  | y => (y, false)

def rn32 (x : XV) : XV × Bool := rnd32 mRN 0 x

/-- The quotient of two values rounded to FP32 (R149: 0 ÷ 0 is NaN, x ÷ 0 is ±Max and saturated). R149 does not name ∞ ÷ ∞, ∞ ÷ x and
x ÷ ∞: the model takes NaN, ∞ and 0, as IEEE 754 does (PRESUMED, log entry 114). -/
def div32 (x y : XV) : XV × Bool :=
  match x, y with
  | .nan, _ => (.nan, false)
  | _, .nan => (.nan, false)
  | .inf _, .inf _ => (.nan, false)
  | .inf a, .fin b _ => (.inf (a != decide (b < 0)), false)
  | .fin _ _, .inf _ => (.zero, false)
  | .fin a ea, .fin b eb =>
    if b == 0 then
      (if a == 0 then (.nan, false) else (f32 (signCode 9 (decide (a < 0)) (grid 9).last), true))
    else
      let p := magFrac a ea
      let q := magFrac b eb
      let k := roundQ (grid 9) mRN 0 (p.1 * q.2) (p.2 * q.1)
      (f32 (signCode 9 (decide (a < 0) != decide (b < 0)) k.1), k.2)

/-- The square root of a value rounded to FP32. -/
def sqrt32 (x : XV) : XV × Bool :=
  match x with
  | .fin a ea =>
    if a < 0 then (.nan, false)
    else
      let q := magFrac a ea
      let k := roundSqrt (grid 9) q.1 q.2
      (f32 k.1, k.2)
  | .inf false => (.inf false, false)
  | _ => (.nan, false)

/-! ### Writing elements (R151, R152) -/

/-- An element on its way to conversion: its exact value, whether an earlier step saturated or clipped it, its random
bits, and its poison mark. -/
structure OutEl where
  v : XV
  sat : Bool := false
  clip : Bool := false
  r : Nat := 0
  poison : Bool := false
  deriving DecidableEq, Repr

/-- What happened to one element at its conversion. -/
structure ElEv where
  sat : Bool := false
  ovf : Bool := false
  esc : Bool := false
  deriving DecidableEq, Repr

/-- The counts of one output element (R159): at most one of CLIPPED, SATURATED, OUTLIER_OVF, FLUSHED, none of them for a
non-finite value. -/
def elCounts (x : OutEl) (code : Nat) (ev : ElEv) : Counts :=
  let z := code == 0
  let c : Counts := { zeros := b2n z, escaped := b2n ev.esc }
  if !x.v.isFinite then c
  else if x.clip then { c with clipped := 1 }
  else if x.sat || ev.sat then { c with saturated := 1 }
  else if ev.ovf then { c with outlierOvf := 1 }
  else if z && !x.v.isZero then { c with flushed := 1 }
  else c

/-- Field-wise addition of counters, without an end. -/
def Counts.add (a b : Counts) : Counts :=
  ⟨a.saturated + b.saturated, a.flushed + b.flushed, a.clipped + b.clipped, a.zeros + b.zeros,
   a.nonfinite + b.nonfinite, a.escaped + b.escaped, a.outlierOvf + b.outlierOvf, a.zeroBlocks + b.zeroBlocks⟩

def sumCounts (l : List Counts) : Counts := l.foldl Counts.add {}

/-- |x| × 2^d ≤ Max × cf. -/
def fitsAt (fmt : Nat) (cf : Int × Int) (m e : Int) (d : Nat) : Bool :=
  let mx := gval (grid fmt) (grid fmt).last
  leF m.natAbs (e + d) (mx.1 * cf.1) (mx.2 + cf.2)

/-- fit(m) of R151 for a magnitude |x| / cf. -/
def fitD (fmt : Nat) (cf : Int × Int) (m e : Int) : Nat :=
  if m == 0 then 31
  else ((List.range 32).reverse.find? fun d => fitsAt fmt cf m e d).getD 0

/-- A block as it is written. -/
structure BlkOut where
  codes : List Nat
  byte : Nat
  entries : List Nat
  counts : Counts
  deriving DecidableEq, Repr

/-- The finite magnitudes of a block with their positions, largest first, ties by position. -/
def rankMags (xs : List XV) : List (Nat × Int × Int) :=
  let l := (xs.zipIdx).filterMap fun p =>
    match p.1 with
    | .fin m e => some (p.2, (m.natAbs : Int), e)
    | _ => none
  l.mergeSort fun a b => leF b.2.1 b.2.2 a.2.1 a.2.2

/-- Write a block of a scaled format: choice of D and the escapes (R151), then every element (R152). -/
def writeBlock (fmt mode : Nat) (esc : Bool) (cf : Int × Int) (xs : List OutEl) : BlkOut :=
  let vs := xs.map (·.v)
  let rk := rankMags vs
  let fitOf := fun (p : Nat × Int × Int) => fitD fmt cf p.2.1 p.2.2
  let d := match rk[0]? with | some p => fitOf p | none => 31
  let lift := fun (d : Nat) (o : Option (Nat × Int × Int)) =>
    match o with
    | some p => if p.2.1 != 0 && decide (d + 2 ≤ fitOf p) then fitOf p else d
    | none => d
  let d := if esc then lift (lift d rk[1]?) rk[2]? else d
  let nf := (vs.zipIdx).filterMap fun p => if p.1.isFinite then none else some p.2
  let overs := rk.filterMap fun p => if fitsAt fmt cf p.2.1 p.2.2 d then none else some p.1
  let cand := nf ++ overs
  let escSet := if esc then cand.take 2 else []
  let cnt := if !esc then 0 else if 2 < cand.length then 3 else escSet.length
  let quot := fun (g : Grid) (m e : Int) (r : Nat) =>
    let q := magFrac m (e + d)
    let c := magFrac cf.1 cf.2
    roundQ g mode r (q.1 * c.2) (q.2 * c.1)
  let one := fun (i : Nat) (x : OutEl) =>
    if escSet.contains i then
      let val := match x.v with
        | .fin m e => let k := quot (grid 5) m e x.r; (signCode 5 (decide (m < 0)) k.1, k.2)
        | _ => (0x7F, false)
      (escCode fmt, ({ esc := true, sat := val.2 } : ElEv), some (val.1 * 256 + i))
    else match x.v with
      | .fin m e =>
        if overs.contains i then
          (signCode fmt (decide (m < 0)) (grid fmt).last, { ovf := esc, sat := !esc }, none)
        else
          let k := quot (grid fmt) m e x.r
          (signCode fmt (decide (m < 0)) k.1, { sat := k.2 }, none)
      | y => (nonfinCode fmt y, {}, none)
  let ys := (xs.zipIdx).map fun p => (p.1, one p.2 p.1)
  let codes := ys.map fun y => y.2.1
  let byte := if escSet.isEmpty && codes.all (· == 0) then 0x80 else cnt * 32 + d
  { codes := codes, byte := byte
    entries := ys.filterMap fun y => y.2.2.2
    counts := sumCounts (ys.map fun y => elCounts y.1 y.2.1 y.2.2.1) }

/-- Pack element codes of width w into bytes, element 0 lowest (R124). -/
def packCodes (w : Nat) (codes : List Nat) : List Byte :=
  let n := (codes.zipIdx).foldl (fun acc p => acc + p.1 * 2 ^ (w * p.2)) 0
  leBytes (w * codes.length / 8) n

/-! ### Bowline words (08 R252) -/

/-- One round. -/
def bwlRound (k0 k1 : Word) (i : Nat) (x : Word × Word × Word × Word) : Word × Word × Word × Word :=
  let a := x.1 + x.2.1
  let d := (x.2.2.2 ^^^ a).rotateLeft 16
  let c := x.2.2.1 + d
  let b := (x.2.1 ^^^ c).rotateLeft 12
  let a := a + b + (if i % 2 == 0 then k0 else k1) + BitVec.ofNat 32 i
  let d := (d ^^^ a).rotateLeft 8
  let c := c + d
  let b := (b ^^^ c).rotateLeft 20
  (a, b, c, d)

/-- The 128-bit word W of an element. -/
def bowline (seed stream tensor index draw : Nat) : Nat :=
  let k0 := BitVec.ofNat 32 seed
  let k1 := BitVec.ofNat 32 (seed / 2 ^ 32)
  let x := (BitVec.ofNat 32 tensor ^^^ k0, BitVec.ofNat 32 stream ^^^ k1, BitVec.ofNat 32 index,
    0x5A000000#32 ||| BitVec.ofNat 32 (draw % 256 * 65536) ||| BitVec.ofNat 32 (index / 2 ^ 32 % 65536))
  let y := (List.range 4).foldl (fun x i => bwlRound k0 k1 i x) x
  y.1.toNat + y.2.1.toNat * 2 ^ 32 + y.2.2.1.toNat * 2 ^ 64 + y.2.2.2.toNat * 2 ^ 96

end Sys2Proof.Machine
end

