-- ==== Sys2Proof/Machine/Sched.lean ====
section
/-! DEFINITION. Work items: the fields of a descriptor, step slots and trackers as items see them, the completion of an
item with its record and its signals, and the readiness of admitted items (03 R81 to R98, R106, R113 to R118; 07 R216 to
R238; 13 R424). -/

namespace Sys2Proof.Machine

/-! ### Fields of a descriptor (03 R81) -/

def Item.engine (x : Item) : Nat := bits (fld x.raw 0 2) 15 12
def Item.op (x : Item) : Nat := bits (fld x.raw 0 2) 11 0
def Item.flags (x : Item) : Nat := fld x.raw 2 1
def Item.chain (x : Item) : Bool := bit x.flags 0
def Item.wide (x : Item) : Bool := bit x.flags 1
def Item.replayable (x : Item) : Bool := bit x.flags 2
def Item.timed (x : Item) : Bool := bit x.flags 3
def Item.predEn (x : Item) : Bool := bit x.flags 4
def Item.round (x : Item) : Nat := fld x.raw 3 1 % 4
def Item.tag (x : Item) : Nat := fld x.raw 4 4
def Item.genField (x : Item) : Nat := fld x.raw 8 2
def Item.layer (x : Item) : Nat := fld x.raw 0xA 2
def Item.mask (x : Item) : Nat := fld x.raw 0xC 4
def Item.layGate (x : Item) : Nat := fld x.raw 0x10 8
def Item.pred (x : Item) : Nat := fld x.raw 0x18 8
def Item.predAddr (x : Item) : Nat := fld x.raw 0x20 6
def Item.wait (x : Item) (k : Nat) : Nat := fld x.raw (0x28 + 8 * k) 8
def Item.signal (x : Item) (k : Nat) : Nat := fld x.raw (0x38 + 8 * k) 8
/-- Stream k (0 = A to 3 = D): the 64-bit field, the block-list address, the entry count. -/
def Item.stream (x : Item) (k : Nat) : Nat := fld x.raw (0x48 + 8 * k) 8
def Item.streamAddr (x : Item) (k : Nat) : Nat := x.stream k % 2 ^ 48
def Item.streamCount (x : Item) (k : Nat) : Nat := x.stream k / 2 ^ 48
/-- n bytes of OPERANDS at descriptor offset `off`. -/
def Item.opnd (x : Item) (off n : Nat) : Nat := fld x.raw off n
def Item.compRing (x : Item) : Nat := fld x.raw 0x78 1 % 8
def Item.resultSlot (x : Item) : Nat := fld x.raw 0x7A 2
def Item.watch (x : Item) : Nat := fld x.raw 0x7C 2
def Item.stepSlot (x : Item) : Nat := fld x.raw 0x7E 2

/-- The vote item (13 R425). -/
def Item.isVote (x : Item) : Bool := x.engine == 7 && x.op == 0x30
/-- Commit-gated items (07 R233, 11 R348). -/
def Item.isGated (x : Item) : Bool := x.engine == 6 && decide (2 ≤ x.op) && decide (x.op ≤ 5) && decide (x.stepSlot < 16)

/-! ### Status codes (03 R114, 07 R233, 13 R424) -/

def stDone : Nat := 0x00
def stPoisoned : Nat := 0x01
def stScaleFault : Nat := 0x02
def stSkew : Nat := 0x03
def stOverflow : Nat := 0x04
def stPageWait : Nat := 0x05
def stStale : Nat := 0x06
def stReset : Nat := 0x07
def stWatchdog : Nat := 0x09
def stBusy : Nat := 0x08
def stInvalid : Nat := 0x0A
def stSkipped : Nat := 0x0B
def stFenced : Nat := 0x0C
def stUndelivered : Nat := 0x0D
def stDiscarded : Nat := 0x0E
def stPeerLost : Nat := 0x0F

/-- The order in which the record's status is chosen (03 R115, 07 R233, 13 R424); R115 does not place CONFIG_BUSY
(log entry 31). -/
def statusOrder : List Nat :=
  [0x07, 0x09, 0x0F, 0x06, 0x0A, 0x08, 0x0C, 0x0E, 0x0B, 0x05, 0x03, 0x01, 0x04, 0x02, 0x0D]

/-- The status of the record among those that apply. -/
def primaryStatus (l : List Nat) : Nat := (statusOrder.find? fun c => l.contains c).getD 0

/-- The item ran to its end (03 R90, 07 R217). -/
def ranToEnd (st : Nat) : Bool := [0x00, 0x01, 0x02, 0x04, 0x0D].contains st

/-- The statuses that issue signals. -/
def issuesSignals (st : Nat) : Bool := [0x00, 0x01, 0x02, 0x03, 0x04, 0x0B, 0x0D, 0x0E].contains st

/-- The fault flag a status sets in its slot (07 R230), 0 for none. A SCALE_FAULT's own bits are given apart. -/
def statusFault (st : Nat) : Nat :=
  if st == 0x04 then 4 else if st == 0x03 then 8 else if st == 0x01 then 16 else if st == 0x07 then 32
  else if [0x08, 0x09, 0x0A, 0x0C, 0x0F].contains st then 64 else 0

/-! ### Step slots and trackers -/

def dStep : Nat → StepSlot := fun _ => {}
def State.step (s : State) (i : Nat) : StepSlot := tget dStep s.steps i
def State.setStep (s : State) (i : Nat) (x : StepSlot) : State := { s with steps := tset dStep s.steps i x }

def dTrk : Nat → Tracker := fun _ => {}
def State.tracker (s : State) (t : Nat) : Tracker := tget dTrk s.trk t
def State.setTracker (s : State) (t : Nat) (x : Tracker) : State := { s with trk := tset dTrk s.trk t x }

/-- A policy value: the one latched by the slot's OPEN or REOPEN (07 R249), the dictionary's outside a step. -/
def State.policy (s : State) (slot idx : Nat) : Nat :=
  if slot < 16 then
    match (s.step slot).policy.find? (fun e => e.1 == idx) with
    | some e => e.2
    | none => s.dv idx 0
  else s.dv idx 0

/-- SPL_TRK_CFG of tracker t. -/
def State.trkCfg (s : State) (t : Nat) : Nat := (s.reg .trkCfg (t / 4096) (t % 4096)).toNat

/-- HLEN(t) and HR(t) (07 R218, R220). -/
def State.trkHlen (s : State) (slot t : Nat) : Nat :=
  let v := bits (s.trkCfg t) 24 20
  if v == 0 then s.policy slot 0x3000 else v
def State.trkHr (s : State) (slot t : Nat) : Nat :=
  let v := bits (s.trkCfg t) 19 16
  if v == 15 then s.policy slot 0x3001 else v
/-- INIT(t), as an FP32 code. -/
def State.trkInit (s : State) (slot t : Nat) : Nat :=
  let v := (s.reg .trkInit (t / 4096) (t % 4096)).toNat
  if v == 0 then s.policy slot 0x3003 else v

/-- h from the history (07 R218): FP32 codes of non-negative values order as numbers. -/
def State.histMax (s : State) (slot t : Nat) : Nat := ((s.tracker t).hist.take (s.trkHlen slot t)).foldl max 0

/-- The attempt's values of a tracker cleared (07 R220). -/
def Tracker.freshAttempt (x : Tracker) : Tracker :=
  { x with items := 0, stepmax := 0, elems := 0, counts := {}, nonfin := false, faultNow := false }

/-- A step slot takes hold of a tracker at the admission of its first item that names it (07 R216). -/
def State.holdTracker (s : State) (t slot : Nat) : State :=
  let x := s.tracker t
  if x.held then s
  else s.setTracker t { x.freshAttempt with
    held := true, slot := slot, prepass := false, usePre := false, premax := 0, preDone := 0, producers := 0
    hmax := s.histMax slot t }

/-- One more producer at PRE_DONE, with an amax; PREPASS clears when PRE_DONE reaches PRODUCERS (07 R238). -/
def Tracker.prepassContribute (x : Tracker) (amax : Nat) : Tracker :=
  let m := max x.premax amax
  let d := x.preDone + 1
  { x with premax := m, preDone := d, hmax := m, prepass := x.prepass && d != x.producers }

/-- A share exceeds a threshold (07 R222). -/
def shareOver (count thr elems : Nat) : Bool := decide (thr * elems < count * 65536)

/-- The three checks of 07 R223 on one set of counts: bits SAT 1, FLUSH 2, OVF 8 of SPL_STS. -/
def State.shareCheck (s : State) (slot : Nat) (c : Counts) (elems : Nat) : Nat :=
  b2n (shareOver c.saturated (s.policy slot 0x3010) elems)
    + 2 * b2n (shareOver c.flushed (s.policy slot 0x3011) elems)
    + 8 * b2n (shareOver c.outlierOvf (s.policy slot 0x3012) elems)

/-! ### Remote Cleat operations (13 R422, R442) -/

/-- This package's id, when it is assigned. -/
def State.pkgId (s : State) : Nat := s.dv 0x5000 0

def dPeer : Nat → Peer := fun _ => {}
def State.peer (s : State) (p : Nat) : Peer := tget dPeer s.peers p

/-- Packets may be sent to a peer: its entry is MEMBER or SUSPECT (13 R422). -/
def State.peerOk (s : State) (p : Nat) : Bool := (s.peer p).state == 1 || (s.peer p).state == 2

/-- This package takes part: its id is assigned and MEMBER in its own table (13 R419, R422). -/
def State.selfMember (s : State) : Bool := s.pkgId != 0xFFFFFFFF && (s.peer s.pkgId).state == 1

/-- Send a packet of an item to a peer and wait for its DELIVERED (13 R418). -/
def State.sendTracked (s : State) (kind dst region slot sig : Nat) (body : List Byte) (bad : Bool := false) : State :=
  let p : Packet := { kind := kind, dst := dst, src := s.pkgId, tgen := (s.peer dst).pgen, igen := s.gen 2 region,
                      seq := s.sendSeq, hops := 63, poisoned := bad, body := body }
  let s := { s with sends := ⟨s.sendSeq, kind, dst, region, slot, sig, s.cycle⟩ :: s.sends, sendSeq := s.sendSeq + 1 }
  s.sendFrom (regionDie region) p

/-! ### Signals of an item (03 R95, R106, R112) -/

def sigEn (w : Nat) : Bool := bit w 28
def sigRemote (w : Nat) : Bool := bit w 27
def sigDec (w : Nat) : Bool := bit w 26
def sigDie (w : Nat) : Nat := bits w 31 29
def sigIdx (w : Nat) : Nat := bits w 13 0
def sigAmount (w : Nat) : Nat := bits w 47 32
def sigPkg (w : Nat) : Nat := bits w 63 48

def sigOp (w : Nat) : CleatOp := if sigDec w then .decrement (sigAmount w) else .signal (sigAmount w)

/-- The operation of a signal slot can be applied, as far as this package knows. -/
def State.sigOk (s : State) (w : Nat) : Bool :=
  if sigRemote w then s.selfMember && s.peerOk (sigPkg w)
  else cleatExists (sigDie w) (sigIdx w) && !s.dieDown (sigDie w)

/-- Issue one signal slot of an item of a region. -/
def State.issueSignal (s : State) (region slot k w : Nat) : State :=
  if !sigEn w then s
  else if sigRemote w then
    if s.selfMember && s.peerOk (sigPkg w) then s.sendTracked 0x51 (sigPkg w) region slot k (leBytes 8 w)
    else s.bump .cltUndelCnt (regionDie region) 0 1
  else s.cleatOp (regionDie region) (sigDie w) (sigIdx w) (sigOp w)

/-! ### Completion records (03 R113, R116, R117) -/

/-- The 512 bits of a completion record. -/
def recordBits (x : Item) (region status cflags detail cycles : Nat) (c : Counts) : Nat :=
  x.tag % 2 ^ 32 + status * 2 ^ 32 + cflags * 2 ^ 40 + region * 2 ^ 48 + x.ofmt % 16 * 2 ^ 60
    + (x.gen % 65536 + x.layer * 65536 + x.units * 2 ^ 32) * 2 ^ 64
    + x.start.getD 0 % 2 ^ 64 * 2 ^ 128 + (cycles + detail % 2 ^ 32 * 2 ^ 32) * 2 ^ 192
    + (sat32 c.saturated + sat32 c.flushed * 2 ^ 32 + sat32 c.clipped * 2 ^ 64 + sat32 c.zeros * 2 ^ 96) * 2 ^ 256
    + (sat32 c.nonfinite + sat32 c.escaped * 2 ^ 32 + sat32 c.outlierOvf * 2 ^ 64 + sat32 c.zeroBlocks * 2 ^ 96) * 2 ^ 384

def State.ringSize (s : State) (region ring : Nat) : Nat := 2 ^ bits (s.reg .cqCfg region ring).toNat 3 0
def State.ringOn (s : State) (region ring : Nat) : Bool := bit (s.reg .cqCfg region ring).toNat 31
def State.ringFull (s : State) (region ring : Nat) : Bool :=
  decide (s.ringSize region ring ≤ (s.reg .cqTail region ring - s.reg .cqHead region ring).toNat)

/-- The ring a record goes to: its own, ring 0, or none (R116). -/
def State.recordRing (s : State) (region ring : Nat) : Option Nat :=
  if s.ringOn region ring then some ring else if s.ringOn region 0 then some 0 else none

def State.cqBase (s : State) (region ring : Nat) : Nat :=
  (s.reg .cqBase region ring).toNat + (s.reg .cqBaseHi region ring).toNat * 2 ^ 32

/-- Write a record into a ring, advance WRK_CQ_TAIL and interrupt (R113, R117). -/
def State.putRecord (s : State) (region ring r : Nat) : State :=
  let tail := s.reg .cqTail region ring
  let s := s.wr (s.cqBase region ring + tail.toNat % s.ringSize region ring * 64) (leBytes 64 r)
  let s := s.setReg .cqTail region ring (tail + 1)
  let cfg := (s.reg .cqCfg region ring).toNat
  if bit cfg 8 then s.emit (.irq (bits cfg 20 16) causeRecord (region * 8 + ring)) else s

/-- The memory of a ring's next record lies on a die in recovery, or behind one: a completion record passes the die of the next higher
number (01 R12; 14 R475). -/
def State.recordHeld (s : State) (region ring : Nat) : Bool :=
  !s.calm && match s.place (s.cqBase region ring + (s.reg .cqTail region ring).toNat % s.ringSize region ring * 64) with
    | some p => s.dieDown (placeDie p) || s.pathDown (regionDie region) (placeDie p) false
    | none => false

/-- The slot's record is written; its signals follow, and the slot is free (R106, R116). -/
def State.releaseSlot (s : State) (region slot : Nat) (x : Item) (status : Nat) : State :=
  let s := s.setItem region slot none
  if issuesSignals status then (s.issueSignal region slot 0 (x.signal 0)).issueSignal region slot 1 (x.signal 1) else s

/-- The STATUS byte of a record. -/
def recStatus (r : Nat) : Nat := fld r 4 1

/-- Deliver a finished item's record: to its ring, lost, or waiting for space or for the end of a recovery. -/
def State.deliver (s : State) (region slot : Nat) (x : Item) (r : Nat) (hold : Bool) : State :=
  if hold then s.setItem region slot (some { x with stage := .recordWaiting, waiting := some (x.compRing, r, true) })
  else match s.recordRing region x.compRing with
    | none => (s.flag .wrkSts region 0 8).releaseSlot region slot x (recStatus r)
    | some ring =>
      if s.ringFull region ring then
        ((s.setItem region slot (some { x with stage := .recordWaiting, waiting := some (ring, r, false) })).flag
          .wrkSts region 0 4).bump .cqFullCnt region ring 1
      else if s.recordHeld region ring then s.setItem region slot (some { x with stage := .recordWaiting, waiting := some (ring, r, false) })
      else (s.putRecord region ring r).releaseSlot region slot x (recStatus r)

/-! ### Completion (03 R113 to R116; 07 R217, R223, R224, R228 to R230) -/

/-- The units' SPL_STS bits for the checks that failed. -/
def State.flagUnits (s : State) (r : Reg) (region units m : Nat) : State :=
  (List.range 32).foldl (fun s u => if bit units u then s.flag r (region * 32 + u) 0 m else s) s

/-- The item's contribution to its tracker (07 R217). -/
def State.contribute (s : State) (x : Item) (st : Nat) : State :=
  if 16384 ≤ x.watch then s
  else
    let t := s.tracker x.watch
    let w := x.res.watched.getD (x.res.elements, x.res.counts)
    if ranToEnd st then
      s.setTracker x.watch { t with
        items := (t.items + 1) % 65536
        stepmax := max t.stepmax x.res.amax
        elems := t.elems + w.1
        counts := t.counts.add w.2
        nonfin := t.nonfin || x.res.nonfin || x.res.counts.nonfinite != 0 }
    else if st == stSkipped then
      let t := { t with items := (t.items + 1) % 65536 }
      s.setTracker x.watch (if x.prepass == 1 then t.prepassContribute 0 else t)
    else s

/-- The layer of an item that was charged joins the slot's list (07 R224, R240). -/
def StepSlot.charge (p : StepSlot) (layer : Nat) : StepSlot :=
  if layer == 0xFFFF then p else { p with charged := (if p.charged.contains layer then p.charged else layer :: p.charged) }

/-- What a completing item leaves in its step slot: its flags, and one item less. -/
def StepSlot.complete (p : StepSlot) (counted flags : Nat) : StepSlot :=
  { p with
    outstanding := if counted == 1 then p.outstanding - 1 else p.outstanding
    gated := if counted == 2 then p.gated - 1 else p.gated
    fault := (BitVec.ofNat 8 p.fault ||| BitVec.ofNat 8 flags).toNat
    fitems := if flags == 0 then p.fitems else p.fitems + 1 }

/-- The flags a list of statuses sets; `share` and `nonfin` tell why a SCALE_FAULT applies. -/
def faultFlags (sts : List Nat) (share nonfin : Bool) : Nat :=
  (sts.foldl (fun (a : BitVec 8) st => a ||| BitVec.ofNat 8 (statusFault st)) 0#8
    ||| BitVec.ofNat 8 (b2n share + 2 * b2n nonfin)).toNat

/-- LONG128 result slots (03 R90, R122). -/
def dQ : Nat → Quad := fun _ => 0
def State.putResult (s : State) (slot : Nat) (v : Quad × Bool) : State :=
  { s with results := tset dQ s.results slot v.1, resultPoison := tset dF s.resultPoison slot v.2 }

/-! ### The pin of an ATTEND item (10 R305, R309, R310) -/

/-- Home die of a sequence's records. -/
def kvHome (seq : Nat) : Nat := seq % 4

def refEn (w : Nat) : Bool := bit w 31

/-- A Cleat operation of a record's home die on a REF word, when it is enabled. -/
def State.refOp (s : State) (home w : Nat) (o : CleatOp) : State :=
  if refEn w then s.cleatOp home (bits w 30 28) (bits w 13 0) o else s

/-- RELEASE of what an item's walker holds. -/
def State.releasePin (s : State) (seq : Nat) (p : Pin) : State := s.refOp (kvHome seq) p.ref (.decrement 1)

/-- The item leaves what its walker pinned: a RELEASE (10 R310). -/
def State.dropPin (s : State) (x : Item) : State × Item :=
  match x.pin with
  | some p => (s.releasePin (x.opnd 0x6C 2) p, { x with pin := none })
  | none => (s, x)

/-- The item in (region, slot) completes with what `x.res` holds. `noFlag`: it was refused in a state of its slot that
admits it not (07 R228). `hold`: its record is written after a recovery (03 R119, 14 R469). -/
def State.finish (s : State) (region slot : Nat) (x : Item) (noFlag hold : Bool := false) : State :=
  let given := x.res.statuses.map (·.1)
  let given := if x.res.poison then stPoisoned :: given else given
  let base := primaryStatus (given ++ (if x.res.nonfin then [stScaleFault] else []))
  let s := s.contribute x base
  -- the share checks
  let own := if x.res.shares && ranToEnd base && decide (s.policy x.stepSlot 0x3013 ≤ x.res.elements)
    then s.shareCheck x.stepSlot x.res.counts x.res.elements else 0
  let trk := if x.res.shares && ranToEnd base && decide (x.watch < 16384)
    then s.shareCheck x.stepSlot (s.tracker x.watch).counts (s.tracker x.watch).elems else 0
  let hit := (BitVec.ofNat 8 own ||| BitVec.ofNat 8 trk).toNat
  let s := if hit == 0 then s else s.flagUnits .splSts region x.units hit
  let share := bits hit 1 0 != 0
  let ovf := bit hit 3
  let nonfin := x.res.nonfin && ranToEnd base
  let sts := given ++ (if ovf then [stOverflow] else []) ++ (if share || nonfin then [stScaleFault] else [])
  -- signals that cannot be applied
  let st0 := primaryStatus sts
  let bad0 := issuesSignals st0 && sigEn (x.signal 0) && !s.sigOk (x.signal 0)
  let bad1 := issuesSignals st0 && sigEn (x.signal 1) && !s.sigOk (x.signal 1)
  let sts := if (bad0 || bad1) && st0 == stDone then sts ++ [stUndelivered] else sts
  let st := primaryStatus sts
  let detail := match x.res.statuses.find? (fun e => e.1 == st) with
    | some e => e.2
    | none => if st == stUndelivered then b2n bad0 + 2 * b2n bad1 else 0
  -- charges (07 R224)
  let charged := (share || ovf) && (st == stScaleFault || st == stOverflow)
  let s := if charged && decide (x.watch < 16384)
    then s.setTracker x.watch { s.tracker x.watch with faulted := true, faultNow := true } else s
  let s := if x.stepSlot < 16 then
      let p := s.step x.stepSlot
      let flags := if noFlag then 0 else
        let f := faultFlags sts share nonfin
        if x.isGated then (if f == 0 then 0 else 128) else f
      let p := p.complete x.counted flags
      s.setStep x.stepSlot (if charged then p.charge x.layer else p)
    else s
  -- the result slot (03 R90)
  let s := match x.res.result with
    | some v => if ranToEnd st && decide (x.resultSlot < 1024) then s.putResult x.resultSlot v else s
    | none => s
  -- the record
  let cycles := if x.start.isSome then sat32 (s.cycle - x.startCyc) else 0
  let cflags := b2n x.res.poison + 2 * b2n x.late + 4 * b2n x.retried + 8 * b2n x.chained + 16 * b2n x.res.partialOut
  let s := { s with doneCtr := s.doneCtr + 1
                    -- an exchange that ended well is not aborted (13 R428)
                    colls := if st == stDone || st == stPoisoned then tset dN s.colls (itemKey region slot) none else s.colls }
  let x := { x with doneSeq := s.doneCtr, counted := 0 }
  -- the RELEASE goes before the record; that of an item a reset ended is the Fid's (10 R310)
  let (s, x) := if hold then (s, x) else s.dropPin x
  s.deliver region slot x (recordBits x region st cflags detail cycles x.res.counts) hold

/-- Finish an item with one status and DETAIL, its counters zero (03 R113: items that did not run). -/
def State.finishAs (s : State) (region slot : Nat) (x : Item) (st detail : Nat) (noFlag hold : Bool := false) : State :=
  s.finish region slot { x with res := { statuses := [(st, detail)] } } noFlag hold

/-- Finish an item that is stopped: what it wrote stays and its counts stand; it contributes nothing and writes no result. -/
def State.finishStopped (s : State) (region slot : Nat) (x : Item) (st detail : Nat) (hold : Bool := false) : State :=
  s.finish region slot
    { x with res := { x.res with statuses := [(st, detail)], partialOut := x.wrote, result := none } } false hold

/-! ### Waiting records (03 R116, R118) -/

/-- The items of a region that hold a record for a ring, oldest completion first. -/
def State.waitingRecords (s : State) (region ring : Nat) : List (Nat × Item) :=
  let l := s.items.filterMap fun e =>
    match e.2 with
    | some x => match x.waiting with
      | some (q, _, h) => if e.1 / 256 == region && q == ring && !h then some (e.1 % 256, x) else none
      | none => none
    | none => none
  l.mergeSort fun a b => decide (a.2.doneSeq ≤ b.2.doneSeq)

/-- Write the records that wait for a ring, as long as it has space. -/
def State.flushRing (s : State) (region ring : Nat) : State :=
  (s.waitingRecords region ring).foldl (fun s e =>
    if s.ringFull region ring || s.recordHeld region ring then s
    else match e.2.waiting with
      | some (_, r, _) => (s.putRecord region ring r).releaseSlot region e.1 e.2 (recStatus r)
      | none => s) s

/-- Records whose way was closed are written, ring by ring (14 R475). -/
def State.flushRings (s : State) : State :=
  (List.range 128).foldl (fun s k => s.flushRing (k / 8) (k % 8)) s

/-! ### Readiness (03 R94 to R98; 07 R231 to R233, R238) -/

/-- Both wait slots are satisfied or not enabled. -/
def Item.waitsMet (x : Item) : Bool :=
  (x.w0 == .off || x.w0 == .satisfied) && (x.w1 == .off || x.w1 == .satisfied)

/-- The predicate's value now (03 R97). -/
def State.predicate (s : State) (x : Item) : Bool :=
  let k := bits x.pred 28 26
  let c := bits x.pred 63 32
  let v := if k < 3 then (s.cleat (bits x.pred 31 29) (bits x.pred 13 0)).toNat else s.rd (x.predAddr / 4 * 4) 4
  if k == 0 || k == 3 then decide (c ≤ v)
  else if k == 1 || k == 4 then decide (v < c)
  else if k == 2 || k == 5 then v == c
  else v != c

/-- What an item's waits or predicate need crosses a die in recovery, or the predicate's place lies on one: a notice or a read is held
(01 R12; 14 R475). -/
def State.askHeld (s : State) (region : Nat) (x : Item) : Bool :=
  !s.calm && (
    [x.wait 0, x.wait 1].any (fun w => waitEn w && s.pathDown (waitDie w) (regionDie region) false)
      || (x.predEn && !x.predDone &&
        (if bits x.pred 28 26 < 3 then s.dieDown (bits x.pred 31 29) || s.pathDown (regionDie region) (bits x.pred 31 29) false
         else s.heldAt (regionDie region) (x.predAddr / 4 * 4))))

/-- Engines whose UNIT_MASK is used (03 R82). -/
def maskUsed (engine : Nat) : Bool := decide (engine ≤ 5)

def State.unitFenced (s : State) (u : Nat) : Bool := tget dF s.fenced u

/-- Some unit a mask names is fenced. -/
def State.maskFenced (s : State) (region mask : Nat) : Bool :=
  (List.range 32).any fun u => bit mask u && s.unitFenced (region * 32 + u)

/-- Some unit a mask names is in recovery, or queued for it (14 R475). -/
def State.maskFrozen (s : State) (region mask : Nat) : Bool :=
  (List.range 32).any fun u => bit mask u && s.frozen ⟨0, region * 32 + u⟩

/-- What an admitted item can do next. -/
inductive Ready where
  /-- it names a fenced unit and has not started: FENCED_TARGET (01 R27) -/
  | fence
  /-- nothing yet -/
  | no
  /-- its predicate is due -/
  | predicate
  /-- its slot failed or was abandoned: STEP_DISCARDED -/
  | discard
  /-- it becomes ready -/
  | yes
  deriving DecidableEq, Repr

def State.readiness (s : State) (region : Nat) (x : Item) : Ready :=
  if s.frozen ⟨2, region⟩ then .no
  else if (x.stage == .admitted || x.stage == .ready) && maskUsed x.engine && s.maskFenced region x.mask then .fence
  else if x.stage != .admitted then .no
  else if x.isGated && [4, 5, 7].contains (s.step x.stepSlot).state then .discard
  else if x.prepass == 2 then (if (s.tracker x.watch).prepass then .no else .yes)
  else if !x.waitsMet || !x.gateOpen || s.askHeld region x then .no
  else if x.predEn && !x.predDone then .predicate
  else if x.isGated then (if (s.step x.stepSlot).state == 3 then .yes else .no)
  else if x.isVote then
    (if (s.step x.stepSlot).state == 1 && (s.step x.stepSlot).outstanding == 0 then .yes else .no)
  else .yes

/-- `a` comes before `b` in the region's ring order: the counts run on past 2^32 (03 R92, R93). -/
def State.olderThan (s : State) (region : Nat) (a b : Item) : Bool :=
  let h := s.reg .sqHead region
  decide ((h - BitVec.ofNat 32 b.count).toNat < (h - BitVec.ofNat 32 a.count).toNat)

/-- The item that moves next: in region order, then in ring order (03 R93). -/
def State.nextReady (s : State) : Option (Nat × Item × Ready) :=
  let l := s.items.filterMap fun e =>
    match e.2 with
    | some x => let r := s.readiness (e.1 / 256) x
      if r == .no then none else some (e.1, x, r)
    | none => none
  l.foldl (fun best e => match best with
    | none => some e
    | some b => if e.1 / 256 == b.1 / 256 && s.olderThan (e.1 / 256) e.2.1 b.2.1 then some e else some b) none

/-- One item that can move moves. -/
def State.settleOne (s : State) (k : Nat) (x : Item) (r : Ready) : State :=
  let region := k / 256
  let slot := k % 256
  match r with
  | .no => s
  | .fence => s.finishAs region slot x stFenced 0
  | .discard => s.finishAs region slot x stDiscarded 0
  | .yes => s.setItem region slot (some { x with
      stage := .ready, prepass := if x.prepass == 2 then 3 else x.prepass, progCyc := s.cycle })
  | .predicate =>
    if s.predicate x then s.setItem region slot (some { x with predDone := true })
    else (s.bump .pskipCnt region 0 1).finishAs region slot x stSkipped 0

/-- Items move until none can (each moves at most three times). -/
def State.settleN (s : State) : Nat → State
  | 0 => s
  | n + 1 =>
    match s.nextReady with
    | none => s
    | some (k, x, r) => (s.settleOne k x r).settleN n

/-! ### Collectives whose item has ended (13 R428) -/

/-- Coordinate of rank r in level l, and the rank whose coordinate in level l is c (13 R427). -/
def Plan.size (p : Plan) (l : Nat) : Nat := max 1 (p.sizes.getD l 1)
def Plan.weight (p : Plan) (l : Nat) : Nat := ((List.range l).map p.size).foldl (· * ·) 1
def Plan.coord (p : Plan) (r l : Nat) : Nat := r / p.weight l % p.size l
def Plan.withCoord (p : Plan) (r l c : Nat) : Nat := r - p.coord r l * p.weight l + c * p.weight l

/-- The ring neighbours of a rank in level l. -/
def Plan.succ (p : Plan) (r l : Nat) : Nat := p.withCoord r l ((p.coord r l + 1) % p.size l)
def Plan.pred (p : Plan) (r l : Nat) : Nat := p.withCoord r l ((p.coord r l + p.size l - 1) % p.size l)

def Plan.member (p : Plan) (r : Nat) : Nat := p.members.getD r 0xFFFFFFFF

/-- Children of a rank in the tree, and its parent (13 R438). -/
def treeChildren (p radix rank : Nat) : List Nat :=
  (List.range radix).filterMap fun i => let c := rank * radix + i + 1; if c < p then some c else none
def treeParent (radix rank : Nat) : Nat := (rank - 1) / radix

/-- Ranks next to a rank in the tree. -/
def Plan.treePeers (p : Plan) (r : Nat) : List Nat :=
  (if r == 0 then [] else [treeParent p.radix r]) ++ treeChildren p.p p.radix r

/-- Ranks a collective exchanges with. -/
def Coll.peers (c : Coll) : List Nat :=
  if c.tree then c.plan.treePeers c.rank
  else ((List.range c.plan.levels).flatMap fun l =>
    if c.plan.size l == 1 then [] else [c.plan.pred c.rank l, c.plan.succ c.rank l]).eraseDups

def dColl : Nat → Option Coll := dN
def State.setColl (s : State) (k : Nat) (c : Option Coll) : State := { s with colls := tset dColl s.colls k c }

/-- A packet from the hub, sent on its route; nothing waits for an answer. -/
def State.sendControl (s : State) (kind dst : Nat) (body : List Byte) : State :=
  s.sendPacket { kind := kind, dst := dst, src := s.pkgId, tgen := (s.peer dst).pgen, igen := s.pkgGen, seq := 2 ^ 64 - 1,
                 hops := 63, poisoned := false, body := body }

/-- COLL_ABORT of a collective to each member it exchanges with. -/
def State.abortColl (s : State) (c : Coll) : State :=
  c.peers.foldl (fun s r => if s.peerOk (c.plan.member r) then s.sendControl 0x53 (c.plan.member r) (leBytes 4 c.id) else s) s

/-- The item of a slot is still to run, runs, or has run and not completed. -/
def State.itemLive (s : State) (k : Nat) : Bool :=
  match tget dItem s.items k with
  | some x => x.stage != .recordWaiting
  | none => false

/-- Collectives whose item ended otherwise than with DONE or DONE_POISONED abort at their peers, unless a recovery holds the
item's region (R428, R456). -/
def State.collSweep (s : State) : State :=
  s.colls.foldl (fun s e =>
    match e.2 with
    | some c => if s.itemLive e.1 || s.frozen ⟨2, e.1 / 256⟩ then s else (s.abortColl c).setColl e.1 none
    | none => s) s

/-! ### Ramps that can start (16 R525, R529 to R531) -/

/-- The strapped power class: a reserved value counts as 0 (15 R501; 16 R525). -/
def State.strapClass (s : State) : Nat := let c := bits s.boot.straps 6 4; if 5 ≤ c then 0 else c
/-- The class in force and P_LIMIT, W. -/
def State.powerClass (s : State) : Nat := min (bits (s.reg .pwrClass 4).toNat 2 0) s.strapClass
def State.pLimit (s : State) : Nat := [1400, 1800, 2200, 2500, 2800].getD s.powerClass 1400
/-- The fast-trip value, W (R525). -/
def State.fastTrip (s : State) : Nat := [1610, 2070, 2530, 2875, 3220].getD s.powerClass 1610

/-- A power record: SRC 0x0C in the hub's ring, with the interrupt of PWR_EVT_CFG (16 R542, R543). -/
def State.pwrRecord (s : State) (kind sev action level index region unit value limit : Nat) : State :=
  (s.record hubDie 12 sev level action index (if level ≤ 3 then s.gen level index else 0)
    (kind * 2 ^ 120 + region % 256 * 2 ^ 112 + unit % 65536 * 2 ^ 96 + value % 2 ^ 32 * 2 ^ 64 + limit % 2 ^ 32 * 2 ^ 32)).irqBy
    (s.reg .pwrEvtCfg 4) causePower kind

/-- Set and clear bits of an entry's RFLAGS: [0] VALID, [1] DONE, [2] HELD, [3] CLAMPED, [4] SUPERSEDED. -/
def State.rampFlag (s : State) (e set clear : Nat) : State :=
  let w : Word := s.reg .pwrRamp 4 (8 * e + 5)
  s.setReg .pwrRamp 4 (8 * e + 5) ((w &&& ~~~(BitVec.ofNat 32 clear)) ||| BitVec.ofNat 32 set)

/-- TARGET as written, W, and as clamped to P_LIMIT. -/
def State.rampTarget (s : State) (e : Nat) : Nat := s.rampWord e 4 % 65536
/-- RATE in W/ms: 0 selects RAMP_W_PER_MS. -/
def State.rampRate (s : State) (e : Nat) : Nat :=
  let r := s.rampWord e 4 / 65536
  if r == 0 then bits (s.reg .pwrRampCfg 4).toNat 15 0 else r

/-- The hold of an entry is satisfied, or it has none. -/
def State.rampHeldMet (s : State) (e : Nat) : Bool := !waitEn (s.rampHold e) || tget dF s.power.holdMet e

/-- An entry that has neither ended nor been superseded, and whose AT has passed. -/
def State.rampDue (s : State) (e : Nat) : Bool :=
  bits (s.rampFlags e) 1 0 == 1 && !bit (s.rampFlags e) 4 && s.power.active != some e && decide (s.rampAt e ≤ s.lay.now)

/-- An entry starts: it takes over from the ramp in progress, and its TARGET is clamped to P_LIMIT (R531). -/
def State.rampStart (s : State) (e : Nat) : State :=
  let s := match s.power.active with
    | some o => s.rampFlag o 16 0
    | none => s
  let s := { s with power := { s.power with active := some e } }
  if s.pLimit < s.rampTarget e then
    ((s.rampFlag e 8 0).flag .pwrSts 4 0 4).pwrRecord 7 0 0 7 0 0xFF 0xFFFF (s.rampTarget e) s.pLimit
  else s

/-- The entries that can start do so, in ascending AT and, for equal AT, in ascending number. -/
def State.rampSweep (s : State) : State :=
  let l := (List.range 16).filter fun e => s.rampDue e && s.rampHeldMet e
  (l.mergeSort fun a b => decide (s.rampAt a < s.rampAt b) || (s.rampAt a == s.rampAt b && decide (a ≤ b))).foldl State.rampStart s

def State.settle (s : State) : State := ((s.settleN (3 * s.items.length)).collSweep).rampSweep

/-! ### Faults and fences (14 R492, R493) -/

/-- The units a domain of level 0 to 2 holds. -/
def domUnits (level i : Nat) : List Nat :=
  if level == 0 then [i] else if level == 1 then (List.range 4).map (i * 4 + ·) else (List.range 32).map (i * 32 + ·)

/-- Record a Fid event (SRC 0x09) of a domain, with its PAYLOAD. -/
def State.fidRecord (s : State) (sev level action index payload : Nat) : State :=
  s.record (domDie ⟨level, index⟩) 9 sev level action index (if level ≤ 3 then s.gen level index else s.pkgGen) payload

/-- A fence takes effect: the units take no more placements and the fence is recorded (R493), from LEVEL, to LEVEL and from INDEX
those of the fenced domain (R462). -/
def State.fenceNow (s : State) (level i : Nat) : State :=
  let s := { s with fenced := (domUnits level i).foldl (fun t u => tset dF t u true) s.fenced }
  ((s.fidRecord sevRecover level 5 i
    (5 * 2 ^ 120 + level % 8 * 2 ^ 117 + level % 8 * 2 ^ 114 + i % 65536 * 2 ^ 96)).flag .errSts (domDie ⟨level, i⟩) 0 16).alert 32

/-- A fence decided: at once, or at the end of the recovery in progress on the domain. -/
def State.fence (s : State) (level i : Nat) : State :=
  if s.frozen ⟨level, i⟩ then { s with fenceDue := s.fenceDue ++ [(level, i)] } else s.fenceNow level i

/-- Faults of a domain within the last FENCE_WINDOW_H hours. -/
def State.recentFaults (s : State) (level i : Nat) : Nat :=
  (s.faults.filter fun f => f.1 == level && f.2.1 == i &&
    decide (s.lay.now < f.2.2 + s.dv 0x2096 0 * 3600 * 2 ^ 32)).length

/-- A fault of a unit, cluster or region: noted, and the domain fenced when it has reached FENCE_REPEATS (R492). -/
def State.noteFault (s : State) (level i : Nat) : State :=
  let s := { s with faults := (level, i, s.lay.now) :: s.faults }
  if decide (s.dv 0x2095 0 ≤ s.recentFaults level i) && !((domUnits level i).all s.unitFenced) then s.fence level i else s

end Sys2Proof.Machine
end

