-- ==== Sys2Proof/Machine/NearMem.lean ====
section
/-! DEFINITION. Near-memory arithmetic: one operation on one element at its controller (11 R362 to R367, 14 R460). -/

namespace Sys2Proof.Machine

/-- Bytes of an element by TYPE (R362). -/
def nmBytes (ty : Nat) : Nat := [4, 2, 4, 8, 16].getD ty 16

/-- TYPE of an output stream's FMT (R363); none where NMA is refused. -/
def nmType (fmt : Nat) : Option Nat :=
  if fmt == 9 then some 0 else if fmt == 7 then some 1 else if fmt == 11 then some 2 else if fmt == 12 then some 4 else none

/-- An integer result held within ±(2^(w−1) − 1): code, and whether it was limited. -/
def nmInt (w : Nat) (z : Int) : Nat × Bool :=
  let m : Int := 2 ^ (w - 1) - 1
  if m < z then (sCode w m, true) else if z < -m then (sCode w (-m), true) else (sCode w z, false)

/-- The result of an operation on codes: OP 0 ADD, 1 MAX, 2 MIN. -/
def nmResult (ty op old new : Nat) : Nat × Bool :=
  if ty == 2 || ty == 3 then
    let w := if ty == 2 then 32 else 64
    let a := sInt w old
    let b := sInt w new
    nmInt w (if op == 0 then a + b else if op == 1 then max a b else min a b)
  else
    let fmt := if ty == 0 then 9 else if ty == 1 then 7 else 12
    let a := (codeVal fmt old).getD .nan
    let b := (codeVal fmt new).getD .nan
    convCode fmt mRN 0 (if op == 0 then a.add b else if op == 1 then a.max b else a.min b)

/-- The HBM stack that holds a device address, none outside HBM. -/
def State.stackOf (s : State) (a : Nat) : Option Nat :=
  if isHbm a then (s.place a).map (· / 2 ^ 40) else none

/-- What a near-memory operation left. -/
structure NmDone where
  st : State
  sat : Bool
  poison : Bool

/-- One operation at its controller: the element read and written as one step, poison of operand, target or a residue
mismatch carried into it, its counters (R362, R367, R368). -/
def State.nmApply (s : State) (addr ty op value : Nat) (poisoned residue : Bool) (tag : Nat) : NmDone :=
  let n := nmBytes ty
  let r := nmResult ty op (s.rd addr n) (value % 2 ^ (8 * n))
  let bad := poisoned || residue || s.poisonedIn addr n
  let k := (s.stackOf addr).getD 0
  -- a LONG128 from poisoned data is written as NaR (04 R156)
  let s := (s.wr addr (leBytes n (if bad && ty == 4 then 2 ^ 127 else r.1)) bad).bump .halNmCnt k 0 1
  let s := if r.2 then (s.bump .halNmSatCnt k 0 1).flag .halSts k 0 2 else s
  let s := if residue then
      s.record (stackDie k) 4 sevDeferred 3 2 (stackDie k) (s.gen 3 (stackDie k)) (k * 2 ^ 120 + tag * 2 ^ 64)
    else s
  { st := s, sat := r.2, poison := bad }

end Sys2Proof.Machine
end

