-- ==== Sys2Proof/Machine/Streams.lean ====
section
/-! DEFINITION. Block lists and streams: headers and data entries with their checks, reading a stream into elements with
scales and escapes, writing elements with scale-line merges (03 R85 to R89, R99; 04 R124, R131 to R141, R148 to R153, R566;
07 R218, R219, R243). -/

namespace Sys2Proof.Machine

/-! ### Reading as an item sees memory: the fetch blocks that have arrived, then memory (03 R99) -/

def State.ib (s : State) (x : Item) (a : Nat) : Byte :=
  match tget dN x.fetched a with
  | some b => b
  | none => s.rdByte a

def State.ibs (s : State) (x : Item) (a n : Nat) : List Byte := (List.range n).map fun i => s.ib x (a + i)

/-- n bytes as a little-endian number. -/
def State.iw (s : State) (x : Item) (a n : Nat) : Nat := leNat (s.ibs x a n)

/-- The line of a byte reads poisoned to the item. -/
def State.ipois (s : State) (x : Item) (a : Nat) : Bool :=
  match tget dN x.fetched a with
  | some _ => tget dF x.fetchedPoison (a / 64)
  | none => s.poisoned a

/-- Some byte of [a, a + n) reads poisoned to the item. -/
def State.ipoisIn (s : State) (x : Item) (a n : Nat) : Bool :=
  (n != 0) && (List.range ((a % 64 + n - 1) / 64 + 1)).any fun i => s.ipois x (if i == 0 then a else a / 64 * 64 + 64 * i)

/-! ### Headers and entries (R85, R86) -/

structure Hdr where
  scaleBase : Nat
  outBase : Nat
  coarse : Nat
  tag : Nat
  total : Nat
  deriving DecidableEq, Repr

structure Ent where
  addr : Nat
  len : Nat
  rows : Nat
  fmt : Nat
  b32 : Bool
  zskip : Bool
  last : Bool
  /-- EFLAGS whole: [10] REEVE, [9] NMA, [8:7] NMOP (10 R311, 11 R363) -/
  eflags : Nat
  stride : Nat
  blkidx : Nat
  scaleOff : Nat
  outOff : Nat
  deriving DecidableEq, Repr

/-- A stream as its block list gives it: `k` is 0 for A to 3 for D, `first` the index of its first data entry. -/
structure Strm where
  k : Nat
  hdr : Hdr
  first : Nat
  ents : List Ent
  deriving DecidableEq, Repr

def noScale : Nat := 0xFFFFFFFF

def parseHdr (n : Nat) : Hdr := ⟨fld n 0 6, fld n 8 6, fld n 0x10 4, fld n 0x14 2, fld n 0x18 4⟩

def parseEnt (n : Nat) : Ent :=
  let f := fld n 0xE 2
  ⟨fld n 0 6, fld n 8 4, fld n 0xC 2, bits f 15 12, bit f 11, bit f 1, bit f 0, f, fld n 0x10 4, fld n 0x14 4,
    fld n 0x18 4, fld n 0x1C 4⟩

/-- The n-th 32-byte entry of a block list. -/
def State.listEntry (s : State) (x : Item) (k n : Nat) : Nat := s.iw x (x.streamAddr k + 32 * n) 32

def State.hdr (s : State) (x : Item) (k : Nat) : Hdr := parseHdr (s.listEntry x k 0)

/-- The stream, its data entries from index `first` on. -/
def State.strm (s : State) (x : Item) (k : Nat) (first : Nat := 1) : Strm :=
  { k := k, hdr := s.hdr x k, first := first
    ents := (List.range (x.streamCount k - first)).map fun i => parseEnt (s.listEntry x k (first + i)) }

/-- The entry carries block scales. -/
def Ent.scaled (e : Ent) : Bool := decide (e.fmt ≤ 6) || (e.fmt == 10 && e.scaleOff != noScale)
def Ent.nb (e : Ent) : Nat := if e.b32 then 32 else 16
/-- The entry is read as bytes (R87). -/
def Ent.bytes (e : Ent) : Bool := e.fmt == 10 && e.scaleOff == noScale

/-- FMT of a stream's first data entry; 0xF for none. -/
def Strm.fmt (m : Strm) : Nat := match m.ents with | e :: _ => e.fmt | [] => 0xF
def Strm.nb (m : Strm) : Nat := match m.ents with | e :: _ => e.nb | [] => 16
def Strm.scaled (m : Strm) : Bool := match m.ents with | e :: _ => e.scaled | [] => false
def Strm.eflags (m : Strm) : Nat := match m.ents with | e :: _ => e.eflags | [] => 0

/-- The stream carries escapes (R137): its FMT has an escape code and OUTLIER_BASE is not 0. -/
def Strm.esc (m : Strm) : Bool := hasEsc m.fmt && m.hdr.outBase != 0

/-- Bytes of a stored block: dense, or 2:4 with its indexes (R124, 09 R270). -/
def blockBytes (fmt nb : Nat) (two4 : Bool) : Nat :=
  if two4 then (fmtBits fmt * (nb / 2) + nb) / 8 else fmtBits fmt * nb / 8

/-- Elements, or for a scaled entry nb × blocks, of one row. -/
def Ent.rowElems (e : Ent) (two4 : Bool := false) : Nat :=
  if e.scaled then e.len / blockBytes e.fmt e.nb two4 * e.nb else e.len * 8 / fmtBits e.fmt

def Ent.elems (e : Ent) (two4 : Bool := false) : Nat := e.rows * e.rowElems two4
def Strm.elems (m : Strm) (two4 : Bool := false) : Nat := (m.ents.map (·.elems two4)).sum

/-- Bytes of a fetch block of an entry: at most 2,048, a whole number of fine-scale blocks. -/
def Ent.fetchBytes (e : Ent) (two4 : Bool) : Nat :=
  if e.scaled then max 1 (2048 / max 1 (blockBytes e.fmt e.nb two4)) * blockBytes e.fmt e.nb two4 else 2048

/-- Addresses of an entry's rows. -/
def Ent.rowAddrs (e : Ent) : List Nat := (List.range e.rows).map fun r => e.addr + r * e.stride

/-- EFLAGS NMA and NMOP of an output entry (11 R363). -/
def Ent.nma (e : Ent) : Bool := bit e.eflags 9
def Ent.nmop (e : Ent) : Nat := bits e.eflags 8 7

/-! ### Checks (R88) -/

/-- REASON, stream, entry of a failed check. -/
abbrev Bad := Nat × Nat × Nat

/-- DETAIL of R88. -/
def badDetail (b : Bad) : Nat := b.1 * 2 ^ 24 + b.2.1 % 4 * 2 ^ 16 + b.2.2 % 65536

/-- A positive normal FP32 code (R133). -/
def normalPos (c : Nat) : Bool := decide (0x00800000 ≤ c) && decide (c ≤ 0x7F7FFFFF)

/-- The header's checks at admission: the list's place and alignment, the bases where the stream uses them, and COARSE
where the stream is scaled and takes it from the header (R85, R88, R133). -/
def State.hdrCheck (s : State) (x : Item) (m : Strm) (coarse : Bool) : Option Bad :=
  if x.streamAddr m.k % 32 != 0 then some (2, m.k, 0)
  else if !s.mapped (x.streamAddr m.k) (32 * x.streamCount m.k) then some (7, m.k, 0)
  else if m.scaled && m.hdr.scaleBase % 64 != 0 then some (2, m.k, 0)
  else if m.scaled && hasEsc m.fmt && m.hdr.outBase % 4 != 0 then some (2, m.k, 0)
  else if m.scaled && coarse && !normalPos m.hdr.coarse then some (9, m.k, 0)
  else none

/-- The scale lines of an entry's blocks, and their outlier regions where the stream carries escapes, lie in the address map. -/
def State.sidesMapped (s : State) (m : Strm) (e : Ent) (two4 : Bool) : Bool :=
  let a := e.blkidx / 56
  let lines := (e.blkidx + e.elems two4 / e.nb + 55) / 56 - a
  s.mapped (m.hdr.scaleBase + 64 * e.scaleOff) (64 * lines) && (!m.esc || s.mapped (m.hdr.outBase + 224 * a) (224 * lines))

/-- One data entry's checks as the Fetch engine reads it (R86 to R88, R136). `fmts`: the formats the operation takes here; `remote`: the
addresses are another package's (13 R441). -/
def State.entCheck (s : State) (m : Strm) (fmts : List Nat) (two4 out remote : Bool) (n i : Nat) (e : Ent) : Option Bad :=
  let j := m.first + i
  if e.last != decide (i + 1 = n) then some (2, m.k, j)
  else if e.len == 0 || 0x1000000 < e.len || e.rows == 0 then some (2, m.k, j)
  else if 13 ≤ e.fmt || !fmts.contains e.fmt || e.fmt != m.fmt || e.b32 != decide (m.nb = 32) then some (3, m.k, j)
  else if out && e.nma && (nmType e.fmt).isNone then some (3, m.k, j)
  else if decide (e.fmt ≤ 6) && e.scaleOff == noScale then some (3, m.k, j)
  else if e.scaled != m.scaled then some (3, m.k, j)
  else if e.outOff != 56 * (e.blkidx / 56) then some (2, m.k, j)
  else if (if e.scaled then e.len % blockBytes e.fmt e.nb two4 != 0
           else if e.bytes then false else e.len * 8 % fmtBits e.fmt != 0) then some (4, m.k, j)
  else if !remote && !(e.rowAddrs.all fun a => s.mapped a e.len) then some (7, m.k, j)
  else if !remote && e.scaled && !s.sidesMapped m e two4 then some (7, m.k, j)
  else if out && e.nma && (e.nmop == 3 || bit e.eflags 10) then some (9, m.k, j)
  else if out && e.nma && !(e.rowAddrs.all fun a => (s.stackOf a).isSome && (s.stackOf (a + e.len - 1)).isSome)
  then some (9, m.k, j)
  else none

/-- The data entries of a stream, in order. -/
def State.entsCheck (s : State) (m : Strm) (fmts : List Nat) (two4 out remote : Bool := false) : Option Bad :=
  if m.ents.isEmpty then some (2, m.k, 0)
  else (m.ents.zipIdx).findSome? fun p => s.entCheck m fmts two4 out remote m.ents.length p.2 p.1

/-- Row intervals of a stream: first byte, length, entry index. -/
def Strm.spans (m : Strm) : List (Nat × Nat × Nat) :=
  (m.ents.zipIdx).flatMap fun p => p.1.rowAddrs.map fun a => (a, p.1.len, m.first + p.2)

/-- REASON 0x05: a REPLAYABLE item with an output row that overlaps one of its input rows (R88, R89). -/
def overlapCheck (x : Item) (ins outs : List Strm) : Option Bad :=
  if !x.replayable then none
  else
    let is := ins.flatMap Strm.spans
    outs.findSome? fun m => m.spans.findSome? fun o =>
      if is.any fun i => decide (o.1 < i.1 + i.2.1) && decide (i.1 < o.1 + o.2.1) then some (5, m.k, o.2.2) else none

/-! ### Scale lines (04 R139 to R141) -/

/-- The 16-bit ones'-complement sum. -/
def onesSum (ws : List Nat) : Nat :=
  ws.foldl (fun a w => let t := a + w; if 65536 ≤ t then t - 65535 else t) 0

/-- CHECK of a 64-byte line held as a number (R140). -/
def lineCheck (n : Nat) : Nat :=
  65535 - onesSum ([fld n 0 2, fld n 2 2, fld n 4 2] ++ (List.range 28).map fun i => fld n (8 + 2 * i) 2)

/-- What a stream's Fetch reads: its list, its rows, and the scale lines and outlier regions of its blocks. -/
def Strm.reads (m : Strm) (list count : Nat) : List (Nat × Nat) :=
  (list, 32 * count) :: (m.spans.map fun p => (p.1, p.2.1)) ++ m.ents.flatMap fun e =>
    if !e.scaled then []
    else
      let a := e.blkidx
      let b := e.blkidx + e.elems / e.nb
      let lines := (b + 55) / 56 - a / 56
      (m.hdr.scaleBase + 64 * e.scaleOff, 64 * lines) :: (if m.esc then [(m.hdr.outBase + 224 * (a / 56), 224 * lines)] else [])

/-- The causes for which a line is out of step (R141, 07 R244). -/
def lineCause (n tag line : Nat) : Nat :=
  (if fld n 0 2 == tag then 0 else 1) + (if fld n 2 4 == 56 * line % 2 ^ 32 then 0 else 2)
    + (if fld n 6 2 == lineCheck n then 0 else 4)

/-- Address of the scale line of block b of an entry, and of its outlier region. -/
def Ent.lineAddr (h : Hdr) (e : Ent) (b : Nat) : Nat := h.scaleBase + 64 * (e.scaleOff + (b / 56 - e.blkidx / 56))
def Ent.outAddr (h : Hdr) (b : Nat) : Nat := h.outBase + 224 * (b / 56)

/-- Entries a block consumes (R136). -/
def blkEntries (byte : Nat) : Nat := if bit byte 7 then 0 else min (bits byte 6 5) 2

/-- The first scale line of a stream that is out of step, among the lines with a block that is read: cause and data-entry index. `need`
tells by its number in the stream whether a block is read. A poisoned line is not checked. -/
def State.skewOf (s : State) (x : Item) (m : Strm) (two4 : Bool) (need : Nat → Bool) : Option (Nat × Nat) :=
  if !m.scaled then none
  else (m.ents.zipIdx).findSome? fun p =>
    let e := p.1
    let before := ((m.ents.take p.2).map fun e => e.elems two4 / e.nb).sum
    let nblk := e.elems two4 / e.nb
    (List.range ((e.blkidx + nblk + 55) / 56 - e.blkidx / 56)).findSome? fun i =>
      let line := e.blkidx / 56 + i
      let a := e.lineAddr m.hdr (56 * line)
      let mine := (List.range 56).any fun j =>
        let b := 56 * line + j
        decide (e.blkidx ≤ b) && decide (b < e.blkidx + nblk) && need (before + (b - e.blkidx))
      if !mine || s.ipoisIn x a 64 then none
      else
        let c := lineCause (s.iw x a 64) m.hdr.tag line
        if c == 0 then none else some (c, m.first + p.2)

/-- The same over every line of the stream. -/
def State.skew (s : State) (x : Item) (m : Strm) (two4 : Bool := false) : Option (Nat × Nat) := s.skewOf x m two4 fun _ => true

/-! ### Reading elements -/

/-- An element read: its value without the coarse scale, whether its block is a zero block, its poison mark, whether it came as an
escape, and whether its block is a zero block of an entry with ZSKIP (03 R99). -/
structure El where
  v : XV
  z : Bool
  poison : Bool
  esc : Bool := false
  skip : Bool := false
  deriving DecidableEq, Repr

def El.zero : El := { v := .zero, z := true, poison := false }

/-- A stream as read. -/
structure StreamIn where
  els : List El
  /-- input blocks skipped by ZSKIP (R159 ZERO_BLOCKS) -/
  zeroBlocks : Nat
  deriving DecidableEq, Repr

/-- Element codes of a block's byte string. -/
def unpackCodes (w n : Nat) (bs : List Byte) : List Nat :=
  let x := leNat bs
  (List.range n).map fun i => x / 2 ^ (w * i) % 2 ^ w

/-- The outlier entries a block consumes. -/
def State.blkOutliers (s : State) (x : Item) (h : Hdr) (e : Ent) (b : Nat) : List Nat :=
  let la := e.lineAddr h b
  let before := ((List.range (b % 56)).map fun i => blkEntries (s.ib x (la + 8 + i)).toNat).sum
  let n := blkEntries (s.ib x (la + 8 + b % 56)).toNat
  (List.range n).map fun i => s.iw x (Ent.outAddr h b + 2 * (before + i)) 2

/-- A decoded scaled block: element values times 2^−D, escapes resolved; the check of R138 (and, for 2:4, R271) may
poison it. -/
def decodeBlock (fmt nb : Nat) (esc : Bool) (byte : Nat) (codes : List Nat) (outs : List Nat) (bad : Bool) : List El :=
  let d : Int := byte % 32
  let pos := (codes.zipIdx).filterMap fun p => if hasEsc fmt && p.1 == escCode fmt then some p.2 else none
  let names := outs.map fun o => o % 32
  let ok := if esc then pos.length == outs.length && pos.all (fun p => names.contains p) else pos.isEmpty
  let poison := bad || !ok
  ((codes.take nb).zipIdx).map fun p =>
    match codeVal fmt p.1 with
    | some v => { v := v.scale (-d), z := false, poison := poison }
    | none =>
      match outs.find? (fun o => o % 32 == p.2) with
      | some o => { v := if ok then ((codeVal 5 (o / 256)).getD .nan).scale (-d) else .zero, z := false, poison := poison, esc := ok }
      | none => { v := .zero, z := false, poison := poison }

/-- Spread a 2:4 block over its dense positions (09 R270): codes, zeros elsewhere, and whether the index order holds. -/
def spread24 (fmt nb : Nat) (bs : List Byte) : List Nat × Bool :=
  let w := fmtBits fmt
  let x := leNat bs
  let kept := (List.range (nb / 2)).map fun k => (x / 2 ^ (w * k) % 2 ^ w, x / 2 ^ (w * (nb / 2) + 2 * k) % 4)
  let dense := (List.range nb).map fun i =>
    let g := i / 4
    match ((kept.drop (2 * g)).take 2).find? (fun p => p.2 == i % 4) with
    | some p => p.1
    | none => 0
  let ok := (List.range (nb / 4)).all fun g =>
    match (kept.drop (2 * g)).take 2 with
    | [a, b] => decide (a.2 < b.2)
    | _ => false
  (dense, ok)

/-- Block b of a scaled entry, its elements at address a, meets a poisoned line: its scale line, its elements where they are
fetched, or the outlier entries it consumes. -/
def State.blockPois (s : State) (x : Item) (m : Strm) (e : Ent) (two4 : Bool) (b a : Nat) : Bool :=
  let la := e.lineAddr m.hdr b
  let byte := (s.ib x (la + 8 + b % 56)).toNat
  s.ipois x la || (!(bit byte 7 && e.zskip) && s.ipoisIn x a (blockBytes e.fmt e.nb two4))
    || (m.esc && blkEntries byte != 0 && s.ipoisIn x (Ent.outAddr m.hdr b) 224)

/-- For each fetch block of row r of an entry: it is marked poisoned, as one of its lines is (03 R99, R121). -/
def State.rowPoison (s : State) (x : Item) (m : Strm) (e : Ent) (two4 : Bool) (r : Nat) : List Bool :=
  let a := e.addr + r * e.stride
  let c := max 1 (e.fetchBytes two4)
  (List.range ((e.len + c - 1) / c)).map fun i =>
    if e.scaled then
      let bb := max 1 (blockBytes e.fmt e.nb two4)
      (List.range (min (c / bb) (e.len / bb - i * (c / bb)))).any fun j =>
        s.blockPois x m e two4 (e.blkidx + r * (e.len / bb) + i * (c / bb) + j) (a + i * c + j * bb)
    else s.ipoisIn x (a + i * c) (min c (e.len - i * c))

/-- Read block b of a scaled entry, its elements at address a; `pois`: its fetch block is poisoned. -/
def State.readBlock (s : State) (x : Item) (m : Strm) (e : Ent) (two4 : Bool) (b a : Nat) (pois : Bool) : List El :=
  let la := e.lineAddr m.hdr b
  let byte := (s.ib x (la + 8 + b % 56)).toNat
  if bit byte 7 then
    List.replicate e.nb { v := .zero, z := true, poison := pois, skip := e.zskip }
  else
    let bs := s.ibs x a (blockBytes e.fmt e.nb two4)
    let outs := if m.esc then s.blkOutliers x m.hdr e b else []
    if two4 then
      let c := spread24 e.fmt e.nb bs
      decodeBlock e.fmt e.nb m.esc byte c.1 outs (pois || !c.2)
    else decodeBlock e.fmt e.nb m.esc byte (unpackCodes (fmtBits e.fmt) e.nb bs) outs pois

/-- Read one row of an entry. -/
def State.readRow (s : State) (x : Item) (m : Strm) (e : Ent) (two4 : Bool) (r : Nat) : List El :=
  let a := e.addr + r * e.stride
  let c := max 1 (e.fetchBytes two4)
  let pois := s.rowPoison x m e two4 r
  if e.scaled then
    let bb := blockBytes e.fmt e.nb two4
    let n := e.len / bb
    (List.range n).flatMap fun j => s.readBlock x m e two4 (e.blkidx + r * n + j) (a + bb * j) (pois.getD (bb * j / c) false)
  else
    let w := fmtBits e.fmt / 8
    (List.range (e.len / w)).map fun i =>
      { v := (codeVal e.fmt (s.iw x (a + w * i) w)).getD .nan, z := false, poison := pois.getD (w * i / c) false }

/-- Zero blocks of an entry that are not fetched (R99). -/
def State.skippedBlocks (s : State) (x : Item) (m : Strm) (e : Ent) (two4 : Bool) : Nat :=
  if e.scaled && e.zskip then
    ((List.range (e.elems two4 / e.nb)).filter fun j =>
      bit (s.ib x (e.lineAddr m.hdr (e.blkidx + j) + 8 + (e.blkidx + j) % 56)).toNat 7).length
  else 0

/-- 2:4 blocks that break the index order, or whose outlier POS names no kept escape (09 R271). -/
def State.sparseErrors (s : State) (x : Item) (m : Strm) : Nat :=
  (m.ents.map fun e =>
    let bb := blockBytes e.fmt e.nb true
    let n := e.len / bb
    ((List.range (e.rows * n)).filter fun j =>
      let b := e.blkidx + j
      let c := spread24 e.fmt e.nb (s.ibs x (e.addr + j / max n 1 * e.stride + bb * (j % max n 1)) bb)
      let outs := if m.esc then s.blkOutliers x m.hdr e b else []
      !bit (s.ib x (e.lineAddr m.hdr b + 8 + b % 56)).toNat 7 &&
        (!c.2 || outs.any fun o => c.1.getD (o % 32) 0 != escCode e.fmt)).length).sum

/-- Read a whole stream in stream order. -/
def State.readStream (s : State) (x : Item) (m : Strm) (two4 : Bool := false) : StreamIn :=
  { els := m.ents.flatMap fun e => (List.range e.rows).flatMap fun r => s.readRow x m e two4 r
    zeroBlocks := (m.ents.map fun e => s.skippedBlocks x m e two4).sum }

/-- Non-finite elements of a list read (R150). -/
def countNonfin (l : List El) : Nat := (l.filter fun e => !e.v.isFinite).length

/-- The logical element indexes of a stream, in stream order (05 R168, 06 R201). -/
def Strm.indexes (m : Strm) (two4 : Bool := false) : List Nat :=
  m.ents.flatMap fun e => (List.range (e.elems two4)).map fun i => e.blkidx * e.nb + i

/-! ### Scale-line merges (04 R566) -/

/-- Write bytes with a poison mark each, line by line: a line is poisoned when some byte written into it is. -/
def State.wrMarked (s : State) : Nat → Nat → List (Byte × Bool) → State
  | 0, _, _ => s
  | fuel + 1, a, l =>
    if l.isEmpty then s else
    let n := min l.length (64 - a % 64)
    let p := l.take n
    (s.wr a (p.map (·.1)) (p.any (·.2))).wrMarked fuel (a + n) (l.drop n)

def State.wrMarks (s : State) (a : Nat) (l : List (Byte × Bool)) : State := s.wrMarked (l.length / 64 + 2) a l

/-- The outlier entries of block `i` of a line whose scale bytes are `sc`, from its region. -/
def regionEntries (sc : List Nat) (region : List Nat) (i : Nat) : List Nat :=
  let before := ((sc.take i).map blkEntries).sum
  (region.drop before).take (blkEntries (sc.getD i 0))

/-- One merge: the blocks' scale bytes replaced, TAG and FIRST written, the outlier region laid out afresh, CHECK
computed. The region past its last entry is left zero, so that every division and order of the merges ends alike (DESIGN CHOICE, log
entry 102). `blocks`: position in the line, scale byte, entries. -/
def State.mergeLine (s : State) (m : LineMerge) : State :=
  let old := s.rd m.addr 64
  let oldSc := (List.range 56).map fun i => fld old (8 + i) 1
  let region := match m.outAddr with
    | some a => (List.range 112).map fun i => s.rd (a + 2 * i) 2
    | none => []
  let newOf := fun i => m.blocks.find? fun b => b.1 == i
  let sc := (List.range 56).map fun i =>
    if m.total ≤ m.first + i then 0
    else match newOf i with
      | some b => b.2.1
      | none => oldSc.getD i 0
  let ents := (List.range 56).flatMap fun i =>
    match newOf i with
    | some b => b.2.2.take (blkEntries (sc.getD i 0))
    | none => if m.total ≤ m.first + i then [] else regionEntries oldSc region i
  let body := m.tag % 65536 + m.first % 2 ^ 32 * 2 ^ 16 + (leNat (sc.map (BitVec.ofNat 8 ·))) * 2 ^ 64
  let line := body + lineCheck body * 2 ^ 48
  let s1 := s.wr m.addr (leBytes 64 line) (s.poisoned m.addr)
  match m.outAddr with
  | some a =>
    let n := (ents.zipIdx).foldl (fun acc p => acc + p.1 * 2 ^ (16 * p.2)) 0
    s1.wr a (leBytes 224 n) (s.poisonedIn a 224)
  | none => s1

/-! ### Writing a stream -/

/-- What a stream's write left. -/
structure Wrote where
  st : State
  counts : Counts
  /-- a near-memory result was poisoned (11 R367) -/
  poison : Bool := false

/-- The blocks written to one entry become merges, line by line. -/
def State.mergeBlocks (s : State) (m : Strm) (e : Ent) (blocks : List (Nat × Nat × List Nat)) : State :=
  (List.range ((e.blkidx + blocks.length + 55) / 56 - e.blkidx / 56)).foldl (fun s i =>
    let line := e.blkidx / 56 + i
    let mine := blocks.filterMap fun b => if b.1 / 56 == line then some (b.1 % 56, b.2.1, b.2.2) else none
    if mine.isEmpty then s
    else s.mergeLine { addr := e.lineAddr m.hdr (56 * line)
                       outAddr := if m.esc then some (Ent.outAddr m.hdr (56 * line)) else none
                       tag := m.hdr.tag, first := 56 * line, total := m.hdr.total, blocks := mine }) s

/-- Write one scaled entry: its blocks in order. -/
def State.writeScaled (s : State) (m : Strm) (e : Ent) (mode : Nat) (cf : Int × Int) (els : List OutEl) : Wrote :=
  let bb := blockBytes e.fmt e.nb false
  let bpr := e.len / bb
  let blks := (chunks e.nb (e.rows * bpr) els).map fun xs => (writeBlock e.fmt mode m.esc cf xs, xs.any (·.poison))
  let rows := chunks bpr e.rows blks
  let s := (rows.zipIdx).foldl (fun s p =>
    s.wrMarks (e.addr + p.2 * e.stride)
      (p.1.flatMap fun b => (packCodes (fmtBits e.fmt) b.1.codes).map fun y => (y, b.2))) s
  { st := s.mergeBlocks m e ((blks.zipIdx).map fun p => (e.blkidx + p.2, p.1.1.byte, p.1.1.entries))
    counts := sumCounts (blks.map (·.1.counts)) }

/-- Apply an unscaled output entry as near-memory operations, one for each element. -/
def State.writeNear (s : State) (e : Ent) (mode tag : Nat) (els : List OutEl) : Wrote :=
  let w := fmtBits e.fmt / 8
  let n := e.len / w
  (els.zipIdx).foldl (fun (acc : Wrote) p =>
    let c := convCode e.fmt mode p.1.r p.1.v
    let d := acc.st.nmApply (e.addr + p.2 / max n 1 * e.stride + p.2 % max n 1 * w) ((nmType e.fmt).getD 0) e.nmop c.1
      p.1.poison false tag
    { st := d.st, counts := acc.counts.add (elCounts p.1 c.1 { sat := c.2 || d.sat }), poison := acc.poison || d.poison })
    { st := s, counts := {} }

/-- Write one unscaled entry; a block with a poisoned element is marked whole (03 R121, R122; 06 R202). -/
def State.writePlain (s : State) (e : Ent) (mode : Nat) (els : List OutEl) : Wrote :=
  let w := fmtBits e.fmt / 8
  let ys := els.map fun x => (x, convCode e.fmt mode x.r x.v)
  let n := e.len / w
  let rows := chunks n e.rows ys
  let s := (rows.zipIdx).foldl (fun s p =>
    s.wrMarks (e.addr + p.2 * e.stride)
      ((chunks e.nb (n / e.nb + 1) p.1).flatMap fun blk =>
        let mark := blk.any (·.1.poison)
        blk.flatMap fun y => (leBytes w y.2.1).map fun b => (b, mark))) s
  { st := s, counts := sumCounts (ys.map fun y => elCounts y.1 y.2.1 { sat := y.2.2 }) }

/-- Write the elements of a stream, in stream order, with the coarse scale `cf` (an FP32 code). -/
def State.writeStream (s : State) (m : Strm) (mode cf : Nat) (els : List OutEl) (tag : Nat := 0) : Wrote :=
  let c := match f32 cf with | .fin a e => (a, e) | _ => (1, 0)
  (m.ents.foldl (fun (acc : Wrote × List OutEl) e =>
    let n := e.elems
    let l := acc.2.take n
    let w := if e.scaled then acc.1.st.writeScaled m e mode c l
      else if e.nma then acc.1.st.writeNear e mode tag l else acc.1.st.writePlain e mode l
    ({ st := w.st, counts := acc.1.counts.add w.counts, poison := acc.1.poison || w.poison }, acc.2.drop n))
    ({ st := s, counts := {} }, els)).1

/-- Write bytes over a stream read and written as bytes. -/
def State.writeByteStream (s : State) (m : Strm) (bs : List (Byte × Bool)) : State :=
  (m.ents.foldl (fun (acc : State × List (Byte × Bool)) e =>
    e.rowAddrs.foldl (fun acc a => (acc.1.wrMarks a (acc.2.take e.len), acc.2.drop e.len)) acc) (s, bs)).1

/-- The bytes of a stream, each with the poison mark of its line: how COPY moves them (12 R399). -/
def State.readByteStream (s : State) (x : Item) (m : Strm) : List (Byte × Bool) :=
  m.ents.flatMap fun e => e.rowAddrs.flatMap fun a => (List.range e.len).map fun i => (s.ib x (a + i), s.ipois x (a + i))

/-- The bytes of a stream, each with the poison mark of its fetch block (03 R121). -/
def State.readFetched (s : State) (x : Item) (m : Strm) : List (Byte × Bool) :=
  m.ents.flatMap fun e => (List.range e.rows).flatMap fun r =>
    let pois := s.rowPoison x m e false r
    (List.range e.len).map fun i => (s.ib x (e.addr + r * e.stride + i), pois.getD (i / max 1 (e.fetchBytes false)) false)

/-! ### The coarse scale of an output (07 R218, R219) -/

/-- pow2ceil(h × 2^hr / Max(fmt)) held within the normal FP32 range: FP32 code, and whether it was clamped. -/
def pow2Coarse (fmt h hr : Nat) : Nat × Bool :=
  let hv := match f32 h with | .fin m e => (m, e) | _ => (0, 0)
  let mx := gval (grid fmt) (grid fmt).last
  let ok := fun (k : Int) => leF hv.1 (hv.2 + hr) mx.1 (mx.2 + k)
  if ok (-127) then (0x00800000, true)
  else match (List.range 254).find? fun (i : Nat) => ok ((i : Int) - 126) with
    | some i => ((i + 1) * 2 ^ 23, false)
    | none => (0x7F000000, true)

/-- coarse(t, fmt): FP32 code, and whether it was clamped. -/
def State.trkCoarse (s : State) (slot t fmt : Nat) : Nat × Bool :=
  let k := s.tracker t
  let hr := if k.usePre then s.policy slot 0x3002 else s.trkHr slot t
  if k.hmax == 0 then (s.trkInit slot t, false) else pow2Coarse fmt k.hmax hr

/-- The tracker supplies the scale of an output stream (R219). -/
def supplies (x : Item) (m : Strm) : Bool :=
  decide (x.watch < 16384) && m.scaled && !([3, 7, 8].contains x.engine)

/-- The coarse scale an output is written with: the tracker's where it supplies one, else the header's. -/
def State.usedCoarse (s : State) (x : Item) (m : Strm) : Nat :=
  if supplies x m then (s.trkCoarse x.stepSlot x.watch m.fmt).1 else m.hdr.coarse

/-- The coarse scale an output is written with; a supplied one is written into the stream header and counted when it was
clamped. -/
def State.outCoarse (s : State) (x : Item) (m : Strm) : Nat × State :=
  if supplies x m then
    let c := s.trkCoarse x.stepSlot x.watch m.fmt
    let s := s.wr (x.streamAddr m.k + 0x10) (leBytes 4 c.1)
    (c.1, if c.2 then s.mcBump 0x4044 8 1 else s)
  else (m.hdr.coarse, s)

/-- Bowline word of an element of an item. -/
def Item.word (x : Item) (tag index draw : Nat) : Nat := bowline x.seed x.bwl (x.layer * 65536 + tag) index draw

/-- Give each output element the random bits of its place (04 R143, 05 R168). -/
def drawBits (x : Item) (m : Strm) (draw : Nat) (els : List OutEl) : List OutEl :=
  if x.round == mSR then
    (els.zip m.indexes).map fun p => { p.1 with r := x.word m.hdr.tag p.2 draw % 16 }
  else els

/-- amax of the exact values handed to conversion (04 R158), as an FP32 code. -/
def amaxOf (els : List OutEl) : Nat :=
  els.foldl (fun a x => if x.v.isFinite then max a (f32Code x.v.abs) else a) 0

end Sys2Proof.Machine
end

