-- ==== Sys2Proof/Machine/Engine.lean ====
section
/-! DEFINITION. Starting an item on its engine and running it: placement, lateness, the engines' status registers, the two
ways a run ends early, and the skew retry (01 R18; 03 R83, R96, R113; 07 R221, R238, R243, R244; 13 R451). -/

namespace Sys2Proof.Machine

/-! ### Placement (03 R83, 01 R18) -/

/-- The arrays an item occupies on its units: its own engine's, and the Hawser arrays for a GATE_ROUTE (09 R281). -/
def Item.occupies (x : Item) (engine : Nat) : Bool := x.engine == engine || (x.engine == 5 && x.op == 2 && engine == 1)

/-- An item holds its engines: it runs, or it drains, its last output not yet visible (03 R101). One that waits for a spill or a
pin has left them (10 R321, R322). -/
def Item.holdsEngine (y : Item) : Bool := y.stage == .running || (y.stage == .finished && y.waitCyc.isNone)

/-- `x` is the chained successor that `y` lets overlap (03 R101). -/
def Item.letsOverlap (y x : Item) : Bool := y.chain && x.chained && y.engine == x.engine && y.mask == x.mask

/-- Another item holds the same engine of one of the units; `x` may overlap the item it is chained to. -/
def State.engineBusy (s : State) (region slot : Nat) (x : Item) (engine units : Nat) : Bool :=
  s.items.any fun e =>
    match e.2 with
    | some y => e.1 != itemKey region slot && y.holdsEngine && !(e.1 / 256 == region && y.letsOverlap x) && y.occupies engine &&
        (if maskUsed engine then e.1 / 256 == region && (BitVec.ofNat 32 y.units &&& BitVec.ofNat 32 units) != 0#32
         else engine == 6 && regionDie (e.1 / 256) == regionDie region)
    | none => false

/-- The units an item would run on, none when its engine is not free, or when it names a fenced unit (01 R27) or one in recovery (14
R475). -/
def State.chooseUnits (s : State) (region slot : Nat) (x : Item) : Option Nat :=
  if !maskUsed x.engine then (if s.engineBusy region slot x x.engine 0 then none else some 0)
  else
    let busy := fun (m : Nat) => s.maskFrozen region m || s.engineBusy region slot x x.engine m || (x.engine == 5 && x.op == 2 && s.engineBusy region slot x 1 m)
    if x.mask != 0 then (if busy x.mask || s.maskFenced region x.mask then none else some x.mask)
    else ((List.range 32).find? fun u => !s.unitFenced (region * 32 + u) && !busy (2 ^ u)).map (2 ^ ·)

/-- The units of an item in ascending order, as flat indexes (05 R173). -/
def unitList (region units : Nat) : List Nat :=
  ((List.range 32).filter fun u => bit units u).map (region * 32 + ·)

/-- The clusters of an item's units, as flat indexes (03 R82). -/
def clusterList (region units : Nat) : List Nat :=
  ((List.range 8).filter fun c => bits units (4 * c + 3) (4 * c) != 0).map (region * 8 + ·)

/-! ### The engines' own registers -/

/-- Write a register of every instance in a list. -/
def State.setEach (s : State) (r : Reg) (l : List Nat) (v : Nat) : State :=
  l.foldl (fun s i => s.setReg r i 0 (BitVec.ofNat 32 v)) s

def State.flagEach (s : State) (r : Reg) (l : List Nat) (m : Nat) : State := l.foldl (fun s i => s.flag r i 0 m) s
def State.bumpEach (s : State) (r : Reg) (l : List Nat) (n : Nat) : State := l.foldl (fun s i => s.bump r i 0 n) s

/-! ### Start (03 R96, R113; 13 R451) -/

/-- Lateness of a TIMED item that starts now, in Lay units. -/
def State.lateness (s : State) (x : Item) : Nat := if x.timed then s.lay.now - x.layGate else 0

/-- A late start of `d` Lay units, counted and compared with the latest so far (13 R451). -/
def State.countLate (s : State) (region d : Nat) : State :=
  let t := s.bump .layLateCnt (regionDie region) (region % 4) 1
  if (t.reg .layLateMax (regionDie region) (region % 4)).toNat < sat32 (nsOfLay d) then
    t.setReg .layLateMax (regionDie region) (region % 4) (BitVec.ofNat 32 (sat32 (nsOfLay d)))
  else t

/-- A late item sets LATE and is counted in its region. -/
def State.noteLate (s : State) (region : Nat) (x : Item) : State × Item :=
  if layOfNs (s.dv 0x2082 0) < s.lateness x then (s.countLate region (s.lateness x), { x with late := true }) else (s, x)

/-- The Boundary words an item takes at its start: HAL_CFG and HAL_HP of its die (02 R74, 11 R368). -/
def State.latchWords (s : State) (x : Item) (region : Nat) : List Word :=
  if x.engine == 6 then
    s.reg .halCfg (regionDie region * 4) :: (List.range 128).map fun i => s.reg .halHp (regionDie region * 4) i
  else []

/-- MODE of a Twine product: bit 0 narrow weights, bit 1 2:4 (05 R174, R185). -/
def twnMode (fmtB sparse : Nat) : Nat := b2n (decide (fmtB ≤ 1)) + 2 * b2n (bit sparse 0)

/-- Arithmetic class of a Hawser product: 0 8-bit, 1 16-bit, 2 FP32 (06 R190). -/
def hwsClass (fa fb : Nat) : Nat :=
  let c := fun f => if f == 9 then 2 else if f == 7 || f == 8 then 1 else 0
  max (c fa) (c fb)

/-- Formats of A and B as they reach the Hawser array. -/
def State.hwsFmts (s : State) (x : Item) : Nat × Nat :=
  let mode := x.opnd 0x73 1
  let t := x.opnd 0x77 1
  (if bit mode 5 then t % 16 else (s.strm x 0).fmt, if bit mode 6 then t / 16 else (s.strm x 1).fmt)

/-- Reduction positions of one sub-pass. -/
def hwsKp (cls : Nat) : Nat := if cls == 2 then 8 else if cls == 1 then 32 else 64

/-- Half mode (06 R199). -/
def hwsHalf (cls k : Nat) : Bool := (cls == 0 && decide (k ≤ 32)) || (cls == 1 && decide (k ≤ 16))

/-- The STAT word of an item as it starts. SEG_MATMUL has no variant operand yet: it shows the class of stream A and, where it is
Turn-fed, of TFMT_V; as it drains, its run's last segment gives CLASS and HALF (09 R292, R296). -/
def State.statWord (s : State) (x : Item) : Nat :=
  2 ^ 31 + (
    if x.engine == 0 then twnMode (s.strm x 1 (if bit (x.opnd 0x73 1) 1 then 2 else 1)).fmt (x.opnd 0x73 1 % 4) * 2 ^ 28
    else if x.engine == 1 && x.op == 1 then
      let f := s.hwsFmts x
      let c := hwsClass f.1 f.2
      c * 2 ^ 28 + b2n (hwsHalf c (x.opnd 0x70 3 + 1)) * 2 ^ 27 + b2n (bit (x.opnd 0x73 1) 7) * 2 ^ 26
    else if x.engine == 1 && x.stage != .finished then
      hwsClass (s.strm x 0).fmt (if bit (x.opnd 0x73 1) 6 then x.opnd 0x76 1 else 5) * 2 ^ 28
    else if x.engine == 6 then (if x.op == 0x10 then 6 else x.op % 8) * 2 ^ 28
    else 0)

/-- The item's STAT word on its engine: as it starts, and, while it drains, with DRAIN of the arrays and the fields of its last
work on its j-th instance (05 R185, 06 R209, 09 R297, 10 R337, 11 R368). The steps between lie within the run, which is one command (log entry 101). -/
def State.engineWord (s : State) (x : Item) (j : Nat) : Nat :=
  if x.stage == .finished then s.statWord x + b2n (decide (x.engine ≤ 1)) * 2 ^ 30 + x.res.stat.getD j 0
  else s.statWord x + b2n (x.engine == 5) * 2 ^ 28

/-- HWS_STAT of an item on the Hawser arrays; a GATE_ROUTE shows its logit product (06 R209, 09 R281). -/
def State.hwsWord (s : State) (x : Item) (j : Nat) : Nat :=
  if x.engine == 5 then
    let c := hwsClass (s.strm x 0).fmt (s.strm x 1).fmt
    let k := x.opnd 0x74 3 + 1
    2 ^ 31 + c * 2 ^ 28 + b2n (hwsHalf c k) * 2 ^ 27 + (if x.stage == .finished then 2 ^ 30 + ((k + 511) / 512 - 1) else 0)
  else s.engineWord x j

/-- TRN_STAT of an item that the Turn serves: BUSY, SIDE and TFMT of its first Turn-fed operand, TTILES when it drains (06 R210). -/
def turnWord (x : Item) (j : Nat) : Nat :=
  let t := x.opnd 0x77 1
  let mode := x.opnd 0x73 1
  2 ^ 31 + (if x.engine == 3 then t % 16 * 2 ^ 24
    else if x.op == 0x10 then 2 ^ 30 + x.opnd 0x76 1 % 16 * 2 ^ 24
    else if bit mode 5 then t % 16 * 2 ^ 24 else 2 ^ 30 + t / 16 * 2 ^ 24) + x.res.turn.getD j 0 % 2 ^ 24

/-- The Turn serves the item: REBLOCK, and a Hawser product with a Turn-fed operand (06 R200; 09 R292). -/
def Item.usesTurn (x : Item) : Bool :=
  x.engine == 3 || (x.engine == 1 && (if x.op == 0x10 then bit (x.opnd 0x73 1) 6 else bits (x.opnd 0x73 1) 6 5 != 0))

/-- SPL_STAT of an item that the Splice serves (07 R221). -/
def Item.spliceWord (x : Item) : Nat := 2 ^ 31 + b2n (x.prepass == 1) * 2 ^ 30 + b2n x.retried * 2 ^ 29 + x.watch

/-- `a` was issued before `b`: by start, then by ring order (01 R18). -/
def Item.issuedBefore (a b : Item) : Bool := decide (a.startCyc < b.startCyc) || (a.startCyc == b.startCyc && decide (a.count < b.count))

/-- The first-issued of the region's items that satisfy p: the one an engine, or the Splice, is serving. -/
def State.serving (s : State) (region : Nat) (p : Item → Bool) : Option Item :=
  (s.items.filterMap fun e => match e.2 with
    | some y => if e.1 / 256 == region && p y then some y else none
    | none => none).foldl (fun (b : Option Item) y => match b with
      | none => some y
      | some c => if y.issuedBefore c then some y else some c) none

/-- Write STAT and TAG of one instance: of the item it serves, else idle with the last item's TAG. -/
def State.show (s : State) (stat tag : Reg) (i idle : Nat) (x : Option Item) (w : Item → Nat) : State :=
  match x with
  | some y => (s.setReg stat i 0 (BitVec.ofNat 32 (w y))).setReg tag i 0 (BitVec.ofNat 32 y.tag)
  | none => s.setReg stat i 0 (BitVec.ofNat 32 idle)

/-- The item that unit u is serving among those of which p holds, and the unit's place among that item's units. -/
def State.servingUnit (s : State) (region u : Nat) (p : Item → Bool) : Option Item :=
  s.serving region fun y => y.holdsEngine && bit y.units (u % 32) && p y
def unitPlace (y : Item) (u : Nat) : Nat := ((List.range (u % 32)).filter fun v => bit y.units v).length

/-- STAT and TAG of the arrays, the Turn and the Splice of unit u, as far as the item uses them. -/
def State.showUnit (s : State) (x : Item) (region : Nat) (t : State) (u : Nat) : State :=
  let t := if x.engine == 0
    then t.show .twnStat .twnTag u 0 (s.servingUnit region u (·.occupies 0)) (fun y => s.engineWord y (unitPlace y u)) else t
  let t := if x.occupies 1
    then t.show .hwsStat .hwsTag u 0 (s.servingUnit region u (·.occupies 1)) (fun y => s.hwsWord y (unitPlace y u)) else t
  let t := if x.usesTurn then t.show .trnStat .trnTag u 0 (s.servingUnit region u (·.usesTurn)) (fun y => turnWord y (unitPlace y u)) else t
  t.show .splStat .splTag u 0xFFFF (s.servingUnit region u fun y => y.stage == .running) Item.spliceWord

/-- The item of ENGINE e that cluster c is serving. -/
def State.servingCluster (s : State) (region e c : Nat) : Option Item :=
  s.serving region fun y => y.holdsEngine && y.engine == e && bits y.units (c % 8 * 4 + 3) (c % 8 * 4) != 0

/-- The STAT and TAG registers of the engines an item uses, brought up to date: each shows the first-issued item it serves
(01 R18; 05 R185; 06 R209, R210; 07 R221; 09 R297; 10 R337; 11 R368). -/
def State.showItem (s : State) (x : Item) (region units : Nat) : State :=
  let v := (unitList region units).foldl (s.showUnit x region) s
  if x.engine == 4 then (clusterList region units).foldl (fun t c =>
    t.show .ateWlkStat .ateTag c 0 (s.servingCluster region 4 c) fun y => s.engineWord y (c % 8)) v
  else if x.engine == 5 then (clusterList region units).foldl (fun t c =>
    t.show .rtrStat .rtrTag c 0 (s.servingCluster region 5 c) fun y => s.engineWord y (c % 8)) v
  else if x.engine == 6 then ((List.range 4).map (regionDie region * 4 + ·)).foldl (fun t k =>
    t.show .halStat .halTag k 0 (s.serving region fun y => y.holdsEngine && y.engine == 6) fun y => s.engineWord y (k % 4)) v
  else v

/-- Stream D is an output of the item: the second output of a product, the statistics of an attention item. -/
def Item.writesD (x : Item) : Bool :=
  (decide (x.engine ≤ 1) && x.op == 1 && bits (x.opnd 0x73 1) 3 2 == 3)
    || (x.engine == 4 && decide (x.op ≤ 2) && bit (x.opnd 0x6F 1) 2 && bits (x.opnd 0x6F 1) 1 0 == 0)

/-- Rows to which the item issues near-memory operations in place of stores (11 R363). -/
def State.nmaRows (s : State) (x : Item) : List (Nat × Nat) :=
  ([2] ++ if x.writesD then [3] else []).flatMap fun k =>
    if x.stream k == 0 then [] else (s.strm x k).ents.flatMap fun (e : Ent) => if e.nma then e.rowAddrs.map fun a => (a, e.len) else []

/-- The target of a near-memory operation lies in a die under reset: the operation is lost with the reset (11 R371). -/
def State.nmLost (s : State) (a : Nat) : Bool := match s.stackOf a with | some k => s.dieReset (stackDie k) | none => false

/-- The item is held: memory that its streams name lies on a die in recovery, or behind one (14 R475). An operation that is lost does
not wait. -/
def State.itemHeld (s : State) (region : Nat) (x : Item) : Bool :=
  !s.calm &&
    let lost := (s.nmaRows x).filter fun p => s.nmLost p.1
    (List.range 4).any fun k => x.stream k != 0 &&
      ((s.strm x k).reads (x.streamAddr k) (x.streamCount k)).any fun p => !lost.contains p && s.spanHeld (regionDie region) p.1 p.2

/-- An earlier item in ring order is ready, can start, and wants an engine of the item on one of its units: it starts first
(03 R93; an item starts at the first command that works on it, log entry 101). -/
def State.yields (s : State) (region slot : Nat) (x : Item) (units : Nat) : Bool :=
  s.items.any fun e =>
    match e.2 with
    | some y => e.1 / 256 == region && e.1 % 256 != slot && y.stage == .ready && y.waitCyc.isNone && s.olderThan region y x
        && (y.occupies x.engine || x.occupies y.engine) && !s.itemHeld region y
        && (match s.chooseUnits region (e.1 % 256) y with
            | some m => !maskUsed x.engine || (BitVec.ofNat 32 m &&& BitVec.ofNat 32 units) != 0#32
            | none => false)
    | none => false

/-- The start of an item is the start of its first pass: START, LATE. -/
def State.markStart (s : State) (region : Nat) (x : Item) : State × Item :=
  if x.start.isSome then (s, x)
  else ((s.noteLate region x).1, { (s.noteLate region x).2 with start := some s.lay.now, startCyc := s.cycle })

/-- The tile counts are those of the running item (05 R185, 06 R209). -/
def State.clearTiles (s : State) (x : Item) (region units : Nat) : State :=
  if x.engine == 0 then s.setEach .twnTiles (unitList region units) 0
  else if x.engine == 1 then s.setEach .hwsTiles (unitList region units) 0 else s

/-- A ready item on the units chosen for it: it runs, with the Boundary words of now. -/
def State.beginItem (s : State) (region slot : Nat) (x : Item) (units : Nat) : State × Item :=
  let p := s.markStart region { x with stage := .running, units := units, progCyc := s.cycle
                                       latched := s.latchWords x region, runahead := bits (s.reg .runahead region).toNat 6 0 }
  (((p.1.clearTiles x region units).setItem region slot (some p.2)).showItem p.2 region units, p.2)

/-- A ready item starts, when its engine is free on every unit it names, no earlier ready item wants it, and none of the memory it
needs is held; a running item goes on. -/
def State.startItem (s : State) (region slot : Nat) (x : Item) : Option (State × Item) :=
  if s.itemHeld region x then none
  else if x.stage == .running then some (s, x)
  else if x.stage != .ready then none
  else
    match s.chooseUnits region slot x with
    | none => none
    | some units => if s.yields region slot x units then none else some (s.beginItem region slot x units)

/-- The chained item before it still runs: its own Execute waits for the arrays to drain (03 R101). -/
def State.behind (s : State) (region slot : Nat) (x : Item) : Bool :=
  s.items.any fun e =>
    match e.2 with
    | some y => e.1 / 256 == region && e.1 % 256 != slot && y.stage == .running && y.letsOverlap x
        && (BitVec.ofNat 32 y.units &&& BitVec.ofNat 32 x.units) != 0#32
    | none => false

/-! ### Runs -/

/-- How an engine's run of an item ends. `go` writes the outputs and gives what the completion needs. -/
inductive RunOut where
  /-- a data-entry or operation check failed (03 R88) -/
  | bad (b : Bad)
  /-- a scale line is out of step: cause, stream, entry (07 R244) -/
  | skew (cause k entry : Nat)
  /-- memory it needs beside its streams is held (14 R475): it waits -/
  | hold
  /-- the item runs; `amax` is that of its watched output -/
  | ok (amax : Nat) (go : State → Item → State × Result)

/-- The successor that a chained item lets overlap: the next item in ring order that names the same units and the same engine,
if it has no enabled wait slot, is not TIMED, and was admitted in time (03 R101). -/
def State.chainNext (s : State) (region : Nat) (x : Item) : Option (Nat × Item) :=
  let l := s.items.filterMap fun e =>
    match e.2 with
    | some y => if e.1 / 256 == region && y.engine == x.engine && y.mask == x.mask && s.olderThan region x y then some (e.1, y) else none
    | none => none
  match l.foldl (fun (b : Option (Nat × Item)) e => match b with
      | none => some e
      | some c => if s.olderThan region e.2 c.2 then some e else some c) none with
  | some (k, y) =>
    if y.w0 == .off && y.w1 == .off && !y.timed && (y.stage == .admitted || y.stage == .ready) then some (k, y) else none
  | none => none

/-- CHAINED of the successor of an item with FLAGS CHAIN, whose last input fetch block has been requested (R101, R113): its fetch may
begin. -/
def State.chain (s : State) (region : Nat) (x : Item) : State :=
  if !x.chain then s
  else match s.chainNext region x with
    | some (k, y) => { s with items := tset dItem s.items k (some { y with chained := true }) }
    | none => s

/-- The item leaves its engine with a result and waits for its last output to be visible. -/
def State.endRun (s : State) (region slot : Nat) (x : Item) (r : Result) : State :=
  let r := { r with poison := r.poison || x.nmPoison
                    counts := { r.counts with saturated := r.counts.saturated + x.nmSats } }
  ((s.chain region x).setItem region slot
    (some { x with stage := .finished, res := r, wrote := true, progCyc := s.cycle })).showItem x region x.units

/-- A skew: counted on the item's units; a REPLAYABLE item that is not its retry restarts once from its descriptor, unless
it has issued a near-memory operation (07 R243). -/
def State.skewRun (s : State) (region slot : Nat) (x : Item) (cause k entry : Nat) : State :=
  let us := unitList region x.units
  let s := (s.bumpEach .splSkewCnt us 1).flagEach .splSts us 4
  let s := if x.replayable && !x.retried && !x.nmIssued then
    s.setItem region slot (some { x with
      stage := .ready, retried := true, fetched := [], fetchedPoison := [], queued := [0, 0, 0, 0], wrote := false
      progCyc := s.cycle })
  else
    -- a near-memory operation issued is an output written (11 R363)
    s.setItem region slot (some { x with
      stage := .finished, progCyc := s.cycle
      res := { statuses := [(stSkew, cause * 2 ^ 24 + k % 4 * 2 ^ 16 + entry % 65536)], partialOut := x.wrote || x.nmIssued } })
  s.showItem x region x.units

/-- Run the item in a slot on its engine, if it is one that `takes` accepts and can start. -/
def State.runItem (s : State) (region slot : Nat) (takes : Item → Bool) (f : State → Nat → Item → RunOut) : State :=
  match s.item region slot with
  | none => s
  | some x =>
    if !takes x || x.prepass == 1 || s.frozen ⟨2, region⟩ then s
    else
      let wait := s
      match s.startItem region slot x with
      | none => s
      | some (s, x) =>
        if s.behind region slot x then s
        else if !s.calm && (s.nmaRows x).any fun p => s.nmLost p.1 then
          s.endRun region slot x { statuses := [(stReset, 0)], partialOut := x.wrote || x.nmIssued }
        else match f s region x with
        | .hold => wait
        | .bad b => s.endRun region slot x { statuses := [(stInvalid, badDetail b)], partialOut := x.wrote }
        | .skew c k e => s.skewRun region slot x c k e
        | .ok _ go =>
          let r := go s x
          let t := r.1.endRun region slot x r.2
          -- a fence the run decided takes hold of the items queued to the unit (01 R27)
          if t.fenced == s.fenced then t else t.settle

/-- The first failure of a list of checks. -/
def firstBad (l : List (Option Bad)) : Option Bad := l.findSome? id

/-- The first stream of a list that is out of step, as the run's end. -/
def State.firstSkew (s : State) (x : Item) (l : List (Strm × Bool)) : Option (Nat × Nat × Nat) :=
  l.findSome? fun m => (s.skew x m.1 m.2).map fun c => (c.1, m.1.k, c.2)

/-- Checks, then skews, then the run. -/
def State.gated (s : State) (x : Item) (checks : List (Option Bad)) (ins : List (Strm × Bool)) (k : Unit → RunOut) : RunOut :=
  match firstBad checks with
  | some b => .bad b
  | none =>
    match s.firstSkew x ins with
    | some c => .skew c.1 c.2.1 c.2.2
    | none => k ()

/-- A residue mismatch in a tile of a unit: recorded, counted, and a fault of the unit (05 R182, 14 R462, R492). -/
def State.residueEvent (s : State) (src : Nat) (cnt sts : Reg) (unit tag tile : Nat) : State :=
  (((s.record (unitDie unit) src sevDeferred 0 2 unit (s.gen 0 unit) (tag * 2 ^ 96 + tile % 2 ^ 32 * 2 ^ 64)).bump
    cnt unit 0 1).flag sts unit 0 2).noteFault 0 unit

/-- The result of a run: counters of its outputs, non-finite elements read or made, zero blocks not fetched. -/
def mkResult (c : Counts) (nonfin zeroBlocks amax elements : Nat) (shares poison : Bool) : Result :=
  { poison := poison, counts := { c with nonfinite := nonfin, zeroBlocks := zeroBlocks }
    amax := amax, elements := elements, shares := shares, nonfin := nonfin != 0 }

/-! ### What operations need at admission (03 R88) -/

/-- How an operation uses a stream. -/
inductive Use where
  /-- it must be 0 -/
  | no
  /-- it must be present; its COARSE must be legal where it is scaled -/
  | yes
  /-- present or absent -/
  | opt
  deriving DecidableEq, Repr

/-- The stream checks at admission, in stream order: unused streams are 0, needed ones present, headers well-formed. `first`
gives the index of a stream's first data entry. -/
def State.useCheck (s : State) (x : Item) (uses : List Use) (first : Nat → Nat := fun _ => 1) (dOut : Bool := false) :
    Option Bad :=
  (List.range 4).findSome? fun k =>
    let u := uses.getD k .no
    if x.stream k == 0 then (if u == .yes then some (2, k, 0) else none)
    else if u == .no then some (2, k, 0)
    else let m := s.strm x k (first k); s.hdrCheck x m (!((k == 2 || (k == 3 && dOut)) && supplies x m))

end Sys2Proof.Machine
end

