-- ==== Sys2Proof/Machine/Twine.lean ====
section
/-! DEFINITION. Twine products: operands and checks, the exact reduction, the way out of the accumulator, the sparse weight
layouts, stalls and residues (05 R162 to R187; 09 R269 to R275). -/

namespace Sys2Proof.Machine

/-! ### Tile bitmaps (09 R272 to R275) -/

/-- The bitmap entry at index 1 of a block list. -/
structure Bmp where
  addr : Nat
  groups : Nat
  tiles : Nat
  ktiles : Nat
  deriving DecidableEq, Repr

def parseBmp (n : Nat) : Bmp := ⟨fld n 0 6, fld n 8 4, fld n 0xC 4, fld n 0x10 4⟩

/-- 64-bit words of a record after FIRST_TILE. -/
def bmpWords (ktiles : Nat) : Nat := (ktiles + 63) / 64

/-- The record of row group g: FIRST_TILE and the bitmap as a number. -/
def State.bmpRec (s : State) (x : Item) (b : Bmp) (g : Nat) : Nat × Nat :=
  let a := b.addr + 8 * (bmpWords b.ktiles + 1) * g
  (s.iw x a 8, s.iw x (a + 8) (8 * bmpWords b.ktiles))

/-- Set bits below n. -/
def countBits (x n : Nat) : Nat := ((List.range n).filter fun i => bit x i).length

/-- The records, or none when one of them fails its conditions (R275). -/
def State.bmpRecs (s : State) (x : Item) (b : Bmp) : Option (List (Nat × Nat)) :=
  (List.range b.groups).foldl (fun acc g =>
    match acc with
    | none => none
    | some l =>
      let seen := (l.map fun r => countBits r.2 b.ktiles).sum
      let r := s.bmpRec x b g
      if r.1 == seen && decide (r.2 < 2 ^ b.ktiles) && decide (seen + countBits r.2 b.ktiles ≤ b.tiles)
      then some (l ++ [r]) else none) (some [])

/-- The record of row group g reads poisoned. -/
def State.bmpPoison (s : State) (x : Item) (b : Bmp) (g : Nat) : Bool :=
  let n := 8 * (bmpWords b.ktiles + 1)
  s.ipoisIn x (b.addr + n * g) n

/-- Elements per row of B spread from the stored tiles; a poisoned record poisons its rows, whose every position it places (03 R121). -/
def denseTiles (b : Bmp) (recs : List (Nat × Nat)) (pois : List Bool) (els : List El) : List (List El) :=
  let blks := chunks 32 (els.length / 32) els
  (recs.zipIdx).flatMap fun r =>
    let bad := pois.getD r.2 false
    (List.range 32).map fun row =>
      (List.range b.ktiles).flatMap fun j =>
        let l := if bit r.1.2 j then (blks[32 * (r.1.1 + countBits r.1.2 j) + row]?).getD (List.replicate 32 El.zero)
          else List.replicate 32 El.zero
        if bad then l.map fun e => { e with poison := true } else l

/-! ### Operands and checks (R164, R166, R169 to R172) -/

structure TwnOp where
  m : Nat
  n : Nat
  k : Nat
  drole : Nat
  sparse : Nat
  kbase : Nat
  deriving DecidableEq, Repr

def Item.twn (x : Item) : TwnOp :=
  ⟨x.opnd 0x68 4, x.opnd 0x6C 4, x.opnd 0x70 3 + 1, bits (x.opnd 0x73 1) 3 2, x.opnd 0x73 1 % 4, x.opnd 0x74 3⟩

def TwnOp.two4 (o : TwnOp) : Bool := bit o.sparse 0
def TwnOp.bmp (o : TwnOp) : Bool := bit o.sparse 1
/-- Index of stream B's first data entry. -/
def TwnOp.bFirst (o : TwnOp) : Nat := if o.bmp then 2 else 1

/-- The exact product of two COARSE fields lies in the normal FP32 range (R166). -/
def coarseProductOk (a b : Nat) : Bool :=
  match f32 a, f32 b with
  | .fin ma ea, .fin mb eb =>
    let m := ma * mb
    let e := ea + eb
    leF 1 (-126) m e && leF m e (2 ^ 24 - 1) 104
  | _, _ => false

/-- The checks of a Twine MATMUL at admission. -/
def State.twnAdmit (s : State) (x : Item) : Option Bad :=
  let o := x.twn
  let a := s.strm x 0
  let b := s.strm x 1 o.bFirst
  let c := s.strm x 2
  let bm := parseBmp (s.listEntry x 1 1)
  if x.op != 1 then some (1, 0, 0)
  else if x.resultSlot != 0xFFFF then some (9, 0, 0)
  else
    match s.useCheck x [.yes, .yes, .yes, if o.drole == 0 then .no else .yes] (fun k => if k == 1 then o.bFirst else 1)
        (o.drole == 3) with
    | some e => some e
    | none =>
      if o.bmp && bm.addr % 8 != 0 then some (2, 1, 1)
      else if o.m == 0 || o.n == 0 || 2 ^ 24 < o.n || o.k < 16 || o.k % a.nb != 0 then some (9, 0, 0)
      else if o.drole != 2 && o.kbase != 0 then some (9, 0, 0)
      else if 2 ^ 24 < o.k + o.kbase then some (9, 0, 0)
      else if !coarseProductOk a.hdr.coarse b.hdr.coarse then some (9, 0, 0)
      else if o.bmp && (bm.ktiles * 32 != o.k || bm.groups * 32 != o.n || b.nb != 32 || 32 * bm.tiles != b.hdr.total)
      then some (9, 1, 1)
      else if a.nb != b.nb then some (9, 1, 0)
      else if c.scaled && o.n % c.nb != 0 then some (9, 2, 0)
      else none

/-- A stream holds the elements its shape asks for. -/
def sizeCheck (m : Strm) (two4 : Bool) (n : Nat) : Option Bad :=
  if m.elems two4 == n then none else some (9, m.k, 0)

/-- Formats by number. -/
def fmtsAll : List Nat := List.range 13
def fmts0B : List Nat := List.range 12

/-- The stored blocks of a tile-bitmap stream: exactly TOTAL_BLOCKS, or the last entry is refused (09 R275). -/
def bmpSize (m : Strm) (two4 : Bool) : Option Bad :=
  if m.elems two4 == 32 * m.hdr.total then none else some (2, 1, m.first + m.ents.length - 1)

/-- Data-entry checks of a Twine MATMUL. -/
def State.twnChecks (s : State) (x : Item) : List (Option Bad) :=
  let o := x.twn
  let a := s.strm x 0
  let b := s.strm x 1 o.bFirst
  let c := s.strm x 2
  let d := s.strm x 3
  [ s.entsCheck a [2, 3], s.entsCheck b [0, 1, 2, 3] o.two4, s.entsCheck c fmtsAll false true
  , if o.drole == 1 then s.entsCheck d [9] else if o.drole == 2 then s.entsCheck d [12]
    else if o.drole == 3 then s.entsCheck d fmts0B false true else none
  , sizeCheck a false (o.m * o.k)
  , if o.bmp then bmpSize b o.two4 else sizeCheck b o.two4 (o.n * o.k)
  , if o.bmp && (s.bmpRecs x (parseBmp (s.listEntry x 1 1))).isNone then some (9, 1, 1) else none
  , sizeCheck c false (o.m * o.n)
  , if o.drole == 1 then sizeCheck d false o.n else if o.drole == 0 then none else sizeCheck d false (o.m * o.n)
  , if o.drole == 3 && d.scaled && o.n % d.nb != 0 then some (9, 3, 0) else none
  , overlapCheck x ([a, b] ++ if o.drole == 1 || o.drole == 2 then [d] else []) ([c] ++ if o.drole == 3 then [d] else []) ]

/-! ### The reduction (R162) -/

/-- The rows of B as the array sees them, dense. -/
def State.twnRowsB (s : State) (x : Item) : List (List El) :=
  let o := x.twn
  let b := s.strm x 1 o.bFirst
  let els := (s.readStream x b o.two4).els
  if o.bmp then
    let bm := parseBmp (s.listEntry x 1 1)
    denseTiles bm ((s.bmpRecs x bm).getD []) ((List.range bm.groups).map (s.bmpPoison x bm)) els
  else chunks o.k o.n els

/-- twine_sum of R162 from an initial partial: pairs with a zero block are skipped. -/
def twineSum (init : XV) (ra rb : List El) : XV :=
  (ra.zip rb).foldl (fun l p => if p.1.z || p.2.z then l else l.add (p.1.v.mul p.2.v)) init

/-- The LONG128 value of an exact sum: an integer number of 2^−80 units. -/
def toLong (v : XV) : XV :=
  match v with
  | .fin m e => .fin (if 0 ≤ e + 80 then m * (pow2 (e + 80) : Int) else m / (pow2 (-(e + 80)) : Int)) (-80)
  | y => y

/-- y of R165: two roundings, and the bias add. -/
def leaveAcc (l sc : XV) (bias : Option XV) : XV × Bool :=
  match l with
  | .fin _ _ =>
    let v := rn32 l
    let y := rn32 (v.1.mul sc)
    match bias with
    | some b => let z := rn32 (y.1.add b); (z.1, y.2 || z.2)
    | none => y
  | _ => (.nan, false)

/-- Some element of a list of rows is poisoned. -/
def rowsPoison (l : List (List El)) : Bool := l.any fun r => r.any (·.poison)

/-- Poison of the row groups of 128. -/
def groupPoison (l : List (List El)) : List Bool :=
  (chunks 128 ((l.length + 127) / 128) l).map rowsPoison

/-- Tiles, numbered t = nt × MT + mt (R173). -/
def tileCount (m n : Nat) : Nat := ((m + 127) / 128) * ((n + 127) / 128)
def tileOf (m row col : Nat) : Nat := col / 128 * ((m + 127) / 128) + row / 128

/-! ### Cycles the registers count (R174, R175, R177 to R179) -/

def twnChunk (fmtB : Nat) (two4 : Bool) : Nat := 128 * (if fmtB ≤ 1 then 2 else 1) * (if two4 then 2 else 1)

/-- Stall cycles of a row against the columns of one pass: e escape products, 8 a cycle. An escape counts also where its partner's
block is a zero block: R177 counts every escape of the row and of the column's chunk, R187 forms no product (DESIGN CHOICE, log entry
105). -/
def escStall (ra : List El) (cols : List (List El)) : Nat :=
  let e := cols.foldl (fun m c => max m ((ra.zip c).filter fun p => p.1.esc || p.2.esc).length) 0
  (e + 7) / 8 - 1

/-- The part of a row in chunk p. -/
def chunkPart {β : Type} (chunk p : Nat) (l : List β) : List β := (l.drop (p * chunk)).take chunk

/-- A row takes no cycle where all it feeds is zero blocks of entries with ZSKIP (R178). -/
def rowSkipped (l : List El) : Bool := l.all (·.skip)

/-- Columns in the groups of 32 of a tile bitmap, each with the K positions of its non-zero weight tiles. A weight tile counts as
non-zero when some block of it among the tile's columns has Z = 0, stored or not (DESIGN CHOICE, log entry 105). -/
def colGroups (k : Nat) (cols : List (List El)) : List (List (List El) × List Nat) :=
  (chunks 32 ((cols.length + 31) / 32) cols).map fun g =>
    (g, (List.range (k / 32)).filter fun j => g.any fun c => !(((c.drop (32 * j)).headD El.zero).z))

/-- Passes of a tile: chunks, or with a bitmap ceil(z / slots) (R174, R179). -/
def tilePasses (chunk : Nat) (bmp : Bool) (k : Nat) (cols : List (List El)) : Nat :=
  if bmp then
    let slots := chunk / 32
    (colGroups k cols).foldl (fun m g => max m ((g.2.length + slots - 1) / slots)) 0
  else (k + chunk - 1) / chunk

/-- Streamed rows and stall cycles of one tile (R175, R177 to R179). For a tile bitmap each group of 32 columns takes its own non-zero
K tiles, and the elements of a row at those positions are what the pass feeds it. -/
def tileCycles (chunk : Nat) (bmp : Bool) (rows cols : List (List El)) : Nat × Nat :=
  let k := (rows.headD []).length
  (List.range (tilePasses chunk bmp k cols)).foldl (fun acc p =>
    if bmp then
      let slots := chunk / 32
      let pick := fun (js : List Nat) (l : List El) => js.flatMap fun j => (l.drop (32 * j)).take 32
      let grps := (colGroups k cols).map fun g => (g.1, (g.2.drop (p * slots)).take slots)
      rows.foldl (fun acc r =>
        if grps.all fun g => rowSkipped (pick g.2 r) then acc
        else (acc.1 + 1, acc.2 + grps.foldl (fun m g => max m (escStall (pick g.2 r) (g.1.map (pick g.2)))) 0)) acc
    else
      let cs := cols.map (chunkPart chunk p)
      if cs.all rowSkipped then acc
      else rows.foldl (fun acc r =>
        let rc := chunkPart chunk p r
        if rowSkipped rc then acc else (acc.1 + 1, acc.2 + escStall rc cs)) acc) (0, 0)

/-- Tiles of a product: number, rows and columns. -/
def tilesOf (ra rb : List (List El)) : List (Nat × List (List El) × List (List El)) :=
  let gm := chunks 128 ((ra.length + 127) / 128) ra
  let gn := chunks 128 ((rb.length + 127) / 128) rb
  (gn.zipIdx).flatMap fun c => (gm.zipIdx).map fun r => (c.2 * gm.length + r.2, r.1, c.1)

/-- The unit that computes tile t (R173). -/
def tileUnit (us : List Nat) (t : Nat) : Nat := us.getD (t % max us.length 1) 0

/-- Tiles of an m × n product for which the rows marked in `pa`, the columns marked in `pb`, or `extra` hold something. -/
def tilesMarked (m n : Nat) (pa pb : List Bool) (extra : Nat → Nat → Bool) : List Nat :=
  let mts := (m + 127) / 128
  (List.range ((n + 127) / 128)).flatMap fun nt => (List.range mts).filterMap fun mt =>
    if ((pa.drop (128 * mt)).take 128).any id || ((pb.drop (128 * nt)).take 128).any id || extra mt nt then some (nt * mts + mt)
    else none

/-- Stream D gives tile (mt, nt) a non-finite bias (DROLE 1) or partial, in one of `planes` planes (DROLE 2). -/
def dNonfin (drole planes m n : Nat) (d : List El) (mt nt : Nat) : Bool :=
  if drole == 1 then countNonfin ((d.drop (nt * 128)).take 128) != 0
  else if drole == 2 then
    (List.range planes).any fun j => (List.range (min 128 (m - mt * 128))).any fun r =>
      countNonfin ((d.drop ((j * m + mt * 128 + r) * n + nt * 128)).take (min 128 (n - nt * 128))) != 0
  else false

/-- Rows that hold a non-finite element. -/
def nonfinRows (l : List (List El)) : List Bool := l.map fun r => countNonfin r != 0

/-! ### The item -/

/-- What a product computed: per row, the elements of the outputs; elements of C and of a second output. -/
structure ProdOut where
  c : List OutEl
  second : List OutEl

/-- The outputs of a Twine product; `marks` are tiles whose residue check failed. -/
def State.twnCompute (s : State) (x : Item) (marks : List Nat) : ProdOut :=
  let o := x.twn
  let a := s.strm x 0
  let b := s.strm x 1 o.bFirst
  let ra := chunks o.k o.m (s.readStream x a).els
  let rb := s.twnRowsB x
  let dEls := if o.drole == 1 || o.drole == 2 then (s.readStream x (s.strm x 3)).els else []
  let part := if o.drole == 2 then chunks o.n o.m dEls else []
  let pa := groupPoison ra
  let pb := groupPoison rb
  let sc := (rn32 ((f32 a.hdr.coarse).mul (f32 b.hdr.coarse))).1
  let long := (s.strm x 2).fmt == 12
  let partPois := fun (mt nt : Nat) =>
    if o.drole == 2 then ((part.drop (mt * 128)).take 128).any fun r => ((r.drop (nt * 128)).take 128).any (·.poison)
    else if o.drole == 1 then ((dEls.drop (nt * 128)).take 128).any (·.poison)
    else false
  let pois := tabulate ((o.m + 127) / 128) fun mt => tabulate ((o.n + 127) / 128) fun nt =>
    (pa.getD mt false || pb.getD nt false || partPois mt nt, marks.contains (nt * ((o.m + 127) / 128) + mt))
  let both := (ra.zipIdx).flatMap fun r => (rb.zipIdx).map fun c =>
    let init := if o.drole == 2 then (((part.getD r.2 []).getD c.2 El.zero).v) else .fin 0 (-80)
    let l := toLong (twineSum init r.1 c.1)
    let p := ((pois.getD (r.2 / 128) []).getD (c.2 / 128) (false, false))
    let bias := if o.drole == 1 then some ((dEls.getD c.2 El.zero).v) else none
    -- a poisoned block makes L NaR, and a residue mismatch the tile's elements (R162, R182)
    let bad := p.1 || p.2
    let l := if bad then .nan else l
    let y := leaveAcc l sc bias
    ((if long then { v := l, poison := p.1 } else { v := y.1, sat := y.2, poison := bad } : OutEl),
      ({ v := y.1, sat := y.2, poison := bad } : OutEl))
  { c := both.map (·.1), second := if o.drole == 3 then both.map (·.2) else [] }

/-- Streamed rows, stall cycles and passes of every tile of a product, in order of tile number. -/
def State.twnCycles (s : State) (x : Item) : List (Nat × Nat × Nat × Nat) :=
  let o := x.twn
  let a := s.strm x 0
  let ch := twnChunk (s.strm x 1 o.bFirst).fmt o.two4
  let ra := chunks o.k o.m (s.readStream x a).els
  (tilesOf ra (s.twnRowsB x)).map fun t =>
    let c := tileCycles ch o.bmp t.2.1 t.2.2
    (t.1, c.1, c.2, tilePasses ch o.bmp o.k t.2.2)

/-- CHUNK of the last tile of each unit: its last chunk or pass, from 0 (R185). -/
def lastChunks (units : Nat) (cyc : List (Nat × Nat × Nat × Nat)) : List Nat :=
  (List.range units).map fun j =>
    (cyc.foldl (fun acc t => if t.1 % units == j then t.2.2.2 - 1 else acc) 0) % 2 ^ 17

/-- Tiles of a Twine product that read a non-finite element or partial (R184). -/
def State.twnNonfin (s : State) (x : Item) : List Nat :=
  let o := x.twn
  let d := if o.drole == 1 || o.drole == 2 then (s.readStream x (s.strm x 3)).els else []
  tilesMarked o.m o.n (nonfinRows (chunks o.k o.m (s.readStream x (s.strm x 0)).els)) (nonfinRows (s.twnRowsB x))
    (dNonfin o.drole 1 o.m o.n d)

/-- The units' counters after a product: streamed rows, stalls, tiles, the tiles `nf` that read a non-finite element, residue
mismatches (R177, R182, R184, R185). -/
def State.twnCount (s : State) (x : Item) (region : Nat) (cyc : List (Nat × Nat × Nat × Nat)) (marks nf : List Nat)
    (sparse : Nat) : State :=
  let us := unitList region x.units
  let s := cyc.foldl (fun s t =>
    let u := tileUnit us t.1
    let s := (s.bump .twnBusyCnt u 0 t.2.1).bump .twnStallCnt u 0 t.2.2.1
    if t.2.2.1 == 0 then s else s.flag .twnSts u 0 4) s
  let s := (us.zipIdx).foldl (fun s u =>
    s.setReg .twnTiles u.1 0 (BitVec.ofNat 32 ((cyc.filter fun t => t.1 % us.length == u.2).length))) s
  let s := nf.foldl (fun s t => s.flag .twnSts (tileUnit us t) 0 1) s
  let s := s.bump .rtrSparseCnt (regionDie region) 0 sparse
  marks.foldl (fun s t => s.residueEvent 1 .twnResCnt .twnSts (tileUnit us t) x.tag t) s

/-- Write the outputs of a product and make its result: C, then the second output when stream D is one. -/
def State.writeProduct (s : State) (x : Item) (p : ProdOut) (second : Bool) (nonfin zeroBlocks : Nat) : State × Result :=
  let c := s.strm x 2
  let oc := s.outCoarse x c
  let wc := oc.2.writeStream c x.round oc.1 (drawBits x c 0 p.c) x.tag
  let bad := p.c.any (·.poison)
  if second then
    let d := s.strm x 3
    let od := wc.st.outCoarse x d
    let wd := od.2.writeStream d x.round od.1 (drawBits x d 1 p.second) x.tag
    (wd.st, mkResult (wc.counts.add wd.counts) nonfin zeroBlocks (max (amaxOf p.c) (amaxOf p.second))
      (p.c.length + p.second.length) true (bad || wc.poison || wd.poison))
  else (wc.st, mkResult wc.counts nonfin zeroBlocks (if c.fmt == 12 then 0 else amaxOf p.c) p.c.length (c.fmt != 12) (bad || wc.poison))

/-- The run of a Twine MATMUL. -/
def State.twnRun (marks : List Nat) (s : State) (region : Nat) (x : Item) : RunOut :=
  let o := x.twn
  let a := s.strm x 0
  let b := s.strm x 1 o.bFirst
  let d := s.strm x 3
  let dIn := o.drole == 1 || o.drole == 2
  s.gated x (s.twnChecks x) ([(a, false), (b, o.two4)]) fun _ =>
    let p := s.twnCompute x marks
    let ia := s.readStream x a
    let ib := s.readStream x b o.two4
    let id := if dIn then (s.readStream x d).els else []
    let nonfin := countNonfin ia.els + countNonfin ib.els + countNonfin id
    let cyc := s.twnCycles x
    let nf := s.twnNonfin x
    let sparse := if o.two4 then s.sparseErrors x b else 0
    .ok (max (amaxOf p.c) (amaxOf p.second)) fun s x =>
      let r := s.writeProduct x p (o.drole == 3) nonfin (ia.zeroBlocks + ib.zeroBlocks)
      let badRes := !(marks.filter fun t => decide (t < tileCount o.m o.n)).isEmpty
      (r.1.twnCount x region cyc (marks.filter fun t => decide (t < tileCount o.m o.n)) nf sparse,
        { r.2 with poison := r.2.poison || badRes, stat := lastChunks (unitList region x.units).length cyc })

def takesTwine (x : Item) : Bool := x.engine == 0 && x.op == 1

end Sys2Proof.Machine
end

