-- ==== Sys2Proof/Machine/Hawser.lean ====
section
/-! DEFINITION. Hawser products in the reference order, the Turn buffer, and the stand-alone REBLOCK (06 R188 to R203). -/

namespace Sys2Proof.Machine

/-! ### Operands (R189) -/

structure HwsOp where
  m : Nat
  n : Nat
  k : Nat
  csum : Bool
  turnA : Bool
  turnB : Bool
  drole : Nat
  cbase : Nat
  tfmtA : Nat
  tfmtB : Nat
  deriving DecidableEq, Repr

def Item.hws (x : Item) : HwsOp :=
  let mode := x.opnd 0x73 1
  let t := x.opnd 0x77 1
  ⟨x.opnd 0x68 4, x.opnd 0x6C 4, x.opnd 0x70 3 + 1, bit mode 7, bit mode 5, bit mode 6, bits mode 3 2, x.opnd 0x74 3,
    t % 16, t / 16⟩

/-- Formats the array takes, and those of a Turn-fed operand (R191). -/
def hwsFmtsIn : List Nat := [2, 3, 4, 5, 6, 7, 8, 9]
def hwsTfmts : List Nat := [5, 6, 7, 8, 9]

/-- Significance S of a class (R190). -/
def hwsSig (cls : Nat) : Nat := if cls == 2 then 47 else if cls == 1 then 21 else 7

/-! ### Checks (R188, R189, R191) -/

/-- The coarse factor of an operand as it reaches the array, as an FP32 code (R193, R200). -/
def opCoarse (m : Strm) (turn : Bool) (tfmt : Nat) : Nat :=
  if !m.scaled || (turn && !fmtScaled tfmt) then 0x3F800000 else m.hdr.coarse

/-- The block size an operand imposes on K, 1 when it is unscaled at the array. -/
def opBlock (m : Strm) (turn : Bool) (tfmt : Nat) : Nat :=
  if turn then (if fmtScaled tfmt then m.nb else 1) else if m.scaled then m.nb else 1

def State.hwsAdmit (s : State) (x : Item) : Option Bad :=
  let o := x.hws
  let a := s.strm x 0
  let b := s.strm x 1
  let c := s.strm x 2
  if x.resultSlot != 0xFFFF then some (9, 0, 0)
  else
    match s.useCheck x [.yes, .yes, .yes, if o.drole == 0 then .no else .yes] (fun _ => 1) (o.drole == 3) with
    | some e => some e
    | none =>
      if (!o.turnA && o.tfmtA != 0) || (!o.turnB && o.tfmtB != 0) then some (9, 0, 0)
      else if o.turnA && !hwsTfmts.contains o.tfmtA then some (3, 0, 0)
      else if o.turnB && !hwsTfmts.contains o.tfmtB then some (3, 1, 0)
      else if o.m == 0 || o.n == 0 || 2 ^ 24 < o.n || o.k < 16 || o.k % 16 != 0 then some (9, 0, 0)
      else if o.k % opBlock a o.turnA o.tfmtA != 0 then some (9, 0, 0)
      else if o.k % opBlock b o.turnB o.tfmtB != 0 then some (9, 1, 0)
      else if o.turnA && a.scaled && o.m % a.nb != 0 then some (9, 0, 0)
      else if o.turnB && b.scaled && o.n % b.nb != 0 then some (9, 1, 0)
      else if o.drole != 2 && o.cbase != 0 then some (9, 0, 0)
      else if 32768 < o.cbase + (o.k + 511) / 512 then some (9, 3, 0)
      else if o.csum && (o.k % 512 != 0 || o.drole % 2 != 0) then some (9, 2, 0)
      else if !o.csum && c.scaled && o.n % c.nb != 0 then some (9, 2, 0)
      else if !coarseProductOk (opCoarse a o.turnA o.tfmtA) (opCoarse b o.turnB o.tfmtB) then some (9, 0, 0)
      else none

def State.hwsChecks (s : State) (x : Item) : List (Option Bad) :=
  let o := x.hws
  let a := s.strm x 0
  let b := s.strm x 1
  let c := s.strm x 2
  let d := s.strm x 3
  let nc := (o.k + 511) / 512
  [ s.entsCheck a hwsFmtsIn, s.entsCheck b hwsFmtsIn
  , s.entsCheck c (if o.csum then [9] else fmts0B) false true
  , if o.drole == 0 then none else s.entsCheck d (if o.drole == 3 then fmts0B else [9]) false (o.drole == 3)
  , sizeCheck a false (o.m * o.k), sizeCheck b false (o.n * o.k)
  , sizeCheck c false (if o.csum then nc * o.m * o.n else o.m * o.n)
  , if o.drole == 1 then sizeCheck d false o.n else if o.drole == 2 then sizeCheck d false (o.cbase * o.m * o.n)
    else if o.drole == 3 then sizeCheck d false (o.m * o.n) else none
  , if o.drole == 3 && d.scaled && o.n % d.nb != 0 then some (9, 3, 0) else none
  , overlapCheck x ([a, b] ++ if o.drole == 1 || o.drole == 2 then [d] else []) ([c] ++ if o.drole == 3 then [d] else []) ]

/-! ### The Turn buffer (R200 to R202) -/

/-- Rows into columns: n columns. -/
def transpose {β : Type} (n : Nat) (rows : List (List β)) : List (List β) :=
  (List.range n).map fun i => rows.filterMap fun r => r[i]?

/-- A target block: its elements, and how many it flushed and saturated. -/
structure TurnBlk where
  els : List El
  flush : Nat
  sat : Nat

/-- Convert one target block of a scaled format; `zskip`: its elements' entries have ZSKIP set. -/
def turnBlock (tfmt mode : Nat) (zskip : Bool) (xs : List OutEl) : TurnBlk :=
  let b := writeBlock tfmt mode false (1, 0) xs
  let poison := xs.any (·.poison)
  { els := if bit b.byte 7 then xs.map fun _ => { v := .zero, z := true, poison := poison, skip := zskip }
      else decodeBlock tfmt xs.length false b.byte b.codes [] poison
    flush := b.counts.flushed, sat := b.counts.saturated }

/-- Convert elements to an unscaled format, times the source's coarse scale. -/
def turnPlain (tfmt mode : Nat) (cs : XV) (xs : List OutEl) : TurnBlk :=
  let ys := xs.map fun x => let y := { x with v := x.v.mul cs }; (y, convCode tfmt mode x.r y.v)
  { els := ys.map fun y => { v := (codeVal tfmt y.2.1).getD .nan, z := false, poison := y.1.poison }
    flush := (ys.map fun y => (elCounts y.1 y.2.1 { sat := y.2.2 }).flushed).sum
    sat := (ys.map fun y => (elCounts y.1 y.2.1 { sat := y.2.2 }).saturated).sum }

/-- The source of a Turn-fed operand, transposed: `rows` source rows of `cols` elements, each with the random bits of its
source place (R201). -/
def State.turnSource (s : State) (x : Item) (m : Strm) (draw rows cols : Nat) : List (List OutEl) :=
  let els := (s.readStream x m).els
  let os := (els.zip m.indexes).map fun p =>
    ({ v := p.1.v, poison := p.1.poison
       r := if x.round == mSR then x.word m.hdr.tag p.2 draw % 16 else 0 } : OutEl)
  transpose cols (chunks cols rows os)

/-- The coarse scale of a source as a value, 1 when it is unscaled. -/
def srcCoarse (m : Strm) : XV := if m.scaled then f32 m.hdr.coarse else .ofInt 1

/-- ZSKIP of the entry of every element of a stream, transposed as the elements are. -/
def Strm.turnZskip (m : Strm) (rows cols : Nat) : List (List Bool) :=
  transpose cols (chunks cols rows (m.ents.flatMap fun e => List.replicate e.elems e.zskip))

/-- A Turn-fed operand as the array receives it: rows of converted blocks. -/
def State.turnRows (s : State) (x : Item) (m : Strm) (tfmt draw rows cols : Nat) : List (List TurnBlk) :=
  ((s.turnSource x m draw rows cols).zip (m.turnZskip rows cols)).map fun r =>
    if fmtScaled tfmt then
      ((chunks m.nb (rows / m.nb) r.1).zip (chunks m.nb (rows / m.nb) r.2)).map fun b => turnBlock tfmt x.round (b.2.all id) b.1
    else [turnPlain tfmt x.round (srcCoarse m) r.1]

/-- An operand as it reaches the array: rows of K elements, and per row the flushes and saturations of its conversion. -/
structure Operand where
  rows : List (List El)
  turn : List (Nat × Nat)

/-- Stream m as an operand of n rows of k elements. -/
def State.operand (s : State) (x : Item) (m : Strm) (turn : Bool) (tfmt draw n k : Nat) : Operand :=
  if turn then
    let t := s.turnRows x m tfmt draw k n
    { rows := t.map fun r => r.flatMap (·.els)
      turn := t.map fun r => ((r.map (·.flush)).sum, (r.map (·.sat)).sum) }
  else { rows := chunks k n (s.readStream x m).els, turn := [] }

/-! ### The reference order (R193, R194, R197) -/

/-- Exponent of the leading bit of a finite non-zero value. -/
def leadExp (m e : Int) : Int := (Nat.log2 m.natAbs : Int) + e

/-- The truncated sum of one group of products (exact). -/
def groupSum (sig : Nat) (ps : List XV) : XV :=
  let nz := ps.filterMap fun p => match p with | .fin m e => if m == 0 then none else some (m, e) | _ => none
  match nz with
  | [] => .zero
  | p :: _ =>
    let e := nz.foldl (fun a q => max a (leadExp q.1 q.2)) (leadExp p.1 p.2)
    let qe : Int := e - sig - 3
    let t := nz.foldl (fun (acc : Int) q =>
      let sh := q.2 - qe
      let mag : Nat := if 0 ≤ sh then q.1.natAbs * pow2 sh else q.1.natAbs / pow2 (-sh)
      if q.1 < 0 then acc - mag else acc + mag) 0
    .fin t qe

/-- One chunk's accumulator: groups of 16 products in ascending order; whether an add saturated. NaN when an element read
is non-finite. -/
def chunkSum (sig : Nat) (ra rb : List El) : XV × Bool :=
  if ra.any (fun e => !e.v.isFinite) || rb.any (fun e => !e.v.isFinite) then (.nan, false)
  else
    let ps := (ra.zip rb).map fun p => p.1.v.mul p.2.v
    (chunks 16 ((ps.length + 15) / 16) ps).foldl (fun acc g =>
      let gs := groupSum sig g
      if g.all (·.isZero) then acc
      else let r := rn32 (acc.1.add gs); (r.1, acc.2 || r.2)) (.zero, false)

/-- One level of the fixed tree. -/
def treeLevel : List (XV × Bool) → List (XV × Bool)
  | a :: b :: l => (let r := rn32 (a.1.add b.1); (r.1, r.2 || a.2 || b.2)) :: treeLevel l
  | l => l

/-- tree of R194: levels until one value is left (32,768 chunks need 15). -/
def treeSum (fuel : Nat) (l : List (XV × Bool)) : XV × Bool :=
  match fuel with
  | 0 => l.headD (.zero, false)
  | n + 1 => if l.length ≤ 1 then l.headD (.zero, false) else treeSum n (treeLevel l)

/-- The chunk sums of one output element. -/
def chunkSums (sig k : Nat) (ra rb : List El) : List (XV × Bool) :=
  ((chunks 512 ((k + 511) / 512) ra).zip (chunks 512 ((k + 511) / 512) rb)).map fun p => chunkSum sig p.1 p.2

/-- y from the tree's result (R194). -/
def hawserY (t : XV × Bool) (sc : XV) (bias : Option XV) : XV × Bool :=
  match t.1 with
  | .fin _ _ =>
    let y := rn32 (t.1.mul sc)
    match bias with
    | some b => let z := rn32 (y.1.add b); (z.1, t.2 || y.2 || z.2)
    | none => (y.1, t.2 || y.2)
  | _ => (.nan, t.2)

/-! ### The item -/

/-- Everything a product needs, read. -/
structure HwsIn where
  a : Operand
  b : Operand
  d : List El
  sig : Nat
  cls : Nat

def State.hwsRead (s : State) (x : Item) : HwsIn :=
  let o := x.hws
  let f := s.hwsFmts x
  let cls := hwsClass f.1 f.2
  { a := s.operand x (s.strm x 0) o.turnA o.tfmtA 2 o.m o.k
    b := s.operand x (s.strm x 1) o.turnB o.tfmtB 3 o.n o.k
    d := if o.drole == 1 || o.drole == 2 then (s.readStream x (s.strm x 3)).els else []
    sig := hwsSig cls, cls := cls }

/-- Poison of tile (mt, nt): of its rows, of chunk sums or bias read for it, or of a failed residue check. -/
def hwsTilePoison (o : HwsOp) (i : HwsIn) (marks : List Nat) : List (List Bool) :=
  let pa := groupPoison i.a.rows
  let pb := groupPoison i.b.rows
  let planes := if o.drole == 2 then chunks (o.m * o.n) o.cbase i.d else []
  tabulate ((o.m + 127) / 128) fun mt => tabulate ((o.n + 127) / 128) fun nt =>
    pa.getD mt false || pb.getD nt false || marks.contains (nt * ((o.m + 127) / 128) + mt)
      || (if o.drole == 1 then ((i.d.drop (nt * 128)).take 128).any (·.poison)
          else planes.any fun p => (((chunks o.n o.m p).drop (mt * 128)).take 128).any fun r =>
            ((r.drop (nt * 128)).take 128).any (·.poison))

/-- Outputs of a Hawser product, and the tile of every output element whose reduction saturated at an rn of R194, with whether an
accumulator or tree add did. -/
def hwsCompute (o : HwsOp) (i : HwsIn) (sc : XV) (marks : List Nat) : ProdOut × List (Nat × Bool) :=
  let pois := hwsTilePoison o i marks
  let nc := (o.k + 511) / 512
  let planes := if o.drole == 2 then chunks (o.m * o.n) o.cbase i.d else []
  let cell := (i.a.rows.zipIdx).flatMap fun r => (i.b.rows.zipIdx).map fun c =>
    (chunkSums i.sig o.k r.1 c.1, r.2, c.2, (pois.getD (r.2 / 128) []).getD (c.2 / 128) false)
  if o.csum then
    let c := (List.range nc).flatMap fun j => cell.map fun e =>
      let v := e.1.getD j (.zero, false)
      (({ v := v.1, sat := v.2, poison := e.2.2.2 } : OutEl), tileOf o.m e.2.1 e.2.2.1)
    ({ c := c.map (·.1), second := [] }, (c.filter (·.1.sat)).map fun e => (e.2, true))
  else
    let out := cell.map fun e =>
      let before := planes.map fun p => (((p[e.2.1 * o.n + e.2.2.1]?).getD El.zero).v, false)
      let t := treeSum 16 (before ++ e.1)
      let t := if t.1.isFinite then t else (.nan, t.2)
      let y := hawserY t sc (if o.drole == 1 then some ((i.d.getD e.2.2.1 El.zero).v) else none)
      (({ v := y.1, sat := y.2, poison := e.2.2.2 } : OutEl), t.2, tileOf o.m e.2.1 e.2.2.1)
    let c := out.map (·.1)
    ({ c := c, second := if o.drole == 3 then c else [] }, (out.filter (·.1.sat)).map fun e => (e.2.2, e.2.1))

/-- Streamed rows of one tile (R196, R199, R205). -/
def hwsTileRows (cls k : Nat) (rows cols : List (List El)) : Nat :=
  let half := hwsHalf cls k
  let kp := if half then hwsKp cls / 2 else hwsKp cls
  ((List.range ((k + kp - 1) / kp)).map fun p =>
    if cols.all (fun c => rowSkipped (chunkPart kp p c)) then 0
    else
      let n := (rows.filter fun r => !rowSkipped (chunkPart kp p r)).length
      if half then (n + 1) / 2 else n).sum

/-- Rows of A, and of B, that a unit's tiles read, by unit position j of k units. -/
def unitRows (mt nt k j : Nat) (side : Bool) : List Nat :=
  ((List.range (mt * nt)).filter fun t => t % max k 1 == j).map (fun t => if side then t / mt else t % mt) |>.eraseDups

/-- Turn tiles of a reduction of k positions: Kt = max(Kp, 32) source rows each (R200). -/
def turnTilesOf (cls k : Nat) : Nat := (k + max (hwsKp cls) 32 - 1) / max (hwsKp cls) 32

/-- TTILES of each of n units after a product: the Turn tiles of the operands its tiles read (R210). -/
def turnTiles (o : HwsOp) (cls n : Nat) : List Nat :=
  let mt := (o.m + 127) / 128
  let nt := (o.n + 127) / 128
  (List.range n).map fun j =>
    (b2n o.turnA * (unitRows mt nt n j false).length + b2n o.turnB * (unitRows mt nt n j true).length) * turnTilesOf cls o.k

/-- Rows of an operand that hold a non-finite element, as they are read: before any Turn conversion. -/
def State.operandNonfin (s : State) (x : Item) (m : Strm) (turn : Bool) (rows : List (List El)) (draw n k : Nat) : List Bool :=
  if turn then (s.turnSource x m draw k n).map fun r => r.any fun e => !e.v.isFinite else nonfinRows rows

/-- Tiles of a Hawser product that read a non-finite element (R197). -/
def State.hwsNonfin (s : State) (x : Item) (o : HwsOp) (i : HwsIn) : List Nat :=
  tilesMarked o.m o.n (s.operandNonfin x (s.strm x 0) o.turnA i.a.rows 2 o.m o.k)
    (s.operandNonfin x (s.strm x 1) o.turnB i.b.rows 3 o.n o.k) (dNonfin o.drole o.cbase o.m o.n i.d)

/-- HWS_SAT_CNT and ACC_SAT (R197, R209): elements whose reduction saturated, by tile, and whether an accumulator or tree add did. -/
def State.hwsSats (s : State) (us : List Nat) (sats : List (Nat × Bool)) : State :=
  sats.foldl (fun s t => (s.bump .hwsSatCnt (tileUnit us t.1) 0 1).flag .hwsSts (tileUnit us t.1) 0 (4 * b2n t.2)) s

/-- The units' registers after a product: `nf` are the tiles that read a non-finite element (R197, R198, R202, R209, R210). -/
def State.hwsCount (s : State) (x : Item) (region : Nat) (o : HwsOp) (i : HwsIn) (cyc : List (Nat × Nat)) (marks : List Nat)
    (sats : List (Nat × Bool)) (nf : List Nat) : State :=
  let us := unitList region x.units
  let mt := (o.m + 127) / 128
  let nt := (o.n + 127) / 128
  let s := cyc.foldl (fun s t => s.bump .hwsBusyCnt (tileUnit us t.1) 0 t.2) s
  let s := s.hwsSats us sats
  let s := nf.foldl (fun s t => s.flag .hwsSts (tileUnit us t) 0 1) s
  let s := (us.zipIdx).foldl (fun s u =>
    let s := s.setReg .hwsTiles u.1 0 (BitVec.ofNat 32 ((List.range (mt * nt)).filter fun t => t % us.length == u.2).length)
    let add := fun (side : Bool) (l : List (Nat × Nat)) =>
      ((unitRows mt nt us.length u.2 side).flatMap fun g => (l.drop (g * 128)).take 128)
    let t := add false i.a.turn ++ add true i.b.turn
    let fl := (t.map (·.1)).sum
    let sa := (t.map (·.2)).sum
    let bytes := ((unitRows mt nt us.length u.2 false).map fun g => ((i.a.turn.drop (g * 128)).take 128).length * o.k
          * fmtBits o.tfmtA / 8).sum
      + ((unitRows mt nt us.length u.2 true).map fun g => ((i.b.turn.drop (g * 128)).take 128).length * o.k
          * fmtBits o.tfmtB / 8).sum
    let s := ((s.bump .trnFlushCnt u.1 0 fl).bump .trnSatCnt u.1 0 sa).bump .trnBusyCnt u.1 0 ((bytes + 127) / 128)
    s.flag .trnSts u.1 0 ((if fl == 0 then 0 else 2) + (if sa == 0 then 0 else 1))) s
  marks.foldl (fun s t => s.residueEvent 2 .hwsResCnt .hwsSts (tileUnit us t) x.tag t) s

/-- The run of a Hawser MATMUL. -/
def State.hwsRun (marks : List Nat) (s : State) (region : Nat) (x : Item) : RunOut :=
  let o := x.hws
  let a := s.strm x 0
  let b := s.strm x 1
  s.gated x (s.hwsChecks x) [(a, false), (b, false)] fun _ =>
    let i := s.hwsRead x
    let marks := marks.filter fun t => decide (t < tileCount o.m o.n)
    let sc := (rn32 ((f32 (opCoarse a o.turnA o.tfmtA)).mul (f32 (opCoarse b o.turnB o.tfmtB)))).1
    let pc := hwsCompute o i sc marks
    let p := pc.1
    let ia := s.readStream x a
    let ib := s.readStream x b
    let nonfin := countNonfin ia.els + countNonfin ib.els + countNonfin i.d
    let nf := s.hwsNonfin x o i
    let cyc := (tilesOf i.a.rows i.b.rows).map fun t =>
      (t.1, hwsTileRows i.cls o.k t.2.1 t.2.2)
    .ok (max (amaxOf p.c) (amaxOf p.second)) fun s x =>
      let r := s.writeProduct x p (o.drole == 3) nonfin (ia.zeroBlocks + ib.zeroBlocks)
      let us := (unitList region x.units).length
      (r.1.hwsCount x region o i cyc marks pc.2 nf,
        { r.2 with poison := r.2.poison || !marks.isEmpty
                   stat := List.replicate us ((o.k + 511) / 512 - 1), turn := turnTiles o i.cls us })

def takesHawser (x : Item) : Bool := x.engine == 1 && x.op == 1

/-- HAWSER_MATMUL (R194): the item in the slot runs on its Hawser arrays; `residue` names tiles whose residue check
failed. -/
def execHawserMatmul (region slot : Nat) (residue : List Nat) (s : State) : Host.Outcome State Fault Refusal :=
  .next (s.runItem region slot takesHawser (State.hwsRun residue))

/-! ### REBLOCK (R203) -/

structure RebOp where
  rows : Nat
  cols : Nat
  tfmt : Nat
  deriving DecidableEq, Repr

def Item.reb (x : Item) : RebOp := ⟨x.opnd 0x68 4, x.opnd 0x6C 4, x.opnd 0x77 1 % 16⟩

def State.rebAdmit (s : State) (x : Item) : Option Bad :=
  let o := x.reb
  let a := s.strm x 0
  let c := s.strm x 2
  if x.op != 1 then some (1, 0, 0)
  else if x.resultSlot != 0xFFFF then some (9, 0, 0)
  else
    match s.useCheck x [.yes, .no, .yes, .no] with
    | some e => some e
    | none =>
      if 12 ≤ o.tfmt then some (3, 2, 0)
      else if o.rows == 0 || o.cols == 0 then some (9, 0, 0)
      else if a.scaled && o.cols % a.nb != 0 then some (9, 0, 0)
      else if fmtScaled o.tfmt && o.rows % a.nb != 0 then some (9, 2, 0)
      else if fmtScaled o.tfmt && (c.hdr.coarse != a.hdr.coarse || c.nb != a.nb) then some (9, 2, 0)
      else none

/-- Data-entry checks of a REBLOCK. TFMT 0xA is scaled INT8 (04 R123), so its stream C carries block scales. -/
def State.rebChecks (s : State) (x : Item) : List (Option Bad) :=
  let o := x.reb
  let a := s.strm x 0
  let c := s.strm x 2
  [ if fmtScaled o.tfmt && !c.scaled then some (3, 2, 1) else none
  , s.entsCheck a hwsFmtsIn, s.entsCheck c [o.tfmt] false true, sizeCheck a false (o.rows * o.cols), sizeCheck c false (o.rows * o.cols)
  , overlapCheck x [a] [c] ]

/-- The run of a REBLOCK. -/
def State.rebRun (s : State) (region : Nat) (x : Item) : RunOut :=
  let o := x.reb
  let a := s.strm x 0
  let c := s.strm x 2
  s.gated x (s.rebChecks x) [(a, false)] fun _ =>
    let src := (s.turnSource x a 2 o.rows o.cols).flatMap id
    let cs := srcCoarse a
    let y := src.map fun e => { e with v := e.v.mul cs }
    let out := if c.scaled then src else y
    let ia := s.readStream x a
    .ok (amaxOf y) fun s x =>
      let w := s.writeStream c x.round (if c.scaled then 0x3F800000 else c.hdr.coarse) out x.tag
      let us := unitList region x.units
      let u := us.headD 0
      let st := ((w.st.bump .trnFlushCnt u 0 w.counts.flushed).bump .trnSatCnt u 0 w.counts.saturated).bump .trnBusyCnt u 0
        ((o.rows * o.cols * fmtBits o.tfmt / 8 + 127) / 128)
      let st := st.flag .trnSts u 0 ((if w.counts.flushed == 0 then 0 else 2) + (if w.counts.saturated == 0 then 0 else 1))
      let cls := hwsClass o.tfmt o.tfmt
      (st, { mkResult w.counts (countNonfin ia.els) ia.zeroBlocks (amaxOf y) out.length true (out.any (·.poison) || w.poison) with
               turn := [turnTilesOf cls o.rows * ((o.cols + 127) / 128)] })

/-- REBLOCK (R203): the item in the slot writes the transpose of stream A. -/
def execReblock (region slot : Nat) (s : State) : Host.Outcome State Fault Refusal :=
  .next (s.runItem region slot (fun x => x.engine == 3 && x.op == 1) State.rebRun)

end Sys2Proof.Machine
end

