-- ==== Sys2Proof/Machine/Vector.lean ====
section
/-! DEFINITION. Drawing items of the Vector engine: MASK, DROPOUT, FILL_UNIFORM, FILL_NORMAL4 (08 R261 to R263), and
PACK_SPARSE (09 R276 to R278). -/

namespace Sys2Proof.Machine

/-! ### Operands of the drawing items (R261) -/

structure DrawOp where
  m : Nat
  n : Nat
  draw : Nat
  a0 : Nat
  a1 : Nat
  deriving DecidableEq, Repr

def Item.drw (x : Item) : DrawOp := ⟨x.opnd 0x68 4, x.opnd 0x6C 3 + 1, x.opnd 0x6F 1, x.opnd 0x70 4, x.opnd 0x74 4⟩

/-- PSRC of a MASK. -/
def DrawOp.psrc (o : DrawOp) : Bool := bit o.a0 16

/-- Stream A is read: DROPOUT, and MASK with PSRC. -/
def Item.drwReads (x : Item) : Bool := x.op == 0x401 || (x.op == 0x400 && x.drw.psrc)

/-- The conditions of R263 on the parameters. -/
def drawParamsOk (op a0 a1 : Nat) : Bool :=
  match op with
  | 0x400 => decide (a0 < 2 ^ 17) && a1 == 0
  | 0x401 => decide (a0 < 2 ^ 16) && (f32 a1).isFinite
  | 0x402 => (f32 a0).isFinite && (f32 a1).isFinite && XV.le (f32 a0) (f32 a1)
  | _ => (f32 a0).isFinite && (f32 a1).isFinite && XV.le .zero (f32 a1)

/-- The checks of a drawing item at admission. -/
def State.drwAdmit (s : State) (x : Item) : Option Bad :=
  let o := x.drw
  let c := s.strm x 2
  if x.resultSlot != 0xFFFF then some (9, 0, 0)
  else
    match s.useCheck x [if x.drwReads then .yes else .no, .no, .yes, .opt] with
    | some e => some e
    | none =>
      if x.stream 3 != 0 && x.streamCount 3 != 1 then some (2, 3, 0)
      else if o.m == 0 || o.draw < 0x80 || !drawParamsOk x.op o.a0 o.a1 then some (9, 0, 0)
      else if c.scaled && o.n % c.nb != 0 then some (9, 2, 0)
      else none

def State.drwChecks (s : State) (x : Item) : List (Option Bad) :=
  let o := x.drw
  let a := s.strm x 0
  let c := s.strm x 2
  let n := o.m * o.n
  [ if x.drwReads then s.entsCheck a (if x.op == 0x400 then [11] else fmts0B) else none
  , s.entsCheck c fmts0B false true
  , if x.drwReads then sizeCheck a false n else none
  , sizeCheck c false n
  , overlapCheck x (if x.drwReads then [a] else []) [c] ]

/-! ### The draws (R262) -/

/-- z of the sum-of-four draw. -/
def drawZ (w : Nat) : XV :=
  let n : Int := (w % 2 ^ 32 + w / 2 ^ 32 % 2 ^ 32 + w / 2 ^ 64 % 2 ^ 32 + w / 2 ^ 96 : Nat)
  (rn32 (((rn32 (.ofInt (n + 2 - 2 ^ 33))).1.scale (-32)).mul (f32 0x3FDDB3D7))).1

/-- One element of a drawing item from its Bowline word and, where it reads stream A, the value read. -/
def drawEl (o : DrawOp) (op w : Nat) (a : El) : OutEl :=
  match op with
  | 0x400 =>
    let p : Int := match a.v with | .fin m e => if 0 ≤ e then m * (pow2 e : Int) else 0 | _ => 0
    let pc : Nat := if o.psrc then (if p < 0 then 0 else if 65535 < p then 65535 else p.toNat) else o.a0 % 65536
    { v := .ofInt (if bits w 31 16 < pc then 1 else 0)
      clip := o.psrc && (decide (p < 0) || decide (65535 < p))
      poison := o.psrc && a.poison }
  | 0x401 =>
    if bits w 31 16 < o.a0 % 65536 then
      let y := rn32 (a.v.mul (f32 o.a1))
      { v := y.1, sat := y.2, poison := a.poison }
    else { v := .zero, poison := a.poison }
  | 0x402 =>
    let d := rn32 ((f32 o.a1).sub (f32 o.a0))
    let u := XV.fin (bits w 63 40) (-24)
    let p := rn32 (u.mul d.1)
    let y := rn32 (p.1.add (f32 o.a0))
    { v := y.1, sat := d.2 || p.2 || y.2 }
  | _ =>
    let p := rn32 ((drawZ w).mul (f32 o.a1))
    let y := rn32 (p.1.add (f32 o.a0))
    { v := y.1, sat := p.2 || y.2 }

/-- The inputs of a drawing item as values: stream A's elements times its coarse scale (04 R132). None where A is not read. -/
def State.drwIns (s : State) (x : Item) : List El :=
  if x.drwReads then
    let a := s.strm x 0
    (s.readStream x a).els.map fun e => { e with v := e.v.mul (srcCoarse a) }
  else []

/-- NaNs that an invalid operation makes from finite operands, among the outputs of a drawing item: none of its operations
is invalid on finite operands. An infinite x times a zero scale is a non-finite input, counted where it is read. -/
def State.drwRun (s : State) (_region : Nat) (x : Item) : RunOut :=
  let o := x.drw
  let a := s.strm x 0
  let c := s.strm x 2
  s.gated x (s.drwChecks x) (if x.drwReads then [(a, false)] else []) fun _ =>
    let key := if x.stream 3 == 0 then c.hdr.tag else (s.hdr x 3).tag
    let ia := if x.drwReads then s.readStream x a else { els := [], zeroBlocks := 0 }
    let ins := s.drwIns x
    let ys := ((c.indexes).zipIdx).map fun p => drawEl o x.op (x.word key p.1 o.draw) (ins.getD p.2 El.zero)
    .ok (amaxOf ys) fun s x =>
      let oc := s.outCoarse x c
      let w := oc.2.writeStream c x.round oc.1 (drawBits x c 0 ys) x.tag
      (w.st, mkResult w.counts (countNonfin ia.els) ia.zeroBlocks (amaxOf ys) ys.length true (ys.any (·.poison) || w.poison))

def takesDraw (op : Nat) (x : Item) : Bool := x.engine == 2 && x.op == op

/-- MASK (R262): keep or drop, 1 or 0. -/
def execMask (region slot : Nat) (s : State) : Host.Outcome State Fault Refusal :=
  .next (s.runItem region slot (takesDraw 0x400) State.drwRun)

/-- DROPOUT (R262): kept inputs scaled, dropped ones +0. -/
def execDropout (region slot : Nat) (s : State) : Host.Outcome State Fault Refusal :=
  .next (s.runItem region slot (takesDraw 0x401) State.drwRun)

/-- FILL_UNIFORM (R262). -/
def execFillUniform (region slot : Nat) (s : State) : Host.Outcome State Fault Refusal :=
  .next (s.runItem region slot (takesDraw 0x402) State.drwRun)

/-- FILL_NORMAL4 (R262). -/
def execFillNormal4 (region slot : Nat) (s : State) : Host.Outcome State Fault Refusal :=
  .next (s.runItem region slot (takesDraw 0x403) State.drwRun)

/-! ### PACK_SPARSE (09 R276 to R278) -/

structure PackOp where
  rows : Nat
  k : Nat
  sparse : Nat
  keep : Bool
  deriving DecidableEq, Repr

def Item.pack (x : Item) : PackOp := ⟨x.opnd 0x68 4, x.opnd 0x6C 3, x.opnd 0x6F 1 % 4, bit (x.opnd 0x6F 1) 2⟩

def PackOp.two4 (o : PackOp) : Bool := bit o.sparse 0
def PackOp.bmp (o : PackOp) : Bool := bit o.sparse 1
def PackOp.cFirst (o : PackOp) : Nat := if o.bmp then 2 else 1

/-- The checks of a PACK_SPARSE at admission. The coarse scale that C is written with, its header's or the one its tracker supplies (07
R219), is A's (R277; log entry 104). -/
def State.packAdmit (s : State) (x : Item) : Option Bad :=
  let o := x.pack
  let a := s.strm x 0
  let c := s.strm x 2 o.cFirst
  let bm := parseBmp (s.listEntry x 2 1)
  if x.resultSlot != 0xFFFF then some (9, 0, 0)
  else
    match s.useCheck x [.yes, .no, .yes, if o.keep then .yes else .no] (fun k => if k == 2 then o.cFirst else 1) with
    | some e => some e
    | none =>
      if o.sparse == 0 || o.rows == 0 || o.k == 0 then some (9, 0, 0)
      else if o.bmp && bm.addr % 8 != 0 then some (2, 2, 1)
      else if o.k % a.nb != 0 then some (9, 0, 0)
      else if s.usedCoarse x c != a.hdr.coarse || c.nb != a.nb || c.fmt != a.fmt then some (9, 2, 0)
      else if o.bmp && (a.nb != 32 || o.rows % 32 != 0 || bm.ktiles * 32 != o.k || bm.groups * 32 != o.rows)
      then some (9, 2, 1)
      else none

/-- A source block: codes, scale byte, outlier entries, element values and poison. -/
structure SrcBlk where
  codes : List Nat
  byte : Nat
  outs : List Nat
  els : List El
  deriving DecidableEq, Repr

/-- The blocks of a dense stream in order. -/
def State.srcBlocks (s : State) (x : Item) (m : Strm) : List SrcBlk :=
  m.ents.flatMap fun e =>
    let bb := blockBytes e.fmt e.nb false
    let n := e.len / bb
    (List.range e.rows).flatMap fun r =>
      let pois := s.rowPoison x m e false r
      (List.range n).map fun j =>
      let b := e.blkidx + r * n + j
      let a := e.addr + r * e.stride + bb * j
      let byte := (s.ib x (e.lineAddr m.hdr b + 8 + b % 56)).toNat
      { codes := if bit byte 7 then List.replicate e.nb 0 else unpackCodes (fmtBits e.fmt) e.nb (s.ibs x a bb)
        byte := byte, outs := if m.esc then s.blkOutliers x m.hdr e b else []
        els := s.readBlock x m e false b a (pois.getD (bb * j / max 1 (e.fetchBytes false)) false) }

/-- The two positions a group of four keeps: escapes, which are never pruned, then the greatest decoded magnitudes, ties to the lower
position, in ascending order (R276). -/
def keptOf (g : List El) : List Nat :=
  let ge := fun (a b : El × Nat) =>
    if a.1.esc != b.1.esc then a.1.esc
    else match a.1.v.abs, b.1.v.abs with
    | .fin m e, .fin n f => if leF n f m e then true else false
    | _, .nan => false
    | _, _ => true
  (((g.zipIdx).mergeSort ge).take 2).map (·.2) |>.mergeSort (· ≤ ·)

/-- Kept positions of a block. -/
def keptPos (els : List El) : List Nat :=
  ((chunks 4 (els.length / 4) els).zipIdx).flatMap fun g => (keptOf g.1).map fun i => 4 * g.2 + i

/-- The bytes of a stored block. -/
def packBlock (fmt nb : Nat) (two4 : Bool) (b : SrcBlk) : List Byte :=
  if two4 then
    let ks := keptPos b.els
    let w := fmtBits fmt
    let codes := (ks.zipIdx).foldl (fun acc p => acc + b.codes.getD p.1 0 * 2 ^ (w * p.2)) 0
    let idx := (ks.zipIdx).foldl (fun acc p => acc + p.1 % 4 * 2 ^ (2 * p.2)) 0
    leBytes (blockBytes fmt nb true) (codes + idx * 2 ^ (w * (nb / 2)))
  else packCodes (fmtBits fmt) b.codes

/-- Counts over the dense-equivalent elements of a stored block, or of one that is not stored (R278). -/
def packCounts (two4 stored : Bool) (b : SrcBlk) : Counts :=
  let ks := keptPos b.els
  let gone := (b.els.zipIdx).filter fun p => !stored || (two4 && !ks.contains p.2)
  let kept := (b.els.zipIdx).filter fun p => stored && !(two4 && !ks.contains p.2)
  { clipped := (gone.filter fun p => !p.1.v.isZero).length
    zeros := gone.length + (kept.filter fun p => p.1.v.isZero).length
    escaped := (kept.filter fun p => p.1.esc).length }

/-- Write packed blocks to a stream in order, with their scale bytes and outlier entries. -/
def State.writePacked (s : State) (m : Strm) (two4 : Bool) (l : List (SrcBlk × List Byte)) : State :=
  (m.ents.foldl (fun (acc : State × List (SrcBlk × List Byte)) e =>
    let bpr := e.len / blockBytes e.fmt e.nb two4
    let mine := acc.2.take (e.rows * bpr)
    let s := ((chunks bpr e.rows mine).zipIdx).foldl (fun s p =>
      s.wrMarks (e.addr + p.2 * e.stride)
        (p.1.flatMap fun b => b.2.map fun y => (y, b.1.els.any (·.poison)))) acc.1
    (s.mergeBlocks m e ((mine.zipIdx).map fun p => (e.blkidx + p.2, p.1.1.byte, p.1.1.outs)),
      acc.2.drop (e.rows * bpr))) (s, l)).1

/-- The bitmap records of the stored tiles, from each tile's stored flag and poison. A record counts the tiles of the groups before it,
so it carries their poison with its own (03 R121). -/
def bmpRecords (ktiles : Nat) (rows : List (List (Bool × Bool))) : List (Byte × Bool) :=
  (rows.foldl (fun (acc : List (Byte × Bool) × Nat × Bool) r =>
    let n := (r.zipIdx).foldl (fun a p => a + b2n p.1.1 * 2 ^ p.2) 0
    let mark := acc.2.2 || r.any (·.2)
    (acc.1 ++ (leBytes 8 acc.2.1 ++ leBytes (8 * bmpWords ktiles) n).map fun b => (b, mark),
      acc.2.1 + (r.filter (·.1)).length, mark)) ([], 0, false)).1

def State.packChecks (s : State) (x : Item) : List (Option Bad) :=
  let o := x.pack
  let a := s.strm x 0
  let c := s.strm x 2 o.cFirst
  [ if s.usedCoarse x c == a.hdr.coarse then none else some (9, 2, 0)
  , s.entsCheck a [0, 1, 2, 3], s.entsCheck c [0, 1, 2, 3] o.two4 true
  , if o.keep then s.entsCheck (s.strm x 3) [10] else none
  , sizeCheck a false (o.rows * o.k)
  , if o.bmp then none else sizeCheck c o.two4 (o.rows * o.k)
  , if o.keep && decide (((s.strm x 3).ents.map fun e => e.rows * e.len).sum < 8 * (bmpWords (o.k / 32) + 1) * (o.rows / 32))
    then some (9, 3, 0) else none
  , overlapCheck x ([a] ++ if o.keep then [s.strm x 3] else []) [c] ]

/-- The byte of the keep records with tile (g, j)'s bit, and its poison mark; all ones without KEEPMAP. -/
def keepByte (keep : Option (List (Byte × Bool))) (ktiles g j : Nat) : Byte × Bool :=
  match keep with
  | none => (0xFF#8, false)
  | some bs => bs.getD (8 * (bmpWords ktiles + 1) * g + 8 + j / 8) (0#8, false)

/-- Whether tile (g, j) of the source is stored (R276). -/
def tileStored (keep : Option (List (Byte × Bool))) (ktiles g j : Nat) (blks : List SrcBlk) : Bool :=
  blks.any (fun b => b.els.any fun e => !e.v.isZero) && bit (keepByte keep ktiles g j).1.toNat (j % 8)

/-- Whether it is stored rests on poisoned data: its elements, or its keep bit (03 R121). -/
def tilePoison (keep : Option (List (Byte × Bool))) (ktiles g j : Nat) (blks : List SrcBlk) : Bool :=
  blks.any (fun b => b.els.any (·.poison)) || (keepByte keep ktiles g j).2

/-- A source block of a stored tile, marked when the tile's keep bit is poisoned. -/
def SrcBlk.mark (b : SrcBlk) (p : Bool) : SrcBlk :=
  if p then { b with els := b.els.map fun e => { e with poison := true } } else b

/-- The run of a PACK_SPARSE. A count over the room ends it with PARTIAL (R277). -/
def State.packRun (s : State) (_region : Nat) (x : Item) : RunOut :=
  let o := x.pack
  let a := s.strm x 0
  let c := s.strm x 2 o.cFirst
  s.gated x (s.packChecks x) [(a, false)] fun _ =>
    let blks := s.srcBlocks x a
    let nonfin := countNonfin (blks.flatMap (·.els))
    let zb := (a.ents.map fun e => s.skippedBlocks x a e false).sum
    let pois := blks.any fun b => b.els.any (·.poison)
    let amax := amaxOf ((blks.flatMap (·.els)).map fun e => ({ v := e.v.mul (f32 a.hdr.coarse) } : OutEl))
    if o.bmp then
      let bm := parseBmp (s.listEntry x 2 1)
      let kt := o.k / 32
      let rowsB := chunks kt o.rows blks
      let keep := if o.keep then some (s.readFetched x (s.strm x 3)) else none
      let tiles := (List.range (o.rows / 32)).map fun g => (List.range kt).map fun j =>
        let t := ((rowsB.drop (32 * g)).take 32).filterMap fun r => r[j]?
        (t, tileStored keep kt g j t, tilePoison keep kt g j t)
      let stored := (tiles.flatMap id).filter (·.2.1)
      let pois := (tiles.flatMap id).any (·.2.2)
      let counts := sumCounts ((tiles.flatMap id).flatMap fun t => t.1.map (packCounts o.two4 t.2.1))
      if bm.tiles < stored.length then .ok amax fun s _ =>
        (s, { statuses := [(stInvalid, badDetail (9, 2, 1))], partialOut := true })
      else .ok amax fun s x =>
        let s := (s.outCoarse x c).2
        let out := stored.flatMap fun t => t.1.map fun b => (b.mark t.2.2, packBlock c.fmt c.nb o.two4 b)
        let s := s.writePacked { c with hdr := { c.hdr with total := 32 * stored.length } } o.two4 out
        let s := s.wrMarks bm.addr (bmpRecords kt (tiles.map fun r => r.map (·.2)))
        let s := s.wr (x.streamAddr 2 + 32 + 0xC) (leBytes 4 stored.length)
        let s := s.wr (x.streamAddr 2 + 0x18) (leBytes 4 (32 * stored.length))
        (s, mkResult counts nonfin zb amax (o.rows * o.k) true pois)
    else
      .ok amax fun s x =>
        let s := (s.outCoarse x c).2
        let out := blks.map fun b => (b, packBlock c.fmt c.nb o.two4 b)
        (s.writePacked c o.two4 out,
          mkResult (sumCounts (blks.map (packCounts o.two4 true))) nonfin zb amax (o.rows * o.k) true pois)

/-- PACK_SPARSE (09 R277): prunes and packs dense weights. -/
def execPackSparse (region slot : Nat) (s : State) : Host.Outcome State Fault Refusal :=
  .next (s.runItem region slot (fun x => x.engine == 2 && x.op == 0x410) State.packRun)

end Sys2Proof.Machine
end

