-- ==== Sys2Proof/Machine/Router.lean ====
section
/-! DEFINITION. The expert router (09 R281 to R287, R297) and segmented variant products (09 R291 to R296). -/

namespace Sys2Proof.Machine

/-! ### Byte sections -/

/-- Data entries of a stream that is read and written as bytes: FMT 0xA and no block scales (R282). -/
def State.bytesCheck (s : State) (m : Strm) (out : Bool := false) : Option Bad :=
  match s.entsCheck m [10] false out with
  | some b => some b
  | none => (m.ents.zipIdx).findSome? fun p => if p.1.bytes then none else some (3, m.k, m.first + p.2)

/-- Bytes a stream holds. -/
def Strm.byteCount (m : Strm) : Nat := (m.ents.map fun e => e.rows * e.len).sum

/-- A stream cut down to one of its data entries. -/
def Strm.only (m : Strm) (i : Nat) : Strm := { m with ents := ((m.ents.drop i).take 1), first := m.first + i }

/-- Device address of byte i of a stream read as bytes. -/
def Strm.byteAddr (m : Strm) (i : Nat) : Nat :=
  ((m.ents.foldl (fun (acc : Option Nat × Nat) e =>
    match acc.1 with
    | some _ => acc
    | none =>
      if acc.2 < e.rows * e.len then (some (e.addr + acc.2 / max e.len 1 * e.stride + acc.2 % max e.len 1), 0)
      else (none, acc.2 - e.rows * e.len)) (none, i)).1).getD 0

/-- Bytes with one poison mark. -/
def marked (bad : Bool) (bs : List Byte) : List (Byte × Bool) := bs.map fun b => (b, bad)

/-! ### Operands (R281) -/

structure RtrOp where
  m : Nat
  e : Nat
  topk : Nat
  rflags : Nat
  cap : Nat
  km1 : Nat
  deriving DecidableEq, Repr

def Item.rtr (x : Item) : RtrOp :=
  ⟨x.opnd 0x68 4, x.opnd 0x6C 2, x.opnd 0x6E 1, x.opnd 0x6F 1, x.opnd 0x70 4, x.opnd 0x74 4⟩

def RtrOp.next (o : RtrOp) : Bool := o.rflags % 4 == 1
def RtrOp.xtra (o : RtrOp) : Nat := bits o.rflags 4 2
def RtrOp.bias (o : RtrOp) : Bool := bit o.rflags 5
def RtrOp.count (o : RtrOp) : Bool := bit o.rflags 6
/-- X, the candidates of a token. -/
def RtrOp.x (o : RtrOp) : Nat := min (o.topk + o.xtra) o.e

/-- GATE_ROUTE. -/
def Item.gate (x : Item) : Bool := x.op == 2

/-- The logit product of a GATE_ROUTE as a Hawser product. -/
def Item.gateHws (x : Item) : HwsOp :=
  ⟨x.rtr.m, x.rtr.e, x.rtr.km1 % 2 ^ 24 + 1, false, false, false, 0, 0, 0, 0⟩

/-! ### Checks (R281, R282) -/

def State.rtrAdmit (s : State) (x : Item) : Option Bad :=
  let o := x.rtr
  let a := s.strm x 0
  let b := s.strm x 1
  let k := o.km1 % 2 ^ 24 + 1
  if x.resultSlot != 0xFFFF then some (9, 0, 0)
  else
    match s.useCheck x [.yes, if x.gate || o.bias then .yes else .no, .yes, .yes] with
    | some e => some e
    | none =>
      if o.m == 0 || 2 ^ 24 < o.m || o.e == 0 || 512 < o.e || o.topk == 0 || 8 < o.topk || o.e < o.topk then some (9, 0, 0)
      else if 2 ≤ o.rflags % 4 || bit o.rflags 7 || (!o.next && o.xtra != 0) then some (9, 0, 0)
      else if x.gate && o.bias then some (9, 1, 0)
      else if !x.gate && o.km1 != 0 then some (9, 0, 0)
      else if x.gate && 2 ^ 24 ≤ o.km1 then some (9, 0, 0)
      else if x.gate && (k < 16 || k % 16 != 0 || k % opBlock a false 0 != 0) then some (9, 0, 0)
      else if x.gate && k % opBlock b false 0 != 0 then some (9, 1, 0)
      else if x.gate && !coarseProductOk (opCoarse a false 0) (opCoarse b false 0) then some (9, 0, 0)
      else if x.streamCount 2 != (if o.count then 4 else 3) then some (9, 2, 0)
      else none

def State.rtrChecks (s : State) (x : Item) : List (Option Bad) :=
  let o := x.rtr
  let a := s.strm x 0
  let b := s.strm x 1
  let c := s.strm x 2
  let d := s.strm x 3
  let k := o.km1 % 2 ^ 24 + 1
  let plain := fun (m : Strm) => if m.scaled then some (3, m.k, 1) else none
  [ s.entsCheck a (if x.gate then hwsFmtsIn else [9]), if x.gate then none else plain a
  , if x.gate then s.entsCheck b hwsFmtsIn else if o.bias then s.entsCheck b [9] else none
  , s.bytesCheck c true, s.bytesCheck d true
  , sizeCheck a false (if x.gate then o.m * k else o.m * o.e)
  , if x.gate then sizeCheck b false (o.e * k) else if o.bias then sizeCheck b false o.e else none
  , if (c.only 0).byteCount < 8 * o.e then some (9, 2, 1) else none
  , if (c.only 1).byteCount < 8 * o.m * o.topk then some (9, 2, 2) else none
  , if o.count && (decide ((c.only 2).byteCount < 32 * o.e) || !((List.range (2 * o.e)).all fun i =>
      (c.only 2).byteAddr (16 * i) % 16 == 0 && (s.stackOf ((c.only 2).byteAddr (16 * i))).isSome)) then some (9, 2, 3) else none
  , if d.byteCount < 8 * o.m * o.topk then some (9, 3, 1) else none
  , overlapCheck x ([a] ++ if x.gate || o.bias then [b] else []) [c, d] ]

/-! ### Ranking and placement (R283, R284, 04 R158) -/

/-- One value ranks no lower than another: descending, NaN above +∞. -/
def ranksBefore (a b : XV × Nat) : Bool := a.1 == .nan || (b.1 != .nan && XV.le b.1 a.1)

/-- The first X experts of a row of scores: equal values in ascending index. -/
def ranked (x : Nat) (row : List XV) : List Nat := (((row.zipIdx).mergeSort ranksBefore).take x).map (·.2)

/-- A token slot: the expert it stands for, its candidate rank, and whether it was placed. -/
structure RtrSlot where
  expert : Nat
  rank : Nat
  placed : Bool
  deriving DecidableEq, Repr

/-- The procedure's variables: counts and refusals by expert, refusals by token, slots in (m, r) order, nxt by token. -/
structure RtrRun where
  cnt : List Nat
  ref : List Nat
  refTok : List Nat
  slots : List RtrSlot
  nxt : List Nat
  deriving DecidableEq, Repr

/-- One more at position i. -/
def incAt (l : List Nat) (i : Nat) : List Nat := l.set i (l.getD i 0 + 1)

def RtrRun.room (st : RtrRun) (o : RtrOp) (e : Nat) : Bool := o.cap == 0 || decide (st.cnt.getD e 0 < o.cap)

/-- place(m, r, e, j). -/
def RtrRun.place (st : RtrRun) (o : RtrOp) (m r e j : Nat) : RtrRun :=
  { st with slots := st.slots.set (m * o.topk + r) ⟨e, j, true⟩, cnt := incAt st.cnt e }

/-- e refuses an assignment of token m. -/
def RtrRun.refuse (st : RtrRun) (m e : Nat) : RtrRun := { st with ref := incAt st.ref e, refTok := incAt st.refTok m }

/-- The first loop's body: slot (m, r) is placed, or overflows. -/
def rtrFirst (o : RtrOp) (cand : List (List Nat)) (st : RtrRun) (r m : Nat) : RtrRun :=
  let e := (cand.getD m []).getD r 0
  if st.room o e then st.place o m r e r
  else { (st.refuse m e) with slots := st.slots.set (m * o.topk + r) ⟨e, r, false⟩ }

/-- The reroute of one overflowed slot: the candidates that token m has left, in order. -/
def rtrReroute (o : RtrOp) (cand : List (List Nat)) (m r : Nat) : Nat → RtrRun → RtrRun
  | 0, st => st
  | fuel + 1, st =>
    let j := st.nxt.getD m 0
    if j < o.x then
      let e := (cand.getD m []).getD j 0
      let st := { st with nxt := incAt st.nxt m }
      if st.room o e then st.place o m r e j else rtrReroute o cand m r fuel (st.refuse m e)
    else st

/-- The reference procedure of R284. -/
def rtrPlace (o : RtrOp) (cand : List (List Nat)) : RtrRun :=
  let start : RtrRun := ⟨List.replicate o.e 0, List.replicate o.e 0, List.replicate o.m 0,
    List.replicate (o.m * o.topk) ⟨0, 0, false⟩, List.replicate o.m o.topk⟩
  let st := (List.range o.topk).foldl (fun st r => (List.range o.m).foldl (fun st m => rtrFirst o cand st r m) st) start
  if o.next then
    (List.range o.topk).foldl (fun st r => (List.range o.m).foldl (fun st m =>
      match st.slots[m * o.topk + r]? with
      | some q => if q.placed then st else rtrReroute o cand m r 16 st
      | none => st) st) st
  else st

/-- The DISPATCH entries: (expert, token), experts ascending and tokens ascending within one. -/
def rtrDispatch (o : RtrOp) (st : RtrRun) : List (Nat × Nat) :=
  let rows := chunks o.topk o.m st.slots
  (List.range o.e).flatMap fun e =>
    (rows.zipIdx).filterMap fun p => if p.1.any (fun q => q.placed && q.expert == e) then some (e, p.2) else none

/-- A slot of the token table (R286). -/
def rtrTable (o : RtrOp) (disp : List (Nat × Nat)) (m : Nat) (q : RtrSlot) : Nat :=
  let pos := if q.placed then (disp.findIdx? (· == (q.expert, m))).getD 0xFFFFFFFF else 0xFFFFFFFF
  pos * 2 ^ 32 + b2n (q.placed && decide (o.topk ≤ q.rank)) * 2 ^ 25 + b2n (!q.placed) * 2 ^ 24 + q.rank * 2 ^ 16 + q.expert

/-! ### The run -/

/-- The logits of a router item, row by row, and the non-finite elements read for them. -/
def State.rtrLogits (s : State) (x : Item) : List (List El) × Nat :=
  let o := x.rtr
  let a := s.strm x 0
  if x.gate then
    let b := s.strm x 1
    let h := x.gateHws
    let f := hwsClass a.fmt b.fmt
    let i : HwsIn := { a := s.operand x a false 0 2 h.m h.k, b := s.operand x b false 0 3 h.n h.k, d := [], sig := hwsSig f, cls := f }
    let sc := (rn32 ((f32 (opCoarse a false 0)).mul (f32 (opCoarse b false 0)))).1
    let ys := (hwsCompute h i sc []).1.c
    (chunks o.e o.m (ys.map fun y => { v := y.v, z := false, poison := y.poison }),
      countNonfin (s.readStream x a).els + countNonfin (s.readStream x b).els)
  else
    let els := (s.readStream x a).els
    (chunks o.e o.m els, countNonfin els)

/-- Tokens ranked by slice j of ns: equal contiguous ranges in cluster order (R287). -/
def rtrRange (m ns j : Nat) : List Nat :=
  let w := (m + ns - 1) / max ns 1
  (List.range m).filter fun t => t / max w 1 == j

/-- The slices' registers after a router item (R287, R297). -/
def State.rtrCount (s : State) (x : Item) (region : Nat) (o : RtrOp) (st : RtrRun) (logits : List (List El)) (biasBad : Bool) : State :=
  let cs := clusterList region x.units
  let rows := chunks o.topk o.m st.slots
  (cs.zipIdx).foldl (fun s c =>
    let ts := rtrRange o.m cs.length c.2
    let refs := (ts.map fun m => st.refTok.getD m 0).sum
    let drops := (ts.map fun m => ((rows.getD m []).filter fun q => !q.placed).length).sum
    let bad := !ts.isEmpty && (biasBad || ts.any fun m => (logits.getD m []).any fun l => !l.v.isFinite)
    let busy := (ts.length * o.e + 63) / 64 + (ts.length * o.x + 15) / 16
    (((s.bump .rtrRefuseCnt c.1 0 refs).bump .rtrDropCnt c.1 0 drops).bump .rtrBusyCnt c.1 0 busy).flag .rtrSts c.1 0
      (b2n (refs != 0) + 2 * b2n (drops != 0) + 4 * b2n bad)) s

/-- The run of a ROUTE or GATE_ROUTE. -/
def State.rtrRun (s : State) (region : Nat) (x : Item) : RunOut :=
  let o := x.rtr
  let a := s.strm x 0
  let b := s.strm x 1
  let c := s.strm x 2
  s.gated x (s.rtrChecks x) (if x.gate then [(a, false), (b, false)] else []) fun _ =>
    let l := s.rtrLogits x
    let bias := if o.bias then (s.readStream x b).els else []
    let scores := l.1.map fun row =>
      if o.bias then (row.zip bias).map fun p => (rn32 (p.1.v.add p.2.v)).1 else row.map (·.v)
    let st := rtrPlace o (scores.map (ranked o.x))
    let bad := (l.1.any fun r => r.any (·.poison)) || bias.any (·.poison)
    let nonfin := l.2 + countNonfin bias
    let disp := rtrDispatch o st
    let drops := (st.slots.filter fun q => !q.placed).length
    .ok 0 fun s x =>
      -- EXPERTS
      let counts := (List.range o.e).map fun e => (disp.filter fun d => d.1 == e).length
      let experts := (List.range o.e).flatMap fun e => leBytes 4 ((counts.take e).sum) ++ leBytes 4 (counts.getD e 0)
      let s := s.writeByteStream (c.only 0) (marked bad experts)
      -- DISPATCH
      let entries := disp.flatMap fun d => leBytes 4 d.2 ++ leBytes 4 (f32Code (((l.1.getD d.2 []).getD d.1 El.zero).v))
      let s := s.writeByteStream (c.only 1) (marked bad entries)
      -- the token table
      let table := (st.slots.zipIdx).flatMap fun q => leBytes 8 (rtrTable o disp (q.2 / o.topk) q.1)
      let s := s.writeByteStream (s.strm x 3) (marked bad table)
      -- STATS
      let s := if o.count then
          ((st.cnt ++ st.ref).zipIdx).foldl (fun s v =>
            (s.nmApply ((c.only 2).byteAddr (16 * v.2)) 4 0 v.1 bad false x.tag).st) s
        else s
      let s := s.rtrCount x region o st l.1 (bias.any fun e => !e.v.isFinite)
      let s := if x.gate then
          let h := x.gateHws
          let f := hwsClass a.fmt b.fmt
          let i : HwsIn := { a := s.operand x a false 0 2 h.m h.k, b := s.operand x b false 0 3 h.n h.k, d := [], sig := hwsSig f, cls := f }
          let cyc := (tilesOf i.a.rows i.b.rows).map fun t =>
            (t.1, hwsTileRows f h.k t.2.1 t.2.2)
          s.hwsCount x region h i cyc [] (hwsCompute h i ((rn32 ((f32 (opCoarse a false 0)).mul (f32 (opCoarse b false 0)))).1) []).2
            (tilesMarked h.m h.n (nonfinRows i.a.rows) (nonfinRows i.b.rows) fun _ _ => false)
        else s
      let d := min drops 0xFFFFFFFF
      -- the record's counters are 0, except NONFINITE (R287); each slice shows the tokens it ranked, in PHASE 4 (R297)
      let cs := (clusterList region x.units).map (· % 8)
      let stat := (List.range 8).map fun c => match cs.findIdx? (· == c) with
        | some j => 4 * 2 ^ 28 + (rtrRange o.m cs.length j).length % 2 ^ 25
        | none => 0
      (s, { mkResult {} nonfin 0 0 (experts.length + entries.length) true bad with
              stat := stat
              statuses := [(stDone, d)] ++ (if bad then [(stPoisoned, d)] else []) ++ if nonfin == 0 then [] else [(stScaleFault, d)] })

/-- ROUTE (R284): logits ranked, tokens placed under capacity, the sections written. -/
def execRoute (region slot : Nat) (s : State) : Host.Outcome State Fault Refusal :=
  .next (s.runItem region slot (fun x => x.engine == 5 && x.op == 1) State.rtrRun)

/-- GATE_ROUTE (R283): logits formed on the Hawser arrays, then routed. -/
def execGateRoute (region slot : Nat) (s : State) : Host.Outcome State Fault Refusal :=
  .next (s.runItem region slot (fun x => x.engine == 5 && x.op == 2) State.rtrRun)

/-! ### Segmented variant products (R291 to R296) -/

structure SegOp where
  m : Nat
  n : Nat
  k : Nat
  alpha : Bool
  turn : Bool
  base : Bool
  up : Bool
  site : Nat
  tfmt : Nat
  deriving DecidableEq, Repr

def Item.seg (x : Item) : SegOp :=
  let mode := x.opnd 0x73 1
  ⟨x.opnd 0x68 4, x.opnd 0x6C 4, x.opnd 0x70 3 + 1, bit mode 7, bit mode 6, bits mode 3 2 == 1, mode % 4 == 1, x.opnd 0x74 2, x.opnd 0x76 1⟩

def State.varSites (s : State) (region : Nat) : Nat := min (bits (s.reg .rtrVarSites (regionDie region)).toNat 12 0) 4096
def State.varBase (s : State) (region : Nat) : Nat :=
  (s.pair .rtrVarBase .rtrVarBaseHi (regionDie region)) % 2 ^ 48 / 32 * 32

def State.segAdmit (s : State) (region : Nat) (x : Item) : Option Bad :=
  let o := x.seg
  let mode := x.opnd 0x73 1
  let a := s.strm x 0
  let c := s.strm x 2
  if x.resultSlot != 0xFFFF then some (9, 0, 0)
  else
    match s.useCheck x [.yes, .yes, .yes, if o.base then .yes else .no] with
    | some e => some e
    | none =>
      if 2 ≤ bits mode 3 2 || 2 ≤ mode % 4 || (o.base && !o.up) then some (9, 0, 0)
      else if !o.turn && o.tfmt != 0 then some (9, 1, 0)
      else if o.turn && !hwsTfmts.contains o.tfmt then some (3, 1, 0)
      else if o.m == 0 || o.n == 0 || 2 ^ 24 < o.n || o.k < 16 || o.k % 16 != 0 || o.k % opBlock a false 0 != 0 then some (9, 0, 0)
      else if c.scaled && o.n % c.nb != 0 then some (9, 2, 0)
      else if s.varSites region ≤ o.site then some (9, 0, 0)
      else none

def State.segChecks (s : State) (x : Item) : List (Option Bad) :=
  let o := x.seg
  let a := s.strm x 0
  let c := s.strm x 2
  let d := s.strm x 3
  [ s.entsCheck a hwsFmtsIn, s.bytesCheck (s.strm x 1), s.entsCheck c fmts0B false true
  , if o.base then s.entsCheck d [9] else none
  , sizeCheck a false (o.m * o.k), sizeCheck c false (o.m * o.n)
  , if o.base then sizeCheck d false (o.m * o.n) else none
  , overlapCheck x ([a, s.strm x 1] ++ if o.base then [d] else []) [c] ]

/-- A segment: rows [first, stop), its variant, whether the list entry was poisoned. -/
structure Seg where
  first : Nat
  stop : Nat
  variant : Nat
  poison : Bool
  deriving DecidableEq, Repr

/-- The segments of the list (R293), or the entry that breaks its order. -/
def State.segments (s : State) (x : Item) : List Seg × Option Nat :=
  let bs := s.readFetched x (s.strm x 1)
  let n := bs.length / 8
  let ent := fun i => leNat (((bs.drop (8 * i)).take 8).map (·.1))
  let first := fun i => if i < n then ent i % 2 ^ 32 else x.seg.m
  let bad := (List.range n).find? fun i =>
    if i == 0 then first 0 != 0 else decide (first i ≤ first (i - 1)) || decide (x.seg.m ≤ first i)
  (((List.range n).map fun i =>
      ⟨first i, first (i + 1), bits (ent i) 47 32, ((bs.drop (8 * i)).take 8).any (·.2)⟩),
    if n == 0 || bs.length % 8 != 0 then some 0 else bad)

/-- The two-entry block list at an address, as a B-side stream. -/
def State.varStrm (s : State) (x : Item) (a : Nat) : Strm :=
  ⟨1, parseHdr (s.iw x a 32), 1, [parseEnt (s.iw x (a + 32) 32)]⟩

/-- A variant's entry of the table. -/
def State.varEntry (s : State) (x : Item) (region v : Nat) : Nat :=
  s.iw x (s.varBase region + (x.seg.site * 4096 + v) * 32) 32

/-- Address of the block list that a segment's product takes from a variant's entry. -/
def State.segList (s : State) (x : Item) (region v : Nat) : Nat :=
  let e := s.varEntry x region v
  if x.seg.up == x.seg.turn then fld e 0 6 else fld e 8 6

/-- What a segment's product needs: the variant operand, its rank and factor, the reduction length. -/
structure SegIn where
  b : Operand
  m : Strm
  rank : Nat
  alpha : XV
  len : Nat
  sc : XV

/-- The variant operand of a segment, none when R295 ends the item. -/
def State.segIn (s : State) (x : Item) (region v : Nat) : Option SegIn :=
  let o := x.seg
  let e := s.varEntry x region v
  let rank := fld e 0x14 2
  let addr := s.segList x region v
  let m := s.varStrm x addr
  let a := s.strm x 0
  let len := if o.up then rank else o.k
  let rows := if o.up then o.n else rank
  let srcRows := if o.turn then len else rows
  let srcCols := if o.turn then rows else len
  if v ≥ 4096 || !bit (fld e 0x16 1) 0 || addr % 32 != 0 || !s.mapped addr 64 then none
  else if rank < 16 || 256 < rank || rank % 16 != 0 || (if o.up then decide (o.k < rank) else decide (o.n < rank)) then none
  else if (s.hdrCheck x { m with k := 1 } true).isSome && m.scaled && !normalPos m.hdr.coarse then none
  else if (s.entsCheck m hwsFmtsIn).isSome || m.elems != srcRows * srcCols then none
  else if m.scaled && srcCols % m.nb != 0 then none
  else if len % opBlock m o.turn o.tfmt != 0 || len % opBlock a false 0 != 0 then none
  else if !coarseProductOk (opCoarse a false 0) (opCoarse m o.turn o.tfmt) then none
  else some { b := s.operand x m o.turn o.tfmt 3 rows len, m := m, rank := rank, alpha := f32 (fld e 0x10 4), len := len
              sc := (rn32 ((f32 (opCoarse a false 0)).mul (f32 (opCoarse m o.turn o.tfmt)))).1 }

/-- Output rows of one segment, and each saturation of its reduction: the tile, and whether it is that of an accumulator or
a tree (R194, R294). -/
def segRows (o : SegOp) (cls : Nat) (g : Seg) (i : Option SegIn) (ra : List (List El)) (base : List (List El)) :
    List OutEl × List (Nat × Bool) :=
  let mine := (ra.drop g.first).take (g.stop - g.first)
  let cell := (mine.zipIdx).flatMap fun r => (List.range o.n).map fun n =>
    let bd := (((base.getD (g.first + r.2) []).getD n El.zero))
    let fin := fun (y : XV × Bool) (poison : Bool) =>
      let y := match i with
        | some v => if o.alpha && !y.1.isZero then (let z := rn32 (y.1.mul v.alpha); (z.1, y.2 || z.2)) else y
        | none => y
      let y := if o.base then (let z := rn32 (bd.v.add y.1); (z.1, y.2 || z.2)) else y
      ({ v := y.1, sat := y.2, poison := poison || g.poison || (o.base && bd.poison) } : OutEl)
    match i with
    | none => (fin (.zero, false) false, false, false, 0)
    | some v =>
      match v.b.rows[n]? with
      | none => (fin (.zero, false) false, false, false, 0)
      | some c =>
        let row := r.1.take v.len
        let t := treeSum 16 (chunkSums (hwsSig cls) v.len row c)
        let y := hawserY t v.sc none
        (fin y (row.any (·.poison) || c.any (·.poison)), y.2, t.2, tileOf mine.length r.2 n)
  (cell.map (·.1), (cell.filter (·.2.1)).map fun e => (e.2.2.2, e.2.2.1))

/-- Poison spreads over a tile of a segment (R122). -/
def segPoison (o : SegOp) (rows : Nat) (els : List OutEl) : List OutEl :=
  let bad := ((els.zipIdx).filter fun p => p.1.poison).map fun p => tileOf rows (p.2 / o.n) (p.2 % o.n)
  (els.zipIdx).map fun p => if bad.contains (tileOf rows (p.2 / o.n) (p.2 % o.n)) then { p.1 with poison := true } else p.1

/-- A row of an entry cut to its first n elements, as an entry of its own. -/
def Ent.cutRow (e : Ent) (r n : Nat) : Ent :=
  let bpr := e.rowElems / max e.nb 1
  let b := e.blkidx + r * bpr
  { e with rows := 1, addr := e.addr + r * e.stride
           len := if e.scaled then n / max e.nb 1 * blockBytes e.fmt e.nb false else n * fmtBits e.fmt / 8
           blkidx := b, scaleOff := e.scaleOff + (b / 56 - e.blkidx / 56) }

/-- A stream cut to its first n elements: whole rows of its entries, and what is left of one row. -/
def Strm.upTo (m : Strm) (n : Nat) : Strm :=
  { m with ents := (m.ents.foldl (fun (acc : List Ent × Nat) e =>
      let w := max e.rowElems 1
      let r := min e.rows (acc.2 / w)
      let rest := if r < e.rows then acc.2 - r * w else 0
      (acc.1 ++ (if r == 0 then [] else [{ e with rows := r }]) ++ (if rest == 0 then [] else [e.cutRow r rest]),
        if r < e.rows then 0 else acc.2 - r * w)) ([], n)).1 }

/-- The Turn counters of the units that read a segment's Turn-fed operand (06 R202, R210); `first` is the number of its first tile. -/
def State.segTurn (s : State) (us : List Nat) (first rows tfmt : Nat) (v : SegIn) : State :=
  let mt := (rows + 127) / 128
  let nt := (v.b.rows.length + 127) / 128
  if v.b.turn.isEmpty then s
  else
    (((List.range (mt * nt)).map fun t => (tileUnit us (first + t), t / max mt 1)).eraseDups).foldl (fun s p =>
      let g := (v.b.turn.drop (128 * p.2)).take 128
      let fl := (g.map (·.1)).sum
      let sa := (g.map (·.2)).sum
      (((s.bump .trnFlushCnt p.1 0 fl).bump .trnSatCnt p.1 0 sa).flag .trnSts p.1 0 (2 * b2n (fl != 0) + b2n (sa != 0))).bump
        .trnBusyCnt p.1 0 ((g.length * v.len * fmtBits tfmt / 8 + 127) / 128)) s

/-- Turn tiles of a segment on each of n units. -/
def segTurnTiles (n first rows cls : Nat) (v : SegIn) : List Nat :=
  let mt := (rows + 127) / 128
  let nt := (v.b.rows.length + 127) / 128
  (List.range n).map fun j =>
    if v.b.turn.isEmpty then 0
    else ((((List.range (mt * nt)).filter fun t => (first + t) % max n 1 == j).map (· / max mt 1)).eraseDups).length * turnTilesOf cls v.len

/-- The segments in order, up to the first that ends the item. -/
def State.segWalk (s : State) (x : Item) (region : Nat) : List Seg → Nat → List (Seg × Option SegIn) × Option Nat
  | [], _ => ([], none)
  | g :: gs, i =>
    if g.variant == 0xFFFF then let r := s.segWalk x region gs (i + 1); ((g, none) :: r.1, r.2)
    else match s.segIn x region g.variant with
      | none => ([], some i)
      | some v => let r := s.segWalk x region gs (i + 1); ((g, some v) :: r.1, r.2)

/-- A segment as it runs: its variant operand, the number of its first tile (tiles are numbered segment by segment, R294), its
arithmetic class, the rows of A its reduction reads, and its part of the base input. -/
structure SegRun where
  seg : Seg
  v : Option SegIn
  first : Nat
  cls : Nat
  rows : List (List El)
  base : List El

/-- Rows of a segment. -/
def SegRun.height (g : SegRun) : Nat := g.seg.stop - g.seg.first

/-- The segments of a walk as they run. -/
def segRuns (o : SegOp) (fmtA : Nat) (ra : List (List El)) (base : List El) (w : List (Seg × Option SegIn)) : List SegRun :=
  (w.foldl (fun (acc : List SegRun × Nat) g =>
    let h := g.1.stop - g.1.first
    let cls := hwsClass fmtA (match g.2 with | some v => if o.turn then o.tfmt else v.m.fmt | none => 5)
    let rows := match g.2 with | some v => ((ra.drop g.1.first).take h).map (·.take v.len) | none => []
    (acc.1 ++ [⟨g.1, g.2, acc.2, cls, rows, (base.drop (g.1.first * o.n)).take (h * o.n)⟩], acc.2 + tileCount h o.n)) ([], 0)).1

/-- Streamed rows of the segment's tiles, with each tile's number. -/
def SegRun.cycles (g : SegRun) : List (Nat × Nat) :=
  match g.v with
  | none => []
  | some v => (tilesOf g.rows v.b.rows).map fun t => (g.first + t.1, hwsTileRows g.cls v.len t.2.1 t.2.2)

/-- Tiles of the segment that read a non-finite element, of A, of its variant as it is read, or of the base rows. -/
def State.segNonfin (s : State) (x : Item) (o : SegOp) (g : SegRun) : List Nat :=
  match g.v with
  | none => []
  | some v =>
    let src := o.turn && countNonfin (s.readStream x v.m).els != 0
    (tilesMarked g.height v.b.rows.length (nonfinRows g.rows) (nonfinRows v.b.rows) fun mt nt =>
      src || dNonfin (if o.base then 2 else 0) 1 g.height o.n g.base mt nt).map (g.first + ·)

/-- The units' registers after the segments that ran (06 R197, R202, R209, R210). -/
def State.segCount (s : State) (x : Item) (region : Nat) (o : SegOp) (gs : List SegRun) (sats : List (Nat × Bool)) (nf : List Nat) : State :=
  let us := unitList region x.units
  let s := gs.foldl (fun s g => match g.v with
    | some v => (g.cycles.foldl (fun s t => s.bump .hwsBusyCnt (tileUnit us t.1) 0 t.2) s).segTurn us g.first g.height o.tfmt v
    | none => s) s
  let s := nf.foldl (fun s t => s.flag .hwsSts (tileUnit us t) 0 1) (s.hwsSats us sats)
  let done := gs.flatMap fun g => (List.range (tileCount g.height o.n)).map (g.first + ·)
  (us.zipIdx).foldl (fun s u =>
    s.setReg .hwsTiles u.1 0 (BitVec.ofNat 32 ((done.filter fun t => t % max us.length 1 == u.2).length))) s

/-- The STAT fields of each of n units as the item drains: CLASS, HALF and CHUNK of the last variant segment with a tile on it. -/
def segStat (n : Nat) (gs : List SegRun) : List Nat :=
  (List.range n).map fun j => gs.foldl (fun acc g => match g.v with
    | some v =>
      if g.cycles.any fun t => t.1 % max n 1 == j then
        g.cls * 2 ^ 28 + b2n (hwsHalf g.cls v.len) * 2 ^ 27 + ((v.len + 511) / 512 - 1)
      else acc
    | none => acc) 0

/-- The elements of stream A that the segments read, once each. -/
def segElsA (gs : List SegRun) : List El := gs.flatMap fun g => g.rows.flatMap id

/-- Zero blocks of A that ZSKIP left unfetched, among those the segments need. -/
def segZeros (nb : Nat) (els : List El) : Nat := (els.filter (·.skip)).length / max nb 1

/-- The variant operands the segments read, each named once (R150). -/
def segVariants (gs : List SegRun) : List Strm :=
  (gs.foldl (fun (acc : List (Nat × Strm)) g => match g.v with
    | some v => if acc.any (·.1 == g.seg.variant) then acc else acc ++ [(g.seg.variant, v.m)]
    | none => acc) []).map (·.2)

/-- The segments of an item that it gets to, in order; where it stops, if it does, and whether for a variant that is not there (R295). -/
def State.segLive (s : State) (region : Nat) (x : Item) : List Seg × List (Seg × Option SegIn) × Option Nat × Bool :=
  let sg := s.segments x
  let live := match sg.2 with | some i => sg.1.take i | none => sg.1
  let w := s.segWalk x region live 0
  let miss := match w.2 with
    | some i => match live[i]? with
      | some g => decide (4096 ≤ g.variant) || !bit (fld (s.varEntry x region g.variant) 0x16 1) 0
      | none => false
    | none => false
  (live, w.1, (match w.2 with | some i => some i | none => sg.2), miss)

/-- What each segment works on. -/
def State.segRunsOf (s : State) (region : Nat) (x : Item) : List SegRun :=
  let o := x.seg
  let id := if o.base then (s.readStream x (s.strm x 3)).els else []
  segRuns o (s.strm x 0).fmt (chunks o.k o.m (s.readStream x (s.strm x 0)).els) id (s.segLive region x).2.1

/-- The first scale line out of step among those that the segments' reductions take: cause, stream and entry. -/
def State.segSkew (s : State) (region : Nat) (x : Item) : Option (Nat × Nat × Nat) :=
  let o := x.seg
  let a := s.strm x 0
  let gs := s.segRunsOf region x
  let need := fun (b : Nat) =>
    let row := b * a.nb / o.k
    gs.any fun g => decide (g.seg.first ≤ row) && decide (row < g.seg.stop) &&
      (match g.v with | some v => decide (b * a.nb % o.k < v.len) | none => false)
  match s.skewOf x a false need with
  | some c => some (c.1, 0, c.2)
  | none => s.firstSkew x ((segVariants gs).map fun m => (m, false))

/-- The run of a SEG_MATMUL. Only what a segment's reduction takes is read, counted and checked for skew: no row of a segment without a
variant, no position past RANK (R294, R296; log entry 107). -/
def State.segRun (s : State) (region : Nat) (x : Item) : RunOut :=
  let o := x.seg
  let a := s.strm x 0
  let c := s.strm x 2
  s.gated x (s.segChecks x) [] fun _ =>
    let w := s.segLive region x
    let live := w.1
    let stop := w.2.2.1
    let miss := w.2.2.2
    let ra := chunks o.k o.m (s.readStream x a).els
    let id := if o.base then (s.readStream x (s.strm x 3)).els else []
    let base := chunks o.n o.m id
    let gs := s.segRunsOf region x
    let outs := gs.map fun g =>
      let r := segRows o g.cls g.seg g.v ra base
      (segPoison o g.height r.1, r.2.map fun t => (g.first + t.1, t.2))
    let els := outs.flatMap (·.1)
    let elsA := segElsA gs
    let vars := segVariants gs
    let nonfin := countNonfin elsA + countNonfin (gs.flatMap (·.base)) + (vars.map fun m => countNonfin (s.readStream x m).els).sum
    let zeros := (if a.scaled then segZeros a.nb elsA else 0) + (vars.map fun m => (s.readStream x m).zeroBlocks).sum
    if !s.calm && live.any fun g => g.variant != 0xFFFF &&
        (s.spanHeld (regionDie region) (s.varBase region + (x.seg.site * 4096 + g.variant) * 32) 32
          || (let a := s.segList x region g.variant
              (s.varStrm x a).reads a 2 |>.any fun p => s.spanHeld (regionDie region) p.1 p.2)) then .hold
    else match s.segSkew region x with
    | some c => .skew c.1 c.2.1 c.2.2
    | none =>
    .ok (amaxOf els) fun s x =>
      let oc := s.outCoarse x c
      let s := if stop.isSome && miss then oc.2.bump .rtrVarMissCnt (regionDie region) 0 1 else oc.2
      let n := (unitList region x.units).length
      let nf := gs.flatMap (s.segNonfin x o)
      let turn := gs.foldl (fun (acc : List Nat) g => match g.v with
        | some v => (acc.zip (segTurnTiles n g.first g.height g.cls v)).map fun p => p.1 + p.2
        | none => acc) (List.replicate n 0)
      let wr := s.writeStream (match stop with | none => c | some _ => c.upTo els.length) x.round oc.1 (drawBits x c 0 els) x.tag
      let r := { mkResult wr.counts nonfin zeros (amaxOf els) els.length true (els.any (·.poison) || wr.poison) with
                   stat := segStat n gs, turn := turn }
      (wr.st.segCount x region o gs (outs.flatMap (·.2)) nf,
        match stop with
        | none => r
        | some i => { r with shares := false, statuses := [(stInvalid, badDetail (9, 1, i))], partialOut := !els.isEmpty })

/-- SEG_MATMUL (R292): each segment's adapter matrix applied to its rows. -/
def execSegMatmul (region slot : Nat) (s : State) : Host.Outcome State Fault Refusal :=
  .next (s.runItem region slot (fun x => x.engine == 1 && x.op == 0x10) State.segRun)

end Sys2Proof.Machine
end

