-- ==== Sys2Proof/Machine/Moves.lean ====
section
/-! DEFINITION. Fetch-only moves: COPY (12 R399), the MX scale moves (04 R161), the row gathers (09 R288); and a
scale-line merge as a command (04 R566). -/

namespace Sys2Proof.Machine

def takesMove (op : Nat) (x : Item) : Bool := x.engine == 8 && x.op == op

/-- What every move asks at admission: no result slot, and its streams. -/
def State.moveAdmit (s : State) (x : Item) (uses : List Use) : Option Bad :=
  if x.resultSlot != 0xFFFF then some (9, 0, 0) else s.useCheck x uses

/-- The result of a move that wrote `elements` elements of a format: what it copies enters no counter, and nothing is handed to
conversion, so its amax is 0 (04 R159, 07 R217; log entry 106). -/
def moveResult (fmt elements zeros : Nat) (poison : Bool) : Result :=
  { poison := poison, counts := { zeros := zeros }, elements := elements, shares := decide (fmt ≤ 11) }

/-! ### COPY (12 R399) -/

def State.copyAdmit (s : State) (x : Item) : Option Bad := s.moveAdmit x [.yes, .no, .yes, .no]

/-- The first data entry that does not carry FMT 0xA without block scales: COPY refuses it with REASON 0x09 (12 R399). -/
def plainCheck (m : Strm) : Option Bad :=
  (m.ents.zipIdx).findSome? fun p => if p.1.bytes then none else some (9, m.k, m.first + p.2)

def State.copyChecks (s : State) (x : Item) : List (Option Bad) :=
  let a := s.strm x 0
  let c := s.strm x 2
  [ plainCheck a, plainCheck c, s.bytesCheck a, s.bytesCheck c true
  , if a.byteCount == c.byteCount then none else some (9, 2, 0)
  , overlapCheck x [a] [c] ]

def State.copyRun (s : State) (_region : Nat) (x : Item) : RunOut :=
  s.gated x (s.copyChecks x) [] fun _ =>
    let bs := s.readByteStream x (s.strm x 0)
    .ok 0 fun s x => (s.writeByteStream (s.strm x 2) bs, moveResult 10 bs.length 0 (bs.any (·.2)))

/-- COPY (12 R399): the bytes of stream A go to stream C with their poison state. -/
def execCopy (region slot : Nat) (s : State) : Host.Outcome State Fault Refusal :=
  .next (s.runItem region slot (takesMove 1) State.copyRun)

/-! ### The MX scale moves (04 R161) -/

def Item.mxTag (x : Item) : Nat := x.opnd 0x68 2
def Item.mxFirst (x : Item) : Nat := x.opnd 0x6C 4

/-- Scale lines that n blocks from block `b` on lie in. -/
def mxLines (b n : Nat) : Nat := (b + n + 55) / 56 - b / 56

def State.fromMxChecks (s : State) (x : Item) : List (Option Bad) :=
  let a := s.strm x 0
  let c := s.strm x 2
  [ s.bytesCheck a, s.bytesCheck c true
  , if c.byteCount < 64 * mxLines x.mxFirst a.byteCount then some (9, 2, 0) else none
  , overlapCheck x [a] [c] ]

/-- A code of an MX array that has no scale: not poisoned, and outside 96 to 127 (04 R161). -/
def mxBad (b : Byte × Bool) : Bool := !b.2 && (decide (b.1.toNat < 96) || decide (127 < b.1.toNat))

/-- The run of SCALES_FROM_MX: each line is one merge. TOTAL_BLOCKS of stream C's header bounds the last line, 0 bounding none; a
poisoned code is not checked, its line is written poisoned (DESIGN CHOICE, log entry 108). -/
def State.fromMxRun (s : State) (_region : Nat) (x : Item) : RunOut :=
  s.gated x (s.fromMxChecks x) [] fun _ =>
    let bs := s.readFetched x (s.strm x 0)
    let b0 := x.mxFirst
    if bs.any mxBad then .bad (9, 0, 0)
    else .ok 0 fun s x =>
      let c := s.strm x 2
      let s := (List.range (mxLines b0 bs.length)).foldl (fun s i =>
        let line := b0 / 56 + i
        let mine := (bs.zipIdx).filter fun p => (b0 + p.2) / 56 == line
        let addr := c.byteAddr (64 * i)
        let s := s.mergeLine { addr := addr, outAddr := none, tag := x.mxTag, first := 56 * line
                               total := if c.hdr.total == 0 then 2 ^ 32 else c.hdr.total
                               blocks := mine.map fun p => ((b0 + p.2) % 56, 127 - p.1.1.toNat, []) }
        if mine.any (·.1.2) then s.wr addr (s.rdBytes addr 64) true else s) s
      (s, moveResult 10 (64 * mxLines b0 bs.length) 0 (bs.any (·.2)))

/-- SCALES_FROM_MX (04 R161): an MX scale byte array becomes scale lines. -/
def execScalesFromMx (region slot : Nat) (s : State) : Host.Outcome State Fault Refusal :=
  .next (s.runItem region slot (takesMove 0x10) State.fromMxRun)

def State.toMxChecks (s : State) (x : Item) : List (Option Bad) :=
  let a := s.strm x 0
  let c := s.strm x 2
  [ s.bytesCheck a, s.bytesCheck c true
  , if a.byteCount < 64 * mxLines x.mxFirst c.byteCount then some (9, 0, 0) else none
  , overlapCheck x [a] [c] ]

/-- The scale lines that a SCALES_TO_MX reads. -/
def State.mxLinesIn (s : State) (x : Item) : List (List (Byte × Bool)) :=
  chunks 64 (mxLines x.mxFirst (s.strm x 2).byteCount) (s.readFetched x (s.strm x 0))

/-- The code of each block, with its line's poison. -/
def State.mxCodesIn (s : State) (x : Item) : List ((Byte × Bool) × Bool) :=
  let lines := s.mxLinesIn x
  (List.range (s.strm x 2).byteCount).map fun i =>
    let l := lines.getD ((x.mxFirst + i) / 56 - x.mxFirst / 56) []
    (l.getD (8 + (x.mxFirst + i) % 56) (0#8, false), l.any (·.2))

/-- A line that is no well-formed line of the stream, or a code that is not a scale of it: neither poisoned (04 R141, R161). -/
def State.mxLinesBad (s : State) (x : Item) : Bool :=
  ((s.mxLinesIn x).zipIdx).any (fun p =>
      !p.1.any (·.2) && lineCause (leNat (p.1.map (·.1))) x.mxTag (x.mxFirst / 56 + p.2) != 0)
    || (s.mxCodesIn x).any fun b => !b.2 && bits b.1.1.toNat 6 5 != 0

/-- The run of SCALES_TO_MX: every line is checked under R141 before a byte is written; a poisoned line is not, and its codes are written
poisoned (DESIGN CHOICE, log entry 108). -/
def State.toMxRun (s : State) (_region : Nat) (x : Item) : RunOut :=
  s.gated x (s.toMxChecks x) [] fun _ =>
    let out := s.mxCodesIn x
    if s.mxLinesBad x then .bad (9, 0, 0)
    else .ok 0 fun s x =>
      let ys := out.map fun b =>
        ((if bit b.1.1.toNat 7 then 127#8 else BitVec.ofNat 8 (127 - b.1.1.toNat % 32)), b.2)
      (s.writeByteStream (s.strm x 2) ys, moveResult 10 ys.length 0 (ys.any (·.2)))

/-- SCALES_TO_MX (04 R161): scale lines become an MX scale byte array. -/
def execScalesToMx (region slot : Nat) (s : State) : Host.Outcome State Fault Refusal :=
  .next (s.runItem region slot (takesMove 0x11) State.toMxRun)

/-! ### The row gathers (09 R288) -/

/-- One stored block, or for an unscaled stream one element, as a move carries it. -/
structure RawBlk where
  bytes : List (Byte × Bool)
  byte : Nat := 0
  outs : List Nat := []
  deriving DecidableEq, Repr

/-- Blocks or elements of one row of K. -/
def Strm.pieces (m : Strm) (k : Nat) : Nat := if m.scaled then k / m.nb else k

/-- The blocks of a stream, as stored, each with the poison of its fetch block (03 R121). -/
def State.rawBlocks (s : State) (x : Item) (m : Strm) : List RawBlk :=
  m.ents.flatMap fun e => (List.range e.rows).flatMap fun r =>
    let pois := s.rowPoison x m e false r
    let c := max 1 (e.fetchBytes false)
    if e.scaled then
      let bb := blockBytes e.fmt e.nb false
      let n := e.len / bb
      (List.range n).map fun j =>
        let b := e.blkidx + r * n + j
        let a := e.addr + r * e.stride + bb * j
        let la := e.lineAddr m.hdr b
        let byte := (s.ib x (la + 8 + b % 56)).toNat
        let skip := bit byte 7 && e.zskip
        let outs := if m.esc then s.blkOutliers x m.hdr e b else []
        { bytes := marked (pois.getD (bb * j / c) false) (if skip then List.replicate bb 0#8 else s.ibs x a bb), byte := byte, outs := outs }
    else
      let w := fmtBits e.fmt / 8
      (List.range (e.len / w)).map fun i =>
        { bytes := marked (pois.getD (w * i / c) false) (s.ibs x (e.addr + r * e.stride + w * i) w) }

/-- A zero block, or a +0 (04 R132). -/
def zeroBlk (m : Strm) : RawBlk :=
  if m.scaled then
    let z := writeBlock m.fmt mRN false (1, 0) (List.replicate m.nb { v := .zero })
    { bytes := marked false (packCodes (fmtBits m.fmt) z.codes), byte := z.byte }
  else { bytes := marked false (List.replicate (fmtBits m.fmt / 8) 0#8) }

/-- Apply the elements of an unscaled entry, as they are stored, as near-memory operations (11 R363). -/
def State.nearRaw (s : State) (e : Ent) (tag : Nat) (l : List RawBlk) : Wrote :=
  let w := fmtBits e.fmt / 8
  let n := e.len / w
  (l.zipIdx).foldl (fun (acc : Wrote) p =>
    let d := acc.st.nmApply (e.addr + p.2 / max n 1 * e.stride + p.2 % max n 1 * w) ((nmType e.fmt).getD 0) e.nmop
      (leNat (p.1.bytes.map (·.1))) (p.1.bytes.any (·.2)) false tag
    { st := d.st, counts := acc.counts.add { saturated := b2n d.sat }, poison := acc.poison || d.poison }) { st := s, counts := {} }

/-- Write blocks as stored, in stream order; an entry with NMA performs its operation with each element (11 R363). -/
def State.writeRaw (s : State) (m : Strm) (tag : Nat) (l : List RawBlk) : Wrote :=
  (m.ents.foldl (fun (acc : Wrote × List RawBlk) e =>
    let per := if e.scaled then e.len / blockBytes e.fmt e.nb false else e.len / (fmtBits e.fmt / 8)
    let mine := acc.2.take (e.rows * per)
    let w : Wrote :=
      if !e.scaled && e.nma then acc.1.st.nearRaw e tag mine
      else
        let s := ((chunks per e.rows mine).zipIdx).foldl (fun s p =>
          s.wrMarks (e.addr + p.2 * e.stride) (p.1.flatMap (·.bytes))) acc.1.st
        { st := if e.scaled then s.mergeBlocks m e ((mine.zipIdx).map fun p => (e.blkidx + p.2, p.1.byte, p.1.outs)) else s, counts := {} }
    ({ st := w.st, counts := acc.1.counts.add w.counts, poison := acc.1.poison || w.poison }, acc.2.drop (e.rows * per)))
    ({ st := s, counts := {} }, l)).1

/-- The result of a move that wrote blocks as stored. -/
def rawResult (m : Strm) (w : Wrote) (zeros : Nat) (bad : Bool) : Result :=
  { moveResult m.fmt m.elems zeros (bad || w.poison) with counts := { w.counts with zeros := zeros } }

/-- A gather: rows of C, elements of a row, the first list entry used, and entries read. -/
structure GatherOp where
  k : Nat
  first : Nat
  count : Nat
  pad : Nat
  slots : Bool
  deriving DecidableEq, Repr

def Item.gather (x : Item) : GatherOp :=
  if x.op == 0x20 then ⟨x.opnd 0x6C 3, x.opnd 0x70 4, x.opnd 0x68 4, x.opnd 0x74 4, false⟩
  else ⟨x.opnd 0x6C 3, 0, x.opnd 0x68 4 * x.opnd 0x6F 1, 0, true⟩

def State.gatherAdmit (s : State) (x : Item) : Option Bad :=
  let o := x.gather
  let a := s.strm x 0
  let c := s.strm x 2
  match s.moveAdmit x [.yes, .yes, .yes, .no] with
  | some e => some e
  | none =>
    if o.k == 0 || (a.scaled && o.k % a.nb != 0) then some (9, 0, 0)
    else if c.fmt != a.fmt || c.nb != a.nb || c.scaled != a.scaled || (a.scaled && c.hdr.coarse != a.hdr.coarse) then some (9, 2, 0)
    else if a.scaled && a.hdr.outBase != 0 && c.hdr.outBase == 0 then some (9, 2, 0)
    else none

def State.gatherChecks (s : State) (x : Item) : List (Option Bad) :=
  let o := x.gather
  let a := s.strm x 0
  let b := s.strm x 1
  let c := s.strm x 2
  [ s.entsCheck a fmtsAll, s.bytesCheck b, s.entsCheck c fmtsAll false true
  , if a.elems % o.k != 0 then some (9, 0, 0) else none
  , if b.byteCount < 8 * (o.first + o.count) then some (9, 1, 0) else none
  , sizeCheck c false ((o.count + o.pad) * o.k)
  , overlapCheck x [a, b] [c] ]

/-- The row that each entry of a gather's list names, with the entry's poison. -/
def State.gatherPicks (s : State) (x : Item) : List (Nat × Bool) :=
  let o := x.gather
  let list := ((s.readFetched x (s.strm x 1)).drop (8 * o.first)).take (8 * o.count)
  (chunks 8 o.count list).map fun e =>
    let n := leNat (e.map (·.1))
    (if o.slots then n / 2 ^ 32 else n % 2 ^ 32, e.any (·.2))

/-- An entry that names a row stream A does not have. -/
def State.pickBad (s : State) (x : Item) (p : Nat × Bool) : Bool :=
  !(x.gather.slots && p.1 == 0xFFFFFFFF) && decide ((s.strm x 0).elems / x.gather.k ≤ p.1) && !p.2

/-- The run of a gather. -/
def State.gatherRun (s : State) (_region : Nat) (x : Item) : RunOut :=
  let o := x.gather
  let a := s.strm x 0
  let c := s.strm x 2
  s.gated x (s.gatherChecks x) [(a, false)] fun _ =>
    let per := a.pieces o.k
    let rows := chunks per (a.elems / o.k) (s.rawBlocks x a)
    let picks := s.gatherPicks x
    let zero := List.replicate per (zeroBlk c)
    if picks.any (s.pickBad x) then .bad (9, 1, 1)
    else
      let out := (picks.map fun p =>
        let r := if o.slots && p.1 == 0xFFFFFFFF then zero else rows.getD p.1 zero
        if p.2 then r.map fun b => { b with bytes := b.bytes.map fun y => (y.1, true) } else r)
        ++ List.replicate o.pad zero
      let zeros := ((picks.filter fun p => o.slots && p.1 == 0xFFFFFFFF).length + o.pad) * o.k
      .ok 0 fun s x =>
        let bad := out.any fun r => r.any fun b => b.bytes.any (·.2)
        let w := s.writeRaw c x.tag (out.flatMap id)
        (w.st, rawResult c w zeros bad)

/-- GATHER_ROWS (09 R288): the rows a dispatch list names, then zero rows. -/
def execGatherRows (region slot : Nat) (s : State) : Host.Outcome State Fault Refusal :=
  .next (s.runItem region slot (takesMove 0x20) State.gatherRun)

/-- GATHER_SLOTS (09 R288): expert outputs back in token-slot order. -/
def execGatherSlots (region slot : Nat) (s : State) : Host.Outcome State Fault Refusal :=
  .next (s.runItem region slot (takesMove 0x21) State.gatherRun)

/-! ### Scale-line merges (04 R566) -/

/-- SCALE_LINE_MERGE (04 R566): blocks of a scale line written as one merge at the memory that holds the line. -/
def execScaleLineMerge (m : LineMerge) (s : State) : Host.Outcome State Fault Refusal :=
  if s.mapped m.addr 64 && (match m.outAddr with | some a => s.mapped a 224 | none => true) then .next (s.mergeLine m)
  else .next s

/-! ### The drain ends (12 R400) -/

/-- DRAIN_COMPLETE (R400): the drain in progress has copied its extents in list order; its Cleat is signalled. -/
def execDrainComplete (s : State) : Host.Outcome State Fault Refusal :=
  if (s.progress progDrain).state == 1 && !s.mem.drainWaits then
    let p := s.progress progDrain
    let s := s.mem.drainList.foldl (fun s e => s.drainLines e.1 e.2.1 (e.2.2 / 64)) s
    let s := { s with mem := { s.mem with drainList := [] } }
    let s := s.setProgress progDrain { p with state := 2, position := p.total }
    .next (s.signalWord (s.dv 0x6030 3)).settle
  else .next s

end Sys2Proof.Machine
end

