-- ==== Sys2Proof/Machine/Kv.lean ====
section
/-! DEFINITION. The paged key-value cache: layouts, records, page tables, free-page rings, spill slots, the record
operations, and the reeve path of a Twine product (10 R300 to R326). -/

namespace Sys2Proof.Machine

/-! ### Layouts (R300, R301) -/

structure KvLay where
  valid : Bool
  esc : Bool
  rope : Bool
  headroom : Nat
  hq : Nat
  hkv : Nat
  hdb : Nat
  vtag : Nat
  ktag : Nat
  ropeHi : Nat
  ropeLo : Nat
  deriving DecidableEq, Repr

def parseLay (n : Nat) : KvLay :=
  let sh := fld n 0 4
  ⟨bit sh 31, bit sh 30, bit sh 29, bits sh 28 26, bits sh 23 16, bits sh 15 8, bits sh 7 0, fld n 6 2, fld n 4 2, fld n 8 6, fld n 16 6⟩

def KvLay.hd (l : KvLay) : Nat := 32 * l.hdb
/-- Query heads per KV head. -/
def KvLay.g (l : KvLay) : Nat := l.hq / l.hkv
/-- Elements of K, and again of V, of one token. -/
def KvLay.half (l : KvLay) : Nat := l.hkv * l.hd
def KvLay.nb (l : KvLay) : Nat := 128 * l.hkv * l.hdb
def KvLay.lk (l : KvLay) : Nat := (l.nb + 55) / 56
def KvLay.ksl (_ : KvLay) : Nat := 0x400
def KvLay.vsl (l : KvLay) : Nat := 0x400 + 64 * l.lk
def KvLay.kdat (l : KvLay) : Nat := (l.vsl + 64 * l.lk + 0xFFF) / 0x1000 * 0x1000
def KvLay.vdat (l : KvLay) : Nat := l.kdat + 64 * l.half
def KvLay.kout (l : KvLay) : Nat := l.vdat + 64 * l.half
def KvLay.vout (l : KvLay) : Nat := l.kout + 224 * l.lk
def KvLay.stop (l : KvLay) : Nat := if l.esc then l.vout + 224 * l.lk else l.kout

/-- Bytes of a token row in a spill slot (R319): elements, scale bytes, with ESC two entries a block, and POS. -/
def KvLay.row (l : KvLay) : Nat := l.half + 2 * l.hkv * l.hdb * (if l.esc then 5 else 1) + 4

/-- A VALID layout that a dictionary write accepts (R300). -/
def KvLay.ok (l : KvLay) (slotSize : Nat) : Bool :=
  decide (1 ≤ l.hq) && decide (l.hq ≤ 128) && decide (1 ≤ l.hkv) && decide (l.hkv ≤ 64) && decide (1 ≤ l.hdb) &&
    decide (l.hdb ≤ 16) && l.hq % l.hkv == 0 && decide (l.stop ≤ slotSize) && decide (l.row ≤ 4096)

/-- Layout record i of a ply die. -/
def State.kvLay (s : State) (die i : Nat) : KvLay :=
  parseLay (leNat ((List.range 8).flatMap fun w => leBytes 4 (s.reg .ateLayout die (8 * (i % 16) + w)).toNat))

/-- Bytes of a page slot (R304, R336). -/
def State.kvSlotSize (s : State) (die : Nat) : Nat := 2 ^ (15 + bits (s.reg .ateSlot die).toNat 1 0)

/-! ### Records (R305) -/

structure KvRec where
  dir : Nat
  len : Nat
  lastPos : Nat
  ref : Nat
  spill : Nat
  layout : Nat
  rflags : Nat
  deriving DecidableEq, Repr

def parseRec (n : Nat) : KvRec := ⟨fld n 0 8, fld n 8 4, fld n 0xC 4, fld n 0x10 4, fld n 0x14 2, fld n 0x16 1 % 16, fld n 0x17 1⟩

def KvRec.valid (r : KvRec) : Bool := bit r.dir 63
def KvRec.spread (r : KvRec) : Bool := bit r.rflags 0
def dirAddr (dir : Nat) : Nat := dir % 2 ^ 48 / 512 * 512

/-- Address of a record, none when the layer has no records or the record lies outside the map. -/
def State.kvRecAddr (s : State) (seq layer : Nat) : Option Nat :=
  let h := kvHome seq
  let n := min (bits (s.reg .ateSeqCfg h).toNat 12 0) 4096
  let a := (s.pair .ateSeqBase .ateSeqBaseHi h) % 2 ^ 48 / 32 * 32 + (seq * n + layer) * 32
  if layer < n && s.mapped a 32 then some a else none

/-- The record of a sequence and layer. -/
def State.kvRec (s : State) (seq layer : Nat) : Option KvRec :=
  (s.kvRecAddr seq layer).map fun a => parseRec (s.rd a 32)

/-- Write one field of a record. -/
def State.setRecField (s : State) (seq layer off n v : Nat) : State :=
  match s.kvRecAddr seq layer with
  | some a => s.wr (a + off) (leBytes n v)
  | none => s

/-! ### Page tables (R304, R306) -/

/-- The leaf of page index p, when its directory entry is VALID: the address of the page's entry. -/
def State.pteAddr (s : State) (dir p : Nat) : Option Nat :=
  let a := dirAddr dir + 8 * (p / 512)
  if !s.mapped a 8 then none
  else
    let e := s.rd a 8
    let b := e % 2 ^ 48 / 4096 * 4096 + 8 * (p % 512)
    if bit e 63 && s.mapped b 8 then some b else none

/-- The page's entry, when it is VALID. -/
def State.pte (s : State) (dir p : Nat) : Option Nat :=
  match s.pteAddr dir p with
  | some a => if bit (s.rd a 8) 63 then some (s.rd a 8) else none
  | none => none

/-- Address of the page slot that an entry names. -/
def State.slotAddr (s : State) (die slot : Nat) : Nat :=
  (s.pair .atePoolBase .atePoolBaseHi die) % 2 ^ 48 / 0x40000 * 0x40000 + slot * s.kvSlotSize die

def State.pageAddr (s : State) (home pte : Nat) : Nat := s.slotAddr home (bits pte 56 32)

/-! ### Free-page rings (R317, R336) -/

def State.ateSize (s : State) (die : Nat) : Nat := 2 ^ clampNat 10 25 (bits (s.reg .ateRingCfg die).toNat 4 0)
def State.ateDepth (s : State) (die : Nat) : Nat := (s.reg .ateRingTail die - s.reg .ateRingHead die).toNat
def State.ateBase (s : State) (die : Nat) : Nat := (s.pair .ateRingBase .ateRingBaseHi die) % 2 ^ 48 / 4096 * 4096

/-- Set EXHAUSTED or LOW, interrupting when the bit goes from 0 to 1. -/
def State.ateEvent (s : State) (die m : Nat) : State :=
  let old := (s.reg .ateSts die).toNat
  let t := s.flag .ateSts die 0 m
  if (if m == 1 then bit old 0 else bit old 1) then t else t.irqBy (s.reg .ateEvtCfg die) causeRing (die * 16 + m)

/-- A page can be popped. -/
def State.ateReady (s : State) (die : Nat) : Bool := bit (s.reg .ateRingCfg die).toNat 31 && s.ateDepth die != 0

/-- Pop a slot number; LOW when the depth falls below ATE_RING_LOW. -/
def State.atePop (s : State) (die : Nat) : Nat × State :=
  let h := s.reg .ateRingHead die
  let v := s.rd (s.ateBase die + 4 * (h.toNat % s.ateSize die)) 4 % 2 ^ 25
  let s := s.setReg .ateRingHead die 0 (h + 1)
  (v, if decide (s.ateDepth die < (s.reg .ateRingLow die).toNat) then s.ateEvent die 2 else s)

/-- Die whose ring a new page of index p comes from. -/
def ringDie (r : KvRec) (die p : Nat) : Nat := if r.spread then p % 4 else die

/-! ### Tokens -/

def dSpill : Nat → List SpillTok := fun _ => []
def State.spillOf (s : State) (cluster : Nat) : List SpillTok := tget dSpill s.spills cluster
def State.setSpill (s : State) (cluster : Nat) (l : List SpillTok) : State := { s with spills := tset dSpill s.spills cluster l }

/-- Every spilled token of a record, in index order. -/
def State.spilled (s : State) (seq layer : Nat) : List SpillTok :=
  (s.spills.flatMap fun e => e.2.filter fun t => t.seq == seq && t.layer == layer).mergeSort fun a b => decide (a.index ≤ b.index)

/-- A row on its way: its N elements after the rotary position, and the coarse scale a new page would take. -/
structure Token where
  seq : Nat
  layer : Nat
  index : Nat
  pos : Nat
  els : List OutEl
  fresh : Nat
  round : Nat
  die : Nat
  cluster : Nat
  region : Nat
  item : Nat

/-- How an APPEND ended, with the counts of the elements as written. -/
inductive Appended where
  | placed (c : Counts)
  | spilled (c : Counts)
  | full
  | bad
  deriving DecidableEq, Repr

/-- Blocks of one half of a token: bytes, scale byte and entries per block, counts, poison. -/
def encodeHalf (l : KvLay) (mode coarse : Nat) (els : List OutEl) : List Byte × List (Nat × List Nat) × Counts :=
  let cf := match f32 coarse with | .fin m e => (m, e) | _ => (1, 0)
  let bs := (chunks 32 (els.length / 32) els).map fun xs => writeBlock 3 mode l.esc cf xs
  (bs.flatMap fun b => packCodes 4 b.codes, bs.map fun b => (b.byte, b.entries), sumCounts (bs.map (·.counts)))

/-- A token as it would be written at a coarse scale. -/
def Token.encode (t : Token) (l : KvLay) (coarse : Nat) : SpillTok × Counts :=
  let k := encodeHalf l t.round coarse (t.els.take l.half)
  let v := encodeHalf l t.round coarse (t.els.drop l.half)
  ({ seq := t.seq, layer := t.layer, index := t.index, pos := t.pos, coarse := coarse
     kBytes := k.1, kBlocks := k.2.1, vBytes := v.1, vBlocks := v.2.1, poison := t.els.any (·.poison)
     die := t.die, region := t.region, item := t.item }, k.2.2.add v.2.2)

/-- Write one half of a token into a page: elements, then its scale bytes and entries as merges. -/
def State.writeHalf (s : State) (l : KvLay) (dat sl out tag slot : Nat) (bytes : List Byte) (blocks : List (Nat × List Nat))
    (bad : Bool) : State :=
  let s := s.wrMarks (dat + slot * (l.half / 2)) (marked bad bytes)
  let b0 := slot * l.hkv * l.hdb
  (List.range ((b0 + blocks.length + 55) / 56 - b0 / 56)).foldl (fun s i =>
    let line := b0 / 56 + i
    let mine := (blocks.zipIdx).filterMap fun b =>
      if (b0 + b.2) / 56 == line then some ((b0 + b.2) % 56, b.1.1, b.1.2) else none
    s.mergeLine { addr := sl + 64 * line, outAddr := if l.esc then some (out + 224 * line) else none
                  tag := tag, first := 56 * line, total := l.nb, blocks := mine }) s

/-- Write a token into slot `index mod 128` of a page (R312). -/
def State.writeTok (s : State) (l : KvLay) (page : Nat) (t : SpillTok) : State :=
  let slot := t.index % 128
  let s := s.writeHalf l (page + l.kdat) (page + l.ksl) (page + l.kout) l.ktag slot t.kBytes t.kBlocks t.poison
  let s := s.writeHalf l (page + l.vdat) (page + l.vsl) (page + l.vout) l.vtag slot t.vBytes t.vBlocks t.poison
  s.wr (page + 0x40 + 4 * slot) (leBytes 4 t.pos)

/-- The page header of R302. -/
def pageHeader (seq layer page layout coarse pos : Nat) : List Byte :=
  leBytes 2 seq ++ leBytes 2 layer ++ leBytes 2 page ++ leBytes 1 layout ++ leBytes 1 0 ++ leBytes 4 coarse ++ leBytes 4 pos
    ++ leBytes 48 0

/-- A power of two from 2^−126 to 2^127, as an FP32 code. -/
def pow2Code (c : Nat) : Bool := normalPos c && c % 2 ^ 23 == 0

/-- The coarse scale of a new page (R313), none when it is not a legal power of two. -/
def newPageCoarse (fresh headroom : Nat) : Option Nat :=
  let c := fresh + headroom * 2 ^ 23
  if pow2Code fresh && pow2Code c then some c else none

/-- LEN and LAST_POS after a token was placed. -/
def State.advanceRec (s : State) (seq layer len pos : Nat) : State :=
  (s.setRecField seq layer 8 4 len).setRecField seq layer 0xC 4 pos

/-- A page is taken for page index p of a record, its header and then its entry written. -/
def State.takePage (s : State) (r : KvRec) (home seq layer p pte ring coarse pos : Nat) : State × Nat :=
  let q := s.atePop ring
  let page := q.2.slotAddr home q.1
  let s := q.2.wr page (pageHeader seq layer p r.layout coarse pos)
  (s.wr pte (leBytes 8 (2 ^ 63 + q.1 * 2 ^ 32 + pos)), page)

/-- The page-exhausted event (R318). -/
def State.pageExhausted (s : State) (seq layer cause ring : Nat) : State :=
  let s := (s.setReg .ateExhLast ring 0
    (BitVec.ofNat 32 (seq * 2 ^ 16 + cause * 2 ^ 15 + ring * 2 ^ 12 + layer % 4096))).bump .ateExhCnt ring 0 1
  s.ateEvent ring 1

/-- Put a token into its cluster's spill slot (R319). -/
def State.spillTok (s : State) (cluster : Nat) (r : KvRec) (t : SpillTok) : State :=
  ((s.setSpill cluster (s.spillOf cluster ++ [t])).setRecField t.seq t.layer 0x14 2 (r.spill + 1)).flag .ateClSts cluster 0 2

/-- The coarse scale of the page a token goes to, once the page exists. -/
def State.pageCoarse (s : State) (page : Nat) : Nat := s.rd (page + 8) 4

/-- The coarse scale of the page a spilled token will go to (R313): at a page boundary that of the new page, none when it is not legal;
elsewhere that of the boundary token in a spill slot, or of the page once it exists (DEDUCED, log entry 110). -/
def State.spillCoarse (s : State) (home : Nat) (r : KvRec) (headroom : Nat) (held : List SpillTok) (index fresh : Nat) : Option Nat :=
  if index % 128 == 0 then newPageCoarse fresh headroom
  else match held.find? (fun h => h.index == index / 128 * 128), s.pte r.dir (index / 128), held.find? (fun h => h.index / 128 == index / 128) with
    | some h, _, _ => some h.coarse
    | none, some e, _ => some (s.pageCoarse (s.pageAddr home e))
    | none, none, some h => some h.coarse
    | none, none, none => newPageCoarse fresh headroom

/-- The page-exhausted event of a token: none beyond the first for it (R339). -/
def State.exhaustedOnce (s : State) (t : Token) (cause ring : Nat) : State :=
  if s.exhSeen.contains (t.seq, t.layer, t.index) then s else s.pageExhausted t.seq t.layer cause ring

/-- A token has its place: the next event about it would be a first one. -/
def State.exhForget (s : State) (t : Token) : State := { s with exhSeen := s.exhSeen.filter (· != (t.seq, t.layer, t.index)) }

/-- A token goes to its cluster's spill slot, when that has room (R319). -/
def State.spillOr (s : State) (t : Token) (r : KvRec) (l : KvLay) (coarse : Nat) (exh : Bool) : State × Appended :=
  if (s.spillOf t.cluster).length < 16 then
    let k := t.encode l coarse
    ((s.exhForget t).spillTok t.cluster r k.1, .spilled k.2)
  else
    let s := s.flag .ateClSts t.cluster 0 4
    (if exh then { s with exhSeen := (t.seq, t.layer, t.index) :: s.exhSeen.filter (· != (t.seq, t.layer, t.index)) } else s, .full)

/-- The POS of a token that is not in the record breaks the rising order of R307: against the token before it, or, where that token was
lost with its spill slot, against those that are held. -/
def posBad (r : KvRec) (held : List SpillTok) (index pos : Nat) : Bool :=
  let before := match (held.filter fun h => decide (h.index < index)).getLast? with | some h => h.pos | none => r.lastPos
  (index != 0 && decide (pos ≤ before)) || (match held.find? fun h => decide (index < h.index) with | some h => decide (h.pos ≤ pos) | none => false)

/-- APPEND of a token at its record's home die (R316). -/
def State.kvAppend (s : State) (t : Token) : State × Appended :=
  match s.kvRec t.seq t.layer with
  | none => (s, .bad)
  | some r =>
    let home := kvHome t.seq
    let l := s.kvLay home r.layout
    let e := r.len + r.spill
    let p := t.index / 128
    let held := s.spilled t.seq t.layer
    if !r.valid || decide (e < t.index) || decide (4194304 ≤ t.index) then (s, .bad)
    else if t.index < r.len then
      match s.pte r.dir p with
      | none => (s, .bad)
      | some e =>
        let page := s.pageAddr home e
        if s.rd (page + 0x40 + 4 * (t.index % 128)) 4 != t.pos then (s, .bad)
        else
          let k := t.encode l (s.pageCoarse page)
          (s.writeTok l page k.1, .placed k.2)
    else match held.find? (fun h => h.index == t.index) with
    | some h =>
      -- the rewrite of a spilled token: its page, not taken yet, has the new scale (R339)
      match s.spillCoarse home r l.headroom held t.index t.fresh with
      | none => (s, .bad)
      | some coarse =>
        if h.pos != t.pos then (s, .bad)
        else
          let k := t.encode l coarse
          let s := { s with spills := s.spills.map fun c => (c.1, c.2.map fun x =>
            if x.seq == t.seq && x.layer == t.layer && x.index == t.index then { k.1 with region := x.region, item := x.item } else x) }
          (s, .spilled k.2)
    | none =>
      -- the token at the expected index, or one that a reset took out of a spill slot (R321)
      if posBad r held t.index t.pos then (s, .bad)
      else if r.spill != 0 then
        match s.spillCoarse home r l.headroom held t.index t.fresh with
        | none => (s, .bad)
        | some coarse => s.spillOr t r l coarse false
      else if t.index % 128 != 0 then
        match s.pte r.dir p with
        | none => (s, .bad)
        | some e =>
          let page := s.pageAddr home e
          let k := t.encode l (s.pageCoarse page)
          ((s.writeTok l page k.1).advanceRec t.seq t.layer (r.len + 1) t.pos, .placed k.2)
      else
        match newPageCoarse t.fresh l.headroom with
        | none => (s, .bad)
        | some coarse =>
          let ring := ringDie r t.die p
          let k := t.encode l coarse
          match s.ateReady ring, s.pteAddr r.dir p with
          | true, some pte =>
            if bit (s.rd pte 8) 63 then (s, .bad)
            else
              let n := s.takePage r home t.seq t.layer p pte ring coarse t.pos
              (((n.1.writeTok l n.2 k.1).advanceRec t.seq t.layer (r.len + 1) t.pos).exhForget t, .placed k.2)
          | ready, _ =>
            -- the event comes for the token whether or not the spill slot has room (R318, R339)
            (s.exhaustedOnce t (if ready then 1 else 0) ring).spillOr t r l coarse true

/-! ### Draining (R320) -/

/-- Tokens of an item still in spill slots. -/
def State.itemSpills (s : State) (region item : Nat) : List SpillTok :=
  s.spills.flatMap fun e => e.2.filter fun t => t.region == region && t.item == item

/-- The oldest entry of a cluster placed, when its page is there or can be taken; none when it must wait. -/
def State.drainOne (s : State) (cluster : Nat) : Option (State × SpillTok) :=
  match s.spillOf cluster with
  | [] => none
  | t :: rest =>
    match s.kvRec t.seq t.layer with
    | none => none
    | some r =>
      let home := kvHome t.seq
      let l := s.kvLay home r.layout
      let p := t.index / 128
      let ring := ringDie r t.die p
      let done := fun (s : State) (page : Nat) =>
        let s := (s.writeTok l page t).advanceRec t.seq t.layer (r.len + 1) t.pos
        ((s.setRecField t.seq t.layer 0x14 2 (r.spill - 1)).setSpill cluster rest, t)
      if !r.valid || r.len != t.index || s.dieDown home then none
      else if t.index % 128 != 0 then (s.pte r.dir p).map fun e => done s (s.pageAddr home e)
      else match s.ateReady ring, s.pteAddr r.dir p with
        | true, some pte =>
          if bit (s.rd pte 8) 63 then none
          else
            let n := s.takePage r home t.seq t.layer p pte ring t.coarse t.pos
            some (done n.1 n.2)
        | _, _ => none

/-- An item that waited on its spilled tokens goes on once none is left. -/
def State.wakeSpill (s : State) (region item : Nat) : State :=
  if (s.itemSpills region item).isEmpty then
    { s with items := s.items.map fun e => (e.1, e.2.map fun x =>
        if e.1 / 256 == region && x.count == item && x.stage == .finished then { x with waitCyc := none } else x) }
  else s

/-- SPILL_DRAIN (R320): the cluster's oldest spilled token is appended, if its page or leaf is there. -/
def execSpillDrain (cluster : Nat) (s : State) : Host.Outcome State Fault Refusal :=
  .next (match s.drainOne cluster with
    | none => s
    | some (t, k) => t.wakeSpill k.region k.item)

/-- PAGE_WAIT_US has passed since an item began to wait. -/
def State.pageWaitOver (s : State) (region : Nat) (x : Item) : Bool :=
  match x.waitCyc with
  | some c => decide (c + cycOfUs (s.reg .ateWaitUs (regionDie region)).toNat ≤ s.cycle)
  | none => false

/-- PIN_WAIT_TIMEOUT (R322): an item that has waited PAGE_WAIT_US to pin a record whose SPILL is above 0 completes with
PAGE_WAIT; it has pinned nothing. -/
def execPinWaitTimeout (region slot : Nat) (s : State) : Host.Outcome State Fault Refusal :=
  .next (match s.item region slot with
    | some x =>
      let seq := x.opnd 0x6C 2
      let spill := match s.kvRec seq x.layer with | some r => r.spill | none => 0
      if x.stage == .ready && x.engine == 4 && s.pageWaitOver region x && spill != 0 && x.pin == none then
        ((s.bump .ateWaitCnt (regionDie region) 0 1).finish region slot { x with
          waitCyc := none, res := { statuses := [(stPageWait, seq * 2 ^ 16)], partialOut := true } }).settle
      else s
    | none => s)

/-- ATE_RING_TAIL_WRITE (R317, R336): pages go back to the ring of a ply die; a write that would exceed the ring is ignored
with OVERRUN. -/
def execAteRingTailWrite (ini die value : Nat) (s : State) : Host.Outcome State Fault Refusal :=
  let s := s.intervene ini die none
  if 4 ≤ die then .next s
  else if s.ateSize die < (BitVec.ofNat 32 value - s.reg .ateRingHead die).toNat then .next (s.flag .ateSts die 0 4)
  else .next (s.setReg .ateRingTail die 0 (BitVec.ofNat 32 value))

/-! ### PIN, RELEASE and PUBLISH of a record (R309, R310, R324) -/

/-- PIN: the snapshot, and a SIGNAL on REF. -/
def State.pinRec (s : State) (seq : Nat) (r : KvRec) (bad : Bool) : State × Pin :=
  (s.refOp (kvHome seq) r.ref (.signal 1), ⟨r.dir, r.len, r.lastPos, r.layout, r.ref, bad⟩)

/-- An ATTEND item of a record that can pin now. -/
def Item.attends (x : Item) (seq layer : Nat) : Bool :=
  x.engine == 4 && x.op == 1 && x.opnd 0x6C 2 == seq && x.layer == layer && (x.stage == .ready || x.stage == .running)

/-- RECORD_PIN (R309): a PIN of the ATTEND item in a slot is applied at the record's home die. An item that finds SPILL
above 0 waits (R322). -/
def execRecordPin (op : RecOp) (s : State) : Host.Outcome State Fault Refusal :=
  .next (match s.item op.region op.slot, s.kvRec op.seq op.layer with
    | some x, some r =>
      if !x.attends op.seq op.layer || x.pin.isSome || s.dieDown (kvHome op.seq) || !r.valid then s
      else if r.spill != 0 then
        s.setItem op.region op.slot (some { x with waitCyc := some (x.waitCyc.getD s.cycle) })
      else
        let p := s.pinRec op.seq r (s.poisoned ((s.kvRecAddr op.seq op.layer).getD 0))
        -- an operation of the home die may make items ready, this one among them
        (match p.1.item op.region op.slot with
          | some y => p.1.setItem op.region op.slot (some { y with pin := some p.2, waitCyc := none })
          | none => p.1).settle
    | _, _ => s)

/-- RECORD_RELEASE (R310): a RELEASE decrements the REF that the item's walker pinned. -/
def execRecordRelease (op : RecOp) (s : State) : Host.Outcome State Fault Refusal :=
  .next (match s.item op.region op.slot with
    | some x =>
      match x.pin with
      | some p => ((s.setItem op.region op.slot (some { x with pin := none })).releasePin (x.opnd 0x6C 2) p).settle
      | none => s
    | none => s)

/-- PUBLISH of a record image as one record operation: the state, or the LEN with which it is refused (R324). -/
def State.publishRec (s : State) (seq layer image flags expect : Nat) : Option (Except Nat State) :=
  match s.kvRecAddr seq layer, s.kvRec seq layer with
  | some a, some r =>
    let n := parseRec image
    let same := n.dir == r.dir && n.ref == r.ref
    let count := if refEn r.ref then (s.cleat (bits r.ref 30 28) (bits r.ref 13 0)).toNat else 0
    if r.spill != 0 || (bit flags 0 && r.len != expect) || (same && decide (n.len < r.len) && decide (1 < count))
    then some (.error r.len)
    else
      let img := setBits image (0x14 * 8 + 15) (0x14 * 8) 0
      let s := s.wr a (leBytes 32 img)
      if same then some (.ok s)
      else
        let home := kvHome seq
        let s := { s with exhSeen := s.exhSeen.filter fun k => k.1 != seq || k.2.1 != layer }
        let s := if n.valid then s.refOp home n.ref (.signal 1) else s
        some (.ok (s.refOp home r.ref (.decrement 1)))
  | _, _ => none

/-- The PUBLISH item in a slot that waits for a record operation's answer. -/
def Item.publishes (x : Item) : Bool := x.engine == 4 && x.op == 0x10 && (x.stage == .ready || x.stage == .running)

/-- RECORD_PUBLISH (R324): a PUBLISH arrives at the record's home die: applied, or refused, and its item ends. -/
def execRecordPublish (op : RecOp) (s : State) : Host.Outcome State Fault Refusal :=
  .next (if s.dieDown (kvHome op.seq) then s
    else
      let stop := fun (t : State) (r : Result) =>
        match t.item op.region op.slot with
        | some x => if x.publishes then t.endRun op.region op.slot x r else t
        | none => t
      match s.publishRec op.seq op.layer op.image op.flags op.expectLen with
      | none => stop s { statuses := [(stInvalid, badDetail (9, 0, 0))] }
      | some (.error n) => stop s { statuses := [(stBusy, n)] }
      | some (.ok t) => (stop t {}).settle)

/-! ### Rotary position (R315) -/

/-- Cosine and sine of a rotary position for pair i, and whether the tables' lines are poisoned. -/
def State.ropePair (s : State) (x : Item) (l : KvLay) (rot i : Nat) : XV × XV × Bool :=
  let hi := l.ropeHi + rot / 4096 * (4 * l.hd) + 4 * i
  let lo := l.ropeLo + rot % 4096 * (4 * l.hd) + 4 * i
  let at' := fun (a : Nat) => f32 (s.iw x a 4)
  let ca := at' hi
  let sa := at' (hi + 2 * l.hd)
  let cb := at' lo
  let sb := at' (lo + 2 * l.hd)
  let r := fun (a b : XV) => (rn32 (a.mul b)).1
  ((rn32 ((r ca cb).sub (r sa sb))).1, (rn32 ((r sa cb).add (r ca sb))).1,
    s.ipois x hi || s.ipois x (hi + 2 * l.hd) || s.ipois x lo || s.ipois x (lo + 2 * l.hd))

/-- One rotated half: a × c ∓ b × s. -/
def ropeMix (a b : OutEl) (c s : XV) (minus bad : Bool) : OutEl :=
  let p := rn32 (a.v.mul c)
  let q := rn32 (b.v.mul s)
  let y := rn32 (if minus then p.1.sub q.1 else p.1.add q.1)
  { a with v := y.1, sat := a.sat || b.sat || p.2 || q.2 || y.2, poison := a.poison || b.poison || bad }

/-- K of a row with the rotary position applied, V as it is. -/
def State.rope (s : State) (x : Item) (l : KvLay) (rot : Nat) (els : List OutEl) : List OutEl :=
  if !l.rope then els
  else
    let cs := (List.range (l.hd / 2)).map fun i => s.ropePair x l rot i
    let k := (chunks l.hd l.hkv (els.take l.half)).flatMap fun h =>
      let lo := h.take (l.hd / 2)
      let hi := h.drop (l.hd / 2)
      let z := (lo.zip hi).zip cs
      z.map (fun p => ropeMix p.1.1 p.1.2 p.2.1 p.2.2.1 true p.2.2.2)
        ++ z.map fun p => ropeMix p.1.2 p.1.1 p.2.1 p.2.2.1 false p.2.2.2
    k ++ els.drop l.half

/-! ### Reeve items (R311 to R314, R321) -/

/-- A Twine MATMUL whose stream C entry has REEVE set. -/
def State.isReeve (s : State) (x : Item) : Bool :=
  x.engine == 0 && x.op == 1 && x.stream 2 != 0 && bit (s.strm x 2).eflags 10

/-- The reeve row of output row m. -/
structure ReeveRow where
  seq : Nat
  index : Nat
  pos : Nat
  rot : Nat
  bad : Bool
  deriving DecidableEq, Repr

def State.reeveRow (s : State) (x : Item) (m : Nat) : ReeveRow :=
  let e := (s.strm x 2).ents.headD ⟨0, 0, 0, 0, false, false, false, 0, 0, 0, 0, 0⟩
  let a := e.addr + 16 * m
  ⟨s.iw x a 2, s.iw x (a + 4) 4, s.iw x (a + 8) 4, s.iw x (a + 12) 4, s.ipois x a⟩

/-- Layout of the record a reeve row names. -/
def State.rowLay (s : State) (x : Item) (r : ReeveRow) : Option KvLay :=
  (s.kvRec r.seq x.layer).map fun k => s.kvLay (kvHome r.seq) k.layout

/-- The reeve conditions at admission (R311). -/
def State.reeveAdmit (s : State) (x : Item) : Option Bad :=
  let c := s.strm x 2
  let e := c.ents.headD ⟨0, 0, 0, 0, false, false, false, 0, 0, 0, 0, 0⟩
  if !s.isReeve x then none
  else if x.streamCount 2 != 2 || e.fmt != 3 || !e.b32 || x.layer == 0xFFFF then some (9, 2, 1)
  else if !s.mapped e.addr (16 * x.twn.m) then some (9, 2, 1)
  else if (List.range x.twn.m).any fun m =>
      match s.rowLay x (s.reeveRow x m) with
      | some l => !l.valid || x.twn.n != 2 * l.half
      | none => true
  then some (9, 2, 1)
  else none

/-- The Twine checks of a reeve item: stream C has no rows of its own to check. -/
def State.reeveChecks (s : State) (x : Item) : List (Option Bad) :=
  let o := x.twn
  let a := s.strm x 0
  let b := s.strm x 1 o.bFirst
  let d := s.strm x 3
  [ s.entsCheck a [2, 3], s.entsCheck b [0, 1, 2, 3] o.two4
  , if o.drole == 1 then s.entsCheck d [9] else if o.drole == 2 then s.entsCheck d [12]
    else if o.drole == 3 then s.entsCheck d fmts0B false true else none
  , sizeCheck a false (o.m * o.k)
  , if o.bmp then bmpSize b o.two4 else sizeCheck b o.two4 (o.n * o.k)
  , if o.bmp && (s.bmpRecs x (parseBmp (s.listEntry x 1 1))).isNone then some (9, 1, 1) else none
  , if o.drole == 1 then sizeCheck d false o.n else if o.drole == 0 then none else sizeCheck d false (o.m * o.n)
  , if o.drole == 3 && d.scaled && o.n % d.nb != 0 then some (9, 3, 0) else none ]

/-- The coarse scale a reeve item hands to new pages (R313), before HEADROOM, and the state after counting a clamp. -/
def State.reeveCoarse (s : State) (x : Item) : Nat × State :=
  if x.watch < 16384 then
    let c := s.trkCoarse x.stepSlot x.watch 3
    (c.1, if c.2 then s.mcBump 0x4044 8 1 else s)
  else ((s.strm x 2).hdr.coarse, s)

/-- Row m of a reeve item, rotated and with its random bits (R312, R314, R315). -/
def State.reeveEls (s : State) (x : Item) (m : Nat) (ys : List OutEl) : List OutEl :=
  let r := s.reeveRow x m
  let els := ((ys.drop (m * x.twn.n)).take x.twn.n).map fun y => { y with poison := y.poison || r.bad }
  let els := match s.rowLay x r with | some l => s.rope x l r.rot els | none => els
  if x.round == mSR then
    (els.zipIdx).map fun p => { p.1 with r := x.word r.seq ((r.pos * x.twn.n + p.2) % 2 ^ 48) 0 % 16 }
  else els

/-- DETAIL of a PAGE_WAIT: SEQ of the first row of the item that is not placed, one in a spill slot or the one that found it full, and
how many of its tokens are spilled (R321). -/
def State.pageWaitDetail (s : State) (region : Nat) (x : Item) (full : Option (Nat × Nat)) : Nat :=
  let l := s.itemSpills region x.count
  let open' := fun (r : ReeveRow) => full == some (r.seq, r.index) || l.any fun t => t.seq == r.seq && t.index == r.index
  let seq := match (List.range x.twn.m).find? fun m => open' (s.reeveRow x m) with
    | some m => (s.reeveRow x m).seq
    | none => match full, l.head? with | some f, _ => f.1 | none, some t => t.seq | none, none => 0
  seq * 2 ^ 16 + l.length

/-- What the rows of a reeve item leave: state, counts, elements written, the row that ended the item with a REASON, and the row that
found the spill slot full. -/
structure Reeved where
  st : State
  counts : Counts := {}
  elements : Nat := 0
  bad : Option Nat := none
  full : Option Nat := none
  /-- a record's home die is in recovery (R339) -/
  dead : Bool := false
  poison : Bool := false

/-- One row of a reeve item. -/
def State.reeveStep (x : Item) (region fresh : Nat) (ys : List OutEl) (acc : Reeved) (m : Nat) : Reeved :=
  if acc.bad.isSome || acc.full.isSome || acc.dead then acc
  else
    let s := acc.st
    let r := s.reeveRow x m
    if s.dieDown (kvHome r.seq) then { acc with dead := true }
    else if 2 ^ 22 ≤ r.rot then { acc with bad := some m }
    else
      let els := s.reeveEls x m ys
      let u := tileUnit (unitList region x.units) (tileOf x.twn.m m 0)
      let a := s.kvAppend { seq := r.seq, layer := x.layer, index := r.index, pos := r.pos, els := els, fresh := fresh
                            round := x.round, die := unitDie u, cluster := unitCluster u, region := region, item := x.count }
      let acc := { acc with st := a.1 }
      match a.2 with
      | .placed c | .spilled c =>
        { acc with counts := acc.counts.add c, elements := acc.elements + els.length, poison := acc.poison || els.any (·.poison) }
      | .full => { acc with full := some m }
      | .bad => { acc with bad := some m }

/-- The run of a reeve item; `marks` are tiles whose residue check failed. -/
def State.reeveRun (marks : List Nat) (s : State) (region : Nat) (x : Item) : RunOut :=
  let o := x.twn
  let a := s.strm x 0
  let b := s.strm x 1 o.bFirst
  let d := s.strm x 3
  s.gated x (s.reeveChecks x) [(a, false), (b, o.two4)] fun _ =>
    let marks := marks.filter fun t => decide (t < tileCount o.m o.n)
    let p := s.twnCompute x marks
    let ia := s.readStream x a
    let ib := s.readStream x b o.two4
    let nonfin := countNonfin ia.els + countNonfin ib.els
      + (if o.drole == 1 || o.drole == 2 then countNonfin (s.readStream x d).els else 0)
    let cyc := s.twnCycles x
    let nf := s.twnNonfin x
    let sparse := if o.two4 then s.sparseErrors x b else 0
    let amax := amaxOf ((List.range o.m).flatMap fun m => s.reeveEls x m p.c)
    .ok (max amax (amaxOf p.second)) fun s x =>
      let fc := s.reeveCoarse x
      let w := (List.range o.m).foldl (State.reeveStep x region fc.1 p.c) { st := fc.2 }
      let s := w.st.twnCount x region cyc marks nf sparse
      let zb := ia.zeroBlocks + ib.zeroBlocks
      -- an item that ends at a row keeps the counts of the rows before it
      let early := fun (st detail : Nat) (part : Bool) =>
        { mkResult w.counts nonfin zb 0 w.elements false (w.poison || !marks.isEmpty) with
          statuses := [(st, detail)], partialOut := part }
      match w.bad with
      | some m => (s, early stInvalid (badDetail (9, 2, m)) (w.elements != 0))
      | none =>
        if w.dead then (s, early stReset 0 (w.elements != 0))
        else if let some m := w.full then
          let r := s.reeveRow x m
          (s.bump .ateWaitCnt (regionDie region) 0 1, early stPageWait (s.pageWaitDetail region x (some (r.seq, r.index))) true)
        else
          let od := if o.drole == 3 then
              let oc := s.outCoarse x d
              oc.2.writeStream d x.round oc.1 (drawBits x d 1 p.second) x.tag
            else { st := s, counts := {} }
          (od.st, mkResult (w.counts.add od.counts) nonfin zb (max amax (amaxOf p.second))
            (w.elements + p.second.length) true (w.poison || od.poison || !marks.isEmpty))

/-- A reeve item that spilled tokens waits for them to drain (R321). -/
def State.reeveWait (s : State) (region slot : Nat) : State :=
  match s.item region slot with
  | some x =>
    if x.stage == .finished && s.isReeve x && !(s.itemSpills region x.count).isEmpty
        && !(x.res.statuses.any fun e => [stPageWait, stInvalid, stReset].contains e.1)
    then (s.setItem region slot (some { x with waitCyc := some (x.waitCyc.getD s.cycle) })).showItem x region x.units else s
  | none => s

/-- PAGE_WAIT_TIMEOUT (R321): a reeve item with tokens still spilled after PAGE_WAIT_US retires with PAGE_WAIT, PARTIAL, whether its
other rows are done or not. -/
def execPageWaitTimeout (region slot : Nat) (s : State) : Host.Outcome State Fault Refusal :=
  .next (match s.item region slot with
    | some x =>
      if (x.stage == .finished || x.stage == .running) && s.isReeve x && s.pageWaitOver region x && !(s.itemSpills region x.count).isEmpty then
        (((s.bump .ateWaitCnt (regionDie region) 0 1).finishStopped region slot { x with waitCyc := none, wrote := true }
          stPageWait (s.pageWaitDetail region x none)).showItem x region x.units).settle
      else s
    | none => s)

/-- TWINE_MATMUL (05 R162, R173, R182; 10 R311): the item in the slot runs on its Twine arrays, its rows going to stream C
or through the reeve path; `residue` names tiles whose residue check failed. -/
def execTwineMatmul (region slot : Nat) (residue : List Nat) (s : State) : Host.Outcome State Fault Refusal :=
  let reeve := match s.item region slot with | some x => s.isReeve x | none => false
  .next ((s.runItem region slot takesTwine (if reeve then State.reeveRun residue else State.twnRun residue)).reeveWait region slot)

/-- RECORD_APPEND (R316): a row of the reeve item in a slot arrives at its record's home die and is placed, rewritten or
spilled; a row that breaks the rules, or finds the spill slot full, ends the item (R321). -/
def execRecordAppend (op : RecOp) (s : State) : Host.Outcome State Fault Refusal :=
  .next (match s.item op.region op.slot with
    | none => s
    | some x =>
      if !(x.stage == .running && s.isReeve x && x.layer == op.layer) || s.dieDown (kvHome op.seq) then s
      else
        let fc := s.reeveCoarse x
        let els := (op.row.zipIdx).map fun p =>
          ({ v := f32 p.1, r := if x.round == mSR then x.word op.seq ((op.pos * op.row.length + p.2) % 2 ^ 48) 0 % 16 else 0 } : OutEl)
        let a := fc.2.kvAppend { seq := op.seq, layer := op.layer, index := op.index, pos := op.pos, els := els, fresh := fc.1
                                 round := x.round, die := unitDie op.unit, cluster := unitCluster op.unit
                                 region := op.region, item := x.count }
        match a.2 with
        | .placed _ => a.1.setItem op.region op.slot (some { x with wrote := true, progCyc := s.cycle })
        | .spilled _ => a.1.setItem op.region op.slot (some { x with wrote := true, waitCyc := some (x.waitCyc.getD s.cycle), progCyc := s.cycle })
        | .bad => a.1.endRun op.region op.slot x { statuses := [(stInvalid, badDetail (9, 2, 0))], partialOut := x.wrote }
        | .full =>
          (a.1.bump .ateWaitCnt (regionDie op.region) 0 1).endRun op.region op.slot x
            { statuses := [(stPageWait, a.1.pageWaitDetail op.region x (some (op.seq, op.index)))], partialOut := true })

end Sys2Proof.Machine
end

