-- ==== Sys2Proof/Machine/Tick.lean ====
section
/-! DEFINITION. What the block does when no command waits: one core cycle passes. -/

namespace Sys2Proof.Machine

/-- Fine units in one Lay unit: 2.1 × 10^9 cycles a second, and 5,000 for 200 ppm (13 R447). -/
def layFine : Nat := 2100000000 * 5000

/-- Fine units by which Lay time moves in one cycle at full rate, at half rate, and by slewing. -/
def layStepFull : Nat := 2 ^ 32 * 5000
def layStepHalf : Nat := 2 ^ 31 * 5000
def layStepSlew : Nat := 2 ^ 32

/-- Lay time over one core cycle: at half rate while a backward offset is run out, else at full rate, slewed by at most
200 ppm toward a measured offset (13 R443, R447). -/
def Lay.tick (l : Lay) : Lay :=
  if l.back != 0 then
    { l with now := l.now + (l.rem + layStepHalf) / layFine, rem := (l.rem + layStepHalf) % layFine
             back := l.back - layStepHalf }
  else
    let d : Int := if 0 ≤ l.slew then min l.slew layStepSlew else max l.slew (-(layStepSlew : Int))
    let n := l.rem + ((layStepFull : Int) + d).toNat
    { l with now := l.now + n / layFine, rem := n % layFine, slew := l.slew - d }

/-- One core cycle with no command: the cycle count and Lay time advance. -/
def idleTick (s : State) : State := { s with cycle := s.cycle + 1, lay := s.lay.tick }

end Sys2Proof.Machine
end

