-- ==== Sys2Proof/Machine/LayUnit.lean ====
section
/-! DEFINITION. The Lay unit: measured offsets and how they are removed, PPS edges, the fabric exchange, holdover (13 R444 to
R448; 17 R555, R564). -/

namespace Sys2Proof.Machine

/-- Nanoseconds in a signed Lay difference, toward zero. -/
def nsOfLayInt (d : Int) : Int := (d * 10 ^ 9).tdiv (2 ^ 32)

/-- An I32 code of a signed number of nanoseconds, held at the ends of its range. -/
def i32Code (z : Int) : Nat := sCode 32 (max (-(2 ^ 31 : Int)) (min z (2 ^ 31 - 1)))

/-- A Lay record (14 R462): KIND 1 HOLDOVER, 2 step forward, 3 step back, with the offset in ns. Severity, LEVEL and ACTION are
the model's reading: a corrected event of the hub, in no reset domain; a step is ACTION 1 (log entry 62). -/
def State.layRecord (s : State) (kind : Nat) (ns : Int) : State :=
  s.record hubDie 10 sevCorrected 7 (if kind == 1 then 0 else 1) 0 s.pkgGen (kind * 2 ^ 120 + sCode 64 ns)

/-- The Lay unit enters HOLDOVER on its last frequency; LAY_STS tells the entry (R445, R448, R453). -/
def State.layHoldover (s : State) : State :=
  if s.lay.state == 3 then s
  else
    let e := s.layErrNs
    (({ s with lay := { s.lay with state := 3, errNs := e, errCyc := s.cycle, good := 0, parent := 0xFF } }).flag .laySts 4 0 1).layRecord 1 s.lay.offset

/-- The state after one more measured offset of `ns` nanoseconds (R447): LOCKED after 16 in a row below 50 ns, back to
ACQUIRING when one exceeds LAY_STEP_NS. -/
def Lay.judge (l : Lay) (ns : Int) (stepNs : Nat) : Lay :=
  let good := if ns.natAbs < 50 then min (l.good + 1) 16 else 0
  if stepNs < ns.natAbs then { l with state := 1, good := 0, offset := ns }
  else if l.state == 2 then { l with good := good, offset := ns }
  else if good == 16 then { l with state := 2, good := good, offset := ns }
  else { l with state := 1, good := good, offset := ns }

/-- An offset measured, in Lay units: slewed, stepped forward at once, or run out at half rate (R447). -/
def State.layOffsetBy (s : State) (d : Int) : State :=
  let ns := nsOfLayInt d
  let step := s.dv 0x2081 0
  let l := s.lay.judge ns step
  if ns.natAbs ≤ step then { s with lay := { l with slew := d * layFine, back := 0 } }
  else if 0 ≤ d then
    ((({ s with lay := { l with now := (l.now + d.toNat) % 2 ^ 64, slew := 0, back := 0 } }).mcBump 0x4099 1 1).flag
      .laySts 4 0 2).layRecord 2 ns
  else
    ((({ s with lay := { l with slew := 0, back := d.natAbs * layFine } }).mcBump 0x4099 2 1).flag .laySts 4 0 4).layRecord 3 ns

/-- Lay units in a signed number of picoseconds. -/
def layOfPs (ps : Int) : Int := (ps * 2 ^ 32).tdiv (10 ^ 12)

/-- LAY_PPS_EDGE (R445, R555): the edge rises `phaseNs` nanoseconds from the present cycle; LAY_PPS_COMP_PS is taken off. The
edge stands for the seconds written to LAY_SET, or for the nearest whole second. Ignored with LAY_SOURCE other than PINS, and
while LAY_REF is missing (R564). -/
def State.ppsEdge (s : State) (phaseNs : Int) : State :=
  if s.laySource != 0 || s.lay.refLost then s
  else
    let at' : Int := (s.lay.now : Int) + (phaseNs * 2 ^ 32).tdiv (10 ^ 9) - layOfPs (sInt 32 (s.dv 0x2085 0))
    let ref : Int := match s.lay.setSec with
      | some n => (n : Int) * 2 ^ 32
      | none => (at' + 2 ^ 31) / 2 ^ 32 * 2 ^ 32
    ({ s with lay := { s.lay with setSec := none, ppsCyc := s.cycle } }).layOffsetBy (ref - at')

def execLayPpsEdge (phaseNs : Int) (s : State) : Host.Outcome State Fault Refusal := .next ((s.ppsEdge phaseNs).settle)

/-- A write of LAY_SET, by store or through the dictionary: the seconds of the next PPS edge (R445). -/
def State.laySetWrite (s : State) (seconds : Nat) : State := { s with lay := { s.lay with setSec := some (seconds % 2 ^ 32) } }

def execLaySetSeconds (_ini seconds : Nat) (s : State) : Host.Outcome State Fault Refusal := .next (s.laySetWrite seconds)

/-- LAY_PPS_LOSS (R445): PPS missing for 1.5 s, with PINS. -/
def execLayPpsLoss (s : State) : Host.Outcome State Fault Refusal :=
  .next (if s.laySource == 0 && decide (s.lay.ppsCyc + 3150000000 ≤ s.cycle) then s.layHoldover else s)

/-- LAY_REF_LOSS (R445): the reference clock is gone for 1 µs, with PINS. -/
def execLayRefLoss (s : State) : Host.Outcome State Fault Refusal :=
  .next (if s.laySource == 0 then ({ s with lay := { s.lay with refLost := true } }).layHoldover else s)

/-- LAY_REF_RETURN (R445, R564): PPS edges count again, and HOLDOVER is left through ACQUIRING. -/
def execLayRefReturn (s : State) : Host.Outcome State Fault Refusal :=
  .next (if s.lay.refLost then
      { s with lay := { s.lay with refLost := false, good := 0, ppsCyc := s.cycle
                                   state := if s.lay.state == 3 then 1 else s.lay.state } }
    else s)

/-- The port of LAY_PORT_LIST from which time can be taken (R446). -/
def State.layPort (s : State) : Option Nat :=
  let c := (s.reg .layCfg 4).toNat
  [bits c 4 0, bits c 12 8].find? fun p =>
    decide (p < 18) && s.portUp p && (s.port p).nbrLay == 2
      && bit (s.reg .fabPortNbr (portDie p) (portEl p)).toNat 31
      && (s.port p).nbrParent != bits (s.reg .fabPortNbr (portDie p) (portEl p)).toNat 21 17

/-- A LAY_SYNC for the neighbour of a port: t1, or, in an answer, t1, t2 and t3 (log entry 116). -/
def State.syncPacket (s : State) (dst gen : Nat) (body : List Byte) : Packet :=
  { kind := 0x20, dst := dst, src := s.pkgId, tgen := gen, igen := s.pkgGen, seq := 2 ^ 64 - 1, hops := 63, poisoned := false, body := body }

/-- LAY_SYNC_TICK (R446): once per millisecond with FABRIC, the parent is chosen and LAY_SYNC exchanged with it; with no
eligible port the unit enters HOLDOVER. -/
def State.laySyncTick (s : State) : State :=
  if s.laySource != 1 || decide (s.cycle < s.lay.syncCyc + cycOfMs 1) then s
  else
    let s := { s with lay := { s.lay with syncCyc := s.cycle } }
    match s.layPort with
    | none => s.layHoldover
    | some p =>
      let l := s.lay
      let l := { l with
        state := if l.state == 0 || l.state == 3 then 1 else l.state
        good := if l.parent == p then l.good else 0
        parent := p
        errNs := (s.port p).nbrErr }
      ({ s with lay := l }).portSend p (s.syncPacket (bits (s.reg .fabPortNbr (portDie p) (portEl p)).toNat 16 0) (s.port p).nbrGen (leBytes 8 l.now))

def execLaySyncTick (s : State) : Host.Outcome State Fault Refusal := .next s.laySyncTick

/-- The exchange with the Lay parent gives the offset ((t2 − t1) − (t4 − t3)) / 2 (R446). -/
def State.layExchange (s : State) (port t1 t2 t3 t4 : Nat) : State :=
  if s.laySource == 1 && s.lay.parent == port && decide (port < 18) then
    (s.layOffsetBy ((((t2 : Int) - t1) - ((t4 : Int) - t3)).tdiv 2)).settle
  else s

/-- LAY_SYNC (R446): an exchange is complete, its four timestamps taken. -/
def execLaySync (port t1 t2 t3 t4 : Nat) (s : State) : Host.Outcome State Fault Refusal := .next (s.layExchange port t1 t2 t3 t4)

/-- A LAY_SYNC packet comes in on a port: a request, with t1, is answered with t1, t2 and t3; an answer completes the exchange. -/
def State.onLaySync (s : State) (port : Nat) (p : Packet) : State :=
  let f := fun (i : Nat) => leNat ((p.body.drop (8 * i)).take 8)
  if 24 ≤ p.body.length then s.layExchange port (f 0) (f 1) (f 2) s.lay.now
  else if 18 ≤ port then s
  else s.portSend port (s.syncPacket p.src p.igen (leBytes 8 (f 0) ++ leBytes 8 s.lay.now ++ leBytes 8 s.lay.now))

/-- A change of LAY_SOURCE (R444, R447): FREE at once under FREE, else the new source is acquired. -/
def State.layReselect (s : State) (old : Nat) : State :=
  if s.laySource == old then s
  else { s with lay := { s.lay with
    state := if s.laySource == 2 then 0 else if s.lay.state == 0 then 0 else 1
    good := 0, parent := 0xFF, refLost := false, slew := 0, ppsCyc := s.cycle } }

end Sys2Proof.Machine
end

