-- ==== Sys2Proof/Machine/Steps.lean ====
section
/-! DEFINITION. Step slots: the commands of a slot, the outcome of its commit vote, trackers over the life of a step, the
widening of layers, and tracker configuration (07 R215 to R220, R225 to R249; 13 R439, R440). -/

namespace Sys2Proof.Machine

/-! ### Refusals and events -/

/-- A configuration write or command refused with CONFIG_BUSY: counted at its die and recorded (02 R66, R75). -/
def State.refuse (s : State) (ini die off : Nat) : State :=
  ((s.bump .mgtRefuseCnt die 0 1).setReg .mgtRefuseLast die 0 (BitVec.ofNat 32 (off % 2 ^ 24))).setReg .mgtRefuseInit die 0
    (BitVec.ofNat 32 (ini % 64))

/-- A policy event under SPL_EVT_CFG (R236, R241, R242, R247). -/
def State.policyEvent (s : State) (detail : Nat) : State := s.irqBy (s.reg .splEvtCfg) causePolicy detail

/-- Die-level offset of SPL_STEP_CMD of a slot on the hub (R236). -/
def stepCmdOff (slot : Nat) : Nat := 0x500000 + slot * 0x100

/-! ### Latching (R227, R249) -/

/-- The policy entries that an OPEN or REOPEN latches. -/
def policyIdx : List Nat :=
  [0x3000, 0x3001, 0x3002, 0x3003, 0x3010, 0x3011, 0x3012, 0x3013, 0x3020, 0x3021, 0x3022, 0x3023, 0x3024, 0x3025, 0x3026]

def State.latchPolicy (s : State) : List (Nat × Nat) := policyIdx.map fun i => (i, s.dv i 0)

/-- Numbers of the trackers a slot holds. -/
def State.heldTrackers (s : State) (slot : Nat) : List Nat :=
  s.trk.filterMap fun e => if e.2.held && e.2.slot == slot then some e.1 else none

/-- Change every tracker a slot holds. -/
def State.mapHeld (s : State) (slot : Nat) (f : State → Nat → Tracker → Tracker) : State :=
  (s.heldTrackers slot).foldl (fun s t => s.setTracker t (f s t (s.tracker t))) s

/-- A tracker let go with its attempt discarded (R227 ABANDON). -/
def Tracker.dropAttempt (x : Tracker) : Tracker :=
  { x.freshAttempt with held := false, slot := 0, faulted := false, prepass := false, usePre := false, premax := 0
                        preDone := 0, producers := 0, hmax := 0 }

/-- A tracker at a commit: STEPMAX enters the history, FAULTED and the prepass state clear; the attempt's other values stay
readable (R220, R232). -/
def Tracker.commit (x : Tracker) : Tracker :=
  { x with hist := (x.stepmax :: x.hist).take 16, held := false, slot := 0, faulted := false, faultNow := false
           prepass := false, usePre := false, premax := 0, preDone := 0, producers := 0 }

/-! ### Widening (R240 to R242) -/

def dLayer : Nat → LayerRec := fun _ => {}
def State.layer (s : State) (l : Nat) : LayerRec := tget dLayer s.layers l
def State.setLayer (s : State) (l : Nat) (x : LayerRec) : State := { s with layers := tset dLayer s.layers l x }

/-- The layer's bit in SPL_WIDENED. -/
def State.widened (s : State) (l : Nat) : Bool := l < 4096 && bit (s.reg .splWidened 0 (l / 32)).toNat (l % 32)
def State.setWidened (s : State) (l : Nat) (b : Bool) : State :=
  s.setReg .splWidened 0 (l / 32) (BitVec.ofNat 32 (setBits (s.reg .splWidened 0 (l / 32)).toNat (l % 32) (l % 32) (b2n b)))

/-- The layer is wide for the global-widening event: by policy, or in WIDE_LAYERS of the image (R242). -/
def State.layerWide (s : State) (l : Nat) : Bool := s.widened l || (l < 4096 && bit (s.dv 0x3100 (l / 64)) (l % 64))

/-- Layers in use, and those of them that are wide. -/
def State.layersInUse (s : State) : List Nat := s.seenEver.filterMap fun e => if e.2 then some e.1 else none
def State.wideInUse (s : State) : Nat := (s.layersInUse.filter s.layerWide).length

/-- The number of wide layers at which the global-widening event is raised. -/
def State.globalMark (s : State) (slot : Nat) : Nat := (s.policy slot 0x3026 * s.layersInUse.length + 999) / 1000

/-- The global-widening event, when the count reaches the mark and GLOBAL_WIDEN reads false. -/
def State.globalCheck (s : State) (slot : Nat) : State :=
  if !s.globalWiden && s.layersInUse.length != 0 && decide (s.globalMark slot ≤ s.wideInUse) then
    (({ s with globalWiden := true }).mcBump 0x4044 7 1).policyEvent 2
  else s

/-- GLOBAL_WIDEN reads false again at an OPEN at which the count is below the mark. -/
def State.globalFall (s : State) (slot : Nat) : State :=
  if s.globalWiden && decide (s.wideInUse < s.globalMark slot) then { s with globalWiden := false } else s

/-- widen(l, n). -/
def State.widen (s : State) (slot l n : Nat) : State :=
  let r := s.layer l
  let again := match r.narrowedAt with
    | some m => decide (n < m + s.policy slot 0x3025)
    | none => false
  let dur := if again then min (2 * r.dur) (s.policy slot 0x3024) else s.policy slot 0x3023
  ((s.setLayer l { r with until' := n + dur, dur := dur }).setWidened l true).mcBump 0x4044 6 1

/-- record(l, n), and widening when enough records fall within the window. -/
def State.recordLayer (s : State) (slot n l : Nat) : State :=
  let r := s.layer l
  let s := s.setLayer l { r with steps := (n :: r.steps).take 16 }
  let k := (((s.layer l).steps).filter fun m => decide (n < m + s.policy slot 0x3022)).length
  if decide (s.policy slot 0x3021 ≤ k) && !s.widened l && decide (l < 4096) then s.widen slot l n else s

/-- The charged layers of a slot's failed attempt recorded, and moved to those of the whole step (R240). -/
def State.recordAttempt (s : State) (slot : Nat) : State :=
  let p := s.step slot
  let s := p.charged.foldl (fun s l => s.recordLayer slot p.num l) s
  s.setStep slot { s.step slot with
    charged := [], chargedAny := p.chargedAny ++ p.charged.filter fun l => !p.chargedAny.contains l }

/-- Layers whose widening has run out at step number n are narrowed (R240). -/
def State.narrow (s : State) (n : Nat) : State :=
  (s.layers.map (·.1)).foldl (fun s l =>
    let r := s.layer l
    if s.widened l && decide (r.until' ≤ n) then
      (s.setLayer l { r with until' := 0, narrowedAt := some n }).setWidened l false
    else s) s

/-! ### The commands of a slot (R227, R235, R237) -/

/-- STEP_NUM as software wrote it. -/
def State.stepNumReg (s : State) (slot : Nat) : Nat :=
  (s.reg .stepNum 0 slot).toNat + (s.reg .stepNumHi 0 slot).toNat * 2 ^ 32

/-- OPEN. -/
def State.openStep (s : State) (slot : Nat) : State :=
  let n := s.stepNumReg slot
  let p := s.step slot
  let s := s.setStep slot { p with
    state := 1, attempt := 0, fault := 0, fitems := 0, num := n, epoch := (s.reg .stepEpoch 0 slot).toNat
    bwl := (s.reg .stepBwl 0 slot).toNat, policy := s.latchPolicy, charged := [], chargedAny := [] }
  let s := if s.lastOpen ≤ n then s.narrow n else s
  ({ s with lastOpen := n }).globalFall slot

/-- The prepass of a faulted tracker armed; another tracker's scale is its history's (R237). -/
def rearm (slot : Nat) (s : State) (t : Nat) (x : Tracker) : Tracker :=
  if x.faulted then
    { x.freshAttempt with producers := x.items, preDone := 0, premax := 0, prepass := true, usePre := true, hmax := 0 }
  else { x.freshAttempt with prepass := false, usePre := false, premax := 0, preDone := 0, producers := 0
                             hmax := s.histMax slot t }

/-- REOPEN. -/
def State.reopenStep (s : State) (slot : Nat) : State :=
  let p := s.step slot
  let s := s.setStep slot { p with
    state := 1, attempt := min (p.attempt + 1) 15, fault := 0, fitems := 0, policy := s.latchPolicy }
  let armed := (s.heldTrackers slot).any fun t => (s.tracker t).faulted
  let s := s.mapHeld slot (rearm slot)
  let s := if armed then s.mcBump 0x4044 5 1 else s
  s.narrow p.num

/-- The slot becomes ABANDONED, by command or by R248: the attempt in progress is recorded, trackers are let go, and the
outcome Cleat is signalled. -/
def State.abandonStep (s : State) (slot : Nat) : State :=
  let s := s.recordAttempt slot
  let s := s.mapHeld slot fun _ _ x => x.dropAttempt
  let s := s.setStep slot { s.step slot with state := 7, asked := [], toAsk := [] }
  let s := ((s.mcBump 0x4044 3 1).globalCheck slot).signalWord (s.reg .stepOutcome 0 slot).toNat
  { s with votes := s.votes.filter fun v => v.slot != slot }

/-- FREE. -/
def State.freeStep (s : State) (slot : Nat) : State :=
  let p := s.step slot
  s.setStep slot { ({} : StepSlot) with outstanding := p.outstanding, gated := p.gated, num := p.num, epoch := p.epoch, bwl := p.bwl }

/-- A command is allowed in the slot's state. -/
def StepSlot.allows (p : StepSlot) (op : Nat) : Bool :=
  if op == 1 then p.state == 0
  else if op == 2 then p.state == 4 || p.state == 5
  else if op == 3 then p.state == 1 || p.state == 4 || p.state == 5 || p.state == 6
  else if op == 4 then (p.state == 3 && p.gated == 0) || p.state == 7
  else false

/-- A command accepted by its guard reaches a slot: it takes effect, or is refused with CONFIG_BUSY. -/
def State.stepCommand (s : State) (ini slot op : Nat) : State :=
  if 16 ≤ slot then s
  else if !(s.step slot).allows op then s.refuse ini hubDie (stepCmdOff slot)
  else
    (if op == 1 then s.openStep slot else if op == 2 then s.reopenStep slot
     else if op == 3 then s.abandonStep slot else s.freeStep slot).settle

/-- STEP_OPEN (R227). -/
def execStepOpen (ini slot : Nat) (s : State) : Host.Outcome State Fault Refusal := .next (s.stepCommand ini slot 1)

/-- STEP_REOPEN (R227, R237). -/
def execStepReopen (ini slot : Nat) (s : State) : Host.Outcome State Fault Refusal := .next (s.stepCommand ini slot 2)

/-- STEP_ABANDON (R227, R240). -/
def execStepAbandon (ini slot : Nat) (s : State) : Host.Outcome State Fault Refusal := .next (s.stepCommand ini slot 3)

/-- STEP_FREE (R227, R235). -/
def execStepFree (ini slot : Nat) (s : State) : Host.Outcome State Fault Refusal := .next (s.stepCommand ini slot 4)

/-- STEP_CMD_RESERVED (R236): OP 0x0 or 0x5 to 0xF. -/
def execStepCmdReserved (ini slot op : Nat) (s : State) : Host.Outcome State Fault Refusal :=
  .next (if op == 0 || 5 ≤ op then s.stepCommand ini slot op else s)

/-! ### Outcomes (R231, R232, R241) -/

/-- A LONG128 sum's integer part as SPL_STEP_VOTE holds it. -/
def voteCount (c : Nat) : Nat := if c == 2 ^ 127 then 0xFFFFFFFF else if 2 ^ 127 < c then 0 else min (c / 2 ^ 80) 0xFFFFFFFF

/-- COMMITTED: trackers, then the commit Cleat; the commit-gated items follow as the items settle. -/
def State.commitStep (s : State) (slot : Nat) : State :=
  let s := s.mapHeld slot fun _ _ x => x.commit
  let s := s.setStep slot { s.step slot with state := 3, charged := [], asked := [], toAsk := [] }
  (s.mcBump 0x4044 0 1).signalWord (s.reg .stepCommit 0 slot).toNat

/-- REPLAY or EXHAUSTED: widening, the marks kept, the outcome Cleat; the commit-gated items are discarded as the items
settle. -/
def State.failStep (s : State) (slot : Nat) : State :=
  let p := s.step slot
  let exhausted := decide (s.policy slot 0x3020 ≤ p.attempt)
  let s := s.recordAttempt slot
  let s := if exhausted then
      ((s.step slot).chargedAny).foldl (fun s l => if s.widened l || 4096 ≤ l then s else s.widen slot l p.num) s
    else s
  let s := s.globalCheck slot
  let s := s.mapHeld slot fun _ _ x => { x with faulted := x.faultNow }
  let s := s.setStep slot { s.step slot with state := if exhausted then 5 else 4, asked := [], toAsk := [] }
  let s := if exhausted then (s.mcBump 0x4044 2 1).policyEvent 1 else s.mcBump 0x4044 1 1
  s.signalWord (s.reg .stepOutcome 0 slot).toNat

/-- A slot that is not FREE holds the step. -/
def State.stepHeld (s : State) (epoch num : Nat) : Bool :=
  (List.range 16).any fun i => let p := s.step i; p.state != 0 && p.epoch == epoch && p.num == num

/-- Keep a vote result; the last VOTE_KEEP stay (13 R440), and so does each whose slot is not FREE (R247). -/
def State.keepVote (s : State) (epoch num attempt sum : Nat) : State :=
  if s.voteKept.any fun v => v.1 == epoch && v.2.1 == num && v.2.2.1 == attempt then s
  else
    let l := (epoch, num, attempt, sum) :: s.voteKept
    { s with voteKept := (l.zipIdx).filterMap fun v =>
        if decide (v.2 < s.dv 0x5006 0) || s.stepHeld v.1.1 v.1.2.1 then some v.1 else none }

/-- The kept sum of a step's attempt. -/
def State.keptVote (s : State) (epoch num attempt : Nat) : Option Nat :=
  (s.voteKept.find? fun v => v.1 == epoch && v.2.1 == num && v.2.2.1 == attempt).map (·.2.2.2)

/-- The slot that waits for the result of a step's attempt: VOTING or IN_DOUBT. -/
def State.votingSlot (s : State) (epoch num attempt : Nat) : Option Nat :=
  (List.range 16).find? fun i =>
    let p := s.step i
    (p.state == 2 || p.state == 6) && p.epoch == epoch && p.num == num && p.attempt == attempt

/-- The vote item of an exchange leaves its engine with a result. -/
def State.endVoteItem (s : State) (v : VoteX) : State :=
  match s.item v.region v.item with
  | some x =>
    if x.isVote && x.stage == .running && x.stepSlot == v.slot then
      s.setItem v.region v.item (some { x with stage := .finished, progCyc := s.cycle })
    else s
  | none => s

/-- The outcome of R231 applied to a slot: RESULT_SLOT, SPL_STEP_VOTE, the vote item, and COMMITTED, REPLAY or EXHAUSTED. -/
def State.applyVote (s : State) (slot sum : Nat) : State :=
  let s := match s.votes.find? (fun v => v.slot == slot) with
    | some v =>
      let s := if v.resultSlot < 1024 then s.putResult v.resultSlot (BitVec.ofNat 128 sum, false) else s
      s.endVoteItem v
    | none => s
  let s := s.setStep slot { s.step slot with vote := voteCount sum }
  let s := if sum == 0 then s.commitStep slot else s.failStep slot
  ({ s with votes := s.votes.filter fun v => v.slot != slot }).settle

/-- Body of VOTE_RESULT, VOTE_QUERY and its answer: EPOCH, STEP_NUM, ATTEMPT, an answer code and the SUM (log entry 40). -/
def voteBody (epoch num attempt code sum : Nat) : List Byte :=
  leBytes 4 epoch ++ leBytes 8 num ++ leBytes 1 attempt ++ leBytes 1 code ++ leBytes 2 0 ++ leBytes 16 sum

/-- Send a result down the tree of an exchange. -/
def State.passVote (s : State) (v : VoteX) (sum : Nat) : State :=
  (treeChildren v.plan.p v.plan.radix v.rank).foldl (fun s c =>
    s.sendControl 0x30 (v.plan.members.getD c 0) (voteBody v.plan.epoch v.num v.attempt 1 sum)) s

/-- A vote result arrives (13 R439): it is kept, passed on to the tree's children, and decides the slot that waits for it. -/
def State.onVoteResult (s : State) (epoch step attempt sum : Nat) : State :=
  let s := s.keepVote epoch step attempt sum
  match s.votingSlot epoch step attempt with
  | some slot =>
    let s := match s.votes.find? (fun v => v.slot == slot) with
      | some v => if v.rank == 0 then s else s.passVote v sum
      | none => s
    s.applyVote slot sum
  | none => s

/-- VOTE_RESULT (13 R439). -/
def execVoteResult (epoch step attempt sum : Nat) (s : State) : Host.Outcome State Fault Refusal :=
  .next (s.onVoteResult epoch step attempt sum)

/-! ### Votes in doubt (R247, R248; 13 R440) -/

/-- Ask members until 64 are asked and have not answered. -/
def State.askMore (s : State) (slot : Nat) : State :=
  let p := s.step slot
  let n := 64 - p.asked.length
  let now := p.toAsk.take n
  let s := now.foldl (fun s m => s.sendControl 0x31 m (voteBody p.epoch p.num p.attempt 0 0)) s
  s.setStep slot { p with asked := p.asked ++ now, toAsk := p.toAsk.drop n }

/-- VOTE_DOUBT_TIMEOUT (R247): VOTE_DOUBT_MS after the vote's start the slot, still VOTING, enters IN_DOUBT; its vote item
ends PEER_LOST, and the other members are queried in rank order. -/
def execVoteDoubtTimeout (slot : Nat) (s : State) : Host.Outcome State Fault Refusal :=
  let p := s.step slot
  if 16 ≤ slot || p.state != 2 || decide (s.cycle < p.voteCyc + cycOfMs (s.dv 0x3027 0)) then .next s
  else
    let v : Option VoteX := s.votes.find? (fun v => v.slot == slot)
    let others := match v with
      | some v => v.plan.members.filter (· != s.pkgId)
      | none => []
    let s := s.setStep slot { p with state := 6, doubtCyc := s.cycle, asked := [], toAsk := others }
    let s := (s.mcBump 0x4044 4 1).policyEvent 3
    let s := match v with
      | some v =>
        match s.item v.region v.item with
        | some x =>
          if x.isVote && x.stage == Stage.running && x.stepSlot == slot then
            s.finishAs v.region v.item x stPeerLost (2 * 2 ^ 16 + v.plan.members.getD 0 0 % 65536)
          else s
        | none => s
      | none => s
    .next ((s.askMore slot).settle)

/-- Fields of a vote body. -/
def bodyEpoch (b : List Byte) : Nat := leNat (b.take 4)
def bodyNum (b : List Byte) : Nat := leNat ((b.drop 4).take 8)
def bodyAttempt (b : List Byte) : Nat := leNat ((b.drop 12).take 1)
def bodyCode (b : List Byte) : Nat := leNat ((b.drop 13).take 1)
def bodySum (b : List Byte) : Nat := leNat ((b.drop 16).take 16)

/-- VOTE_QUERY_TIMEOUT (R248): a further VOTE_DOUBT_MS without a result abandons the slot. -/
def execVoteQueryTimeout (slot : Nat) (s : State) : Host.Outcome State Fault Refusal :=
  let p := s.step slot
  .next (if slot < 16 && p.state == 6 && decide (p.doubtCyc + cycOfMs (s.dv 0x3027 0) ≤ s.cycle)
    then (s.abandonStep slot).settle else s)

/-! ### Trackers (R216, R220, R238) -/

/-- SPL_TRK_CFG as it reads back: HLEN 17 to 31 as 16, HR 9 to 14 as 8. -/
def trkCfgBack (v : Nat) : Nat :=
  let h := bits v 24 20
  let r := bits v 19 16
  b2n (bit v 31) * 2 ^ 31 + (if 16 < h then 16 else h) * 2 ^ 20 + (if 9 ≤ r && r ≤ 14 then 8 else r) * 2 ^ 16

/-- A store to SPL_TRK_CFG of tracker t: refused while the tracker is held; a write of EN 1 over 0 clears its history,
shares and prepass state (R216, R220). -/
def State.writeTrkCfg (s : State) (ini t value : Nat) : State :=
  if 16384 ≤ t then s
  else if (s.tracker t).held then s.refuse ini (t / 4096) (0x500000 + t % 4096 * 0x80)
  else
    let on := bit value 31 && !bit (s.trkCfg t) 31
    -- a write of 1 over 0 clears history, shares and the prepass state; the attempt's values stay readable (R220)
    let s := if on then
        let x := s.tracker t
        s.setTracker t { x with hist := [], counts := {}, prepass := false, usePre := false, premax := 0, preDone := 0, producers := 0 }
      else s
    s.setReg .trkCfg (t / 4096) (t % 4096) (BitVec.ofNat 32 (trkCfgBack value))

/-- SPL_TRK_CFG_WRITE (R220). -/
def execSplTrkCfgWrite (ini tracker value : Nat) (s : State) : Host.Outcome State Fault Refusal :=
  .next (if tracker < 16384 then (s.intervene ini (tracker / 4096) none).writeTrkCfg ini tracker value else s)

end Sys2Proof.Machine
end

