-- ==== Sys2Proof/Machine/View.lean ====
section
/-! DEFINITION. What a register reads as: the stored word, or the word computed from the rest of the state (03 R91, R109;
07 R220, R236; 10 R337; 12 R402; 13 R452, R453; 14 R497; 15 R501; 16 R543, R544). -/

namespace Sys2Proof.Machine

/-! ### Error ring and Fid (14 R461, R497) -/

/-- The 256 bits of an error record. -/
def ErrRec.bits (r : ErrRec) : Nat :=
  r.lay % 2 ^ 64 + r.seq % 65536 * 2 ^ 64 + r.src % 256 * 2 ^ 80
    + (r.sev % 4 * 64 + r.level % 8 * 8 + r.action % 8) * 2 ^ 88
    + r.index % 65536 * 2 ^ 96 + r.gen % 65536 * 2 ^ 112 + r.payload % 2 ^ 128 * 2 ^ 128

def State.errStatWord (s : State) (die : Nat) : Nat :=
  let e := s.errDie die
  b2n e.overflow * 2 ^ 31 + b2n (s.fid die).active.isSome * 2 ^ 30 + e.lostSev % 4 * 2 ^ 28 + e.firstLost % 256 * 2 ^ 16
    + min (e.head - s.reg .errTail die).toNat 256

def State.fidStatWord (s : State) (die : Nat) : Nat :=
  match (s.fid die).active with
  | some r => 2 ^ 31 + r.dom.level % 8 * 2 ^ 28 + r.step % 16 * 2 ^ 24 + r.dom.index % 65536
  | none => 7 * 2 ^ 28

/-- Word e of the ring's records: eight words a record. -/
def State.errRecWord (s : State) (die e : Nat) : Nat :=
  match tget dN (s.errDie die).recs (e / 8) with
  | some r => fld r.bits (4 * (e % 8)) 4
  | none => 0

/-! ### Power (16 R543, R544) -/

def dRegionPwr : Nat → RegionPwr := fun _ => {}
def State.rpwr (s : State) (r : Nat) : RegionPwr := tget dRegionPwr s.power.regions r
def State.setRpwr (s : State) (r : Nat) (x : RegionPwr) : State :=
  { s with power := { s.power with regions := tset dRegionPwr s.power.regions r x } }
def dStackPwr : Nat → StackPwr := fun _ => {}
def State.spwr (s : State) (k : Nat) : StackPwr := tget dStackPwr s.power.hbm k
def State.setSpwr (s : State) (k : Nat) (x : StackPwr) : State :=
  { s with power := { s.power with hbm := tset dStackPwr s.power.hbm k x } }
def dInt : Nat → Int := fun _ => 0
def State.sensor (s : State) (k : Nat) : Int := tget dInt s.power.sensors k
def dMon : Nat → Nat × Nat := fun _ => (0, 0)
def State.monitor (s : State) (m : Nat) : Nat × Nat := tget dMon s.power.monitors m
def dAge : Nat → UnitAge := fun _ => {}
def State.age (s : State) (u : Nat) : UnitAge := tget dAge s.power.ages u

/-- Frequency of a clock point, MHz (16 R526). -/
def pointMhz (i : Nat) : Nat := 1200 + 50 * i
/-- Voltage of a region's point, mV: the ageing manager's plan, which the spec leaves open before the first one. -/
def State.volt (s : State) (r i : Nat) : Nat := if (s.rpwr r).planned then tget d0 s.power.volts (r * 19 + i) else Config.startVolt r i

/-- Draw averaged over the last 100 µs, W (R543). -/
def State.draw100 (s : State) : Nat := let l := s.power.draws.take 10; if l.isEmpty then 0 else l.sum / l.length
/-- The floor F in W. -/
def State.floorW (s : State) : Nat := s.power.floor / 100

def State.pwrStatWord (s : State) : Nat :=
  s.powerClass * 2 ^ 29 + b2n s.power.active.isSome * 2 ^ 28 + s.power.active.getD 0 % 16 * 2 ^ 24
    + b2n s.power.tripCyc.isSome * 2 ^ 23 + b2n ((List.range 16).any fun r => (s.rpwr r).gate != 0) * 2 ^ 22 + s.pLimit

def State.regFreqWord (s : State) (r : Nat) : Nat :=
  let x := s.rpwr r
  x.point % 32 * 2 ^ 27 + x.top % 32 * 2 ^ 22 + x.tcap % 32 * 2 ^ 17 + x.gate % 16 * 2 ^ 12 + pointMhz x.point

/-! ### Memory, Cleats, trackers, step slots, work (12 R402; 03 R91, R109; 07 R220, R236; 10 R337) -/

def State.memStatWord (s : State) (stack : Nat) : Nat :=
  b2n (tget dF s.mem.trained stack) * 2 ^ 31 + b2n (tget dF s.mem.selfRef stack) * 2 ^ 30
    + b2n (bit (s.reg .memScrubCfg stack).toNat 31 && tget dF s.mem.trained stack && !tget dF s.mem.selfRef stack) * 2 ^ 29
    + b2n ((List.range 64).any fun pc => !(s.erasedPins stack pc).isEmpty) * 2 ^ 28

/-- Waits registered on a Cleat and armed on it, not yet satisfied. -/
def State.waiters (s : State) (die i : Nat) : Nat :=
  let on := fun (w : Nat) (st : WaitSt) => b2n (st == .registered && waitDie w == die && waitIdx w == i)
  (s.items.map fun e => match e.2 with
    | some x => on (x.wait 0) x.w0 + on (x.wait 1) x.w1
    | none => 0).sum
  + (s.arms.filter fun a => a.die == die && a.index == i).length

/-- A reported share (07 R222). -/
def shareOf (count elems : Nat) : Nat := if elems == 0 then 0 else min (count * 65536 / elems) 65535

def Tracker.statWord (x : Tracker) : Nat :=
  b2n x.held * 2 ^ 31 + b2n x.faulted * 2 ^ 30 + b2n x.prepass * 2 ^ 29 + b2n x.nonfin * 2 ^ 28 + x.slot % 16 * 2 ^ 24
    + min x.hist.length 16 * 2 ^ 16 + x.items % 65536

/-- Entry h of a tracker's history, 0 where it is not filled. -/
def Tracker.histWord (x : Tracker) (h : Nat) : Nat := x.hist.getD h 0

def Tracker.shWord (x : Tracker) (a b : Nat) : Nat := shareOf a x.elems * 65536 + shareOf b x.elems

def StepSlot.statWord (p : StepSlot) : Nat := p.state % 16 * 2 ^ 28 + p.attempt % 16 * 2 ^ 24 + p.outstanding % 8192


/-- ATE_SPILL_STAT of a cluster. DRAINING: its oldest entry can be placed, so that its drain is due or in progress (10 R320, R337; log
entry 52). -/
def State.spillWord (s : State) (cluster : Nat) : Nat :=
  let l := s.spillOf cluster
  b2n (s.drainOne cluster).isSome * 2 ^ 31 + l.length % 32 * 2 ^ 16 + (match l with | t :: _ => t.seq % 65536 | [] => 0)

/-- An ATTEND item that would run on a cluster waits to pin its record (10 R322). -/
def State.pinWaits (s : State) (cluster : Nat) : Bool :=
  s.items.any fun e => match e.2 with
    | some x => e.1 / 256 == clusterRegion cluster && x.engine == 4 && x.stage == .ready && x.waitCyc.isSome
        && bits x.mask (cluster % 8 * 4 + 3) (cluster % 8 * 4) != 0
    | none => false

/-! ### The word -/

/-- The computed word of a register, none where the word is stored. `i` is the block instance, `e` the array element. -/
def State.viewWord (s : State) (r : Reg) (i e : Nat) : Option Nat :=
  match r with
  | .errStat => some (s.errStatWord i)
  | .errHead => some (s.errDie i).head.toNat
  | .errClear => some 0
  | .errFidStat => some (s.fidStatWord i)
  | .errFidQueue => some (s.fid i).queue.length
  | .errGenUnit => some (s.gen 0 (i * 128 + e))
  | .errGenCluster => some (s.gen 1 (i * 32 + e))
  | .errGenRegion => some (s.gen 2 (i * 4 + e))
  | .errGenDie => some (s.gen 3 i)
  | .errRec => some (s.errRecWord i e)
  | .mgtStrap => some s.boot.straps
  | .pwrStat => some s.pwrStatWord
  | .pwrClass => some s.powerClass
  | .pwrDraw => some (s.floorW * 65536 + min s.draw100 65535)
  | .pwrRegFreq => some (s.regFreqWord (i * 4 + e))
  | .pwrVf =>
    let r := i * 4 + e / 16
    let p := 2 * (e % 16)
    some (if p < 19 then s.volt r p % 65536 + (if p + 1 < 19 then s.volt r (p + 1) % 65536 * 65536 else 0) else 0)
  | .pwrTemp => some (sCode 16 (s.sensor (i * 20 + e)))
  | .pwrHbmTemp => some (sCode 16 (s.spwr (i * 4 + e)).temp)
  | .pwrAge => let m := s.monitor (i * 512 + e); some (m.1 % 65536 * 65536 + m.2 % 65536)
  | .layNow => some (s.lay.now / 2 ^ (32 * e) % 2 ^ 32)
  | .layStat => some (s.lay.state * 2 ^ 30 + s.laySource * 2 ^ 28 + s.lay.parent % 256 * 2 ^ 16)
  | .laySet => some 0
  | .layErr => some s.layErrNs
  | .layOffset => some (i32Code s.lay.offset)
  | .memStat => some (s.memStatWord i)
  | .memMap => some (b2n s.mem.mapLocked * 2 ^ 31 + bits (s.reg .memMap i).toNat 6 0)
  | .memScrubPos => some (s.scrubAt i / 2 ^ (32 * e) % 2 ^ 32)
  | .memDrainStat => some ((s.progress progDrain).state)
  | .cltVal => some (s.cleat (i / 16384) (i % 16384)).toNat
  | .cltSet => some 0
  | .cltStat => some (min (s.waiters (i / 16384) (i % 16384)) 4096)
  | .fabId => some (s.dv 0x5000 0)
  | .fabEpoch => some s.peerEpoch
  | .trkStat => some (s.tracker (i * 4096 + e)).statWord
  | .trkHmax => some (s.tracker (i * 4096 + e)).hmax
  | .trkStepmax => some (s.tracker (i * 4096 + e)).stepmax
  | .trkPremax => some (s.tracker (i * 4096 + e)).premax
  | .trkProd => let x := s.tracker (i * 4096 + e); some (x.preDone % 65536 * 65536 + x.producers % 65536)
  | .trkElems => some ((s.tracker (i * 4096 + e)).elems % 2 ^ 32)
  | .trkElemsHi => some ((s.tracker (i * 4096 + e)).elems / 2 ^ 32 % 2 ^ 32)
  | .trkSh0 => let x := s.tracker (i * 4096 + e); some (x.shWord x.counts.zeros x.counts.saturated)
  | .trkSh1 => let x := s.tracker (i * 4096 + e); some (x.shWord x.counts.flushed x.counts.clipped)
  | .trkSh2 => let x := s.tracker (i * 4096 + e); some (x.shWord x.counts.nonfinite x.counts.escaped)
  | .trkSh3 => let x := s.tracker (i * 4096 + e); some (shareOf x.counts.outlierOvf x.elems)
  | .trkHist0 => some ((s.tracker (i * 4096 + e)).histWord 0)
  | .trkHist1 => some ((s.tracker (i * 4096 + e)).histWord 1)
  | .trkHist2 => some ((s.tracker (i * 4096 + e)).histWord 2)
  | .trkHist3 => some ((s.tracker (i * 4096 + e)).histWord 3)
  | .trkHist4 => some ((s.tracker (i * 4096 + e)).histWord 4)
  | .trkHist5 => some ((s.tracker (i * 4096 + e)).histWord 5)
  | .trkHist6 => some ((s.tracker (i * 4096 + e)).histWord 6)
  | .trkHist7 => some ((s.tracker (i * 4096 + e)).histWord 7)
  | .trkHist8 => some ((s.tracker (i * 4096 + e)).histWord 8)
  | .trkHist9 => some ((s.tracker (i * 4096 + e)).histWord 9)
  | .trkHist10 => some ((s.tracker (i * 4096 + e)).histWord 10)
  | .trkHist11 => some ((s.tracker (i * 4096 + e)).histWord 11)
  | .trkHist12 => some ((s.tracker (i * 4096 + e)).histWord 12)
  | .trkHist13 => some ((s.tracker (i * 4096 + e)).histWord 13)
  | .trkHist14 => some ((s.tracker (i * 4096 + e)).histWord 14)
  | .trkHist15 => some ((s.tracker (i * 4096 + e)).histWord 15)
  | .stepCmd => some 0
  | .stepStat => some (s.step e).statWord
  | .stepFault => some (s.step e).fault
  | .stepFitems => some ((s.step e).fitems % 2 ^ 32)
  | .stepVote => some ((s.step e).vote % 2 ^ 32)
  | .stepGated => some ((s.step e).gated % 8192)
  | .wrkGen => some (s.gen 2 i)
  | .slotsStat => some ((s.items.filter fun e => e.2.isSome && e.1 / 256 == i).length)
  | .ateSpillStat => some (s.spillWord i)
  | .ateWlkStat => some ((s.reg .ateWlkStat i).toNat % 2 ^ 30 + b2n (bit (s.reg .ateWlkStat i).toNat 31) * 2 ^ 31 + b2n (s.pinWaits i) * 2 ^ 30)
  | _ => none

/-- What a register reads as. Write-only bits read zero (00, writing conventions). -/
def State.readReg (s : State) (r : Reg) (i e : Nat) : Nat :=
  match s.viewWord r i e with
  | some v => v % 2 ^ 32
  | none => if (regDef r).wo == 0xFFFFFFFF then 0 else (s.reg r i e).toNat

/-- What a die-level offset reads as: an unassigned one reads zero (02 R59). -/
def State.readOff (s : State) (die off : Nat) : Nat :=
  match regAt die (off / 4 * 4) with
  | some (d, i, e) => s.readReg d.name i e
  | none => 0

end Sys2Proof.Machine
end

