-- ==== Sys2Proof/Machine/Home.lean ====
section
/-! DEFINITION. Reset domains of registers, and the registers that are the homes of dictionary entries: reading a home, writing
it, rewriting the homes of a domain from the image, and a domain's registers at reset (00 R8; 02 R31 to R35; 14 R472). -/

namespace Sys2Proof.Machine

/-! ### Domains of registers -/

/-- The reset domain a block instance belongs to. -/
def blkDom (b : Blk) (i : Nat) : Dom :=
  let die := fun (d : Nat) => if d < 4 then (⟨3, d⟩ : Dom) else ⟨4, 0⟩
  match b with
  | .errB | .mgtB | .pwrB | .layB | .fabB | .ateDB | .rtrDB | .trkB | .hidDB => die i
  | .memB | .halB => ⟨3, stackDie i⟩
  | .cltB => die (i / 16384)
  | .memHB | .stepB => ⟨4, 0⟩
  | .wrkB | .hidRB => ⟨2, i⟩
  | .ateCB | .rtrCB => ⟨1, i⟩
  | .twnB | .hwsB | .splB | .trnB => ⟨0, i⟩

/-- The block, instance, register and element of a key. -/
def keyReg (k : Nat) : Option (RegDef × Nat × Nat) :=
  let die := k / 2 ^ 28
  let off := k % 2 ^ 28 * 4
  if die < 5 then regAt die off
  else if die < 16 then (regIn regsHidD false off).map fun r => (r.1, die - 8, r.2)
  else (regIn regsHidR false off).map fun r => (r.1, die - 16, r.2)

/-- What the reset of domain `d` leaves of the word `v` at key `k`: fields that read "kept" hold in a reset of their own domain
and of smaller ones, and return to their cold-boot value in a larger one (00 R8). A package warm reset clears the hub's counters
and ERR_TAIL, whose own domain it is (03 R111, 14 R497; 02 R28 gives each counter its default then); FLOOR_EN alone is kept
through it (16 R543; DESIGN CHOICE, log entry 94). The erasures survive a package warm reset too (12 R402). -/
def resetWord (d : Dom) (k : Nat) (v : Word) : Word :=
  match keyReg k with
  | none => 0#32
  | some (r, i, _) =>
    let own := blkDom r.blk i
    if r.name == .memPin then v
    else if !domWithin own d then v
    else if own.level == d.level && (decide (d.level < 4) || r.name == .pwrRampCfg) then (v &&& BitVec.ofNat 32 r.kept) ||| (regReset k &&& ~~~(BitVec.ofNat 32 r.kept))
    else regReset k

/-- The registers of a domain at its reset. -/
def State.resetRegs (s : State) (d : Dom) : State :=
  { s with regs := s.regs.filterMap fun e =>
      let w := resetWord d e.1 e.2
      if w == regReset e.1 then none else some (e.1, w) }

/-! ### Homes (02 R28, R31, R34) -/

/-- A piece of an entry's home: bits from `lo`, `w` of them, of a register, at bit `pos` of the value. -/
structure Piece where
  reg : Reg
  inst : Nat
  el : Nat
  lo : Nat
  w : Nat
  pos : Nat

/-- Instance of a hub register. -/
def hubInst (r : Reg) : Nat := match regBlk r with | .stepB | .memHB => 0 | _ => hubDie

/-- The pieces of the home of index:subindex, every copy of them. -/
def homePieces (d : DEntry) (idx sub : Nat) : List Piece :=
  match d.home with
  | .mc | .view | .cqSum => []
  | .die r lo w => [⟨r, sub, 0, lo, w, 0⟩]
  | .region r lo w => [⟨r, sub, 0, lo, w, 0⟩]
  | .regionLay r => [⟨r, sub / 4, sub % 4, 0, 32, 0⟩]
  | .regionPwr r lo w => [⟨r, sub / 4, sub % 4, lo, w, 0⟩]
  | .stack r lo w => [⟨r, sub, 0, lo, w, 0⟩]
  | .cluster r => [⟨r, sub, 0, 0, 32, 0⟩]
  | .unit r => [⟨r, (idx - d.idx) * 256 + sub, 0, 0, 32, 0⟩]
  | .everyPly r lo w => (List.range 4).map fun i => ⟨r, i, 0, lo, w, 0⟩
  | .everyPly64 r hi => (List.range 4).flatMap fun i => [⟨r, i, 0, 0, 32, 0⟩, ⟨hi, i, 0, 0, 32, 32⟩]
  | .everyPlyBlob r => (List.range 4).flatMap fun i => (List.range 8).map fun k => ⟨r, i, 8 * sub + k, 0, 32, 32 * k⟩
  | .everyCtrl r lo w => (List.range 16).map fun i => ⟨r, i, 0, lo, w, 0⟩
  | .hp => (List.range 16).map fun i => ⟨.halHp, i, 8 * (idx - d.idx) + sub, 0, 32, 0⟩
  | .wide => (List.range 16).flatMap fun i => [⟨.wideMap, i, 2 * sub, 0, 32, 0⟩, ⟨.wideMap, i, 2 * sub + 1, 0, 32, 32⟩]
  | .hub r lo w => [⟨r, hubInst r, 0, lo, w, 0⟩]
  | .hub64 r => [⟨r, hubInst r, 0, 0, 32, 0⟩, ⟨r, hubInst r, 1, 0, 32, 32⟩]
  | .hubPair r => [⟨r, hubInst r, 2 * sub, 0, 32, 0⟩, ⟨r, hubInst r, 2 * sub + 1, 0, 32, 32⟩]
  | .hubBlob r => (List.range 8).map fun k => ⟨r, hubInst r, 8 * sub + k, 0, 32, 32 * k⟩
  | .root r => [⟨r, hubInst r, sub, 0, 32, 0⟩]
  | .slot r => [⟨r, hubInst r, sub, 0, 32, 0⟩]
  | .port r lo w => [⟨r, portDie sub, portEl sub, lo, w, 0⟩]
  | .portBits r b => (List.range 18).map fun p => ⟨r, portDie p, portEl p, b, 1, p⟩

/-- The reset domain of a piece. -/
def Piece.dom (p : Piece) : Dom := blkDom (regBlk p.reg) p.inst

/-- ATE_SLOT_KIB is held in its field by code: 0 for 32 KiB to 3 for 256 (10 R336). -/
def fieldOf (idx v : Nat) : Nat := if idx == 0x2071 then (if v == 32 then 0 else if v == 64 then 1 else if v == 256 then 3 else 2) else v
def valueOf (idx f : Nat) : Nat := if idx == 0x2071 then 32 * 2 ^ (f % 4) else f

/-- What the home of an entry reads as: every piece at its place, one copy. -/
def State.homeGet (s : State) (d : DEntry) (idx sub : Nat) : Nat :=
  match d.home with
  | .cqSum => sat32 ((List.range 8).map fun k => (s.reg .cqFullCnt sub k).toNat).sum
  | _ => valueOf idx ((homePieces d idx sub).foldl (fun (a : Nat × List Nat) p =>
      if a.2.contains p.pos then a
      else (a.1 + bits (s.readReg p.reg p.inst p.el) (p.lo + p.w - 1) p.lo * 2 ^ p.pos, p.pos :: a.2)) (0, [])).1

/-- Put a value's part into a piece. -/
def State.putPiece (s : State) (p : Piece) (v : Nat) : State :=
  let old := (s.reg p.reg p.inst p.el).toNat
  s.setReg p.reg p.inst p.el (BitVec.ofNat 32 (setBits old (p.lo + p.w - 1) p.lo (v / 2 ^ p.pos % 2 ^ p.w)) &&& BitVec.ofNat 32 (elMask p.reg p.el))

/-- Put a value into every piece of an entry's home whose domain is not in reset or recovery; the others take it from the image at
the rewrite of their domain (02 R34, R36). -/
def State.homePut (s : State) (d : DEntry) (idx sub v : Nat) : State :=
  ((homePieces d idx sub).filter fun p => !s.frozen p.dom).foldl (fun s p => s.putPiece p (fieldOf idx v)) s

/-- The subindices of an entry. -/
def DEntry.subs (d : DEntry) : List Nat := (List.range d.subN).map (d.sub + ·)

/-- The rewrite of a domain's home fields from the image (02 R34). -/
def State.rewriteHomes (s : State) (dom : Dom) : State :=
  dictTable.foldl (fun s d =>
    if d.acc != .rw && d.acc != .gw then s
    else (List.range d.idxN).foldl (fun s n => d.subs.foldl (fun s sub =>
      ((homePieces d (d.idx + n) sub).filter fun p => domWithin p.dom dom).foldl
        (fun s p => s.putPiece p (fieldOf (d.idx + n) (s.dv (d.idx + n) sub))) s) s) s) s

/-- The instance an entry's subindex names, as a domain, when it names one. -/
def instDom (d : DEntry) (idx sub : Nat) : Option Dom :=
  match d.scheme with
  | .die | .ply => if sub < 4 then some ⟨3, sub⟩ else none
  | .region => some ⟨2, sub⟩
  | .stack => some ⟨3, stackDie sub⟩
  | .cluster => some ⟨1, sub⟩
  | .table => if idx == 0x40C0 || idx == 0x40C1 then some ⟨0, (idx - 0x40C0) * 256 + sub⟩ else
    match d.home with
    | .unit _ => some ⟨0, (idx - d.idx) * 256 + sub⟩
    | _ => none
  | _ => match d.home with
    | .unit _ => some ⟨0, (idx - d.idx) * 256 + sub⟩
    | _ => none

/-- The instance is fenced: every unit of it is (02 R33). Dies are never fenced. -/
def State.instFenced (s : State) (d : DEntry) (idx sub : Nat) : Bool :=
  match instDom d idx sub with
  | some dom => decide (dom.level < 3) && (domUnits dom.level dom.index).all s.unitFenced
  | none => false

/-- What a fenced instance of a region or a cluster kept in the image goes into its home when one of its units, `u`, returns to
service (02 R33). -/
def State.rewriteInst (s : State) (u : Nat) : State :=
  dictTable.foldl (fun s d =>
    if d.acc != .rw && d.acc != .gw then s
    else match d.scheme with
      | .region => s.homePut d d.idx (unitRegion u) (s.dv d.idx (unitRegion u))
      | .cluster => s.homePut d d.idx (unitCluster u) (s.dv d.idx (unitCluster u))
      | _ => s) s

/-- Some part of the entry's home is in reset or recovery (02 R36). -/
def State.homeDown (s : State) (d : DEntry) (idx sub : Nat) : Bool :=
  (homePieces d idx sub).any (fun p => s.frozen p.dom) || (d.home == .cqSum && s.frozen ⟨2, sub⟩)

/-- The die whose counters a refusal of the entry is counted at: that of its home, the hub when it has none. -/
def homeDie (d : DEntry) (idx sub : Nat) : Nat :=
  match homePieces d idx sub with
  | p :: _ => domDie p.dom
  | [] => hubDie

end Sys2Proof.Machine
end

