-- ==== Sys2Proof/Machine/Snarl.lean ====
section
/-! DEFINITION. Snarl captures: where they lie, what they hold, their descriptors, and SNARL_COPY (14 R478 to R482). -/

namespace Sys2Proof.Machine

/-! ### Areas (R478) -/

/-- The physical place of offset x of an area: 0–3 those of the ply dies, 4 the fallback area. -/
def State.snarlPlace (s : State) (area x : Nat) : Nat :=
  if area < 4 then placeHbm (4 * area + x / 2 ^ 20) (s.stackBytes - 64 * 2 ^ 20 + x % 2 ^ 20) else placeSram 4 (0xC00000 + x)

/-- Area offset and size of a slot. -/
def snarlOff (slot : Nat) : Nat := if slot == 0 then 0 else 0x200000 + (slot - 1) * 0x20000
def snarlSize (slot : Nat) : Nat := if slot == 0 then 0x200000 else 0x20000

/-- Bytes of an area. -/
def State.snarlByte (s : State) (area x : Nat) : Byte := s.mem.byteAt (s.snarlPlace area x)

/-- Store bytes at physical places, the last first. -/
def Mem.putList (m : Mem) (l : List (Nat × Byte)) : Mem := l.foldr (fun e m => m.setByte e.1 e.2) m

/-- A range of n bytes of an area becomes zero. A line of HBM that was uncorrectable carries the marking still, as a capture writes parts of
lines (12 R384, R405); a line of the hub's buffer loses it. -/
def State.snarlClear (s : State) (area x n : Nat) : State :=
  let keep := fun (p : Nat) =>
    if area < 4 then
      let o := s.stackBytes - 64 * 2 ^ 20
      !(p < 2 ^ 48 && p / 2 ^ 40 / 4 == area && decide (o ≤ p % 2 ^ 40) && decide (p % 2 ^ 40 < o + 2 ^ 20)
        && (let y := p / 2 ^ 40 % 4 * 2 ^ 20 + (p % 2 ^ 40 - o); decide (x ≤ y) && decide (y < x + n)))
    else !(decide (placeSram 4 (0xC00000 + x) ≤ p) && decide (p < placeSram 4 (0xC00000 + x + n)))
  { s with mem := { s.mem with bytes := tkeep keep s.mem.bytes, poison := if area < 4 then s.mem.poison else tkeep (fun l => keep (l * 64)) s.mem.poison } }

/-- Store 32-bit words at offsets of an area. -/
def State.snarlWords (s : State) (area : Nat) (ws : List (Nat × Nat)) : State :=
  { s with mem := s.mem.putList (ws.flatMap fun w => (leBytes 4 w.2).zipIdx.map fun b => (s.snarlPlace area (w.1 + b.2), b.1)) }

/-! ### Descriptors (R482) -/

/-- The eight words of a descriptor. -/
def Snarl.words (x : Snarl) : List Nat :=
  [ x.lay % 2 ^ 64
  , x.seq % 65536 + x.dom.level % 8 * 2 ^ 16 + x.dom.index % 65536 * 2 ^ 32
  , x.genBefore % 65536 + x.genAfter % 65536 * 2 ^ 16 + x.causeSeq % 65536 * 2 ^ 32 + x.causeSrc % 256 * 2 ^ 48
  , x.loc % 4 + x.slot % 32 * 4 + b2n x.acked * 2 ^ 7 + b2n x.trunc * 2 ^ 8 + b2n x.poisoned * 2 ^ 9 + b2n x.escalated * 2 ^ 10
      + x.length % 2 ^ 32 * 2 ^ 32
  , x.sections % 65536
  , x.layDone % 2 ^ 64
  , x.durUs % 2 ^ 32
  , 0 ]

/-- 64-bit words as 32-bit words at offsets from x. -/
def dwordsAt (x : Nat) (ws : List Nat) : List (Nat × Nat) :=
  ws.zipIdx.flatMap fun w => [(x + 8 * w.2, w.1 % 2 ^ 32), (x + 8 * w.2 + 4, w.1 / 2 ^ 32 % 2 ^ 32)]

/-- Put a capture's descriptor into its slot: the one the management controller holds, and the first 64 bytes of the capture. -/
def State.putSnarl (s : State) (area slot : Nat) (x : Snarl) : State :=
  (s.setSnarl area slot (some x)).snarlWords area (dwordsAt (snarlOff slot) x.words)

/-- Change a capture's descriptor. -/
def State.modSnarl (s : State) (key : Nat) (f : Snarl → Snarl) : State :=
  match s.snarlIn (key / 32) (key % 32) with
  | some x => s.putSnarl (key / 32) (key % 32) (f x)
  | none => s

/-! ### Sections (R480, R481) -/

/-- The non-zero words of a block's image, at offsets from x, up to `size` bytes. -/
def State.blockImage (s : State) (b : Blk) (i size x : Nat) : List (Nat × Nat) :=
  (blkRegs b).flatMap fun d => (List.range d.count).filterMap fun e =>
    let o := d.off + d.stride * e
    if o < size then
      let v := s.readReg d.name i e
      if v == 0 then none else some (x + o, v)
    else none

/-- Unit state: four images of 256 bytes. -/
def State.secUnit (s : State) (u x : Nat) : List (Nat × Nat) :=
  s.blockImage .twnB u 256 x ++ s.blockImage .hwsB u 256 (x + 0x100) ++ s.blockImage .splB u 256 (x + 0x200)
    ++ s.blockImage .trnB u 256 (x + 0x300)

/-- A spilled token in 32 bytes: sequence, layer, index, position, coarse scale, die, region and item (the layout of the spill
slot's state is the model's, log entry 64). -/
def spillImage (t : SpillTok) : List Nat :=
  [t.seq % 65536 + t.layer % 65536 * 2 ^ 16, t.index % 2 ^ 32, t.pos % 2 ^ 32, t.coarse % 2 ^ 32,
   t.die + t.region * 2 ^ 8 + b2n t.poison * 2 ^ 31, t.item % 2 ^ 32, 0, 0]

/-- Cluster state: images of ATE_ and RTR_, then the spill slot. -/
def State.secCluster (s : State) (c x : Nat) : List (Nat × Nat) :=
  s.blockImage .ateCB c 256 x ++ s.blockImage .rtrCB c 256 (x + 0x100)
    ++ ((tget (fun _ => ([] : List SpillTok)) s.spills c).zipIdx.flatMap fun t =>
      (spillImage t.1).zipIdx.map fun w => (x + 0x200 + 32 * t.2 + 4 * w.2, w.1))

/-- Stage code of a slot. -/
def stageCode : Stage → Nat
  | .admitted => 1 | .ready => 2 | .running => 3 | .finished => 3 | .recordWaiting => 4

/-- The items of a region. -/
def State.regionItems (s : State) (region : Nat) : List (Nat × Item) :=
  s.items.filterMap fun e => match e.2 with
    | some x => if e.1 / 256 == region then some (e.1 % 256, x) else none
    | none => none

/-- Region state: the image of the WRK_ block, then the slots. -/
def State.secRegion (s : State) (r x : Nat) : List (Nat × Nat) :=
  s.blockImage .wrkB r 2048 x ++ ((s.regionItems r).flatMap fun e =>
    [(x + 2048 + 8 * e.1, stageCode e.2.stage + e.2.queued.sum % 65536 * 2 ^ 16), (x + 2052 + 8 * e.1, (s.cycle - e.2.progCyc) / 2100 % 2 ^ 32)])

/-- The words of a wide number at an offset. -/
def numWords (x bytes v : Nat) : List (Nat × Nat) := (List.range (bytes / 4)).map fun i => (x + 4 * i, v / 2 ^ (32 * i) % 2 ^ 32)

/-- Scheduler slots' descriptors, and the records that wait. -/
def State.secSlots (s : State) (r x : Nat) : List (Nat × Nat) := (s.regionItems r).flatMap fun e => numWords (x + 128 * e.1) 128 e.2.raw
def State.secWaiting (s : State) (r x : Nat) : List (Nat × Nat) :=
  (s.regionItems r).flatMap fun e => match e.2.waiting with | some (_, v, _) => numWords (x + 64 * e.1) 64 v | none => []

/-- The error ring, oldest unread record first. -/
def State.secRing (s : State) (die x : Nat) : List (Nat × Nat) :=
  let t := (s.reg .errTail die).toNat
  (List.range (min ((s.errDie die).head - s.reg .errTail die).toNat 256)).flatMap fun i =>
    match tget dN (s.errDie die).recs ((t + i) % 2 ^ 32 % 256) with
    | some r => numWords (x + 32 * i) 32 r.bits
    | none => []

/-- Cleat values, then configurations, of a die. -/
def State.secCleats (s : State) (die x : Nat) : List (Nat × Nat) :=
  (s.cleats.filterMap fun e => if e.1 / 16384 == die then some (x + 4 * (e.1 % 16384), e.2.toNat) else none)
    ++ (s.regs.filterMap fun e => match keyReg e.1 with
      | some (d, i, _) => if d.name == .cltCfg && i / 16384 == die then some (x + 0x10000 + 4 * (i % 16384), e.2.toNat) else none
      | none => none)

/-- Wait registrations of the regions of a die, 16 bytes each. -/
def State.secWaits (s : State) (die x : Nat) : List (Nat × Nat) :=
  let l := (List.range 4).flatMap fun k => (s.regionItems (4 * die + k)).flatMap fun e =>
    let one := fun (w : Nat) (st : WaitSt) => (if st == .registered then [w + (4 * die + k) * 2 ^ 64 + e.1 * 2 ^ 72] else [] : List Nat)
    one (e.2.wait 0) e.2.w0 ++ one (e.2.wait 1) e.2.w1
  (l.take 4096).zipIdx.flatMap fun v => numWords (x + 16 * v.2) 16 v.1

/-- In-flight tags of regions: their packets on the fabric. -/
def State.secTags (s : State) (regions : List Nat) (n x : Nat) : List (Nat × Nat) :=
  ((s.sends.filter fun e => regions.contains e.region).take n).zipIdx.flatMap fun e =>
    numWords (x + 16 * e.2) 16 (e.1.dst % 2 ^ 48 + 5 * 2 ^ 48 + s.gen 2 e.1.region * 2 ^ 64 + (0x200 + e.1.region) * 2 ^ 80
      + (s.cycle - e.1.at') / 2100 % 2 ^ 32 * 2 ^ 96)

/-- The tracker table of a die. -/
def State.secTrackers (s : State) (die x : Nat) : List (Nat × Nat) :=
  (List.range 4096).flatMap fun t =>
    if tget dTrk s.trk (die * 4096 + t) = {} then
      [(x + 128 * t, (s.reg .trkCfg die t).toNat), (x + 128 * t + 8, (s.reg .trkInit die t).toNat)]
    else regsTrk.filterMap fun d => let v := s.readReg d.name die t; if v == 0 then none else some (x + 128 * t + d.off, v)

/-- Controllers and ports of a die. -/
def State.secPorts (s : State) (die x : Nat) : List (Nat × Nat) :=
  ((List.range 4).flatMap fun k => s.blockImage .memB (4 * die + k) 4096 (x + 0x2000 * k)
    ++ s.blockImage .halB (4 * die + k) 4096 (x + 0x2000 * k + 0x1000))
    ++ s.blockImage .fabB die 0x5000 (x + 0x8000)

/-- A capture's section table, bit by bit (offset and length), and its words. -/
structure Sections where
  table : List (Nat × Nat × Nat)
  words : List (Nat × Nat)

/-- What the capture of a domain holds, at offsets from the capture. -/
def State.sectionsOf (s : State) (d : Dom) : Sections :=
  let i := d.index
  if d.level == 0 then { table := [(3, 0x1000, 0x400)], words := s.secUnit i 0x1000 }
  else if d.level == 1 then
    { table := [(2, 0x1000, 0x400), (3, 0x2000, 0x1000)]
      words := s.secCluster i 0x1000 ++ (List.range 4).flatMap fun u => s.secUnit (4 * i + u) (0x2000 + 0x400 * u) }
  else if d.level == 2 then
    { table := [(0, 0x1000, 0x2000), (1, 0x3000, 0x1000), (2, 0x4000, 0x2000), (3, 0x6000, 0x8000), (5, 0xE000, 0x8000),
        (6, 0x16000, 0x4000), (9, 0x1A000, 0x2000)]
      words := s.secRing (regionDie i) 0x1000 ++ s.secRegion i 0x3000
        ++ ((List.range 8).flatMap fun c => s.secCluster (8 * i + c) (0x4000 + 0x400 * c))
        ++ ((List.range 32).flatMap fun u => s.secUnit (32 * i + u) (0x6000 + 0x400 * u))
        ++ s.secSlots i 0xE000 ++ s.secWaiting i 0x16000 ++ s.secTags [i] 512 0x1A000 }
  else
    { table := [(0, 0x1000, 0x2000), (1, 0x4000, 0x4000), (2, 0x8000, 0x8000), (3, 0x10000, 0x20000), (4, 0x30000, 0x10000),
        (5, 0x40000, 0x20000), (6, 0x60000, 0x10000), (7, 0x70000, 0x20000), (8, 0x90000, 0x10000), (9, 0xA0000, 0x80000),
        (10, 0x120000, 0x80000)]
      words := s.secRing i 0x1000
        ++ ((List.range 4).flatMap fun r => s.secRegion (4 * i + r) (0x4000 + 0x1000 * r))
        ++ ((List.range 32).flatMap fun c => s.secCluster (32 * i + c) (0x8000 + 0x400 * c))
        ++ ((List.range 128).flatMap fun u => s.secUnit (128 * i + u) (0x10000 + 0x400 * u))
        ++ s.secPorts i 0x30000
        ++ ((List.range 4).flatMap fun r => s.secSlots (4 * i + r) (0x40000 + 0x8000 * r))
        ++ ((List.range 4).flatMap fun r => s.secWaiting (4 * i + r) (0x60000 + 0x4000 * r))
        ++ s.secCleats i 0x70000 ++ s.secWaits i 0x90000
        ++ s.secTags ((List.range 4).map (4 * i + ·)) 32768 0xA0000 ++ s.secTrackers i 0x120000 }

/-- Length of a capture. -/
def Sections.length (x : Sections) : Nat := x.table.foldl (fun a e => max a (e.2.1 + e.2.2)) 0x1000

/-- The section table's words, from offset 64 of the header. -/
def Sections.header (x : Sections) : List (Nat × Nat) := x.table.flatMap fun e => [(64 + 8 * e.1, e.2.1), (68 + 8 * e.1, e.2.2)]

/-! ### Taking a capture (R479) -/

/-- A slot can take a capture: it never held one, or its capture is acknowledged. -/
def State.snarlFree (s : State) (area slot : Nat) : Bool := match s.snarlIn area slot with | some x => x.acked | none => true

/-- The slot a capture of a level takes in an area. -/
def State.snarlSlot (s : State) (area level : Nat) : Option Nat :=
  if level == 3 then (if s.snarlFree area 0 then some 0 else none)
  else ((List.range 16).map (· + 1)).find? fun k => s.snarlFree area k

/-- Some line of a slot of the die's own area is uncorrectable: it carries the marking (12 R405). -/
def State.snarlBad (s : State) (area slot : Nat) : Bool :=
  s.mem.poison.any fun e =>
    (decide (e.1 * 64 < 2 ^ 48) && e.1 * 64 / 2 ^ 40 / 4 == area && decide (s.stackBytes - 64 * 2 ^ 20 ≤ e.1 * 64 % 2 ^ 40))
      && (let y := e.1 * 64 / 2 ^ 40 % 4 * 2 ^ 20 + (e.1 * 64 % 2 ^ 40 - (s.stackBytes - 64 * 2 ^ 20))
          decide (snarlOff slot ≤ y) && decide (y < snarlOff slot + snarlSize slot))

/-- A stack of the die is not TRAINED, or is in SELFREF. -/
def State.stacksAway (s : State) (die : Nat) : Bool :=
  (List.range 4).any fun k => !tget dF s.mem.trained (4 * die + k) || tget dF s.mem.selfRef (4 * die + k)

/-- Write a capture into a slot. -/
def State.writeSnarl (s : State) (area slot : Nat) (x : Snarl) (sec : Sections) : State :=
  let o := snarlOff slot
  let s := s.snarlClear area o (snarlSize slot)
  let s := s.snarlWords area (sec.header.map fun w => (o + w.1, w.2))
  (s.snarlWords area (sec.words.map fun w => (o + w.1, w.2))).putSnarl area slot x

/-- The capture of a domain of a die: placed, or skipped when no slot is free. Answers the keys of the slots taken. -/
def State.capture (s : State) (die : Nat) (d : Dom) (genBefore causeSeq causeSrc : Nat) (fromHbm : Bool) : State × List Nat :=
  let sec := s.sectionsOf d
  let n := tget d0 s.snarlSeq die
  let mk := fun (area slot : Nat) (poisoned : Bool) => (
    { die := die, lay := s.lay.now, seq := n, dom := d, genBefore := genBefore, genAfter := 0, causeSeq := causeSeq, causeSrc := causeSrc
      loc := if area < 4 then 1 else 2, slot := slot, acked := false, trunc := false, poisoned := poisoned, escalated := false
      length := sec.length, sections := (sec.table.map fun e => 2 ^ e.1).sum, layDone := 0, durUs := 0 } : Snarl)
  let note := fun (s : State) (kind slot : Nat) =>
    s.record die 9 sevRecover d.level 0 d.index (if d.level ≤ 3 then s.gen d.level d.index else s.pkgGen)
      (kind * 2 ^ 120 + d.level % 8 * 2 ^ 117 + d.level % 8 * 2 ^ 114 + d.index % 65536 * 2 ^ 96 + slot * 2 ^ 56)
  let skip := fun (s : State) (keys : List Nat) => ((note s 6 0).mcBump 0x40A6 die 1, keys)
  let fallback := fun (s : State) (keys : List Nat) =>
    match s.snarlSlot 4 d.level with
    | some slot => (note ((s.writeSnarl 4 slot (mk 4 slot false) sec)) 7 slot, snarlKey 4 slot :: keys)
    | none => skip s keys
  let s := { s with snarlSeq := tset d0 s.snarlSeq die ((n + 1) % 65536) }
  if fromHbm || s.stacksAway die then fallback s []
  else match s.snarlSlot die d.level with
    | none => skip s []
    | some slot =>
      if s.snarlBad die slot then fallback (s.writeSnarl die slot (mk die slot true) sec) [snarlKey die slot]
      else (s.writeSnarl die slot (mk die slot false) sec, [snarlKey die slot])

/-- The capture that answers for a domain: its newest (R482). -/
def State.snarlOf (s : State) (d : Dom) : Option Snarl :=
  (s.snarl.filterMap fun e => match e.2 with | some x => if x.dom = d then some x else none | none => none).foldl
    (fun best x => match best with
      | none => some x
      | some b => if b.lay < x.lay || (b.lay == x.lay && decide (b.poisoned && !x.poisoned)) then some x else best) none

/-- SNARL_ACK (R479): slots of an area acknowledged, bit by bit. -/
def State.snarlAckAll (s : State) (area mask : Nat) : State :=
  (List.range 17).foldl (fun s k => if bit mask k then s.modSnarl (snarlKey area k) fun x => { x with acked := true } else s) s

def execSnarlAck (_ini area mask : Nat) (s : State) : Host.Outcome State Fault Refusal :=
  .next (if area < 5 then s.snarlAckAll area mask else s)

end Sys2Proof.Machine
end

