-- ==== Sys2Proof/Machine/Start.lean ====
section
/-! DEFINITION. How the package starts: the boot-attempt record, stage 0, cold boots, and what a package warm reset leaves (02
R28, R35; 14 R472; 15 R501, R505 to R511). -/

namespace Sys2Proof.Machine

/-! ### The boot-attempt record (15 R505, R506) -/

/-- The current copy, the valid one of the higher SEQ, and whether it is the first. -/
def Boot.current (b : Boot) : Option (BootRec × Bool) :=
  match b.copy0, b.copy1 with
  | some x, some y => some (if x.seq < y.seq then (y, false) else (x, true))
  | some x, none => some (x, true)
  | none, some y => some (y, false)
  | none, none => none

/-- A fresh record. -/
def freshRec : BootRec := ⟨0, 0, 0, [0, 0, 0], false⟩
def Boot.record (b : Boot) : BootRec := match b.current with | some r => r.1 | none => freshRec

/-- Write the record: the next SEQ, into the copy that is not current. -/
def Boot.write (b : Boot) (r : BootRec) : Boot :=
  let r := { r with seq := (b.record.seq + 1) % 2 ^ 32 }
  match b.current with
  | some (_, true) => { b with copy1 := some r }
  | _ => { b with copy0 := some r }

/-- An entry joins FAILED, newest first. -/
def BootRec.fail (r : BootRec) (stage reason : Nat) : BootRec :=
  { r with failed := (stage % 65536 * 65536 + reason % 65536) :: r.failed.take 2, noted := true }

/-- Change the record. -/
def State.modRec (s : State) (f : BootRec → BootRec) : State := { s with boot := s.boot.write (f s.boot.record) }

/-! ### Straps (15 R501) -/

def State.strapBoot (s : State) : Nat := let b := bits s.boot.straps 1 0; if b == 3 then 0 else b
def State.strapBitter (s : State) : Bool := bit s.boot.straps 9
def State.strapDbg (s : State) : Bool := bit s.boot.straps 10
/-- Default of LAY_SOURCE. -/
def State.strapLay (s : State) : Nat := let l := bits s.boot.straps 8 7; if l == 3 then 2 else if l == 1 then 1 else 0

/-- The defaults that straps set, in the image and at their homes (02 R35). -/
def State.strapDefaults (s : State) : State :=
  let s := (s.setDv 0x2080 0 s.strapLay).setDv 0x20B0 0 s.strapClass
  let s := s.setReg .layCfg hubDie 0 (BitVec.ofNat 32 (0x1F1F + s.strapLay * 2 ^ 28))
  s.setReg .pwrClass hubDie 0 (BitVec.ofNat 32 s.strapClass)

/-- A security and boot record (SRC 0x0D) in the hub's ring. -/
def State.bootRecord (s : State) (sev kind low : Nat) : State := s.record hubDie 13 sev 7 0 0 0 (kind * 2 ^ 120 + low)

/-! ### Stage 0 (15 R506, R507, R511) -/

/-- The slot a start tries first. -/
def State.firstSlot (s : State) : Nat :=
  if s.strapBoot == 1 then 1 else if s.strapBoot == 2 then 0 else s.boot.record.active

/-- Bitter-end mode is entered: the ply dies stay in reset, and the sideband alerts (15 R511, 17 R559). -/
def State.enterBitter (s : State) (cause : Nat) : State :=
  ({ s with boot := { s.boot with bitter := true, cause := cause, stage := 0 }, fids := [] }).alert 16

/-- What the boot ROM does at stage 0, in the order of R506. -/
def State.stage0 (s : State) : State :=
  let s := { s with boot := { s.boot with stage := 0, began := s.cycle, stageCyc := s.cycle, second := false, bitter := false, cause := 0 } }
  let s := if s.boot.current.isNone then (s.modRec fun _ => freshRec).modRec (·.fail 0 0x0006) else s
  let r := s.boot.record
  let s := if 0 < r.attempts && !r.noted then s.modRec (·.fail 0 0x00FF) else s
  if s.strapBitter then s.enterBitter 2
  else if 3 ≤ s.boot.record.attempts then s.enterBitter 1
  else
    let n := s.boot.record.attempts
    let s := s.modRec fun r => { r with attempts := n + 1, noted := false }
    { s with boot := { s.boot with before := n, slot := s.firstSlot } }

/-! ### A cold boot (15 R508; 14 R483, R494) -/

/-- The state at T0 of a cold boot: fuses, the boot flash and what the board attached stay; everything else is as at reset. -/
def State.coldState (s : State) (straps : Nat) : State :=
  let b := s.boot
  { State.reset with
    small := s.small, pending := s.pending, keys := s.keys, out := s.out, freeCtr := s.freeCtr
    boot := { straps := straps % 2 ^ 32, copy0 := b.copy0, copy1 := b.copy1, starts := b.starts + 1, flash := b.flash
              slotA := b.slotA, slotB := b.slotB, rollback := b.rollback, ownerDigest := b.ownerDigest }
    mem := { far0 := s.mem.far0, far1 := s.mem.far1 }
    power := { offReq := s.power.offReq, tripPin := s.power.tripPin } }

/-- A cold boot begins: the straps' defaults, the report of a reserved power class, and stage 0. -/
def State.coldStart (s : State) (straps : Nat) : State :=
  let s := (s.coldState straps).strapDefaults
  let s := if 5 ≤ bits s.boot.straps 6 4 then s.bootRecord sevDeferred 1 0x0051 else s
  s.stage0

/-- The start in progress fails: its stage and reason are recorded, and the package restarts as at power-good with the straps it
has (R506). -/
def State.startFails (s : State) (reason : Nat) : State :=
  let st := s.boot.stage
  (s.modRec (·.fail st reason)).coldStart s.boot.straps

/-- A reset asked for before READY: reason 0x00F1 is recorded and ATTEMPTS returns to its value before the start (R506). -/
def State.notCounted (s : State) : State :=
  if s.boot.stage != 7 && !s.boot.bitter then
    let st := s.boot.stage
    let n := s.boot.before
    s.modRec fun r => { (r.fail st 0x00F1) with attempts := n }
  else s

/-! ### What a package warm reset leaves (14 R472; 02 R28, R35; 15 R509) -/

/-- An operation that a reset of its domain stops (02 R79). -/
def Progress.abort (p : Progress) : Progress := if p.busy then { p with state := 4, lastError := 7 } else p

/-- The state of the hub and the ply dies after their reset: HBM contents, the fallback Snarl area, what the management controller
keeps, fences, and the time base stay. -/
def State.warmState (s : State) : State :=
  let m := s.mem
  let keepByte := fun (p : Nat) => p < 2 ^ 48 || 2 ^ 50 ≤ p || decide (placeSram 4 0xC00000 ≤ p)
  { State.reset with
    small := s.small, pending := s.pending, cycle := s.cycle, out := s.out, freeCtr := s.freeCtr
    regs := (s.resetRegs ⟨4, 0⟩).regs
    sessions := s.sessions, nextSession := s.nextSession, keys := s.keys
    err := s.err.map fun e => (e.1, { ({} : ErrDie) with seq := e.2.seq, copy := e.2.copy, corrected := e.2.corrected })
    gens := s.gens, fids := s.fids, snarl := s.snarl, snarlSeq := s.snarlSeq
    fenced := s.fenced, fenceDue := s.fenceDue, unfenceDue := s.unfenceDue
    prog := s.prog.map fun e => (e.1, if e.1 == 0x7030 then e.2 else e.2.abort)
    mem := { bytes := tkeep keepByte m.bytes, poison := tkeep (fun l => keepByte (l * 64)) m.poison
             far0 := m.far0, far1 := m.far1, trained := m.trained, selfRef := m.trained
             pinLines := m.pinLines, pinDone := m.pinDone, scrubPos := m.scrubPos, ceSec := m.ceSec, markDue := m.markDue }
    doneCtr := s.doneCtr, sendSeq := s.sendSeq
    pkgGen := (s.pkgGen + 1) % 65536
    lay := { now := s.lay.now, rem := s.lay.rem }
    boot := { s.boot with stage := 0, warm := true, bootMs := 0, report := [], nonce := none, debug := s.boot.debug }
    power := { offReq := s.power.offReq, tripPin := s.power.tripPin, i3cAddr := s.power.i3cAddr, alert := s.power.alert
               alertMask := s.power.alertMask, sensors := s.power.sensors, failed := s.power.failed, hbm := s.power.hbm
               draws := s.power.draws, railMv := s.power.railMv, railCurrent := s.power.railCurrent } }

/-- The reset step of a package warm reset, and stage 0 after it. Tables whose entries may have returned to their defaults are
written anew in canonical form. -/
def State.warmStart (s : State) : State :=
  let t := s.warmState
  let t := { t with
    err := t.err.foldl (fun (m : Sparse ErrDie) (e : Nat × ErrDie) => tset dErr m e.1 e.2) []
    prog := t.prog.foldl (fun (m : Sparse Progress) (e : Nat × Progress) => tset dProg m e.1 e.2) [] }
  t.strapDefaults.stage0

end Sys2Proof.Machine
end

