-- ==== Sys2Proof/Machine/Ranges.lean ====
section
/-! DEFINITION. Legal ranges of dictionary values, what a value outside one becomes in a direct store, and Agrex status codes
(02 R29, R37, R38, R45; 10 R300, R338; 13 R454; 14 R498; 15 R522; 16 R530, R545). -/

namespace Sys2Proof.Machine

/-! ### Agrex status codes (R45) -/

def agOk : Nat := 0x00
def agBusy : Nat := 0x08
def agInvalid : Nat := 0x0A
def agNoObject : Nat := 0x40
def agDenied : Nat := 0x41
def agType : Nat := 0x42
def agRange : Nat := 0x43
def agLarge : Nat := 0x44
def agGuard : Nat := 0x45
def agSeq : Nat := 0x46
def agNotOwner : Nat := 0x47
def agLimit : Nat := 0x48
def agNoSession : Nat := 0x49

/-! ### Ranges -/

/-- An FP32 code is a NaN. -/
def f32Nan (v : Nat) : Bool := bits v 30 23 == 255 && bits v 22 0 != 0

/-- SPL_TRK_INIT: 0, or a positive normal FP32 value. A NaN is ignored; another value goes to the nearer end (07 R220; R37), and −0 is 0
(DEDUCED, log entry 97). -/
def trkInitBack (old v : Nat) : Nat :=
  if f32Nan v then old
  else if v % 2 ^ 31 == 0 then 0
  else if 2 ^ 31 ≤ v then 0x00800000
  else clampNat 0x00800000 0x7F7FFFFF v

/-- A port of LAY_PORT_LIST: 0–17, or 31 for none. -/
def portOk (p : Nat) : Bool := decide (p ≤ 17) || p == 31

/-- A value lies in a range. The temperature pair, the widening pair, and layouts with the slot size are bounded by each other's
current values (R38). -/
def State.rngOk (s : State) (r : Rng) (v : Nat) : Bool :=
  match r with
  | .any => true
  | .nat lo hi => decide (lo ≤ v) && decide (v ≤ hi)
  | .int32 m => decide (-(m : Int) ≤ sInt 32 v) && decide (sInt 32 v ≤ m)
  | .bool => decide (v ≤ 1)
  | .f32 lo hi => (decide (lo ≤ v) && decide (v ≤ hi)) || (lo == 0 && v == 0x80000000)
  | .mult m => v % m == 0 && decide (v < 2 ^ 48)
  | .slotKib =>
    (v == 32 || v == 64 || v == 128 || v == 256) && (List.range 16).all fun i =>
      let l := parseLay (s.dv 0x2074 i)
      !l.valid || l.ok (v * 1024)
  | .layout => let l := parseLay v; !l.valid || l.ok (s.dv 0x2071 0 * 1024)
  | .ringLow => true
  | .portList => portOk (bits v 4 0) && portOk (bits v 12 8) && bits v 7 5 == 0 && bits v 15 13 == 0
  | .cleatWord => true
  | .snarlWindow => decide (bits v 18 16 ≤ 4) && bits v 15 6 == 0 && bits v 31 19 == 0
  | .resetReq => decide (bits v 31 29 ≤ 5)
  | .powerClass => decide (v ≤ s.strapClass)
  | .rampEntry => true
  | .tCtrl => decide (70 ≤ v) && decide (v ≤ 100) && decide (v + 5 ≤ s.dv 0x20B5 0)
  | .tCrit => decide (s.dv 0x20B4 0 + 5 ≤ v) && decide (v ≤ 110)
  | .freqCap => decide (1200 ≤ v) && decide (v ≤ 2100) && v % 50 == 0
  | .widenSteps => decide (1 ≤ v) && decide (v ≤ s.dv 0x3024 0)
  | .widenMax => decide (s.dv 0x3023 0 ≤ v) && decide (v ≤ 65535)
  | .pkgId => decide (v ≤ 65535) || v == 0xFFFFFFFF
  | .localGib => decide (1 ≤ v) && decide (v ≤ if s.small then 48 else 64)
  | .fwOffset => v % 256 == 0 && decide (v < 31 * 2 ^ 20)

/-- A value that names a location names one within 00 R3: the die of a Cleat, the flat index of a reset domain. Another answers
DESCRIPTOR_INVALID (00 R5; DEDUCED, log entry 95). Bits [28:16] of RESET_REQUEST are ignored as reserved ones are. -/
def locOk (r : Rng) (v : Nat) : Bool :=
  match r with
  | .resetReq => decide (4 ≤ bits v 31 29) || decide (bits v 15 0 < levelCount (bits v 31 29))
  | .rampEntry => let w := fld v 8 8; !waitEn w || decide (waitDie w ≤ 4)
  | .cleatWord => !bit v 31 || decide (bits v 30 28 ≤ 4)
  | _ => true

/-- A value lies in the range of an entry at a subindex. RING_LOW of a die is bounded by its ring (10 R338). -/
def State.valueOk (s : State) (e : DEntry) (sub v : Nat) : Bool :=
  match e.rng with
  | .ringLow => decide (v ≤ s.ateSize sub)
  | r => s.rngOk r v

/-- The smallest KV slot that every VALID layout fits and that is no smaller than `v` KiB. -/
def State.slotFit (s : State) (v : Nat) : Option Nat := [32, 64, 128, 256].find? fun k => decide (v ≤ k) && s.rngOk .slotKib k

/-- The nearest value of a range, for a direct store (R37); none where there is none. FREQ_CAP_MHZ goes to the nearest multiple of
50. A VALID layout that the checks of 10 R300 refuse has no nearer end, and is ignored as a NaN is; a slot size too small for a
VALID layout becomes the smallest that holds them all (DESIGN CHOICE, log entry 97). -/
def State.nearest (s : State) (e : DEntry) (sub v : Nat) : Option Nat :=
  match e.rng with
  | .nat lo hi => some (clampNat lo hi v)
  | .f32 lo hi =>
    if f32Nan v then none
    else if v == 0x80000000 && lo == 0 then some v
    else if 2 ^ 31 ≤ v then some lo else some (clampNat lo hi v)
  | .mult m => some (v % 2 ^ 48 / m * m)
  | .ringLow => some (min v (s.ateSize sub))
  | .portList =>
    let one := fun (p : Nat) => if portOk p then p else if p < 24 then 17 else 31
    some (one (bits v 4 0) + one (bits v 12 8) * 256)
  | .powerClass => some (min v s.strapClass)
  | .freqCap => some (clampNat 1200 2100 ((v + 25) / 50 * 50))
  | .slotKib => s.slotFit v
  | .layout => if s.rngOk .layout v then some v else none
  | .localGib => some (clampNat 1 (if s.small then 48 else 64) v)
  | _ => some v

end Sys2Proof.Machine
end

