-- ==== Sys2Proof/Machine/Coll.lean ====
section
/-! DEFINITION. Fabric items: their checks and plans, the collectives with their wire steps, the exact collectives, the
commit vote's exchange, and SEND (13 R424 to R442). The bodies of the packets between packages are the model's own layout
(log entry 40); the line frames in them are those of R430. -/

namespace Sys2Proof.Machine

/-! ### Operands and plans (R425 to R427) -/

structure CollOp where
  plan : Nat
  wfmt : Nat
  ef : Bool
  id : Nat
  count : Nat
  deriving DecidableEq, Repr

def Item.collOp (x : Item) : CollOp := ⟨x.opnd 0x68 6, x.opnd 0x6E 1, bit (x.opnd 0x6F 1) 0, x.opnd 0x70 4, x.opnd 0x74 4⟩

def isReduce (x : Item) : Bool := x.op == 0x10 || x.op == 0x11
def isTree (x : Item) : Bool := x.op == 0x20 || x.op == 0x21

/-- The plan at an address; none where a field is out of range or the plan does not name this package once. -/
def State.readPlan (s : State) (a : Nat) : Option Plan :=
  let p := s.rd (a + 4) 4
  let levels := s.rd (a + 8) 1
  let sizes := (List.range 3).map fun l => s.rd (a + 0x10 + 4 * l) 4
  if p == 0 || 65536 < p || levels == 0 || 3 < levels then none
  else
    let pl : Plan := { epoch := s.rd a 4, p := p, levels := levels, radix := s.rd (a + 9) 1, sizes := sizes
                       members := (List.range p).map fun r => s.rd (a + 0x40 + 2 * r) 2 }
    if pl.radix < 2 || 16 < pl.radix || !(sizes.all fun n => n != 0) || !((sizes.drop levels).all fun n => n == 1)
      || sizes.foldl (· * ·) 1 != p || pl.members.eraseDups.length != p || !pl.members.contains s.pkgId then none
    else some pl

def Plan.rankOf (p : Plan) (pkg : Nat) : Nat := p.members.idxOf pkg

/-- A collective with this COLL_ID already runs on the package, in another slot. -/
def State.collRuns (s : State) (k id : Nat) : Bool :=
  (s.colls.any fun e => e.1 != k && match e.2 with
    | some c => c.id == id && (match tget dItem s.items e.1 with
      | some x => x.stage == Stage.running || x.stage == Stage.finished
      | none => false)
    | none => false) || s.votes.any fun v => v.collId == id

/-- The checks of a fabric item at admission beside those of every item; not made while this package takes no part, since
the item then ends with PEER_LOST (R419, R422). -/
def State.fabAdmit (s : State) (k : Nat) (x : Item) : Option Bad :=
  if !s.selfMember then none
  else if x.op == 1 then
    -- DST is a package id, 0 to 65,535 (00 R3, R5)
    firstBad [s.useCheck x [.yes, .no, .yes, .no],
      if x.opnd 0x68 4 == s.pkgId || decide (0xFFFF < x.opnd 0x68 4) then some (9, 0, 0) else none]
  else
    let o := x.collOp
    let uses : List Use :=
      if isReduce x then [.yes, if o.ef then .yes else .no, if x.op == 0x10 then .yes else .opt, if o.ef then .yes else .no]
      else if x.op == 0x12 then [.opt, .no, .yes, .no]
      else if isTree x then [.yes, .no, .yes, .no] else [.no, .no, .no, .no]
    let form :=
      (o.id != 0) && (if isReduce x then [5, 6, 7, 9].contains o.wfmt else o.wfmt == 0)
        && (if isTree x then decide (1 ≤ o.count) && decide (o.count ≤ 4096) else o.count == 0)
        && (x.op != 0x30 || decide (x.stepSlot < 16))
    firstBad [
      s.useCheck x uses (fun _ => 1) true,
      if !form || s.collRuns k o.id then some (9, 0, 0) else none,
      if o.plan % 64 != 0 then some (9, 0, 0) else none,
      if !s.mapped o.plan (0x40 + 2 * min (s.rd (o.plan + 4) 4) 65536) then some (7, 0, 0) else none,
      (match s.readPlan o.plan with
        | none => some (9, 0, 0)
        | some pl => if x.stepSlot < 16 && pl.epoch != (s.step x.stepSlot).epoch then some (0xC, 0, 0) else none)]

/-- The plan of a collective in a step slot belongs to another epoch than the slot (07 R231, 13 R427). -/
def State.badEpoch (s : State) (x : Item) : Bool :=
  x.engine == 7 && x.op != 1 && s.selfMember && decide (x.stepSlot < 16) && x.collOp.plan % 64 == 0
    && (match s.readPlan x.collOp.plan with
      | some pl => pl.epoch != (s.step x.stepSlot).epoch
      | none => false)

/-- The collective of an admitted item, with the COLL_READYs that came before it. -/
def State.newColl (s : State) (x : Item) : Option Coll :=
  if x.engine == 7 && x.op != 1 && s.selfMember then
    (s.readPlan x.collOp.plan).map fun pl =>
      { id := x.collOp.id, tree := isTree x || x.op == 0x30, plan := pl, rank := pl.rankOf s.pkgId
        ready := s.earlyReady.filterMap fun e =>
          if e.1 == x.collOp.id && pl.members.contains e.2.2 then some (e.2.1, pl.rankOf e.2.2) else none }
  else none

/-- The plan is read at admission (R427). -/
def State.admitColl (s : State) (k : Nat) (x : Item) : State :=
  match s.newColl x with
  | some c => { s.setColl k (some c) with earlyReady := s.earlyReady.filter fun e => e.1 != c.id }
  | none => s

/-! ### Lines and pieces (R429) -/

/-- Piece c of a range cut in S. -/
def cut (r : Nat × Nat) (S c : Nat) : Nat × Nat := (r.1 + (r.2 - r.1) * c / S, r.1 + (r.2 - r.1) * (c + 1) / S)

/-- The range of lines that rank r holds before level l. -/
def Plan.range (p : Plan) (nl r : Nat) : Nat → Nat × Nat
  | 0 => (0, nl)
  | l + 1 => cut (p.range nl r l) (p.size l) (p.coord r l)

/-- The coordinate in level l whose piece of rank r's range holds a line. -/
def Plan.pieceOf (p : Plan) (nl r l line : Nat) : Nat :=
  ((List.range (p.size l)).find? fun c => let q := cut (p.range nl r l) (p.size l) c; decide (q.1 ≤ line) && decide (line < q.2)).getD 0

/-- G(l): hops before level l. -/
def Plan.hops (p : Plan) (l : Nat) : Nat := ((List.range l).map fun i => p.size i - 1).sum

def linesOf (total : Nat) : Nat := (total + 55) / 56
/-- Blocks in a line. -/
def lineBlocks (total line : Nat) : Nat := min 56 (total - 56 * line)

/-! ### The wire (R430, R432) -/

/-- A line as it goes on the wire. -/
structure WireLine where
  frame : List Byte
  /-- the decoded values, exact, with their poison -/
  dec : List (XV × Bool)
  flushed : Nat
  saturated : Nat

/-- Zero bytes up to a multiple of 8. -/
def pad8 (l : List Byte) : List Byte := l ++ List.replicate ((8 - l.length % 8) % 8) 0#8

/-- One line frame. -/
def lineFrame (first cexp : Nat) (marks : List Bool) (scales data : List Byte) : List Byte :=
  let bad := marks.any id
  pad8 (leBytes 4 first ++ leBytes 1 cexp ++ leBytes 1 marks.length ++ leBytes 1 (b2n bad) ++ leBytes 1 0
    ++ (if bad then leBytes 8 ((marks.zipIdx).foldl (fun a p => a + b2n p.1 * 2 ^ p.2) 0) else []) ++ scales ++ data)

/-- The parts of a line frame. -/
structure Frm where
  first : Nat
  cexp : Int
  marks : List Bool
  scales : List Nat
  data : List Byte

def parseFrame (scaled : Bool) (b : List Byte) : Frm :=
  let n := leNat ((b.drop 5).take 1)
  let bad := bit (leNat ((b.drop 6).take 1)) 0
  let map := leNat ((b.drop 8).take 8)
  let r := b.drop (if bad then 16 else 8)
  { first := leNat (b.take 4), cexp := sInt 8 (leNat ((b.drop 4).take 1))
    marks := (List.range n).map fun i => bad && bit map i
    scales := if scaled then (r.take n).map (·.toNat) else []
    data := if scaled then r.drop n else r }

/-- The decoded values of a wire frame. -/
def decFrame (wfmt nb : Nat) (b : List Byte) : List (XV × Bool) :=
  let f := parseFrame (wfmt == 5 || wfmt == 6) b
  if wfmt == 5 || wfmt == 6 then
    ((f.marks.zip f.scales).foldl (fun (acc : List (XV × Bool) × List Byte) p =>
      if bit p.2 7 then (acc.1 ++ List.replicate nb (XV.zero, p.1), acc.2)
      else
        let els := decodeBlock wfmt nb false p.2 (unpackCodes 8 nb (acc.2.take nb)) [] p.1
        (acc.1 ++ els.map fun e => (e.v.scale f.cexp, e.poison), acc.2.drop nb)) ([], f.data)).1
  else
    let w := fmtBits wfmt / 8
    f.marks.zipIdx.flatMap fun p => (List.range nb).map fun i =>
      ((codeVal wfmt (leNat ((f.data.drop ((p.2 * nb + i) * w)).take w))).getD .nan, p.1)

/-- wire(acc, e, g) for a whole line of FP32 values. -/
def wireLine (x : Item) (tag wfmt nb line g : Nat) (vals : List (Nat × Bool)) : WireLine :=
  let els := (vals.zipIdx).map fun p =>
    let w := x.word tag (56 * nb * line + p.2 + g / 64 * 2 ^ 37) (0x10 + g % 64)
    ({ v := f32 p.1.1, poison := p.1.2, r := w % 16 } : OutEl)
  let amax := amaxOf els
  let cw := if amax == 0 then 0x3F800000 else (pow2Coarse wfmt amax 0).1
  let e : Int := (cw / 2 ^ 23 : Nat) - 127
  let blks := chunks nb (els.length / nb) els
  let marks := blks.map fun b => b.any (·.poison)
  if wfmt == 5 || wfmt == 6 then
    let ws := blks.map fun b => writeBlock wfmt mSR false (1, e) b
    let c := sumCounts (ws.map (·.counts))
    let frame := lineFrame (56 * line) (sCode 8 e) marks (ws.map fun b => BitVec.ofNat 8 b.byte)
      (ws.flatMap fun b => if bit b.byte 7 then [] else packCodes 8 b.codes)
    { frame := frame, dec := decFrame wfmt nb frame, flushed := c.flushed, saturated := c.saturated }
  else
    let ys := els.map fun y => (y, if wfmt == 9 then (f32Code y.v, false) else convCode wfmt mSR y.r y.v)
    let c := sumCounts (ys.map fun y => elCounts y.1 y.2.1 { sat := y.2.2 })
    let frame := lineFrame (56 * line) 0 marks [] (ys.flatMap fun y => leBytes (fmtBits wfmt / 8) y.2.1)
    { frame := frame, dec := decFrame wfmt nb frame, flushed := c.flushed, saturated := c.saturated }

/-! ### Sending what is formed (R422, R428) -/

/-- Body of a COLL_DATA: COLL_ID, level (3: the tree), direction (0 toward the sum, 1 away from it), hop or origin. -/
def collBody (id level dir hop : Nat) (rest : List Byte) : List Byte :=
  leBytes 4 id ++ leBytes 1 level ++ leBytes 1 dir ++ leBytes 2 hop ++ rest

/-- Queue a body for a rank. -/
def Coll.push (c : Coll) (level dst : Nat) (body : List Byte) (bad : Bool) : Coll :=
  { c with outq := c.outq ++ [(level, dst, body, bad)] }

/-- Bytes of a COLL_DATA body that one packet carries beside its 16 bytes of place: 32 cells hold the header, the body and the last 16
bytes (R415; Packet.cells). -/
def fragBytes : Nat := 2000

/-- A body cut into packets: its 8 bytes of place, the first 4 bytes after them (a line frame's FIRST), part number and parts, then a part
of the rest (log entry 40). -/
def fragments (body : List Byte) : List (List Byte) :=
  let rest := body.drop 8
  let n := max 1 ((rest.length + fragBytes - 1) / fragBytes)
  (List.range n).map fun i =>
    body.take 8 ++ (rest ++ List.replicate 4 0#8).take 4 ++ leBytes 2 i ++ leBytes 2 n ++ (rest.drop (fragBytes * i)).take fragBytes

/-- Send what is queued for ranks whose COLL_READY has come. -/
def State.flushColl (s : State) (k : Nat) (c : Coll) : State × Coll :=
  let can := fun (o : Nat × Nat × List Byte × Bool) => c.ready.contains (o.1, o.2.1)
  (c.outq.filter can |>.foldl (fun s o =>
    (fragments o.2.2.1).foldl (fun s b => s.sendTracked 0x41 (c.plan.member o.2.1) (k / 256) (k % 256) 0 b o.2.2.2) s) s,
    { c with outq := c.outq.filter fun o => !can o })

/-- A part of a body arrives: the whole body with its poison, once its parts are all there. -/
def Coll.join (c : Coll) (src : Nat) (body : List Byte) (bad : Bool) : Coll × Option (List Byte × Bool) :=
  let key := body.take 12
  let i := leNat ((body.drop 12).take 2)
  let n := leNat ((body.drop 14).take 2)
  let mine := fun (e : Frag) => e.src == src && e.key == key
  let l := ⟨src, key, i, body.drop 16, bad⟩ :: c.frags.filter fun e => !(mine e && e.part == i)
  let parts := (List.range n).filterMap fun j => l.find? fun e => mine e && e.part == j
  if parts.length == n then
    ({ c with frags := l.filter fun e => !mine e }, some (body.take 8 ++ parts.flatMap (·.bytes), parts.any (·.poison)))
  else ({ c with frags := l }, none)

/-! ### ALLREDUCE and REDUCE_SCATTER (R431 to R433) -/

/-- What a reduction needs of its item. -/
structure RedCtx where
  x : Item
  tag : Nat
  nb : Nat
  total : Nat
  wfmt : Nat
  /-- the die whose counters take the wire conversions -/
  die : Nat

def State.redCtx (s : State) (region : Nat) (x : Item) : RedCtx :=
  let a := s.strm x 0
  { x := x, tag := a.hdr.tag, nb := a.nb, total := a.hdr.total, wfmt := x.collOp.wfmt, die := regionDie region }

def valKey (level line : Nat) : Nat := level * 2 ^ 32 + line
def dL : Nat → List (Nat × Bool) := fun _ => []
def dLB : Nat → List Byte := fun _ => []

/-- A wire conversion's counts at WIRE_FLUSHED and WIRE_SATURATED (R436). -/
def State.noteWire (s : State) (die : Nat) (w : WireLine) : State :=
  let s := if w.flushed == 0 then s else s.bump .fabWireFlushCnt die 0 w.flushed
  if w.saturated == 0 then s else s.bump .fabWireSatCnt die 0 w.saturated

/-- rn(a + b) on FP32 codes; exact values on the left. -/
def addRn (a : XV × Bool) (b : Nat × Bool) : Nat × Bool := (f32Code (a.1.add (f32 b.1)), a.2 || b.2)

/-- The rounding of a value to FP32 limited it (04 R145, R159). -/
def limits (x : XV) : Bool := (rn32 x).2

def dLim : Nat → List Bool := fun _ => []

/-- Keys of `Coll.lim`: of a line's residuals, and of the tree's values. -/
def limResid (line : Nat) : Nat := 2 ^ 32 + line
def limTree : Nat := 2 ^ 33

/-- Elements that an addition here limited join those of a key. -/
def Coll.noteLim (c : Coll) (key : Nat) (l : List Bool) : Coll :=
  let old := tget dLim c.lim key
  if l.all (!·) then c
  else { c with lim := tset dLim c.lim key ((l.zipIdx).map fun p => p.1 || old.getD p.2 false) }

/-- The flags of a key, one for each of n elements. -/
def Coll.limits (c : Coll) (key n : Nat) : List Bool := let l := tget dLim c.lim key; (List.range n).map fun i => l.getD i false

/-- A gathered frame at this member: kept, forwarded in its own level's ring, and started in every lower one (R431, R434).
`level` is that of the ring it came by, or the number of levels at its owner. -/
def Coll.gather (c : Coll) (line level origin : Nat) (frame : List Byte) (bad : Bool) : Coll :=
  let c := { c with got := tset dLB c.got line frame }
  let c := if level < c.plan.levels && c.plan.coord (c.plan.succ c.rank level) level != origin
    then c.push level (c.plan.succ c.rank level) (collBody c.id level 1 origin frame) bad else c
  (List.range (min level c.plan.levels)).foldl (fun c l =>
    if c.plan.size l == 1 then c
    else c.push l (c.plan.succ c.rank l) (collBody c.id l 1 (c.plan.coord c.rank l) frame) bad) c

/-- The residual of a level-0 send (R433), poisoned where the sum or its wire block is (R436). -/
def Coll.noteResid (c : Coll) (line : Nat) (acc : List (Nat × Bool)) (dec : List (XV × Bool)) : Coll :=
  let c := c.noteLim (limResid line) ((acc.zip dec).map fun p => Machine.limits ((f32 p.1.1).sub p.2.1))
  { c with resid := tset dL c.resid line ((acc.zip dec).map fun p => (f32Code ((f32 p.1.1).sub p.2.1), p.1.2 || p.2.2)) }

/-- val(level, line) is known here: sent on its first hop when its piece is the predecessor's, taken to the next level when
the ring has one member, and, after the last level, gathered. -/
def redValue (o : RedCtx) (level line : Nat) (v : List (Nat × Bool)) (fuel : Nat) (sc : State × Coll) : State × Coll :=
  match fuel with
  | 0 => sc
  | fuel + 1 =>
    let (s, c) := sc
    let c := { c with vals := tset dL c.vals (valKey level line) v }
    let nl := linesOf o.total
    if level == c.plan.levels then
      if o.x.op == 0x11 then (s, c)
      else
        let w := wireLine o.x o.tag o.wfmt o.nb line (c.plan.hops level + 1) v
        (s.noteWire o.die w, c.gather line level 0 w.frame (w.dec.any (·.2)))
    else
      let S := c.plan.size level
      let me := c.plan.coord c.rank level
      let piece := c.plan.pieceOf nl c.rank level line
      if S == 1 then redValue o (level + 1) line v fuel (s, c)
      else if piece == (me + S - 1) % S then
        let w := wireLine o.x o.tag o.wfmt o.nb line (c.plan.hops level + 1) v
        let c := if level == 0 then c.noteResid line v w.dec else c
        (s.noteWire o.die w, c.push level (c.plan.succ c.rank level) (collBody c.id level 0 1 w.frame) (w.dec.any (·.2)))
      else (s, c)

/-- A reduction frame of hop h at level l arrives: added to this member's value, and sent on or, at its owner, done. -/
def redFrame (o : RedCtx) (level h : Nat) (frame : List Byte) (sc : State × Coll) : State × Coll :=
  let (s, c) := sc
  let line := (parseFrame (o.wfmt == 5 || o.wfmt == 6) frame).first / 56
  let own := tget dL c.vals (valKey level line)
  let sums := (decFrame o.wfmt o.nb frame).zip own
  let acc := sums.map fun p => addRn p.1 p.2
  let c := c.noteLim line (sums.map fun p => limits (p.1.1.add (f32 p.2.1)))
  let S := c.plan.size level
  if own.isEmpty then sc
  else if h + 1 < S then
    let w := wireLine o.x o.tag o.wfmt o.nb line (c.plan.hops level + h + 1) acc
    let c := if level == 0 then c.noteResid line acc w.dec else c
    (s.noteWire o.die w, c.push level (c.plan.succ c.rank level) (collBody c.id level 0 (h + 1) w.frame) (w.dec.any (·.2)))
  else redValue o (level + 1) line acc 4 (s, c)

/-- The first values of an item, line by line, exact (R431: val(0, x, e) is their rounding), with their poison. -/
def State.redInputs (s : State) (x : Item) (ef : Bool) : List (XV × Bool) :=
  let a := s.strm x 0
  let cf := f32 (if a.scaled then a.hdr.coarse else 0x3F800000)
  let as := (s.readStream x a).els
  if ef then
    (as.zip (s.readStream x (s.strm x 1)).els).map fun p => ((p.1.v.mul cf).add p.2.v, p.1.poison || p.2.poison)
  else as.map fun e => (e.v.mul cf, e.poison)

/-- The lines whose output this member holds at the end. -/
def Coll.outLines (c : Coll) (op nl : Nat) : List Nat :=
  let r := if op == 0x11 then c.plan.range nl c.rank c.plan.levels else (0, nl)
  (List.range (r.2 - r.1)).map (r.1 + ·)

/-- The exact outputs y(e), when every line is there. -/
def Coll.outputs (c : Coll) (o : RedCtx) : Option (List (XV × Bool)) :=
  let ls := c.outLines o.x.op (linesOf o.total)
  let each := ls.map fun l =>
    if o.x.op == 0x11 then (tget dL c.vals (valKey c.plan.levels l)).map fun p => (f32 p.1, p.2)
    else decFrame o.wfmt o.nb (tget dLB c.got l)
  if each.all fun l => !l.isEmpty then some each.flatten else none

/-- The blocks of a stream are numbered from a first one on without a gap. -/
def Strm.numbered (m : Strm) (b : Nat) : Bool :=
  (m.ents.foldl (fun (a : Nat × Bool) e => (a.1 + e.elems / e.nb, a.2 && e.blkidx == a.1 && e.elems % e.nb == 0)) (b, true)).2

/-- The checks of the data entries. -/
def State.redChecks (s : State) (x : Item) (c : Coll) : List (Option Bad) :=
  let o := x.collOp
  let a := s.strm x 0
  let b := s.strm x 1
  let y := s.strm x 2
  let d := s.strm x 3
  let n := a.hdr.total * a.nb
  let nl := linesOf a.hdr.total
  let outN := ((c.outLines x.op nl).map fun l => lineBlocks a.hdr.total l * a.nb).sum
  [s.entsCheck a [3, 4, 5, 6, 7, 8, 9],
   if o.ef then s.entsCheck b [9] else none,
   if x.stream 2 == 0 then none else s.entsCheck y [0, 1, 2, 3, 4, 5, 6, 7, 8, 9, 10, 11] false true,
   if o.ef then s.entsCheck d [9] false true else none,
   if n == 0 || a.elems != n || !a.numbered 0 then some (9, 0, 1) else none,
   if o.ef && b.elems != n then some (9, 1, 1) else none,
   if y.elems != outN || (outN == 0 && x.stream 2 != 0) then some (9, 2, 1) else none,
   if o.ef && d.elems != n then some (9, 3, 1) else none,
   overlapCheck x (if o.ef then [a, b] else [a]) (if o.ef then [y, d] else [y])]

/-- The outputs of a reduction written: stream C, and the residuals. An element that an addition here limited is counted SATURATED (04
R159); the tracker watches stream C alone (07 R214). -/
def State.redFinish (s : State) (x : Item) (c : Coll) (o : RedCtx) (ys : List (XV × Bool)) : State × Result :=
  let y := s.strm x 2
  let lines := c.outLines x.op (linesOf o.total)
  let lims := lines.flatMap fun l => c.limits l (lineBlocks o.total l * o.nb)
  let els := drawBits x y 0 ((ys.zip lims).map fun p => ({ v := p.1.1, poison := p.1.2, sat := p.2 } : OutEl))
  let w := if x.stream 2 == 0 then ({ st := s, counts := {} } : Wrote)
    else s.writeStream y x.round y.hdr.coarse els x.tag
  let ef := x.collOp.ef
  let d := s.strm x 3
  let res := if ef then (List.range (linesOf o.total)).flatMap fun l =>
      match tget dL c.resid l with
      | [] => List.replicate (lineBlocks o.total l * o.nb) ((0 : Nat), false)
      | r => r
    else []
  let dlims := if ef then (List.range (linesOf o.total)).flatMap fun l => c.limits (limResid l) (lineBlocks o.total l * o.nb) else []
  let dels := (res.zip dlims).map fun r => ({ v := f32 r.1.1, poison := r.1.2, sat := r.2 } : OutEl)
  let w2 := if ef then w.st.writeStream d mRN 0x3F800000 dels x.tag else { st := w.st, counts := {} }
  let own := tget dL c.vals
  let nfIn := countNonfin (s.readStream x (s.strm x 0)).els + (if ef then countNonfin (s.readStream x (s.strm x 1)).els else 0)
  let ls := lines.flatMap fun l => own (valKey 0 l)
  let nfOut := ((ys.zip ls).filter fun p => !p.1.1.isFinite && (f32 p.2.1).isFinite).length
  let nf := nfIn + nfOut
  (w2.st, { mkResult (w.counts.add w2.counts) nf 0 (amaxOf els) (els.length + dels.length)
      ((decide (y.fmt ≤ 11) && x.stream 2 != 0) || ef) (ys.any (·.2) || dels.any (·.poison) || w.poison || w2.poison) with
    watched := some (els.length, { w.counts with nonfinite := nf }) })

/-! ### ALLGATHER and SEND: lines in their stored format (R430, R434, R441) -/

/-- Blocks of a stream in groups of nb elements, with the block number each starts at. -/
def rawGroups (m : Strm) (l : List RawBlk) : List RawBlk :=
  if m.scaled then l
  else (chunks m.nb (l.length / m.nb) l).map fun g => { bytes := g.flatMap (·.bytes) }

/-- A line of stored blocks as a frame: a zero block sends its fine-scale byte alone (09 R280), outlier entries follow the data. -/
def rawFrame (m : Strm) (first : Nat) (l : List RawBlk) : List Byte :=
  lineFrame first 0 (l.map fun b => b.bytes.any (·.2)) (if m.scaled then l.map fun b => BitVec.ofNat 8 b.byte else [])
    ((l.flatMap fun b => if m.scaled && bit b.byte 7 then [] else b.bytes.map (·.1))
      ++ l.flatMap fun b => if m.scaled && bit b.byte 7 then [] else b.outs.flatMap (leBytes 2 ·))

/-- The blocks of a stored frame. A zero block is written as 04 R132 writes it: byte 0x80 and codes 0 (09 R280). -/
def unrawFrame (scaled : Bool) (bb : Nat) (b : List Byte) : List RawBlk :=
  let f := parseFrame scaled b
  if scaled then
    let nOuts := fun (sc : Nat) => blkEntries sc
    let r := (f.marks.zip f.scales).foldl (fun (acc : List RawBlk × List Byte) p =>
      if bit p.2 7 then (acc.1 ++ [{ bytes := marked p.1 (List.replicate bb 0#8), byte := 0x80 }], acc.2)
      else (acc.1 ++ [{ bytes := marked p.1 (acc.2.take bb), byte := p.2 }], acc.2.drop bb)) ([], f.data)
    (r.1.foldl (fun (acc : List RawBlk × List Byte) q =>
      let n := nOuts q.byte
      (acc.1 ++ [{ q with outs := (List.range n).map fun i => leNat ((acc.2.drop (2 * i)).take 2) }], acc.2.drop (2 * n)))
      ([], r.2)).1
  else (f.marks.zipIdx).map fun p => { bytes := marked p.1 ((f.data.drop (p.2 * bb)).take bb) }

/-- Bytes of a block of a stream. -/
def Strm.blkBytes (m : Strm) : Nat := fmtBits m.fmt * m.nb / 8

def State.gatherAllChecks (s : State) (x : Item) (c : Coll) : List (Option Bad) :=
  let a := s.strm x 0
  let y := s.strm x 2
  let nl := linesOf y.hdr.total
  let r := c.plan.range nl c.rank c.plan.levels
  let mine := ((List.range (r.2 - r.1)).map fun i => lineBlocks y.hdr.total (r.1 + i) * y.nb).sum
  [if x.stream 0 == 0 then none else s.entsCheck a [0, 1, 2, 3, 4, 5, 6, 7, 8, 9, 10, 11, 12],
   s.entsCheck y [0, 1, 2, 3, 4, 5, 6, 7, 8, 9, 10, 11, 12] false true,
   if x.stream 0 != 0 && (a.fmt != y.fmt || a.nb != y.nb || (a.scaled && a.hdr.coarse != y.hdr.coarse)
     || (a.esc && y.hdr.outBase == 0)) then some (9, 2, 1) else none,
   if y.hdr.total == 0 || y.elems != y.hdr.total * y.nb || y.ents.any (·.bytes) then some (9, 2, 1) else none,
   if a.elems != mine || (mine == 0 && x.stream 0 != 0) then some (9, 0, 1) else none,
   overlapCheck x [a] [y]]

/-! ### Starting, receiving and ending a collective -/

/-- The level of the tree in COLL_READY and COLL_DATA. -/
def treeLvl : Nat := 3

/-- COLL_READY to each ring predecessor of each level, or to the tree's neighbours (R428). -/
def State.sendReady (s : State) (c : Coll) : State :=
  let dests := if c.tree then (c.plan.treePeers c.rank).map fun r => (treeLvl, r)
    else (List.range c.plan.levels).filterMap fun l => if c.plan.size l == 1 then none else some (l, c.plan.pred c.rank l)
  dests.foldl (fun s t => s.sendControl 0x52 (c.plan.member t.2) (leBytes 4 c.id ++ leBytes 1 t.1)) s

/-- A peer the collective must exchange with that is ABSENT or RETIRED. -/
def State.lostPeer (s : State) (c : Coll) : Option Nat := (c.peers.map c.plan.member).find? fun m => !s.peerOk m

/-- A fabric item that runs, or is ready to, ends with PEER_LOST; its packets are no longer waited for. -/
def State.peerLost (s : State) (region slot : Nat) (cause peer : Nat) : State :=
  match s.item region slot with
  | some x =>
    ({ s with sends := s.sends.filter fun p => !(p.region == region && p.slot == slot && p.kind != 0x51) }).finishStopped
      region slot x stPeerLost (cause * 2 ^ 16 + peer % 65536)
  | none => s

/-- Element size of the exact collectives. -/
def treeBytes (x : Item) : Nat := if x.op == 0x20 then 16 else 4

/-- An element of an exact collective as it enters: a poisoned LONG128 value is NaR (04 R156). -/
def treeIn (x : Item) (v : Nat × Bool) : Nat × Bool := if x.op == 0x20 && v.2 then (2 ^ 127, true) else v

/-- Two members' values combined exactly (R438), each with its poison; a LONG128 sum of poisoned data is NaR (04 R156). -/
def treeCombine (x : Item) (a b : List (Nat × Bool)) : List (Nat × Bool) :=
  (a.zip b).map fun p =>
    treeIn x (if x.op == 0x20 then (convCode 12 mRN 0 (((codeVal 12 p.1.1).getD .nan).add ((codeVal 12 p.2.1).getD .nan))).1
      else f32Code ((f32 p.1.1).max (f32 p.2.1)), p.1.2 || p.2.2)

/-- The sums that left the range of LONG128 and were limited (04 R156). -/
def treeLimits (x : Item) (a b : List (Nat × Bool)) : List Bool :=
  (a.zip b).map fun p =>
    x.op == 0x20 && (convCode 12 mRN 0 (((codeVal 12 p.1.1).getD .nan).add ((codeVal 12 p.2.1).getD .nan))).2

/-- Values of an exact collective on the wire: the codes, then a bit for each that is poisoned (log entry 40). -/
def treeEnc (w : Nat) (v : List (Nat × Bool)) : List Byte :=
  v.flatMap (fun e => leBytes w e.1) ++ leBytes ((v.length + 7) / 8) ((v.zipIdx).foldl (fun a p => a + b2n p.1.2 * 2 ^ p.2) 0)

def treeDec (w n : Nat) (b : List Byte) : List (Nat × Bool) :=
  let marks := leNat (b.drop (w * n))
  (List.range n).map fun i => (leNat ((b.drop (w * i)).take w), bit marks i)

/-- Up the tree once every child has answered; at rank 0 the result, then down. -/
def Coll.treeUp (c : Coll) (x : Item) : Coll :=
  let kids := treeChildren c.plan.p c.plan.radix c.rank
  match c.parts.find? (fun p => p.1 == c.rank), kids.all fun k => c.parts.any fun p => p.1 == k with
  | some own, true =>
    if c.down.isSome then c
    else
      let r := (c.parts.filter fun p => p.1 != c.rank).foldl (fun (a : List (Nat × Bool) × Coll) p =>
        (treeCombine x a.1 p.2, a.2.noteLim limTree (treeLimits x a.1 p.2))) (own.2, c)
      let c := r.2
      let bad := r.1.any (·.2)
      let enc := fun (dir : Nat) => collBody c.id treeLvl dir 0 (treeEnc (treeBytes x) r.1)
      if c.rank == 0 then
        kids.foldl (fun c k => c.push treeLvl k (enc 1) bad) { c with down := some r.1 }
      else ({ c with parts := c.parts.filter fun p => p.1 == c.rank }).push treeLvl (treeParent c.plan.radix c.rank) (enc 0) bad
  | _, _ => c

def State.treeChecks (s : State) (x : Item) : List (Option Bad) :=
  let f := if x.op == 0x20 then 12 else 9
  let a := s.strm x 0
  let y := s.strm x 2
  [s.entsCheck a [f], s.entsCheck y [f] false true,
   if a.elems != x.collOp.count then some (9, 0, 1) else none,
   if y.elems != x.collOp.count then some (9, 2, 1) else none,
   overlapCheck x [a] [y]]

/-- The outputs of an exact collective. -/
def treeOuts (x : Item) (v : List (Nat × Bool)) (lims : List Bool) : List OutEl :=
  (v.zip lims).map fun p => { v := (codeVal (if x.op == 0x20 then 12 else 9) p.1.1).getD .nan, poison := p.1.2, sat := p.2 }

/-- The result of an exact collective written to stream C and, for element 0, to RESULT_SLOT. -/
def State.treeFinish (s : State) (x : Item) (v : List (Nat × Bool)) (lims : List Bool) : State × Result :=
  let y := s.strm x 2
  let els := treeOuts x v lims
  let bad := v.any (·.2)
  let w := s.writeStream y mRN 0x3F800000 els x.tag
  let nf := countNonfin (s.readStream x (s.strm x 0)).els
  let r := mkResult w.counts nf 0 (amaxOf els) els.length (x.op == 0x21) (bad || w.poison)
  let first := v.getD 0 (0, false)
  (w.st, { r with result := if x.resultSlot < 1024 then some (BitVec.ofNat 128 first.1, first.2) else none })

/-- What the collective of a running item needs to end: its outputs are all there. -/
def State.collReadyToEnd (s : State) (region : Nat) (x : Item) (c : Coll) : Bool :=
  c.outq.isEmpty &&
  (if isTree x then c.down.isSome
   else if x.op == 0x12 then (List.range (linesOf (s.strm x 2).hdr.total)).all fun l => !(tget dLB c.got l).isEmpty
   else (c.outputs (s.redCtx region x)).isSome)

/-- The amax of the outputs, for a prepass (07 R238): the one that the main pass contributes. ALLGATHER hands nothing to conversion. -/
def State.collAmax (s : State) (region : Nat) (x : Item) (c : Coll) : Nat :=
  if isReduce x then
    match c.outputs (s.redCtx region x) with
    | some ys => amaxOf (ys.map fun p => ({ v := p.1 } : OutEl))
    | none => 0
  else if x.op == 0x21 then
    match c.down with
    | some v => amaxOf (treeOuts x v (c.limits limTree v.length))
    | none => 0
  else 0

/-- End the run of a collective whose outputs are all there; a prepass leaves that to PREPASS_PASS_DONE. -/
def State.collTry (s : State) (k : Nat) (c : Coll) : State :=
  let region := k / 256
  let s := s.setColl k (some c)
  match s.item region (k % 256) with
  | none => s
  | some x =>
    if x.stage != .running || x.prepass == 1 || !s.collReadyToEnd region x c then s
    else
      let r := if isTree x then (let v := c.down.getD []; s.treeFinish x v (c.limits limTree v.length))
        else if x.op == 0x12 then
          let y := s.strm x 2
          let l := (List.range (linesOf y.hdr.total)).flatMap fun n => unrawFrame y.scaled y.blkBytes (tget dLB c.got n)
          let l := if y.scaled then l
            else l.flatMap fun g => (chunks (fmtBits y.fmt / 8) y.nb g.bytes).map fun b => { bytes := b }
          let w := s.writeRaw y x.tag l
          (w.st, rawResult y w 0 (l.any fun b => b.bytes.any (·.2)))
        else s.redFinish x c (s.redCtx region x) ((c.outputs (s.redCtx region x)).getD [])
      r.1.endRun region (k % 256) x r.2

/-- What a started item puts into its collective. -/
def State.collFill (s : State) (region : Nat) (x : Item) (c : Coll) : State × Coll :=
  if isTree x then
    let els := (s.readStream x (s.strm x 0)).els
    let f := if x.op == 0x20 then 12 else 9
    let vals := els.map fun e => treeIn x ((convCode f mRN 0 e.v).1, e.poison)
    (s, ({ c with parts := (c.rank, vals) :: c.parts }).treeUp x)
  else if x.op == 0x12 then
    let a := s.strm x 0
    let y := s.strm x 2
    let total := y.hdr.total
    let r := c.plan.range (linesOf total) c.rank c.plan.levels
    let g := rawGroups a (s.rawBlocks x a)
    (s, (List.range (r.2 - r.1)).foldl (fun c i =>
      let line := r.1 + i
      let blks := (g.drop (56 * i)).take (lineBlocks total line)
      c.gather line c.plan.levels 0 (rawFrame a (56 * line) blks) (blks.any fun b => b.bytes.any (·.2))) c)
  else
    let o := s.redCtx region x
    let vals := s.redInputs x x.collOp.ef
    (List.range (linesOf o.total)).foldl (fun sc line =>
      let mine := (vals.drop (56 * o.nb * line)).take (lineBlocks o.total line * o.nb)
      redValue o 0 line (mine.map fun v => (f32Code v.1, v.2)) 5 (sc.1, sc.2.noteLim line (mine.map fun v => limits v.1))) (s, c)

/-- The checks of an item's data entries. -/
def State.collChecks (s : State) (x : Item) (c : Coll) : List (Option Bad) :=
  if isTree x then s.treeChecks x else if x.op == 0x12 then s.gatherAllChecks x c else s.redChecks x c

/-- Streams whose scale lines are checked. -/
def State.collIns (s : State) (x : Item) : List (Strm × Bool) :=
  if isReduce x && x.collOp.ef then [(s.strm x 0, false), (s.strm x 1, false)]
  else if x.stream 0 == 0 then [] else [(s.strm x 0, false)]

/-- A fabric item of a given OP starts: PEER_LOST where this package takes no part or a peer is gone; else its checks,
COLL_READY, its own values, and what can be sent. -/
def State.collStart (s : State) (op region slot : Nat) : State :=
  match s.item region slot with
  | none => s
  | some x =>
    if x.engine != 7 || x.op != op || x.stage != .ready || s.frozen ⟨2, region⟩ then s
    else if !s.selfMember then (s.peerLost region slot 4 s.pkgId).settle
    else
      let k := itemKey region slot
      -- an item admitted while the package took no part has its checks made now
      let bad := match tget dColl s.colls k with | some _ => none | none => s.fabAdmit k x
      let s := match tget dColl s.colls k with | some _ => s | none => s.admitColl k x
      match bad, tget dColl s.colls k with
      | some b, _ => s.endRun region slot x { statuses := [(stInvalid, badDetail b)] }
      | none, none => s
      | none, some c =>
        if s.collRuns k c.id then s.endRun region slot x { statuses := [(stInvalid, badDetail (9, 0, 0))] }
        else match s.lostPeer c with
        | some m => (s.peerLost region slot 1 m).settle
        | none =>
          match s.startItem region slot x with
          | none => s
          | some (s, x) =>
            -- the values exchanged in the prepass serve the main pass
            if x.prepass == 3 && s.collReadyToEnd region x c then s.collTry k c
            else match firstBad (s.collChecks x c) with
            | some b => s.endRun region slot x { statuses := [(stInvalid, badDetail b)] }
            | none =>
              match s.firstSkew x (s.collIns x) with
              | some c => s.skewRun region slot x c.1 c.2.1 c.2.2
              | none =>
                let s := s.sendReady c
                let (s, c) := s.collFill region x c
                let (s, c) := s.flushColl k c
                s.collTry k c

/-- ALLREDUCE (R431). -/
def execAllreduce (region slot : Nat) (s : State) : Host.Outcome State Fault Refusal := .next (s.collStart 0x10 region slot)

/-- REDUCE_SCATTER (R431). -/
def execReduceScatter (region slot : Nat) (s : State) : Host.Outcome State Fault Refusal := .next (s.collStart 0x11 region slot)

/-- ALLGATHER (R434). -/
def execAllgather (region slot : Nat) (s : State) : Host.Outcome State Fault Refusal := .next (s.collStart 0x12 region slot)

/-- SUM_L128 (R438). -/
def execSumL128 (region slot : Nat) (s : State) : Host.Outcome State Fault Refusal := .next (s.collStart 0x20 region slot)

/-- MAX_F32 (R438). -/
def execMaxF32 (region slot : Nat) (s : State) : Host.Outcome State Fault Refusal := .next (s.collStart 0x21 region slot)

/-! ### The commit vote (R231, R439) -/

def ldAdd (a b : Nat) : Nat := (convCode 12 mRN 0 (((codeVal 12 a).getD .nan).add ((codeVal 12 b).getD .nan))).1

/-- The exchange moves when it can: up to a parent that is ready, or, at rank 0, the sum formed, kept and sent down. -/
def State.voteMove (s : State) (v : VoteX) : State :=
  let kids := treeChildren v.plan.p v.plan.radix v.rank
  let put := fun (s : State) (v : VoteX) => { s with votes := s.votes.map fun u => if u.slot == v.slot then v else u }
  if v.passed || !(kids.all fun k => v.got.any fun g => g.1 == k) then put s v
  else
    let sum := v.got.foldl (fun a g => ldAdd a g.2) v.own
    if v.rank == 0 then
      ((put s { v with passed := true }).keepVote v.plan.epoch v.num v.attempt sum).passVote v sum
    else
      let up := treeParent v.plan.radix v.rank
      if v.ready.contains up then
        (fragments (collBody v.collId treeLvl 0 0 (leBytes 16 sum))).foldl (fun s b => s.sendControl 0x41 (v.plan.member up) b)
          (put s { v with passed := true })
      else put s v

/-- VOTE (R439): the vote item starts; its slot enters VOTING and the hub's exchange takes this package's contribution. -/
def execVote (region slot : Nat) (s : State) : Host.Outcome State Fault Refusal :=
  .next (match s.item region slot with
  | none => s
  | some x =>
    if !x.isVote || x.stage != .ready || s.frozen ⟨2, region⟩ then s
    else if !s.selfMember then (s.peerLost region slot 4 s.pkgId).settle
    else
      let k := itemKey region slot
      let bad := match tget dColl s.colls k with | some _ => none | none => s.fabAdmit k x
      let s := match tget dColl s.colls k with | some _ => s | none => s.admitColl k x
      let p := s.step x.stepSlot
      match bad, tget dColl s.colls k with
      | some b, _ => s.endRun region slot x { statuses := [(stInvalid, badDetail b)] }
      | none, none => s
      | none, some c =>
        if p.state != 1 || p.outstanding != 0 then s
        else if s.collRuns k c.id then s.endRun region slot x { statuses := [(stInvalid, badDetail (9, 0, 0))] }
        else match s.startItem region slot x with
          | none => s
          | some (s, _) =>
            let s := s.setStep x.stepSlot { p with state := 2, voteCyc := s.cycle }
            let v : VoteX := { slot := x.stepSlot, num := p.num, attempt := p.attempt, collId := c.id, plan := c.plan
                               rank := c.rank, resultSlot := x.resultSlot, region := region, item := slot
                               own := if p.fault % 128 == 0 then 0 else 2 ^ 80, ready := c.ready.map (·.2) }
            let s := ({ s with votes := v :: s.votes.filter fun u => u.slot != x.stepSlot }).setColl k none
            (s.sendReady c).voteMove v)

/-! ### SEND and PUT (R441) -/

/-- Where a stored block goes: its number, the address of its bytes, its scale line and its outlier region. -/
structure Dest where
  blk : Nat
  addr : Nat
  line : Nat
  out : Nat

/-- The destinations of a stream's blocks, in order. -/
def Strm.dests (m : Strm) : List Dest :=
  m.ents.flatMap fun e =>
    let bb := fmtBits e.fmt * e.nb / 8
    let n := e.len / bb
    (List.range (e.rows * n)).map fun j =>
      { blk := e.blkidx + j, addr := e.addr + j / max n 1 * e.stride + bb * (j % max n 1)
        line := e.lineAddr m.hdr (e.blkidx + j), out := if m.esc then Ent.outAddr m.hdr (e.blkidx + j) else 0 }

/-- Blocks of bb bytes that one PUT carries: 32 bytes of place and a frame's head, poison marks and scales within 32 cells (R415). -/
def putBlocks (bb : Nat) : Nat := max 1 (1900 / (bb + 5))

/-- Cut blocks with their destinations where a line or a run of addresses ends, and where a packet is full. -/
def sendRuns (bb : Nat) (l : List (RawBlk × Dest)) : List (List (RawBlk × Dest)) :=
  List.flatMap (fun r => chunks (putBlocks bb) ((r.length + putBlocks bb - 1) / putBlocks bb) r) <| l.foldr (fun b acc =>
    match acc with
    | (c :: r) :: rest =>
      if c.2.blk == b.2.blk + 1 && c.2.blk % 56 != 0 && c.2.addr == b.2.addr + bb then (b :: c :: r) :: rest
      else [b] :: acc
    | _ => [b] :: acc) []

/-- Body of a PUT: address, scale line (all ones: none), outlier region (0: none), tag, FMT with B32, TOTAL_BLOCKS, frame. -/
def putBody (m : Strm) (run : List (RawBlk × Dest)) : List Byte :=
  match run with
  | [] => []
  | b :: _ =>
    leBytes 8 b.2.addr ++ leBytes 8 (if m.scaled then b.2.line else 2 ^ 64 - 1) ++ leBytes 8 b.2.out ++ leBytes 2 m.hdr.tag
      ++ leBytes 1 (m.fmt + (if m.nb == 32 then 16 else 0)) ++ leBytes 1 0 ++ leBytes 4 m.hdr.total
      ++ rawFrame m b.2.blk (run.map (·.1))

/-- An address in HBM or the far tier of some package. -/
def remoteOk (a n : Nat) : Bool := decide (a + n ≤ 2 ^ 41) || (decide (2 ^ 42 ≤ a) && decide (a + n ≤ 2 ^ 43))

def State.sendChecks (s : State) (x : Item) : List (Option Bad) :=
  let a := s.strm x 0
  let y := s.strm x 2
  [s.entsCheck a [0, 1, 2, 3, 4, 5, 6, 7, 8, 9, 10, 11, 12],
   s.entsCheck y [0, 1, 2, 3, 4, 5, 6, 7, 8, 9, 10, 11, 12] false true true,
   if a.fmt != y.fmt || a.nb != y.nb || (a.scaled && a.hdr.coarse != y.hdr.coarse) || (a.esc && y.hdr.outBase == 0)
     || a.ents.any (·.bytes) then some (9, 2, 0) else none,
   if a.elems != y.elems || a.elems % a.nb != 0 || y.ents.any (fun e => e.len % y.blkBytes != 0) then some (9, 2, 1) else none,
   if !(y.dests.all fun d => remoteOk d.addr y.blkBytes && (!y.scaled || remoteOk d.line 64) && (d.out == 0 || remoteOk d.out 224))
   then some (9, 2, 1) else none]

/-- SEND (R441): the lines of stream A leave as PUT packets; the item ends when every one has been delivered. -/
def execSend (region slot : Nat) (s : State) : Host.Outcome State Fault Refusal :=
  .next (match s.item region slot with
  | none => s
  | some x =>
    if x.engine != 7 || x.op != 1 || x.stage != .ready || s.frozen ⟨2, region⟩ || x.prepass == 1 then s
    else if !s.selfMember then (s.peerLost region slot 4 s.pkgId).settle
    else
      let dst := x.opnd 0x68 4
      if !s.peerOk dst then (s.peerLost region slot 1 dst).settle
      else match s.startItem region slot x with
        | none => s
        | some (s, x) =>
          match firstBad (s.sendChecks x) with
          | some b => s.endRun region slot x { statuses := [(stInvalid, badDetail b)] }
          | none =>
            match s.firstSkew x [(s.strm x 0, false)] with
            | some c => s.skewRun region slot x c.1 c.2.1 c.2.2
            | none =>
              let a := s.strm x 0
              let y := s.strm x 2
              let l := (rawGroups a (s.rawBlocks x a)).zip y.dests
              let t := (sendRuns y.blkBytes l).foldl (fun s run =>
                s.sendTracked 0x40 dst region slot 0 (putBody y run) (run.any fun b => b.1.bytes.any (·.2))) s
              t.endRun region slot x (moveResult a.fmt a.elems 0 (l.any fun b => b.1.bytes.any (·.2))))

end Sys2Proof.Machine
end

