-- ==== Sys2Proof/Machine/Fabric.lean ====
section
/-! DEFINITION. Ports and their lanes, frames received, the packets a package receives, membership and routes, and suspicion (13 R406 to
R423, R428, R440 to R442, R452; 14 R484, R489, R490). -/

namespace Sys2Proof.Machine

/-! ### Ports (R406 to R410) -/

def setPortStat (st good : Nat) : Word :=
  BitVec.ofNat 32 (st * 2 ^ 29 + good % 256 * 2 ^ 16 + ((List.range 8).filter (bit good ·)).length * 2 ^ 12)

def State.putPortStat (s : State) (p st good : Nat) : State := s.setReg .fabPortStat (portDie p) (portEl p) (setPortStat st good)

/-- Die and die lane of a port lane (R406). -/
def laneAt (p l : Nat) : Nat × Nat :=
  if p < 16 then (p / 4, 8 * (p % 4) + l) else if l < 4 then (portDie p, 32 + l) else (portDie p + 1, 28 + l)

/-- FAB_LANE_STAT of a port lane: LOCK and FAILED. -/
def State.putLane (s : State) (p l : Nat) (lock failed : Bool) : State :=
  let a := laneAt p l
  s.setReg .fabLaneStat a.1 a.2 (BitVec.ofNat 32 (b2n lock * 2 ^ 31 + b2n failed * 2 ^ 30))

def State.portEnabled (s : State) (p : Nat) : Bool := bit (s.reg .fabPortCfg (portDie p) (portEl p)).toNat 31

/-- A port goes DOWN or FAILED: flagged, interrupted, and the packets it has not delivered are sent again on their routes, which no
longer name it (R417, R452). -/
def State.portDown (s : State) (p st : Nat) : State :=
  let unsent := (s.port p).unsent
  let s := ((s.putPortStat p st 0).setReg .fabPortNbr (portDie p) (portEl p) 0#32).flag .fabPortSts (portDie p) (portEl p) 4
  let s := (List.range 8).foldl (fun s l => s.putLane p l false false) s
  let s := (s.setPort p { s.port p with kept := [], queue := [], rxBuf := [], rxWait := false, replays := 0, ucw := [] }).irqBy
    (s.reg .fabEvtCfg (portDie p)) causeFabric p
  unsent.foldl (fun s q => s.sendFrom (portDie p) q) s

/-- A fabric record (14 R462): KIND 1 lane failed, 2 port DOWN, 3 port FAILED, 4 MEMBERSHIP refused. Severity and LEVEL are the
model's reading: a port lost is DEFERRED, the others are corrected events; none names a reset domain (log entry 63). -/
def State.fabRecord (s : State) (die kind port lane : Nat) : State :=
  s.record die 7 (if kind == 2 || kind == 3 then sevDeferred else sevCorrected) 7 1 0 0
    (kind * 2 ^ 120 + port % 256 * 2 ^ 112 + lane % 256 * 2 ^ 104)

/-- An error takes a port DOWN, or leaves it FAILED: recorded. -/
def State.portLost (s : State) (p st : Nat) : State :=
  (s.portDown p st).fabRecord (portDie p) (if st == 4 then 3 else 2) p 0

/-- A full bring-up of a port starts (R408): what it has not delivered waits for the link to come up. -/
def State.portTrain (s : State) (p : Nat) : State :=
  let s := (s.putPortStat p 1 0).setReg .fabPortNbr (portDie p) (portEl p) 0#32
  let s := (List.range 8).foldl (fun s l => s.putLane p l false false) s
  let x := s.port p
  s.setPort p { x with starts := 0, trainCyc := s.cycle, failed := [], rxWait := false, replays := 0, kept := [], queue := x.unsent
                       rxBuf := [], ucw := [] }

/-- The ENABLE bit of a port written (R452). -/
def State.portEnableOne (s : State) (p : Nat) (on : Bool) : State :=
  let was := s.portEnabled p
  let s := s.setReg .fabPortCfg (portDie p) (portEl p) (BitVec.ofNat 32 (b2n on * 2 ^ 31))
  if on && !was then s.portTrain p else if !on && was then s.portDown p 0 else s

/-- PORT_ENABLE (R408, R454): a mask of ports. -/
def execPortEnable (_ini mask : Nat) (s : State) : Host.Outcome State Fault Refusal :=
  .next ((List.range 18).foldl (fun s p => s.portEnableOne p (bit mask p)) (s.setDv 0x5007 0 (mask % 2 ^ 18)))

/-- A retrain command to one port: a full bring-up, if the port is enabled. -/
def State.portRetrainOne (s : State) (p : Nat) : State := if s.portEnabled p then s.portTrain p else s

/-- PORT_RETRAIN (R408, R454). -/
def execPortRetrain (_ini mask : Nat) (s : State) : Host.Outcome State Fault Refusal :=
  .next ((List.range 18).foldl (fun s p => if bit mask p then s.portRetrainOne p else s) s)

/-- Port lanes that the dies in reset take out of use (R410). -/
def State.lanesOut (s : State) (p : Nat) : Nat := if 16 ≤ p && s.dieDown (portDie p + 1) then 0xF0 else 0

/-- HELLO for the neighbour of a port (R416): this package's id, the port, its generation, its Lay parent, Lay state and ERR_NS. -/
def State.helloPacket (s : State) (port id gen : Nat) : Packet :=
  { kind := 1, dst := id, src := s.pkgId, tgen := gen, igen := s.pkgGen, seq := 2 ^ 64 - 1, hops := 63, poisoned := false
    body := leBytes 4 s.pkgId ++ leBytes 1 port ++ leBytes 2 s.pkgGen ++ leBytes 1 s.lay.parent ++ leBytes 1 s.lay.state
      ++ leBytes 4 s.layErrNs }

/-- LINK_UP (R408): a port in training has agreed its lanes with its neighbour and exchanged HELLO: it reads UP or DEGRADED, its link
starts afresh, and this package's HELLO goes out, then what waited. -/
def execLinkUp (port lanes : Nat) (seeds : Seeds) (credit : Vcs) (nbr : Hello) (s : State) : Host.Outcome State Fault Refusal :=
  let good := (BitVec.ofNat 8 lanes &&& ~~~BitVec.ofNat 8 (s.lanesOut port)).toNat
  .next (if 18 ≤ port || s.portState port != 1 || good == 0 || s.dieDown (portDie port) then s
  else
    let s := s.putPortStat port (if good == 255 then 2 else 3) good
    let s := (List.range 8).foldl (fun s l => if bit good l then s.putLane port l true false else s) s
    let s := s.setReg .fabPortNbr (portDie port) (portEl port)
      (BitVec.ofNat 32 (2 ^ 31 + nbr.port % 32 * 2 ^ 17 + nbr.id % 2 ^ 17))
    let s := s.setPort port { s.port port with
      nbrGen := nbr.gen, nbrParent := nbr.parent, nbrLay := nbr.lay, nbrErr := nbr.err, rxCyc := s.cycle, starts := 0
      txSeq := 0, rxSeq := 0, txCw := 0, rxCw := 0, txScr := seeds.tx, rxScr := seeds.rx, txLim := credit, txCells := {}
      rxCells := {}, since := ⟨s.cycle, s.cycle, s.cycle⟩ }
    s.portSend port (s.helloPacket port nbr.id nbr.gen))

/-- PORT_TRAIN_TIMEOUT (R408): 100 ms without a locked lane: the port starts again, and the third failed start leaves it
FAILED. -/
def execPortTrainTimeout (port : Nat) (s : State) : Host.Outcome State Fault Refusal :=
  let x := s.port port
  .next (if 18 ≤ port || s.portState port != 1 || decide (s.cycle < x.trainCyc + cycOfMs 100) then s
  else if x.starts + 1 < 3 then s.setPort port { x with starts := x.starts + 1, trainCyc := s.cycle }
  else (s.setPort port { x with starts := 3 }).portLost port 4)

/-- Lanes leave a port: it goes on at the width left, each loss counted, or goes DOWN at width 0 (R409, R410). -/
def State.dropLanes (s : State) (p lost : Nat) (failed : Bool) : State :=
  let good := s.portGood p
  let out := (List.range 8).filter fun l => bit lost l && bit good l
  if out.isEmpty || !s.portUp p then s
  else
    let left := good - (out.map (2 ^ ·)).sum
    let s := out.foldl (fun s l => s.putLane p l false failed) s
    let s := (s.bump .fabWidthCnt (portDie p) (portEl p) 1).flag .fabPortSts (portDie p) (portEl p) 2
    let s := s.setPort p { s.port p with failed := (if failed then out else []) ++ (s.port p).failed }
    let s := if failed then out.foldl (fun s l => s.fabRecord (laneAt p l).1 1 p (laneAt p l).2) s else s
    if left == 0 then s.portLost p 0 else (s.putPortStat p 3 left).linkRetrain p true

/-- LANE_FAIL (R409): a lane in use lost codeword lock. One that takes too many uncorrectable codewords fails where its frames are
received (execFrameReceive). -/
def execLaneFail (port lane : Nat) (s : State) : Host.Outcome State Fault Refusal :=
  .next (if 18 ≤ port || 8 ≤ lane then s else s.dropLanes port (2 ^ lane) true)

/-! ### Suspicion (R423; 14 R489, R490) -/

def State.suspectLife (s : State) : Nat := layOfNs (s.dv 0x2094 0 * 1000000)

/-- The live entries of the filter. -/
def State.liveSuspects (s : State) : List Suspect := s.suspects.filter fun e => decide (s.lay.now < e.at' + s.suspectLife)

/-- Body of a SUSPECT_REPORT: id, PGEN, cause, held-back repeats. -/
def suspectBody (id pgen cause held : Nat) : List Byte := leBytes 4 id ++ leBytes 2 pgen ++ leBytes 1 cause ++ leBytes 1 0 ++ leBytes 4 held

/-- A report enters the filter with a count of repeats it carries: absorbed by a live entry, or let through with the count to
carry further. `own`: what an absorbed report adds to HELD. -/
def State.filterSuspect (s : State) (id pgen cause carried own : Nat) : State × Option Nat :=
  let live := s.liveSuspects
  let mine := fun (e : Suspect) => e.id == id && e.pgen == pgen
  if live.any mine then
    (({ s with suspects := s.suspects.map fun e =>
        if mine e && decide (s.lay.now < e.at' + s.suspectLife) then { e with held := e.held + own } else e }).mcBump 0x40A5 1 own, none)
  else if 1024 ≤ live.length then (s.mcBump 0x40A5 2 1, some carried)
  else
    let held := (s.suspects.filter mine).foldl (fun a e => a + e.held) 0
    -- the table holds 1,024 entries: expired ones give way
    let rest := (s.suspects.filter fun e => !mine e).take 1023
    let rest := if (s.suspects.filter fun e => !mine e).length ≤ 1023 then rest else live
    ({ s with suspects := ⟨id, pgen, s.lay.now, 0, cause⟩ :: rest }, some (carried + held))

/-- The fabric manager's endpoint. -/
def State.fmNode (s : State) : Nat := 0x10000 + s.dv 0x5001 0

/-- This package reports a peer (R423). -/
def State.reportSuspect (s : State) (id pgen cause : Nat) : State :=
  let r := s.filterSuspect id pgen cause 0 1
  match r.2 with
  | some held => (r.1.mcBump 0x40A5 0 1).sendControl 0x13 r.1.fmNode (suspectBody id pgen cause held)
  | none => r.1

/-! ### Packets in transit (R417) -/

def knownKind (k : Nat) : Bool :=
  [0x01, 0x10, 0x11, 0x12, 0x13, 0x20, 0x30, 0x31, 0x40, 0x41, 0x50, 0x51, 0x52, 0x53].contains k

/-- A packet for somewhere else, come in on a port: forwarded, or discarded and counted. A SUSPECT_REPORT toward a manager
endpoint passes the filter first. -/
def State.forward (s : State) (port : Nat) (p : Packet) : State :=
  if s.pkgId == 0xFFFFFFFF || p.hops ≤ 1 || !knownKind p.kind then s.routeDrop (portDie port)
  else
    let send := fun (s : State) (p : Packet) =>
      s.sendFrom (portDie port) { p with hops := p.hops - 1 }
    if p.kind == 0x13 && 0x10000 ≤ p.dst then
      let id := leNat (p.body.take 4)
      let pgen := leNat ((p.body.drop 4).take 2)
      let cause := leNat ((p.body.drop 6).take 1)
      let held := leNat ((p.body.drop 8).take 4)
      let r := s.filterSuspect id pgen cause held (held + 1)
      match r.2 with
      | some h => send r.1 { p with body := suspectBody id pgen cause h }
      | none => r.1
    else send s p

/-- What a packet that came in on a port is to this package. -/
inductive Arrive where
  /-- it goes elsewhere, or nowhere -/
  | other (s : State)
  /-- it is for this package -/
  | mine
  /-- it is not of the TYPE the command names -/
  | no

/-- A packet of TYPE `kind` arrives: one for another package is forwarded, one of another generation is discarded and counted
at PGEN_DROPS (R417, R418). -/
def State.arrive (s : State) (port kind : Nat) (p : Packet) : Arrive :=
  if p.kind != kind then .no
  else if p.dst != s.pkgId then .other (s.forward port p)
  else if p.tgen != s.pkgGen then .other ((s.bump .fabPgenDropCnt (portDie port) 0 1).flag .fabSts (portDie port) 0 1)
  else .mine

/-- Run `f` on a packet for this package. -/
def State.onPacket (s : State) (port kind : Nat) (p : Packet) (f : State → State) : State :=
  match s.arrive port kind p with
  | .no => s
  | .other t => t
  | .mine => f s

/-- DELIVERED for a packet, its IGEN echoed (R418). -/
def State.ack (s : State) (p : Packet) : State :=
  s.sendPacket { kind := 0x50, dst := p.src, src := s.pkgId, tgen := (s.peer p.src).pgen, igen := p.igen, seq := p.seq, hops := 63
                 poisoned := false, body := leBytes 8 p.seq }

/-! ### Control packets -/

/-- HELLO (R416): the link neighbour's id, port, generation and Lay parent, with its Lay state and ERR_NS; answered in kind
when the port did not know this neighbour. -/
def State.onHello (s : State) (port : Nat) (p : Packet) : State :=
  if p.kind != 1 || 18 ≤ port then s
  else
    let b := p.body
    let id := leNat (b.take 4)
    let np := leNat ((b.drop 4).take 1)
    let x := s.port port
    let nbr : Word := BitVec.ofNat 32 (2 ^ 31 + np % 32 * 2 ^ 17 + id % 2 ^ 17)
    let new := s.reg .fabPortNbr (portDie port) (portEl port) != nbr
    let s := s.setReg .fabPortNbr (portDie port) (portEl port) nbr
    let s := s.setPort port { x with
      nbrGen := leNat ((b.drop 5).take 2), nbrParent := leNat ((b.drop 7).take 1)
      nbrLay := leNat ((b.drop 8).take 1), nbrErr := leNat ((b.drop 9).take 4), rxCyc := s.cycle }
    if new then s.portSend port (s.helloPacket port id (leNat ((b.drop 5).take 2))) else s

def execHello (port : Nat) (pkt : Packet) (s : State) : Host.Outcome State Fault Refusal := .next (s.onHello port pkt)

/-- The tag of a manager's message: the first 16 bytes of SHA3-256 of the fabric-manager key and the message, as R42 of 02 forms
one. -/
def fmTag (key msg : List Byte) : List Byte := (sha3 (key ++ msg)).take 16

/-- A MEMBERSHIP or ROUTE_SET comes from FM_NODE with a valid tag, its last 16 bytes (R416). -/
def State.fmOk (s : State) (p : Packet) : Bool :=
  match tget dN s.keys 8 with
  | some k => p.src == s.fmNode && decide (16 ≤ p.body.length) &&
      p.body.drop (p.body.length - 16) == fmTag k.key (p.body.take (p.body.length - 16))
  | none => false

/-- The fabric items that must exchange with a peer that is gone end with PEER_LOST (R424). -/
def State.dropLost (s : State) : State :=
  let gone := s.items.filterMap fun e =>
    match e.2 with
    | some x =>
      if x.engine != 7 || x.isVote || !(x.stage == Stage.running || x.stage == Stage.finished) then none
      else if x.op == 1 then
        (if s.peerOk (x.opnd 0x68 4) || !(s.sends.any fun p => itemKey p.region p.slot == e.1 && p.kind != 0x51) then none
         else some (e.1, x.opnd 0x68 4))
      else if x.stage != .running then none
      else match tget dColl s.colls e.1 with
        | some c => (s.lostPeer c).map fun m => (e.1, m)
        | none => none
    | none => none
  gone.foldl (fun s g => s.peerLost (g.1 / 256) (g.1 % 256) 1 g.2) s

/-- One change of a MEMBERSHIP body: package, STATE, PGEN. -/
def memberChanges (b : List Byte) (n : Nat) : List (Nat × Nat × Nat) :=
  (List.range n).map fun i =>
    (leNat ((b.drop (12 + 5 * i)).take 2), leNat ((b.drop (14 + 5 * i)).take 1) % 4, leNat ((b.drop (15 + 5 * i)).take 2))

/-- The peer table after a message: every entry ABSENT first when it is FULL; SINCE moves where the state does. -/
def peersAfter (old : Sparse Peer) (full : Bool) (epoch : Nat) (ch : List (Nat × Nat × Nat)) : Sparse Peer :=
  let base := if full then old.foldl (fun t e => tset dPeer t e.1 (if e.2.state == 0 then e.2 else { e.2 with state := 0, since := epoch })) old else old
  ch.foldl (fun t c =>
    let was := tget dPeer old c.1
    tset dPeer t c.1 { state := c.2.1, pgen := c.2.2, since := if was.state == c.2.1 then was.since else epoch }) base

/-- MEMBERSHIP (R421). -/
def State.onMembership (s : State) (port : Nat) (p : Packet) : State :=
  let die := portDie port
  if !s.fmOk p then s.routeDrop die
  else
    let b := p.body
    let base := leNat (b.take 4)
    let new := leNat ((b.drop 4).take 4)
    let full := bit (leNat ((b.drop 8).take 1)) 0
    let n := leNat ((b.drop 10).take 2)
    if s.peerEpoch < new && (full || base == s.peerEpoch) then
      let s := { s with peers := peersAfter s.peers full new (memberChanges b n), peerEpoch := new }
      let s := (s.flag .fabSts die 0 8).irqBy (s.reg .fabEvtCfg die) causeFabric 0x100
      ((s.sendControl 0x11 p.src (leBytes 1 1 ++ leBytes 3 0 ++ leBytes 4 new)).dropLost).settle
    else
      (((s.flag .fabSts die 0 4).mcBump 0x4099 0 1).fabRecord die 4 port 0).sendControl 0x11 p.src (leBytes 1 0 ++ leBytes 3 0 ++ leBytes 4 s.peerEpoch)

def execMembership (port : Nat) (pkt : Packet) (s : State) : Host.Outcome State Fault Refusal :=
  .next (s.onPacket port 0x10 pkt fun s => s.onMembership port pkt)

/-- EPOCH_REPLY (R416): a package that receives one holds nothing that waits for it; one for another place is forwarded. -/
def execEpochReply (port : Nat) (pkt : Packet) (s : State) : Host.Outcome State Fault Refusal :=
  .next (s.onPacket port 0x11 pkt id)

/-- One route entry written on every ply die (R417, R452). -/
def State.putRoute (s : State) (i v : Nat) : State :=
  let put := fun (r : Reg) (j : Nat) (s : State) (die : Nat) =>
    s.setReg r die (j / 2) (BitVec.ofNat 32 (setBits (s.reg r die (j / 2)).toNat (16 * (j % 2) + 15) (16 * (j % 2)) v))
  if i < 0x10000 then (List.range 4).foldl (put .fabRoute i) s
  else if i < 0x10100 then (List.range 4).foldl (put .fabEpRoute (i - 0x10000)) s
  else s

/-- ROUTE_SET (R416, R417): first entry, count, entries. -/
def State.onRouteSet (s : State) (port : Nat) (p : Packet) : State :=
  if !s.fmOk p then s.routeDrop (portDie port)
  else
    let b := p.body
    (List.range (leNat ((b.drop 4).take 2))).foldl (fun s i =>
      s.putRoute (leNat (b.take 4) + i) (leNat ((b.drop (8 + 2 * i)).take 2))) s

def execRouteSet (port : Nat) (pkt : Packet) (s : State) : Host.Outcome State Fault Refusal :=
  .next (s.onPacket port 0x12 pkt fun s => s.onRouteSet port pkt)

/-- SUSPECT_REPORT (14 R490): passing toward a manager endpoint it is absorbed or forwarded; one addressed to this package is
consumed. -/
def execSuspectReport (port : Nat) (pkt : Packet) (s : State) : Host.Outcome State Fault Refusal :=
  .next (s.onPacket port 0x13 pkt id)

/-- VOTE_QUERY (R440): answered with the kept sum, or NONE. -/
def State.onVoteQuery (s : State) (p : Packet) : State :=
  let e := bodyEpoch p.body
  let n := bodyNum p.body
  let a := bodyAttempt p.body
  match s.keptVote e n a with
  | some sum => s.sendControl 0x31 p.src (voteBody e n a 1 sum)
  | none => s.sendControl 0x31 p.src (voteBody e n a 2 0)

def execVoteQuery (port : Nat) (pkt : Packet) (s : State) : Host.Outcome State Fault Refusal :=
  .next (s.onPacket port 0x31 pkt fun s => if bodyCode pkt.body == 0 then s.onVoteQuery pkt else s)

/-- VOTE_QUERY_ANSWER (R247, R248, R440): a sum settles the slot in doubt; NONE lets the next member be asked, and when every
member has answered NONE the slot is abandoned. -/
def State.onVoteAnswer (s : State) (p : Packet) : State :=
  let e := bodyEpoch p.body
  let n := bodyNum p.body
  let a := bodyAttempt p.body
  match s.votingSlot e n a with
  | some slot =>
    let k := s.step slot
    if k.state != 6 || !k.asked.contains p.src then s
    else if bodyCode p.body == 1 then (s.keepVote e n a (bodySum p.body)).applyVote slot (bodySum p.body)
    else
      let s := (s.setStep slot { k with asked := k.asked.filter (· != p.src) }).askMore slot
      if (s.step slot).asked.isEmpty then (s.abandonStep slot).settle else s
  | none => s

def execVoteQueryAnswer (port : Nat) (pkt : Packet) (s : State) : Host.Outcome State Fault Refusal :=
  .next (s.onPacket port 0x31 pkt fun s => if bodyCode pkt.body == 0 then s else s.onVoteAnswer pkt)

/-! ### Data, acknowledgements and Cleat operations -/

/-- The blocks of a PUT written at its addresses: element bytes, then the scale line as one merge (04 R566). -/
def State.onPut (s : State) (p : Packet) : State :=
  let b := p.body
  let addr := leNat (b.take 8)
  let line := leNat ((b.drop 8).take 8)
  let out := leNat ((b.drop 16).take 8)
  let f := leNat ((b.drop 26).take 1)
  let nb := if bit f 4 then 32 else 16
  let scaled := line != 2 ^ 64 - 1
  let bb := fmtBits (f % 16) * nb / 8
  let blks := unrawFrame scaled bb (b.drop 32)
  let first := leNat ((b.drop 32).take 4)
  let s := s.wrMarks addr (blks.flatMap (·.bytes))
  let s := if scaled then s.mergeLine { addr := line, outAddr := if out == 0 then none else some out
                                        tag := leNat ((b.drop 24).take 2), first := first / 56 * 56
                                        total := leNat ((b.drop 28).take 4)
                                        blocks := (blks.zipIdx).map fun q => (first % 56 + q.2, q.1.byte, q.1.outs) } else s
  s.ack p

def execPut (port : Nat) (pkt : Packet) (s : State) : Host.Outcome State Fault Refusal :=
  .next (s.onPacket port 0x40 pkt fun s => s.onPut pkt)

/-- The running collective with a COLL_ID: its slot key. -/
def State.collOf (s : State) (id : Nat) : Option (Nat × Coll) :=
  s.colls.findSome? fun e => match e.2 with
    | some c => if c.id == id then some (e.1, c) else none
    | none => none

/-- A frame or tree value reaches a running collective. `residue`: the die's reducer finds a mismatch as it adds the value (14 R457, R460),
which is recorded and poisons what it forms. -/
def State.collReceive (s : State) (k : Nat) (x : Item) (c : Coll) (p : Packet) (residue : Bool) : State :=
  let level := leNat ((p.body.drop 4).take 1)
  let dir := leNat ((p.body.drop 5).take 1)
  let hop := leNat ((p.body.drop 6).take 2)
  let region := k / 256
  let amiss := residue && x.op == 0x20 && dir == 0
  let s := if amiss then
      s.record (regionDie region) 4 sevDeferred 3 2 (regionDie region) (s.gen 3 (regionDie region))
        ((128 + regionDie region) * 2 ^ 120 + x.tag * 2 ^ 64)
    else s
  let (s, c) :=
    match c.join p.src p.body p.poisoned with
    | (c, none) => (s, c)
    | (c, some (body, bad)) =>
      let rest := body.drop 8
      if c.tree then
        let vals := (treeDec (treeBytes x) x.collOp.count rest).map fun (v : Nat × Bool) => (v.1, v.2 || amiss)
        if dir == 0 then (s, ({ c with parts := (c.plan.rankOf p.src, vals) :: c.parts.filter fun q => q.1 != c.plan.rankOf p.src }).treeUp x)
        else
          (s, (treeChildren c.plan.p c.plan.radix c.rank).foldl (fun c r => c.push treeLvl r body bad) { c with down := some vals })
      else if dir == 1 then
        let line := leNat (rest.take 4) / 56
        (s, c.gather line level hop rest bad)
      else redFrame (s.redCtx region x) level hop rest (s, c)
  let (s, c) := s.flushColl k c
  (s.collTry k c).ack p

/-- COLL_DATA (R431, R438): for a running collective, or for the hub's vote exchange. -/
def State.onCollData (s : State) (p : Packet) (residue : Bool) : State :=
  let id := leNat (p.body.take 4)
  match s.collOf id with
  | some (k, c) =>
    (match tget dItem s.items k with
    | some x => if x.stage == .running && c.plan.members.contains p.src then s.collReceive k x c p residue else s
    | none => s)
  | none =>
    match s.votes.find? (fun v => v.collId == id) with
    | some v =>
      if v.plan.members.contains p.src then
        (s.voteMove { v with got := (v.plan.rankOf p.src, leNat ((p.body.drop 16).take 16)) :: v.got.filter fun g => g.1 != v.plan.rankOf p.src }).ack p
      else s
    | none => s

def execCollData (port : Nat) (fr : CollFrame) (s : State) : Host.Outcome State Fault Refusal :=
  .next (s.onPacket port 0x41 fr.pkt fun s => s.onCollData fr.pkt fr.residue)

/-- DELIVERED (R418, 14 R484): the packet it names is no longer waited for; a reply whose IGEN is not its region's generation is
dropped and counted at STALE_REPLIES. -/
def State.onDelivered (s : State) (p : Packet) : State :=
  match s.sends.find? (fun q => q.seq == leNat (p.body.take 8) && q.dst == p.src) with
  | none => s
  | some q =>
    if p.igen != s.gen 2 q.region then s.bump .errStaleCnt (regionDie q.region) 0 1
    else { s with sends := s.sends.filter fun r => r.seq != q.seq }

def execDelivered (port : Nat) (pkt : Packet) (s : State) : Host.Outcome State Fault Refusal :=
  .next (s.onPacket port 0x50 pkt fun s => s.onDelivered pkt)

/-- CLEAT_OP (R442): a remote operation applied at its Cleat and acknowledged; one that cannot be applied is not acknowledged, and
fails at its sender (03 R112). -/
def State.onCleatOp (s : State) (port : Nat) (p : Packet) : State :=
  let w := leNat (p.body.take 8)
  if cleatExists (sigDie w) (sigIdx w) && !s.dieDown (sigDie w) then
    ((s.cleatOp (portDie port) (sigDie w) (sigIdx w) (sigOp w)).settle).ack p
  else s

def execCleatOp (port : Nat) (pkt : Packet) (s : State) : Host.Outcome State Fault Refusal :=
  .next (s.onPacket port 0x51 pkt fun s => s.onCleatOp port pkt)

/-- COLL_READY (R428): the successor, or a tree neighbour, is ready for a level's data. -/
def State.onCollReady (s : State) (p : Packet) : State :=
  let id := leNat (p.body.take 4)
  let level := leNat ((p.body.drop 4).take 1)
  match s.collOf id with
  | some (k, c) =>
    if !c.plan.members.contains p.src then s
    else
      let c := { c with ready := (level, c.plan.rankOf p.src) :: c.ready }
      (match tget dItem s.items k with
      | some x =>
        if x.stage == .running then
          let (s, c) := s.flushColl k c
          s.collTry k c
        else s.setColl k (some c)
      | none => s)
  | none =>
    match s.votes.find? (fun v => v.collId == id) with
    | some v => if v.plan.members.contains p.src then s.voteMove { v with ready := v.plan.rankOf p.src :: v.ready } else s
    | none => { s with earlyReady := (id, level, p.src) :: s.earlyReady }

def execCollReady (port : Nat) (pkt : Packet) (s : State) : Host.Outcome State Fault Refusal :=
  .next (s.onPacket port 0x52 pkt fun s => s.onCollReady pkt)

/-- COLL_ABORT (R424, R428): a running collective ends with PEER_LOST and passes the abort on; votes are exempt. -/
def State.onCollAbort (s : State) (p : Packet) : State :=
  match s.collOf (leNat (p.body.take 4)) with
  | some (k, _) =>
    (match tget dItem s.items k with
    | some x => if x.stage == .running && !x.isVote then (s.peerLost (k / 256) (k % 256) 3 p.src).settle else s
    | none => s)
  | none => s

def execCollAbort (port : Nat) (pkt : Packet) (s : State) : Host.Outcome State Fault Refusal :=
  .next (s.onPacket port 0x53 pkt fun s => s.onCollAbort pkt)

/-- SEND_TIMEOUT (R418, R423): SEND_TIMEOUT_MS without DELIVERED: the item that sent the packet ends with PEER_LOST, a remote
Cleat operation is counted as undelivered, and the peer is reported. -/
def execSendTimeout (seq : Nat) (s : State) : Host.Outcome State Fault Refusal :=
  .next (match s.sends.find? (fun q => q.seq == seq) with
  | none => s
  | some q =>
    if s.cycle < q.at' + cycOfMs (s.dv 0x5003 0) then s
    else
      let s := { s with sends := s.sends.filter fun r => r.seq != seq }
      let s := if q.kind == 0x51 then s.bump .cltUndelCnt (regionDie q.region) 0 1
        else match s.item q.region q.slot with
          | some x => if x.engine == 7 && (x.stage == Stage.running || x.stage == Stage.finished) then (s.peerLost q.region q.slot 2 q.dst).settle else s
          | none => s
      s.reportSuspect q.dst (s.peer q.dst).pgen 1)

/-- NEIGHBOUR_SILENT (R423): a link neighbour has sent no frame for 1 ms. -/
def execNeighbourSilent (port : Nat) (s : State) : Host.Outcome State Fault Refusal :=
  let nbr := (s.reg .fabPortNbr (portDie port) (portEl port)).toNat
  .next (if 18 ≤ port || !s.portUp port || !bit nbr 31 || decide (s.cycle < (s.port port).rxCyc + cycOfMs 1) then s
  else s.reportSuspect (bits nbr 16 0) (s.port port).nbrGen 2)

/-! ### Delivery and frames (R412, R414) -/

/-- A packet's cells have arrived: consumed by its TYPE, or forwarded (R416, R417). An unknown TYPE is discarded and counted. -/
def State.deliverPacket (s : State) (port : Nat) (p : Packet) : State :=
  if !knownKind p.kind then s.routeDrop (portDie port)
  else if p.kind == 0x01 then s.onHello port p
  else if p.kind == 0x20 then s.onLaySync port p
  else s.onPacket port p.kind p fun s =>
    match p.kind with
    | 0x10 => s.onMembership port p
    | 0x12 => s.onRouteSet port p
    | 0x30 => s.onVoteResult (bodyEpoch p.body) (bodyNum p.body) (bodyAttempt p.body) (bodySum p.body)
    | 0x31 => if bodyCode p.body == 0 then s.onVoteQuery p else s.onVoteAnswer p
    | 0x40 => s.onPut p
    | 0x41 => s.onCollData p false
    | 0x50 => s.onDelivered p
    | 0x51 => s.onCleatOp port p
    | 0x52 => s.onCollReady p
    | 0x53 => s.onCollAbort p
    | _ => s

/-- PACKET_FORWARD (R417): a packet arrives for another package, or is consumed here when it is for this one. -/
def execPacketForward (port : Nat) (pkt : Packet) (s : State) : Host.Outcome State Fault Refusal :=
  .next (if pkt.dst == s.pkgId then s.deliverPacket port pkt else s.forward port pkt)

/-- ACK of a frame: frames up to it are no longer kept. -/
def Port.acked (x : Port) (ack : Nat) : Port :=
  let kept := x.kept.filter fun f => !decide ((ack + 65536 - f.1) % 65536 < 32768)
  { x with kept := kept, txAck := ack, replays := if kept.length < x.kept.length then 0 else x.replays }

/-- The link header of a frame taken: its ACK, and its CREDIT, with the cycle at which credit came back. -/
def Port.heard (x : Port) (h : LinkHdr) (now : Nat) : Port :=
  let since := Vcs.map fun v => if h.credit.get v == x.txLim.get v then x.since.get v else now
  { x.acked h.ack with rxSeq := h.seq, rxWait := false, txLim := h.credit, since := since }

/-- A good frame in order is taken (R412 to R414): what it acknowledges is no longer kept, a NAK or a retrain request sends the rest again,
its credits let waiting packets go, and the packets its cells complete are delivered. Cells that came are acknowledged, and their
credit returned, in a frame of their own when no other frame has gone out. -/
def State.takeFrame (s : State) (port : Nat) (h : LinkHdr) (cells : List (List Byte)) : State :=
  let x := (s.port port).heard h s.cycle
  let t := takeCells x.rxBuf cells
  let came := Vcs.map fun v => (x.rxCells.get v + ((t.1.filter fun q => kindVc q.1.kind == v).map (·.2)).sum) % 2 ^ 32
  let s := s.setPort port { x with rxBuf := t.2, rxCells := came }
  let s := if h.nak then s.replay port else s
  let s := if h.retrain then s.linkRetrain port false else s
  let s := s.pump port
  let n := (s.port port).txSeq
  let s := t.1.foldl (fun s q => s.deliverPacket port q.1) s
  if (t.1.isEmpty && t.2.length == x.rxBuf.length) || (s.port port).txSeq != n || !s.portUp port then s
  else s.newFrame port false false []

/-- A frame is discarded, as every later one until the replay: NAK, with ACK the last good frame (R414). -/
def State.refuseFrame (s : State) (port : Nat) : State :=
  (s.setPort port { s.port port with rxWait := true }).newFrame port true false []

/-- The codewords of a frame are counted: corrected ones and uncorrectable ones at the port, corrected symbols at their lanes. -/
def State.countWords (s : State) (port : Nat) (l : List (Nat × Option Nat)) : State :=
  let fixed := l.filterMap fun r => match r.2 with
    | some n => if n == 0 then none else some (r.1, n)
    | none => none
  let s := s.bump .fabFecCwCnt (portDie port) (portEl port) fixed.length
  let s := s.bump .fabFecUcwCnt (portDie port) (portEl port) (l.filter fun r => r.2.isNone).length
  fixed.foldl (fun s r => let a := laneAt port r.1
                          s.bump .fabLaneSymCnt a.1 a.2 r.2) s

/-- The lanes that have received more than LANE_FAIL_UCW uncorrectable codewords within a millisecond, as a mask (R409). -/
def State.badLanes (s : State) (port : Nat) : Nat :=
  let l := (s.port port).ucw
  (((List.range 8).filter fun k => decide (s.dv 0x5004 0 < (l.filter fun e => e.1 == k).length)).map (2 ^ ·)).sum

/-- FRAME_RECEIVE (R411 to R414): the codewords are decoded and descrambled, lane by lane; a frame whose codewords and CRC are good and
whose number is the next is taken, any other is refused; then the lanes that have failed leave. -/
def execFrameReceive (port : Nat) (f : Frame) (s : State) : Host.Outcome State Fault Refusal :=
  .next (if 18 ≤ port || !s.portUp port then s
  else
    let r := (s.port port).wordsIn (s.portLanes port) f.words
    let bad := r.2.2.filter fun w => w.2.isNone
    let ucw := (bad.map fun w => (w.1, s.cycle)) ++ r.1.ucw.filter fun e => decide (s.cycle < e.2 + cycOfMs 1)
    let s := (s.setPort port { r.1 with rxCyc := s.cycle, ucw := ucw }).countWords port r.2.2
    let s := match if bad.isEmpty then readFrame r.2.1 else none with
      | some (h, cells) => if h.seq == ((s.port port).rxSeq + 1) % 65536 then s.takeFrame port h cells else s.refuseFrame port
      | none => s.refuseFrame port
    s.dropLanes port (s.badLanes port) true)

end Sys2Proof.Machine
end

