-- ==== Sys2Proof/Machine/Attend.lean ====
section
/-! DEFINITION. Attention items: masks, chunk and tree nodes, ATTEND and MERGE, and the PUBLISH and PTE_WRITE items
(10 R303, R322 to R335). -/

namespace Sys2Proof.Machine

/-! ### e^x (R331) -/

/-- Taylor terms of e^r in units of 2^−320. -/
def expTaylor (r : Nat) : Nat → Nat → Nat → Nat → Nat
  | 0, _, _, acc => acc
  | n + 1, k, term, acc =>
    let t := term * r / 2 ^ 320 / k
    expTaylor r n (k + 1) t (acc + t)

def squareN : Nat → Nat → Nat
  | 0, y => y
  | n + 1, y => squareN n (y * y / 2 ^ 320)

/-- e^|x| in units of 2^−320, |x| = a / b at most 200: exact to far more bits than decide any rounding to FP32. -/
def expFix (a b : Nat) : Nat :=
  let r := a * 2 ^ 320 / b / 1024
  squareN 10 (expTaylor r 90 1 (2 ^ 320) (2 ^ 320))

/-- e^x rounded once by RN to a format; NaN for every non-finite argument. -/
def expRn (fmt : Nat) (x : XV) : XV :=
  match x with
  | .fin m e =>
    if m == 0 then .ofInt 1
    else if leF 200 0 m.natAbs e then
      (if m < 0 then .zero else (codeVal fmt (grid fmt).last).getD .nan)
    else
      let q := magFrac m e
      let y := expFix q.1 q.2
      let k := if m < 0 then roundQ (grid fmt) mRN 0 (2 ^ 320) y else roundQ (grid fmt) mRN 0 y (2 ^ 320)
      (codeVal fmt k.1).getD .nan
  | _ => .nan

def exp16 (x : XV) : XV := expRn 7 x
def exp32 (x : XV) : XV := expRn 9 x

/-! ### Nodes (R331, R332) -/

/-- A node: EMPTY, or m, l and o; and its poison mark. -/
structure Node where
  empty : Bool
  poison : Bool
  m : XV
  l : XV
  o : List XV
  deriving DecidableEq, Repr

def Node.none (poison : Bool := false) : Node := ⟨true, poison, .zero, .zero, []⟩

/-- The merge of two nodes. -/
def Node.merge (a b : Node) : Node :=
  let p := a.poison || b.poison
  if a.empty then { b with poison := p }
  else if b.empty then { a with poison := p }
  else
    let r := fun (x : XV) => (rn32 x).1
    let m := a.m.max b.m
    let fa := exp32 (r (a.m.sub m))
    let fb := exp32 (r (b.m.sub m))
    let mix := fun (x y : XV) => r ((r (x.mul fa)).add (r (y.mul fb)))
    ⟨false, p, m, mix a.l b.l, (a.o.zip b.o).map fun q => mix q.1 q.2⟩

/-- The accumulator of R194 over one chunk's products. -/
def accOf (sig : Nat) (ps : List XV) : XV :=
  if ps.any fun p => !p.isFinite then .nan
  else (chunks 16 ((ps.length + 15) / 16) ps).foldl (fun acc g =>
    if g.all (·.isZero) then acc else (rn32 (acc.add (groupSum sig g))).1) .zero

/-- A token as one query head sees it: visible, its score, the V elements of its KV head with the page's coarse scale. -/
structure SeenTok where
  vis : Bool
  z : XV
  v : List XV

/-- The chunk node of one query row and head. -/
def chunkNode (hd : Nat) (ts : List SeenTok) (poison : Bool) : Node :=
  let seen := ts.filter (·.vis)
  match seen with
  | [] => Node.none poison
  | t :: rest =>
    let m := rest.foldl (fun a u => a.max u.z) t.z
    let ps := ts.map fun u => if u.vis then exp16 (rn32 (u.z.sub m)).1 else .zero
    ⟨false, poison, m, accOf 21 ps,
      (List.range hd).map fun n => accOf 21 ((ts.zip ps).map fun q =>
        if q.1.vis then q.2.mul (q.1.v.getD n .zero) else .zero)⟩

/-- The node at level s with index k, from the chunk nodes below nc. -/
def treeNode (leaf : Nat → Node) (nc : Nat) : Nat → Nat → Node
  | 0, k => if k < nc then leaf k else Node.none
  | s + 1, k => if k * 2 ^ (s + 1) < nc then (treeNode leaf nc s (2 * k)).merge (treeNode leaf nc s (2 * k + 1)) else Node.none

/-- Pairs of nodes merged under a node, neither EMPTY. -/
def treePairs (leaf : Nat → Node) (nc : Nat) : Nat → Nat → Nat
  | 0, _ => 0
  | s + 1, k =>
    treePairs leaf nc s (2 * k) + treePairs leaf nc s (2 * k + 1)
      + b2n (!(treeNode leaf nc s (2 * k)).empty && !(treeNode leaf nc s (2 * k + 1)).empty)

/-- A node record (R332). -/
def nodeRecord (hd nc level index : Nat) (n : Node) : List Byte :=
  leBytes 4 (if n.empty then 0 else f32Code n.m) ++ leBytes 4 (if n.empty then 0 else f32Code n.l) ++ leBytes 2 nc ++ leBytes 2 index
    ++ leBytes 1 level ++ leBytes 1 (b2n n.empty + 2 * b2n n.poison) ++ leBytes 2 0
    ++ (List.range hd).flatMap fun i => leBytes 4 (if n.empty then 0 else f32Code (n.o.getD i .zero))

/-- The final output of a root: rn(o / l), +0 when it is EMPTY. -/
def nodeFinal (hd : Nat) (n : Node) : List OutEl :=
  (List.range hd).map fun i =>
    { v := if n.empty then .zero else (div32 (n.o.getD i .zero) n.l).1, poison := n.poison }

/-- NaNs that the division makes from finite fields of a node, one for each output element (R334, 04 R150). -/
def nodeMade (hd : Nat) (n : Node) : Nat :=
  if n.empty || !n.l.isFinite then 0
  else (((List.range hd).zip (nodeFinal hd n)).filter fun p => (n.o.getD p.1 .zero).isFinite && !p.2.v.isFinite).length

/-! ### Operands (R329) -/

structure AttOp where
  m : Nat
  seq : Nat
  aflags : Nat
  node : Nat
  span : Nat
  scale : Nat
  deriving DecidableEq, Repr

def Item.att (x : Item) : AttOp := ⟨x.opnd 0x68 4, x.opnd 0x6C 2, x.opnd 0x6F 1, x.opnd 0x70 2, x.opnd 0x72 1, x.opnd 0x74 4⟩

def AttOp.partial' (o : AttOp) : Bool := o.aflags % 4 == 1
def AttOp.stats (o : AttOp) : Bool := bit o.aflags 2 && !o.partial'

/-- The checks of an ATTEND, MERGE, PUBLISH or PTE_WRITE at admission. -/
def State.ateAdmit (s : State) (x : Item) : Option Bad :=
  let o := x.att
  let d : Use := if o.stats then .yes else .no
  if x.resultSlot != 0xFFFF then some (9, 0, 0)
  else match x.op with
    | 1 =>
      match s.useCheck x [.yes, .yes, .yes, d] with
      | some e => some e
      | none =>
        if o.m == 0 || 65536 < o.m || 2 ≤ o.aflags % 4 || 13 < o.span || !(f32 o.scale).isFinite then some (9, 0, 0)
        else if (s.strm x 0).nb != 32 then some (9, 0, 0)
        else none
    | 2 =>
      match s.useCheck x [.yes, .yes, .yes, d] with
      | some e => some e
      | none => if o.m == 0 || 65536 < o.m || 2 ≤ o.aflags % 4 then some (9, 0, 0) else none
    | 0x10 =>
      if x.mask != 0 || x.streamCount 0 != 2 || (x.stream 2 != 0 && x.streamCount 2 != 2) then some (9, 0, 0)
      else s.useCheck x [.yes, .no, .opt, .no]
    | 0x11 => if x.mask != 0 then some (9, 0, 0) else s.useCheck x [.no, .no, .no, .no]
    | _ => some (1, 0, 0)

/-! ### Pages as a walker reads them (R303, R328) -/

/-- A page of the snapshot. -/
structure PageIn where
  p : Nat
  first : Nat
  bound : Nat
  addr : Nat
  found : Bool

/-- Pages [p0, p1) of a snapshot, from their entries alone. -/
def State.walkPages (s : State) (home : Nat) (k : Pin) (p0 p1 : Nat) : List PageIn :=
  let last := (k.len - 1) / 128
  (List.range (p1 - p0)).map fun i =>
    let p := p0 + i
    let e := s.pte k.dir p
    let next := s.pte k.dir (p + 1)
    { p := p, first := (e.getD 0) % 2 ^ 32
      bound := if p == last then k.lastPos else (match next with | some n => n % 2 ^ 32 - 1 | none => 0xFFFFFFFF)
      addr := s.pageAddr home (e.getD 0), found := e.isSome }

/-- A position record (R327). -/
structure PosRec where
  lo : Nat
  hi : Nat
  bad : Bool
  deriving DecidableEq, Repr

/-- The page is skipped for a row (R328). -/
def PosRec.skips (r : PosRec) (p : PageIn) : Bool := p.found && (decide (r.hi < p.first) || decide (p.bound < r.lo))

/-- The page's header fails R303. -/
def State.headerBad (s : State) (x : Item) (seq layer : Nat) (p : PageIn) : Bool :=
  s.iw x p.addr 2 != seq || s.iw x (p.addr + 2) 2 != layer || s.iw x (p.addr + 4) 2 != p.p || !pow2Code (s.iw x (p.addr + 8) 4)

/-- K (side false) or V of a page as a stream. -/
def pageStrm (l : KvLay) (page : Nat) (v : Bool) : Strm :=
  { k := 1, first := 1
    hdr := ⟨page + (if v then l.vsl else l.ksl), if l.esc then page + (if v then l.vout else l.kout) else 0, 0x3F800000,
      if v then l.vtag else l.ktag, l.nb⟩
    ents := [⟨page + (if v then l.vdat else l.kdat), l.half / 2, 128, 3, true, false, true, 0, l.half / 2, 0, 0, 0⟩] }

/-- One token read: position, K and V by head, and the page's coarse scale. -/
structure TokIn where
  page : PageIn
  pos : Nat
  k : List (List El)
  v : List (List El)
  coarse : Nat
  bad : Bool

/-- The ply die that holds a page, in its stacks or its buffers; the item's own for a page that lies on none (log entry 51). -/
def State.pageDie (s : State) (page die : Nat) : Nat :=
  match s.place page with
  | some p => if placeDie p < 4 then placeDie p else die
  | none => die

/-- The first scale line of a page's tokens below n that is out of step (04 R141): the cause. -/
def State.pageSkew (s : State) (x : Item) (l : KvLay) (page n : Nat) : Option Nat :=
  [false, true].findSome? fun v =>
    let m := pageStrm l page v
    (List.range ((n * l.hkv * l.hdb + 55) / 56)).findSome? fun i =>
      let a := m.hdr.scaleBase + 64 * i
      if s.ipois x a then none
      else let c := lineCause (s.iw x a 64) m.hdr.tag i; if c == 0 then none else some c

/-- The tokens of one fetched page. -/
def State.pageToks (s : State) (x : Item) (l : KvLay) (len : Nat) (p : PageIn) (bad : Bool) : List TokIn :=
  let km := pageStrm l p.addr false
  let vm := pageStrm l p.addr true
  let coarse := s.iw x (p.addr + 8) 4
  (List.range (min 128 (len - 128 * p.p))).map fun t =>
    let row := fun (m : Strm) => match m.ents with
      | e :: _ => chunks l.hd l.hkv (s.readRow x m e false t)
      | [] => []
    { page := p, pos := s.iw x (p.addr + 0x40 + 4 * t) 4, k := row km, v := row vm, coarse := coarse
      bad := bad || s.ipois x (p.addr + 0x40 + 4 * t) }

/-! ### ATTEND (R330 to R334) -/

/-- z(q, h, t). -/
def score (q k : List El) (cq cp : Nat) (scale : XV) : XV :=
  let l := twineSum (.fin 0 (-80)) q k
  let sc := (rn32 ((f32 cq).mul (f32 cp))).1
  let r := fun (y : XV) => (rn32 y).1
  match l with
  | .fin _ _ => r ((r ((r l).mul sc)).mul scale)
  | _ => .nan

/-- The chunk node of row q (its heads' elements, its position record) and head h over the tokens of a chunk. -/
def attChunk (l : KvLay) (o : AttOp) (cq : Nat) (q : List El) (r : PosRec) (h : Nat) (ts : List TokIn) : Node :=
  let kv := h / max l.g 1
  let scale := f32 o.scale
  let poison := r.bad || q.any (·.poison) || ts.any fun t =>
    !r.skips t.page && (t.bad || (t.k.getD kv []).any (·.poison) || (t.v.getD kv []).any (·.poison))
  chunkNode l.hd (ts.map fun t =>
    let vis := decide (r.lo ≤ t.pos) && decide (t.pos ≤ r.hi) && !r.skips t.page
    { vis := vis
      z := if vis then score q (t.k.getD kv []) cq t.coarse scale else .zero
      v := if vis then (t.v.getD kv []).map fun e => e.v.mul (f32 t.coarse) else [] }) poison

/-- What a final or partial output writes, and the item's result. -/
def State.writeNodes (s : State) (x : Item) (hd nc level index : Nat) (ns : List Node) (nonfin zeroBlocks : Nat) : State × Result :=
  let o := x.att
  let c := s.strm x 2
  if o.partial' then
    let bytes := ns.flatMap fun n => marked n.poison (nodeRecord hd nc level index n)
    (s.writeByteStream c bytes, mkResult {} nonfin zeroBlocks 0 0 false (ns.any (·.poison)))
  else
    let ys := ns.flatMap (nodeFinal hd)
    let nonfin := nonfin + (ns.map (nodeMade hd)).sum
    let oc := s.outCoarse x c
    let w := oc.2.writeStream c x.round oc.1 (drawBits x c 0 ys) x.tag
    let stats := ns.flatMap fun n =>
      [({ v := if n.empty then .zero else n.m, poison := n.poison } : OutEl), { v := if n.empty then .zero else n.l, poison := n.poison }]
    let d := s.strm x 3
    let wd := if o.stats then w.st.writeStream d x.round 0x3F800000 stats x.tag else { st := w.st, counts := {} }
    (wd.st, mkResult (w.counts.add wd.counts) nonfin zeroBlocks (max (amaxOf ys) (if o.stats then amaxOf stats else 0))
      (ys.length + (if o.stats then stats.length else 0)) true (ns.any (·.poison) || w.poison || wd.poison))

/-- The checks of an ATTEND that need no layout. -/
def State.attChecks (s : State) (x : Item) : List (Option Bad) :=
  let o := x.att
  let a := s.strm x 0
  let b := s.strm x 1
  let c := s.strm x 2
  [ s.entsCheck a [2, 3], s.bytesCheck b
  , if o.partial' then s.bytesCheck c true else s.entsCheck c fmts0B false true
  , if o.stats then s.entsCheck (s.strm x 3) [9] false true else none
  , if b.byteCount == 12 * o.m then none else some (9, 1, 0) ]

/-- The checks that the pinned layout allows. -/
def State.attShape (s : State) (x : Item) (l : KvLay) (k : Pin) : List (Option Bad) :=
  let o := x.att
  let nc := (k.len + 511) / 512
  let c := s.strm x 2
  [ if l.valid && decide (1 ≤ l.hkv) && decide (1 ≤ l.hdb) && decide (1 ≤ l.hq) then none else some (9, 0, 0)
  , sizeCheck (s.strm x 0) false (o.m * l.hq * l.hd)
  , if !o.partial' && (o.node != 0 || decide (2 ^ o.span < nc)) then some (9, 0, 0) else none
  , if o.partial' then (if c.byteCount == o.m * l.hq * (16 + 4 * l.hd) then none else some (9, 2, 0))
    else sizeCheck c false (o.m * l.hq * l.hd)
  , if !o.partial' && c.scaled && l.hq * l.hd % c.nb != 0 then some (9, 2, 0) else none
  , if o.stats then sizeCheck (s.strm x 3) false (o.m * l.hq * 2) else none
  , overlapCheck x [s.strm x 0, s.strm x 1] ([c] ++ if o.stats then [s.strm x 3] else []) ]

/-- Position records of the rows. -/
def State.posRecs (s : State) (x : Item) : List PosRec :=
  let bs := s.readFetched x (s.strm x 1)
  (chunks 12 x.att.m bs).map fun r =>
    let n := leNat (r.map (·.1))
    ⟨fld n 4 4, fld n 8 4, r.any (·.2)⟩

/-- Count work at the clusters of the item. Which cluster's walker does it is left open: a free value chooses it. Each piece is a page
or a pair; what is left is the last piece of each cluster. -/
def State.spreadPages (s : State) (cs : List Nat) (r : Reg) (l : List Nat) : State × Sparse Nat :=
  l.foldl (fun a p =>
    let f := a.1.free
    let c := cs.getD (f.1 % max cs.length 1) 0
    (f.2.bump r c 0 1, tset d0 a.2 c p)) (s, [])

def State.countPages (s : State) (cs : List Nat) (r : Reg) (n : Nat) : State := (s.spreadPages cs r (List.range n)).1

/-- The pages an ATTEND's node covers: of them, those some row attends to, each with whether its header fails the checks and whether
it reads as poison (10 R303, R331). -/
def State.attPages (s : State) (k : Pin) (x : Item) : List PageIn × List (PageIn × Bool × Bool) :=
  let o := x.att
  let nc := (k.len + 511) / 512
  let c0 := o.node * 2 ^ o.span
  let c1 := min nc (c0 + 2 ^ o.span)
  let recs := s.posRecs x
  let pages := s.walkPages (kvHome o.seq) k (4 * c0) (min (4 * c1) ((k.len + 127) / 128))
  let read := pages.filter fun p => !recs.all fun r => r.skips p
  (pages, read.map fun p =>
    let hb := p.found && s.headerBad x o.seq x.layer p
    (p, hb, !p.found || hb || s.ipois x p.addr || k.bad || !coarseProductOk (s.strm x 0).hdr.coarse (s.iw x (p.addr + 8) 4)))

/-- The first of the pages read with a scale line out of step: the cause, and the page. -/
def State.attSkew (s : State) (k : Pin) (x : Item) : Option (Nat × Nat) :=
  (s.attPages k x).2.findSome? fun p => if p.2.2 then none
    else (s.pageSkew x (s.kvLay (kvHome x.att.seq) k.layout) p.1.addr (min 128 (k.len - 128 * p.1.p))).map fun c => (c, p.1.p)

/-- The run of an ATTEND over a pinned snapshot. -/
def State.attRun (k : Pin) (s : State) (region : Nat) (x : Item) : RunOut :=
  let o := x.att
  let a := s.strm x 0
  let home := kvHome o.seq
  let l := s.kvLay home k.layout
  let nc := (k.len + 511) / 512
  s.gated x (s.attChecks x ++ s.attShape x l k) [(a, false)] fun _ =>
    let recs := s.posRecs x
    let ps := s.attPages k x
    let pages := ps.1
    let state := ps.2
    let read := state.map (·.1)
    if !s.calm && (s.spanHeld (regionDie region) (k.dir + 32 * (o.node * 2 ^ o.span)) (8 * pages.length)
        || read.any fun p => p.found && s.spanHeld (regionDie region) p.addr l.stop) then .hold
    else match s.attSkew k x with
    | some c => .skew c.1 1 c.2
    | none =>
      let toks := state.flatMap fun p => s.pageToks x l k.len p.1 p.2.2
      let q := chunks (l.hq * l.hd) o.m (s.readStream x a).els
      let leaf := fun (r : List El) (rec : PosRec) (h : Nat) (j : Nat) =>
        attChunk l o a.hdr.coarse ((r.drop (h * l.hd)).take l.hd) rec h (toks.filter fun t => t.page.p / 4 == j)
      let rows := (q.zip recs).flatMap fun r => (List.range l.hq).map fun h => leaf r.1 r.2 h
      let nodes := rows.map fun f => treeNode f nc o.span o.node
      let pairs := (rows.map fun f => treePairs f nc o.span o.node).sum
      let nonfin := countNonfin (s.readStream x a).els
        + (toks.map fun t => countNonfin (t.k.flatMap id) + countNonfin (t.v.flatMap id)).sum
      let zb := (a.ents.map fun e => s.skippedBlocks x a e false).sum
      let amax := if o.partial' then 0 else amaxOf (nodes.flatMap (nodeFinal l.hd))
      .ok amax fun s x =>
        let w := s.writeNodes x l.hd nc o.span o.node nodes nonfin zb
        let cs := clusterList region x.units
        let walk := w.1.spreadPages cs .atePageCnt (read.map (·.p))
        let s := walk.1
        let s := s.countPages cs .ateSkipCnt (pages.length - read.length)
        let s := s.countPages cs .ateMergeCnt pairs
        let s := if nonfin == 0 then s else s.flagEach .ateClSts cs 1
        let s := (state.filter (·.2.1)).foldl (fun s p =>
          let d := s.pageDie p.1.addr (regionDie region)
          (s.bump .ateMismCnt d 0 1).flag .ateSts d 0 8) s
        -- PAGE of each walker: the last page it read (R337)
        (s, { w.2 with stat := (List.range 8).map fun j => tget d0 walk.2 (region * 8 + j) % 2 ^ 16 })

/-- RELEASE of what the item in a slot holds, once its walk has ended (R310). -/
def State.releaseOf (s : State) (region slot : Nat) : State :=
  match s.item region slot with
  | some x =>
    match x.pin with
    | some p =>
      if x.stage == .finished || x.stage == .ready then
        ((s.setItem region slot (some { x with pin := none })).releasePin x.att.seq p).settle
      else s
    | none => s
  | none => s

/-- The item in a slot waits to pin (R322); the walkers of its clusters show it as PINWAIT. -/
def State.pinWait (s : State) (region slot : Nat) (x : Item) : State :=
  s.setItem region slot (some { x with waitCyc := some (x.waitCyc.getD s.cycle) })

/-- ATTEND (R329, R331): the item pins its record, or uses the snapshot it holds, walks its pages, and releases. -/
def execAttend (region slot : Nat) (s : State) : Host.Outcome State Fault Refusal :=
  .next (match s.item region slot with
    | none => s
    | some x =>
      let seq := x.att.seq
      if !(x.engine == 4 && x.op == 1 && (x.stage == .ready || x.stage == .running)) then s
      else match x.pin with
        | some k => (s.runItem region slot (·.engine == 4) (State.attRun k)).releaseOf region slot
        | none =>
          if s.dieDown (kvHome seq) then s.runItem region slot (·.engine == 4) fun _ _ _ =>
            .ok 0 fun s _ => (s, { statuses := [(stReset, 0)] })
          else match s.kvRec seq x.layer with
            | none => s.runItem region slot (·.engine == 4) fun _ _ _ => .bad (9, 0, 0)
            | some r =>
              if !r.valid then s.runItem region slot (·.engine == 4) fun _ _ _ => .bad (9, 0, 0)
              else if r.spill != 0 then s.pinWait region slot x
              else if (s.startItem region slot { x with waitCyc := none }).isNone then s
              else
                let p := s.pinRec seq r (s.poisoned ((s.kvRecAddr seq x.layer).getD 0))
                let s := match p.1.item region slot with
                  | some y => p.1.setItem region slot (some { y with pin := some p.2, waitCyc := none })
                  | none => p.1
                (s.settle.runItem region slot (·.engine == 4) (State.attRun p.2)).releaseOf region slot)

/-! ### MERGE (R333) -/

/-- A node record read back. -/
structure NodeIn where
  node : Node
  nc : Nat
  index : Nat
  level : Nat

/-- The node records of a stream, of n bytes each. -/
def State.readNodes (s : State) (x : Item) (m : Strm) (n : Nat) : List NodeIn :=
  let bs := s.readFetched x m
  (chunks n (bs.length / max n 1) bs).map fun r =>
    let v := leNat (r.map (·.1))
    let at' := fun (i : Nat) => f32 (fld v i 4)
    { node := ⟨bit (fld v 0xD 1) 0, bit (fld v 0xD 1) 1 || r.any (·.2), at' 0, at' 4, (List.range ((n - 16) / 4)).map fun i => at' (16 + 4 * i)⟩
      nc := fld v 8 2, index := fld v 0xA 2, level := fld v 0xC 1 }

/-- Non-finite fields of a node that is not EMPTY. -/
def Node.nonfin (n : Node) : Nat := if n.empty then 0 else ((n.m :: n.l :: n.o).filter fun v => !v.isFinite).length

/-- Bytes of one node record, 16 + 4 × HD. HD is taken from the records (R333), which hold it only in their size: a row of stream A's first
entry is one record, or several of a size that divides it and, for a final output, gives stream C's elements; the first such size
(DESIGN CHOICE, log entry 111). -/
def State.nodeBytes (s : State) (x : Item) : Nat :=
  let n := match (s.strm x 0).ents with | e :: _ => e.len | [] => 0
  let a := (s.strm x 0).byteCount
  let c := s.strm x 2
  let els := (c.ents.map fun e => e.elems false).sum
  let sizes := n :: ((List.range 16).map fun i => 16 + 128 * (i + 1)).filter fun k => n % k == 0
  let fits := fun (k : Nat) => (k - 16) % 128 == 0 && 16 < k && (x.att.partial' || a / max k 1 * ((k - 16) / 4) == els)
  (sizes.find? fits).getD n

/-- The pairs of node records of a MERGE. -/
def State.mergePairs (s : State) (x : Item) : List (NodeIn × NodeIn) :=
  (s.readNodes x (s.strm x 0) (s.nodeBytes x)).zip (s.readNodes x (s.strm x 1) (s.nodeBytes x))

/-- Two records that are no pair: not siblings of one tree, or, for a final output, not the root's (10 R333). -/
def pairBad (partial' : Bool) (p : NodeIn × NodeIn) : Bool :=
  p.1.nc != p.2.nc || p.1.level != p.2.level || p.1.index % 2 != 0 || p.2.index != p.1.index + 1
    || (!partial' && decide (2 ^ (p.1.level + 1) < p.1.nc))

def State.mergeChecks (s : State) (x : Item) : List (Option Bad) :=
  let o := x.att
  let n := s.nodeBytes x
  let a := s.strm x 0
  let b := s.strm x 1
  let c := s.strm x 2
  let count := a.byteCount / max n 1
  let hd := (n - 16) / 4
  [ s.bytesCheck a, s.bytesCheck b, if o.partial' then s.bytesCheck c true else s.entsCheck c fmts0B false true
  , if o.stats then s.entsCheck (s.strm x 3) [9] false true else none
  , if n < 16 + 4 * 32 || (n - 16) % 128 != 0 || a.byteCount % max n 1 != 0 || count == 0 || count % o.m != 0 then some (9, 0, 0) else none
  , if b.byteCount == a.byteCount then none else some (9, 1, 0)
  , if o.partial' then (if c.byteCount == a.byteCount then none else some (9, 2, 0)) else sizeCheck c false (count * hd)
  , if !o.partial' && c.scaled && count / o.m * hd % c.nb != 0 then some (9, 2, 0) else none
  , if o.stats then sizeCheck (s.strm x 3) false (count * 2) else none
  , overlapCheck x [a, b] ([c] ++ if o.stats then [s.strm x 3] else []) ]

/-- The run of a MERGE. -/
def State.mergeRun (s : State) (region : Nat) (x : Item) : RunOut :=
  let o := x.att
  s.gated x (s.mergeChecks x) [] fun _ =>
    let n := s.nodeBytes x
    let na := s.readNodes x (s.strm x 0) n
    let nb := s.readNodes x (s.strm x 1) n
    let pairs := s.mergePairs x
    match (pairs.zipIdx).find? fun p => pairBad o.partial' p.1 with
    | some p => .bad (9, 0, p.2 % 65536)
    | none =>
      let nodes := pairs.map fun p => p.1.node.merge p.2.node
      let nonfin := (na.map fun p => p.node.nonfin).sum + (nb.map fun p => p.node.nonfin).sum
      let hd := (n - 16) / 4
      let amax := if o.partial' then 0 else amaxOf (nodes.flatMap (nodeFinal hd))
      .ok amax fun s x =>
        let w := if o.partial' then
            let bytes := ((nodes.zip pairs)).flatMap fun p =>
              marked p.1.poison (nodeRecord hd p.2.1.nc (p.2.1.level + 1) (p.2.1.index / 2) p.1)
            (s.writeByteStream (s.strm x 2) bytes, mkResult {} nonfin 0 0 0 false (nodes.any (·.poison)))
          else s.writeNodes x hd 0 0 0 nodes nonfin 0
        let cs := clusterList region x.units
        let merged := (pairs.filter fun p => !p.1.node.empty && !p.2.node.empty).length
        let s := w.1.countPages cs .ateMergeCnt merged
        (if nonfin == 0 then s else s.flagEach .ateClSts cs 1, w.2)

/-- MERGE (R333): pairs of node records combined into their parents or final outputs. -/
def execMerge (region slot : Nat) (s : State) : Host.Outcome State Fault Refusal :=
  .next (s.runItem region slot (fun x => x.engine == 4 && x.op == 2) State.mergeRun)

/-! ### PUBLISH and PTE_WRITE items (R323, R326) -/

def State.publishChecks (s : State) (x : Item) : List (Option Bad) :=
  let size := fun (m : Strm) => if m.byteCount == 32 then none else some (9, m.k, 1)
  [ s.bytesCheck (s.strm x 0), if x.stream 2 == 0 then none else s.bytesCheck (s.strm x 2) true
  , size (s.strm x 0), if x.stream 2 == 0 then none else size (s.strm x 2) ]

/-- The run of a PUBLISH item. -/
def State.publishRun (s : State) (_region : Nat) (x : Item) : RunOut :=
  s.gated x (s.publishChecks x) [] fun _ =>
    let seq := x.opnd 0x68 2
    let bs := s.readFetched x (s.strm x 0)
    let image := leNat (bs.map (·.1))
    if s.dieDown (kvHome seq) then .ok 0 fun s _ => (s, { statuses := [(stReset, 0)] })
    else
      match s.kvRecAddr seq x.layer with
      | none => .bad (9, 0, 0)
      | some a =>
        .ok 0 fun s x =>
          let old := s.rdBytes a 32
          match s.publishRec seq x.layer image (x.opnd 0x6A 1) (x.opnd 0x6C 4) with
          | some (.ok t) =>
            let bad := bs.any (·.2)
            let t := if bad then t.wr a (t.rdBytes a 32) true else t
            (if x.stream 2 == 0 then t else t.writeByteStream (t.strm x 2) (marked (s.poisoned a) old),
              { poison := bad || (x.stream 2 != 0 && s.poisoned a) })
          | some (.error n) => (s, { statuses := [(stBusy, n)] })
          | none => (s, { statuses := [(stInvalid, badDetail (9, 0, 0))] })

/-- PUBLISH (R323): the item's image goes to the record's home die. -/
def execPublish (region slot : Nat) (s : State) : Host.Outcome State Fault Refusal :=
  .next (s.runItem region slot (fun x => x.engine == 4 && x.op == 0x10) State.publishRun).settle

/-- The run of a PTE_WRITE: one atomic 64-bit store, refused when it would change a VALID entry (R308). -/
def State.pteRun (s : State) (_region : Nat) (x : Item) : RunOut :=
  let a := x.opnd 0x68 8 % 2 ^ 48 / 8 * 8
  let v := x.opnd 0x70 8
  if !s.mapped a 8 then .bad (7, 0, 0)
  else .ok 0 fun s _ =>
    if bit (s.rd a 8) 63 && s.rd a 8 != v then (s, { statuses := [(stBusy, 0)] })
    else (s.wr a (leBytes 8 v), {})

/-- PTE_WRITE (R326). -/
def execPteWrite (region slot : Nat) (s : State) : Host.Outcome State Fault Refusal :=
  .next (s.runItem region slot (fun x => x.engine == 4 && x.op == 0x11) State.pteRun)

end Sys2Proof.Machine
end

