-- ==== Sys2Proof/Machine/Halyard.lean ====
section
/-! DEFINITION. Halyard update units: tensor records, state blocks, the passes, SEED, and batches of near-memory operations
(11 R340 to R364). -/

namespace Sys2Proof.Machine

/-! ### Tensor records and state blocks (R341, R342) -/

structure HalRec where
  inB : Nat
  layer : Nat
  outB : Nat
  tflags : Nat
  gList : Nat
  sums : Nat
  ftag : Nat
  skip : Nat
  btag : Nat
  gamax : Nat
  n : Nat
  k : Nat
  ntot : Nat
  row0 : Nat
  /-- the record was read poisoned -/
  bad : Bool
  deriving DecidableEq, Repr

def parseHal (v : Nat) (bad : Bool := false) : HalRec :=
  ⟨fld v 0 6, fld v 6 2, fld v 8 6, fld v 0xE 2, fld v 0x10 8, fld v 0x18 6, fld v 0x1E 2, fld v 0x20 6, fld v 0x26 2, fld v 0x28 6,
    fld v 0x30 4, fld v 0x34 4, fld v 0x38 4, fld v 0x3C 4, bad⟩

def HalRec.hp (r : HalRec) : Nat := bits r.tflags 15 12
def HalRec.ffmt (r : HalRec) : Nat := bits r.tflags 11 8
def HalRec.nbF (r : HalRec) : Nat := if bit r.tflags 7 then 32 else 16
def HalRec.esc (r : HalRec) : Bool := bit r.tflags 6
def HalRec.skipmap (r : HalRec) : Bool := bit r.tflags 5
def HalRec.bwd (r : HalRec) : Bool := bit r.tflags 4
def HalRec.fwd (r : HalRec) : Bool := bit r.tflags 3
def HalRec.mom (r : HalRec) : Bool := bit r.tflags 2
def HalRec.fact (r : HalRec) : Bool := bit r.tflags 0
def HalRec.e (r : HalRec) : Nat := r.n * r.k

def al4k (x : Nat) : Nat := (x + 0xFFF) / 0x1000 * 0x1000

/-- Offsets of R342. -/
def HalRec.oMom (r : HalRec) : Nat := 0x1000 + al4k (4 * r.e)
def HalRec.oRem (r : HalRec) : Nat := if r.mom then r.oMom + al4k (4 * r.e) else r.oMom
def HalRec.oSq (r : HalRec) : Nat := r.oRem + al4k (2 * r.e)
def HalRec.oCol (r : HalRec) : Nat := r.oSq + (if r.fact then al4k (4 * r.n) else al4k (4 * r.e))
def HalRec.oFlst (r : HalRec) : Nat := if r.fact then r.oCol + al4k (4 * r.k) else r.oCol
def HalRec.oBlst (r : HalRec) : Nat := r.oFlst + 0x1000
def HalRec.oFdat (r : HalRec) : Nat := r.oBlst + 0x1000
def HalRec.oFscl (r : HalRec) : Nat := r.oFdat + al4k ((r.e * fmtBits r.ffmt + 7) / 8)
def HalRec.fLines (r : HalRec) : Nat := ((r.e + r.nbF - 1) / r.nbF + 55) / 56
def HalRec.oFout (r : HalRec) : Nat := r.oFscl + al4k (64 * r.fLines)
def HalRec.oBdat (r : HalRec) : Nat := if r.esc then r.oFout + al4k (224 * r.fLines) else r.oFout
def HalRec.oBscl (r : HalRec) : Nat := r.oBdat + al4k r.e
def HalRec.stop (r : HalRec) : Nat := r.oBscl + al4k (64 * (((r.e + 31) / 32 + 55) / 56))

/-- [a, a + n) lies wholly in HBM (12 R396). -/
def State.inHbm (s : State) (a n : Nat) : Bool := s.mapped a n && decide (a + n ≤ 2 ^ 41)

/-- The header of a state block. -/
structure HalHdr where
  t : Nat
  hflags : Nat
  n : Nat
  k : Nat
  p1 : Nat
  p2 : Nat
  q : Nat
  amax : Nat
  usq : Nat
  whist : List Nat
  poison : Bool
  deriving DecidableEq, Repr

def State.halHdr (s : State) (x : Item) (a : Nat) : HalHdr :=
  let w := fun (o : Nat) => s.iw x (a + o) 4
  ⟨w 0, w 4, w 8, w 0xC, w 0x10, w 0x14, w 0x18, w 0x1C, s.iw x (a + 0x20) 16, (List.range 16).map fun i => w (0x40 + 4 * i),
    s.ipoisIn x a 0x80⟩

/-! ### Operands (R349) -/

structure HalOp where
  tlist : Nat
  count : Nat
  gnorm : Nat
  nexp : Int
  uexp : Int
  deriving DecidableEq, Repr

def Item.hal (x : Item) : HalOp := ⟨x.opnd 0x68 6, x.opnd 0x6E 2, x.opnd 0x70 6, sInt 8 (x.opnd 0x76 1), sInt 8 (x.opnd 0x77 1)⟩

/-- The checks of a Halyard item at admission (R348, R349, R364). -/
def State.halAdmit (s : State) (x : Item) : Option Bad :=
  let o := x.hal
  if x.op == 0x10 then
    if x.resultSlot != 0xFFFF then some (9, 0, 0)
    else match s.useCheck x [.yes, .no, .no, .no] with
      | some e => some e
      | none => if x.opnd 0x68 4 == 0 || 2 ^ 24 < x.opnd 0x68 4 then some (9, 0, 0) else none
  else if x.op == 0 || 5 < x.op then some (1, 0, 0)
  else
    match (List.range 4).find? fun k => x.stream k != 0 with
    | some k => some (2, k, 0)
    | none =>
      if x.watch != 0xFFFF || (x.op != 1 && x.resultSlot != 0xFFFF) then some (9, 0, 0)
      else if o.count == 0 || 4096 < o.count || o.tlist % 64 != 0 || o.gnorm % 16 != 0 then some (9, 0, 0)
      else none

/-- The gradient stream of a record (or the source masters of a SEED). -/
def State.gStrm (s : State) (x : Item) (r : HalRec) : Strm :=
  let a := r.gList % 2 ^ 48
  let c := r.gList / 2 ^ 48
  { k := 0, hdr := parseHdr (s.iw x a 32), first := 1
    ents := (List.range (c - 1)).map fun i => parseEnt (s.iw x (a + 32 * (i + 1)) 32) }

/-- The REASON with which the list of a record's G_LIST, its header or its data entries are refused (03 R88). -/
def State.gListBad (s : State) (x : Item) (r : HalRec) : Option Nat :=
  let a := r.gList % 2 ^ 48
  let g := s.gStrm x r
  if a % 32 != 0 then some 2
  else if !s.mapped a (32 * (r.gList / 2 ^ 48)) then some 7
  else if g.scaled && (g.hdr.scaleBase % 64 != 0 || (hasEsc g.fmt && g.hdr.outBase % 4 != 0)) then some 2
  else if g.scaled && !normalPos g.hdr.coarse then some 9
  else match s.entsCheck g (if x.op == 5 then [9] else fmtsAll) with
    | some b => some b.1
    | none => if g.elems == r.e then none else some 9

/-- The REASON with which a record is refused, before its pass starts it (R343, R352, R360). -/
def State.recBad (s : State) (x : Item) (r : HalRec) : Option Nat :=
  let i := s.halHdr x r.inB
  let out := s.halHdr x r.outB
  let seed := x.op == 5
  if r.inB % 0x1000 == 0 && r.outB % 0x1000 == 0 && r.sums % 16 == 0 &&
    (decide (r.layer < 4096) || r.layer == 0xFFFF) &&
    [0, 1, 2, 3, 5].contains r.ffmt && !(r.esc && r.ffmt == 5) &&
    decide (1 ≤ r.n) && decide (r.n ≤ 2 ^ 20) && decide (1 ≤ r.k) && decide (r.k ≤ 2 ^ 20) &&
    decide (r.n ≤ r.ntot) && decide (r.ntot ≤ 2 ^ 24) && decide (r.row0 + r.n ≤ r.ntot) && decide (r.ntot * r.k < 2 ^ 48) &&
    (!r.fwd || r.k % r.nbF == 0) && (!r.bwd || r.n % 32 == 0) &&
    !overlaps r.inB r.stop r.outB r.stop &&
    (x.op == 1 || s.inHbm r.outB r.stop) && (seed || s.inHbm r.inB r.stop) &&
    ([3, 5].contains x.op || s.inHbm r.sums (16 + (if r.fact then 16 * (r.n + r.k) else 0))) &&
    (seed || (bit i.hflags 0 && i.n == r.n && i.k == r.k && bit i.hflags 2 == r.fact && bit i.hflags 3 == r.mom)) &&
    (x.op != 3 || (bit out.hflags 1 && out.t == (i.t + 1) % 2 ^ 32))
  then s.gListBad x r else some 9

/-- The skew of a record's gradient: no scale line of skipped rows alone is read (R350, R359). -/
def State.recSkew (s : State) (x : Item) (r : HalRec) (skips : List Bool) : Option (Nat × Nat) :=
  let g := s.gStrm x r
  s.skewOf x g false fun b => (List.range g.nb).any fun i => !skips.getD ((b * g.nb + i) / r.k) false

/-- The units of a Halyard item: the four stacks of its region's die. -/
def halUnits (region : Nat) : List Nat := (List.range 4).map (regionDie region * 4 + ·)

/-! ### Hyperparameters (R345, R368) -/

/-- Field f of the record's set, and HAL_CFG, as latched at the start. -/
def Item.hpField (x : Item) (r : HalRec) (f : Nat) : XV := f32 ((x.latched.getD (1 + 8 * r.hp + f) 0).toNat)
def Item.halCfg (x : Item) : Nat := (x.latched.getD 0 0).toNat
def Item.repairThr (x : Item) : Nat := bits x.halCfg 31 16
def Item.wHeadroom (x : Item) : Nat := min (bits x.halCfg 11 8) 4
def Item.whistLen (x : Item) : Nat := clampNat 1 16 (bits x.halCfg 4 0)

/-! ### Values -/

def r1 (x : XV) : XV := (rn32 x).1

/-- A value read, with its poison, and, where it is written again as it was read, its code. -/
structure HV where
  v : XV
  p : Bool := false
  raw : Option Nat := none
  deriving DecidableEq, Repr

/-- n FP32 values from address a. -/
def State.f32s (s : State) (x : Item) (a n : Nat) : List HV :=
  (List.range n).map fun i => let c := s.iw x (a + 4 * i) 4; ⟨f32 c, s.ipois x (a + 4 * i), some c⟩

def State.bf16s (s : State) (x : Item) (a n : Nat) : List HV :=
  (List.range n).map fun i => let c := s.iw x (a + 2 * i) 2; ⟨(codeVal 7 c).getD .nan, s.ipois x (a + 2 * i), some c⟩

/-- A LONG128 value: the integer times 2^−80. -/
def State.long (s : State) (x : Item) (a : Nat) : HV := { v := (codeVal 12 (s.iw x a 16)).getD .nan, p := s.ipoisIn x a 16 }

/-- A term of a sum with unit 2^u, limited to LONG128, and whether it was (R350, R351, 04 R157). -/
def longTerm (u : Int) (v : XV) : XV × Bool :=
  let c := convCode 12 mRN 0 (v.scale (-u))
  ((codeVal 12 c.1).getD .nan, c.2)

/-- The code of an exact sum of terms, and whether it, or one of them, was limited. -/
def longSum (ts : List (XV × Bool)) : Nat × Bool :=
  let c := convCode 12 mRN 0 ((ts.map (·.1)).foldl XV.add (.fin 0 (-80)))
  (c.1, c.2 || ts.any (·.2))

/-- x.f × 2^u, rounded (R345). -/
def longF (v : XV) (u : Int) : XV := r1 ((r1 v).scale u)

/-- A stored LONG128: NaR when it is poisoned. -/
def longCode (c : Nat) (bad : Bool) : Nat := if bad then 2 ^ 127 else c

/-- Write FP32 values. -/
def State.putF32s (s : State) (a : Nat) (l : List HV) : State :=
  s.wrMarks a (l.flatMap fun h => marked h.p (leBytes 4 (h.raw.getD (f32Code h.v))))

def State.putBf16s (s : State) (a : Nat) (l : List HV) : State :=
  s.wrMarks a (l.flatMap fun h => marked h.p (leBytes 2 (h.raw.getD (convCode 7 mRN 0 h.v).1)))

def nonfinOf (l : List HV) : Nat := (l.filter fun h => !h.v.isFinite).length

/-! ### What a record's pass leaves -/

structure HalOut where
  st : State
  counts : Counts := {}
  /-- non-finite values read, or made from finite ones; and how many were made -/
  nonfin : Nat := 0
  made : Nat := 0
  /-- masters, momenta and statistics written (07 R223; log entry 112) -/
  elements : Nat := 0
  poison : Bool := false
  skipped : Nat := 0
  normSat : Nat := 0
  repairs : Nat := 0
  /-- GNORM, read for it, is not finite -/
  glob : Bool := false
  /-- Σ g² over the block -/
  total : XV := .fin 0 (-80)

/-- Rows that SKIP marks (R359). -/
def State.skipRows (s : State) (x : Item) (r : HalRec) : List Bool :=
  (List.range r.n).map fun n => r.skipmap && bit (s.ib x (r.skip + n / 8)).toNat (n % 8)

/-- The gradient by rows: skipped rows are not read and give +0 (R346, R359). -/
def State.gradient (s : State) (x : Item) (r : HalRec) (skips : List Bool) : List (List HV) :=
  let g := s.gStrm x r
  let cs := srcCoarse g
  let rows := chunks r.k r.n (s.readStream x g).els
  -- a poisoned record, or a poisoned byte of SKIP, poisons what follows from it (03 R121)
  ((rows.zip skips).zipIdx).map fun q =>
    let p := q.1
    let bad := r.bad || (r.skipmap && s.ipois x (r.skip + q.2 / 8))
    if p.2 then List.replicate r.k { v := .zero, p := bad } else p.1.map fun e => { v := r1 (e.v.mul cs), p := e.poison || bad }

/-! ### PASS_A (R350) -/

def State.passA (s : State) (x : Item) (r : HalRec) : HalOut :=
  let skips := s.skipRows x r
  let g := s.gradient x r skips
  let sq := g.map fun row => row.map fun h => (longTerm x.hal.nexp (h.v.mul h.v), h.p)
  let sum := fun (l : List ((XV × Bool) × Bool)) => let c := longSum (l.map (·.1)); (longCode c.1 (l.any (·.2)), c.2, l.any (·.2))
  let st := sum (sq.flatMap id)
  let rs := if r.fact then sq.map sum else []
  let cs := if r.fact then (transpose r.k sq).map sum else []
  let all := st :: (rs ++ cs)
  let s := s.wrMarks r.sums (all.flatMap fun c => marked c.2.2 (leBytes 16 c.1))
  let sats := (all.filter (·.2.1)).length
  { st := s, counts := { saturated := sats }, nonfin := nonfinOf (g.flatMap id), poison := st.2.2
    skipped := (skips.filter id).length, normSat := sats, total := (codeVal 12 st.1).getD .nan }

/-! ### The update rule (R345 to R347) -/

/-- The scalars of a tensor. -/
structure HalScal where
  p1n : XV
  p2n : XV
  b1 : XV
  b2 : XV
  c : XV
  c2 : XV
  ntk : XV
  qn : XV
  bad : Bool
  /-- non-finite values read, GNORM apart: it is counted once for the item (04 R150) -/
  nonfin : Nat
  glob : Bool
  /-- the mean statistic saturated, or an invalid operation made it NaN from finite operands -/
  qsat : Bool
  qmade : Bool

def HalScal.fine (sc : HalScal) : Bool := sc.nonfin == 0 && !sc.glob

/-- avg of R345. -/
def halAvg (nexp : Int) (c2 eps : XV) (l d : XV) : XV := r1 ((r1 (c2.mul (div32 (longF l nexp) d).1)).add eps)

/-- ema of R345 with its last rounding's saturation. -/
def halEma (beta2 s a : XV) : XV × Bool :=
  rn32 ((r1 (beta2.mul s)).add (r1 ((r1 ((XV.ofInt 1).sub beta2)).mul a)))

/-- c of R345 and the Σ G² read for it. -/
def State.halClip (s : State) (x : Item) (r : HalRec) : XV × List HV :=
  if x.hal.gnorm == 0 then (.ofInt 1, [])
  else
    let g := s.long x x.hal.gnorm
    let nrm := (sqrt32 (longF g.v x.hal.nexp)).1
    let tau := x.hpField r 6
    (if XV.le nrm tau then .ofInt 1 else (div32 tau nrm).1, [g])

def State.halScal (s : State) (x : Item) (r : HalRec) (fromOut : Bool) : HalScal × List HV :=
  let i := s.halHdr x r.inB
  let out := s.halHdr x r.outB
  let beta1 := x.hpField r 1
  let beta2 := x.hpField r 2
  let p1n := r1 ((f32 i.p1).mul beta1)
  let p2n := r1 ((f32 i.p2).mul beta2)
  let c := s.halClip x r
  let c2 := r1 (c.1.mul c.1)
  let ntk := r1 (.ofInt (r.ntot * r.k : Nat))
  let st := s.long x r.sums
  let reads : List HV := [{ v := f32 i.p1, p := i.poison || r.bad }, { v := f32 i.p2, p := i.poison }] ++
    (if fromOut then [{ v := f32 out.q, p := out.poison }] else [{ v := f32 i.q, p := i.poison }, st])
  let qn := if fromOut then (f32 out.q, false) else halEma beta2 (f32 i.q) (halAvg x.hal.nexp c2 (x.hpField r 3) st.v ntk)
  let glob := nonfinOf c.2 != 0
  ({ p1n := p1n, p2n := p2n, b1 := r1 ((XV.ofInt 1).sub p1n), b2 := r1 ((XV.ofInt 1).sub p2n), c := c.1, c2 := c2, ntk := ntk
     qn := qn.1, bad := (c.2 ++ reads).any (·.p), nonfin := nonfinOf reads, glob := glob, qsat := qn.2
     qmade := !fromOut && !glob && nonfinOf reads == 0 && !qn.1.isFinite }, c.2 ++ reads)

/-- Row and column statistics, or per-element second moments: new values with saturation, and the values read. -/
structure HalStats where
  rs : List HV
  cs : List HV
  vs : List (List HV)
  sat : Nat
  reads : List HV
  /-- statistics an invalid operation made NaN from finite operands -/
  made : Nat

def State.newStats (s : State) (x : Item) (r : HalRec) (sc : HalScal) (skips : List Bool) (g : List (List HV)) : HalStats :=
  let beta2 := x.hpField r 2
  let eps := x.hpField r 3
  let made := fun (ins : List HV) (v : XV) => b2n (!v.isFinite && ins.all (·.v.isFinite) && sc.fine)
  if r.fact then
    let sq := s.f32s x (r.inB + r.oSq) r.n
    let col := s.f32s x (r.inB + r.oCol) r.k
    let rsum := (List.range r.n).map fun n => s.long x (r.sums + 16 + 16 * n)
    let csum := (List.range r.k).map fun k => s.long x (r.sums + 16 + 16 * r.n + 16 * k)
    let kk := r1 (.ofInt r.k)
    let nt := r1 (.ofInt r.ntot)
    let rows := (((sq.zip rsum).zip skips).zip g).map fun q =>
      let p := q.1
      if p.2 then ({ p.1.1 with p := p.1.1.p || q.2.any (·.p) }, false, 0)
      else
        let e := halEma beta2 p.1.1.v (halAvg x.hal.nexp sc.c2 eps p.1.2.v kk)
        (({ v := e.1, p := p.1.1.p || p.1.2.p || sc.bad } : HV), e.2, made [p.1.1, p.1.2] e.1)
    let cols := (col.zip csum).map fun p =>
      let e := halEma beta2 p.1.v (halAvg x.hal.nexp sc.c2 eps p.2.v nt)
      (({ v := e.1, p := p.1.p || p.2.p || sc.bad } : HV), e.2, made [p.1, p.2] e.1)
    ⟨rows.map (·.1), cols.map (·.1), [], ((rows ++ cols).filter (·.2.1)).length + b2n sc.qsat, sq ++ col ++ rsum ++ csum,
      ((rows ++ cols).map (·.2.2)).sum + b2n sc.qmade⟩
  else
    let old := chunks r.k r.n (s.f32s x (r.inB + r.oSq) r.e)
    let rows := ((old.zip g).zip skips).map fun p => (p.1.1.zip p.1.2).map fun q =>
      if p.2 then ({ q.1 with p := q.1.p || q.2.p }, false, 0)
      else
        let a := r1 ((r1 (sc.c2.mul (r1 (q.2.v.mul q.2.v)))).add eps)
        let e := halEma beta2 q.1.v a
        (({ v := e.1, p := q.1.p || q.2.p || sc.bad } : HV), e.2, made [q.1, q.2] e.1)
    ⟨[], [], rows.map fun l => l.map (·.1), ((rows.flatMap id).filter (·.2.1)).length + b2n sc.qsat, old.flatMap id,
      ((rows.flatMap id).map (·.2.2)).sum + b2n sc.qmade⟩

/-- The statistics as PASS_B left them in OUT. -/
def State.outStats (s : State) (x : Item) (r : HalRec) : HalStats :=
  if r.fact then
    let rs := s.f32s x (r.outB + r.oSq) r.n
    let cs := s.f32s x (r.outB + r.oCol) r.k
    ⟨rs, cs, [], 0, rs ++ cs, 0⟩
  else
    let vs := s.f32s x (r.outB + r.oSq) r.e
    ⟨[], [], chunks r.k r.n vs, 0, vs, 0⟩

/-- u0 of an element (R346): value, whether it saturated on v = 0, poison. 0 ÷ 0 is NaN and does not saturate (04 R149). -/
def halU0 (sc : HalScal) (g : HV) (v : XV) (p : Bool) : XV × Bool × Bool :=
  if g.v.isZero then (.zero, false, g.p || p)
  else
    let q := div32 (r1 (sc.c.mul g.v)) (sqrt32 v).1
    (q.1, v.isZero && q.1.isFinite, g.p || p || sc.bad)

/-- u0 of every element, by rows. -/
def halU0s (r : HalRec) (sc : HalScal) (h : HalStats) (g : List (List HV)) : List (List (XV × Bool × Bool)) :=
  (g.zipIdx).map fun row => (row.1.zipIdx).map fun e =>
    if r.fact then
      let rs := (h.rs[row.2]?).getD { v := .zero }
      let cs := (h.cs[e.2]?).getD { v := .zero }
      halU0 sc e.1 (r1 ((div32 rs.v (r1 (sc.qn.mul sc.b2))).1.mul cs.v)) (rs.p || cs.p)
    else
      let v := (((h.vs.getD row.2 [])[e.2]?).getD { v := .zero })
      halU0 sc e.1 (div32 v.v sc.b2).1 v.p

/-- The Σ u0² of a tensor: code, saturation, poison. -/
def halUsq (uexp : Int) (us : List (List (XV × Bool × Bool))) : Nat × Bool × Bool :=
  let l := us.flatMap id
  let bad := l.any (·.2.2)
  let c := longSum (l.map fun u => longTerm uexp (u.1.mul u.1))
  (longCode c.1 bad, c.2, bad)

/-- Write the statistics to OUT. -/
def State.putStats (s : State) (r : HalRec) (h : HalStats) : State :=
  if r.fact then (s.putF32s (r.outB + r.oSq) h.rs).putF32s (r.outB + r.oCol) h.cs
  else s.putF32s (r.outB + r.oSq) (h.vs.flatMap id)

/-- Clear VALID of OUT before its first write (R353). -/
def State.unValid (s : State) (r : HalRec) : State :=
  let f := s.rd (r.outB + 4) 4
  s.wr (r.outB + 4) (leBytes 4 (if bit f 0 then f - 1 else f))

/-! ### PASS_B (R352) -/

def State.passB (s : State) (x : Item) (r : HalRec) : HalOut :=
  let skips := s.skipRows x r
  let g := s.gradient x r skips
  let scr := s.halScal x r false
  let sc := scr.1
  let h := s.newStats x r sc skips g
  let us := halU0s r sc h g
  let usq := halUsq x.hal.uexp us
  let i := s.halHdr x r.inB
  let s := (s.unValid r).putStats r h
  let f := s.rd (r.outB + 4) 4
  let s := s.wr r.outB (leBytes 4 ((i.t + 1) % 2 ^ 32) ++ leBytes 4 (setBits f 1 1 1)) sc.bad
  let s := s.wr (r.outB + 0x18) (leBytes 4 (f32Code sc.qn)) sc.bad
  let s := s.wr (r.outB + 0x20) (leBytes 16 usq.1) usq.2.2
  let u0sat := ((us.flatMap id).filter (·.2.1)).length
  { st := s, counts := { saturated := h.sat + b2n usq.2.1 + u0sat }
    nonfin := nonfinOf (g.flatMap id) + sc.nonfin + nonfinOf h.reads + h.made, made := h.made
    elements := h.rs.length + h.cs.length + (h.vs.flatMap id).length
    poison := sc.bad || usq.2.2 || h.reads.any (·.p), skipped := (skips.filter id).length, normSat := b2n usq.2.1
    glob := sc.glob }

/-! ### Copies (R344, R355 to R357) -/

/-- The forward, or backward, copy of OUT as a stream. -/
def HalRec.copyStrm (r : HalRec) (back : Bool) (coarse : Nat) : Strm :=
  let fmt := if back then 5 else r.ffmt
  let nb := if back then 32 else r.nbF
  let rows := if back then r.k else r.n
  let cols := if back then r.n else r.k
  let rb := cols * fmtBits fmt / 8
  let dat := r.outB + (if back then r.oBdat else r.oFdat)
  let esc := !back && r.esc
  let m := (rows + 32767) / 32768
  { k := 2, first := 1
    hdr := ⟨r.outB + (if back then r.oBscl else r.oFscl), if esc then r.outB + r.oFout else 0, coarse, if back then r.btag else r.ftag,
      r.e / nb⟩
    ents := (List.range m).map fun j =>
      let b := j * 32768 * cols / nb
      let fl := fmt * 2 ^ 12 + b2n (nb == 32) * 2 ^ 11 + b2n (decide (j + 1 = m))
      ⟨dat + j * 32768 * rb, rb, min 32768 (rows - j * 32768), fmt, nb == 32, false, decide (j + 1 = m), fl, rb, b, b / 56, 56 * (b / 56)⟩ }

/-- The block list of a stream, as stored. -/
def listBytes (m : Strm) : List Byte :=
  leBytes 8 m.hdr.scaleBase ++ leBytes 8 m.hdr.outBase ++ leBytes 4 m.hdr.coarse ++ leBytes 2 m.hdr.tag ++ leBytes 2 0
    ++ leBytes 4 m.hdr.total ++ leBytes 4 0
    ++ m.ents.flatMap fun e =>
      leBytes 8 e.addr ++ leBytes 4 e.len ++ leBytes 2 e.rows ++ leBytes 2 e.eflags ++ leBytes 4 e.stride ++ leBytes 4 e.blkidx
        ++ leBytes 4 e.scaleOff ++ leBytes 4 e.outOff

/-- Elements of a copy with their random bits (R357): masters by rows, transposed for the backward copy. -/
def HalRec.copyEls (r : HalRec) (x : Item) (back : Bool) (w : List (List HV)) : List OutEl :=
  let rows := (w.zipIdx).map fun row => (row.1.zipIdx).map fun e =>
    ({ v := e.1.v, poison := e.1.p
       r := if x.round == mSR then
           bowline x.seed x.bwl (r.layer * 65536 + r.ftag) ((r.row0 + row.2) * r.k + e.2) (if back then 5 else 4) % 16
         else 0 } : OutEl)
  (if back then transpose r.k rows else rows).flatMap id

/-- A copy after its write: state, counts, coarse scale, whether it was repaired. -/
structure CopyOut where
  st : State
  counts : Counts
  coarse : Nat
  repaired : Bool

/-- The coarse scale of a copy from a maximum h (R355): 1.0 for 0, and otherwise pow2ceil, held to the range of 07 R218. For a NaN
the spec states no power of two: `fv` chooses one in that range. -/
def copyScale (fmt : Nat) (h : XV) (headroom fv : Nat) : Nat :=
  match h with
  | .nan => (fv % 254 + 1) * 2 ^ 23
  | .inf neg => if neg then 0x00800000 else 0x7F000000
  | .fin m _ => if m == 0 then 0x3F800000 else if m < 0 then 0x00800000 else (pow2Coarse fmt (f32Code h) headroom).1

/-- Write one copy and its block list, and repair the copy when too much of it saturated (R344, R355, R356). -/
def State.writeCopy (s : State) (x : Item) (r : HalRec) (back : Bool) (w : List (List HV)) (h : XV) (amax fv : Nat) : CopyOut :=
  let fmt := if back then 5 else r.ffmt
  let on := if back then r.bwd else r.fwd
  let c := copyScale fmt h x.wHeadroom fv
  let list := r.outB + (if back then r.oBlst else r.oFlst)
  -- both lists are written, whichever copies are (R344)
  if !on then { st := s.wr list (listBytes (r.copyStrm back c)), counts := {}, coarse := c, repaired := false }
  else
    let els := r.copyEls x back w
    let put := fun (s : State) (c : Nat) => s.writeStream (r.copyStrm back c) x.round c els
    let a := put s c
    let again := shareOver a.counts.saturated x.repairThr r.e
    let c2 := copyScale fmt (f32 amax) x.wHeadroom fv
    let b := if again then put a.st c2 else a
    let cf := if again then c2 else c
    let st := b.st.wr list (listBytes (r.copyStrm back cf))
    { st := st, counts := b.counts, coarse := cf, repaired := again }

/-- Write both copies and the rest of OUT's header. `valid`: VALID is set at the end. -/
def State.finishOut (s : State) (x : Item) (r : HalRec) (w : List (List HV)) (hp : Option HV) (oldHist : List Nat)
    (fields : Nat → List (Nat × List Byte)) (valid bad bdone : Bool) : HalOut :=
  let amax := (w.flatMap id).foldl (fun a v => if v.v.isFinite then max a (f32Code v.v.abs) else a) 0
  let hist := match hp with | some v => f32Code v.v :: oldHist.take 15 | none => List.replicate 16 0
  let h := match hp with
    | some v => (oldHist.take (x.whistLen - 1)).foldl (fun a c => a.max (f32 c)) v.v
    | none => f32 amax
  let fv := s.free
  -- a poisoned GAMAX poisons the copies that take their scale from it (03 R121)
  let cbad := match hp with | some v => v.p | none => false
  let wc := if cbad then w.map fun row => row.map fun e => { e with p := true } else w
  let f := fv.2.writeCopy x r false wc h amax fv.1
  let b := f.st.writeCopy x r true wc h amax fv.1
  let s := b.st
  let put := fun (s : State) (p : Nat × List Byte) => s.wr (r.outB + p.1) p.2 bad
  let s := (fields amax).foldl put s
  let s := [(8, leBytes 4 r.n), (0xC, leBytes 4 r.k), (0x1C, leBytes 4 amax), (0x30, leBytes 4 f.coarse), (0x34, leBytes 4 b.coarse),
    (0x3C, leBytes 4 0), (0x99, leBytes 103 0),
    (0x40, hist.flatMap fun v => leBytes 4 v),
    (0x80, leBytes 4 f.counts.saturated ++ leBytes 4 f.counts.flushed ++ leBytes 4 f.counts.escaped ++ leBytes 4 f.counts.outlierOvf
      ++ leBytes 4 b.counts.saturated ++ leBytes 4 b.counts.flushed),
    (0x98, leBytes 1 (b2n f.repaired + 2 * b2n b.repaired))].foldl put s
  let s := put s (4, leBytes 4 (b2n valid + 2 * b2n bdone + 4 * b2n r.fact + 8 * b2n r.mom))
  { st := s, repairs := b2n f.repaired + b2n b.repaired, poison := bad || cbad }

/-! ### PASS_C and PASS_C_DELAYED (R347, R352 to R355) -/

/-- One element's update: master, remainder, momentum; whether the master or the momentum saturated, the exact value was
flushed, and whether an invalid operation made it NaN from finite operands, counted once for the element (R358; 04 R150). -/
structure Upd where
  w : HV
  r : HV
  m : HV
  sat : Nat
  flush : Bool
  made : Nat

/-- The update of one element. `fine`: every statistic and scalar it takes is finite. -/
def halUpdate (x : Item) (r : HalRec) (sc : HalScal) (dt : XV) (fine : Bool) (w rem mo : HV) (u : XV × Bool × Bool) (g : HV) : Upd :=
  let lr := x.hpField r 0
  let beta1 := x.hpField r 1
  let wd := x.hpField r 5
  let uh := (div32 u.1 dt).1
  let mn := rn32 ((r1 (beta1.mul mo.v)).add (r1 ((r1 ((XV.ofInt 1).sub beta1)).mul uh)))
  let d := if r.mom then (div32 mn.1 sc.b1).1 else uh
  let y := (w.v.add rem.v).sub (r1 (lr.mul (r1 (d.add (r1 (wd.mul w.v))))))
  let wn := rn32 y
  let left := match y, wn.1 with
    | .fin _ _, .fin _ _ => (codeVal 7 (convCode 7 mRN 0 (y.sub wn.1)).1).getD .nan
    | _, _ => .nan
  let p := w.p || rem.p || u.2.2 || g.p || (r.mom && mo.p)
  let finIn := w.v.isFinite && rem.v.isFinite && g.v.isFinite && (!r.mom || mo.v.isFinite) && fine
  { w := { v := wn.1, p := p }, r := { v := left, p := p }, m := { v := mn.1, p := p }
    sat := b2n wn.2 + b2n (r.mom && mn.2)
    flush := wn.1.isZero && !y.isZero
    made := b2n (finIn && (!wn.1.isFinite || (r.mom && !mn.1.isFinite))) }

def State.passC (s : State) (x : Item) (r : HalRec) : HalOut :=
  let delayed := x.op == 4
  let skips := s.skipRows x r
  let g := s.gradient x r skips
  let scr := s.halScal x r (!delayed)
  let sc := scr.1
  let h := if delayed then s.newStats x r sc skips g else s.outStats x r
  let us := halU0s r sc h g
  let i := s.halHdr x r.inB
  let usq := if delayed then halUsq x.hal.uexp us else (0, false, false)
  let uSum := if delayed then ({ v := (codeVal 12 i.usq).getD .nan, p := i.poison } : HV) else s.long x (r.outB + 0x20)
  let one := delayed && i.t == 0
  let dt := if one then .ofInt 1
    else XV.max (.ofInt 1) (div32 (sqrt32 (div32 (longF uSum.v x.hal.uexp) sc.ntk).1).1 (x.hpField r 4)).1
  let sc := { sc with bad := sc.bad || (!one && uSum.p), nonfin := sc.nonfin + (if one then 0 else nonfinOf [uSum]) }
  let ws := chunks r.k r.n (s.f32s x (r.inB + 0x1000) r.e)
  let rems := chunks r.k r.n (s.bf16s x (r.inB + r.oRem) r.e)
  let moms := if r.mom then chunks r.k r.n (s.f32s x (r.inB + r.oMom) r.e) else []
  let zero : HV := { v := .zero }
  -- the statistics of an element, and the scalars, are finite
  let fine := fun (n k : Nat) => sc.fine && sc.qn.isFinite && (if r.fact
    then ((h.rs[n]?).getD zero).v.isFinite && ((h.cs[k]?).getD zero).v.isFinite
    else (((h.vs.getD n [])[k]?).getD zero).v.isFinite)
  let at' := fun (l : List (List HV)) (n k : Nat) => (((l.getD n [])[k]?).getD zero)
  let new := (ws.zipIdx).map fun row => (row.1.zipIdx).map fun e =>
    let n := row.2
    let k := e.2
    if skips.getD n false then
      -- as it was read (R359)
      let keep := fun (v : HV) => { v with p := v.p || (at' g n k).p }
      ({ w := keep e.1, r := keep (at' rems n k), m := keep (at' moms n k), sat := 0, flush := false, made := 0 } : Upd)
    else
      let u := ((us.getD n [])[k]?).getD (.zero, false, false)
      halUpdate x r sc dt (fine n k) e.1 (at' rems n k) (at' moms n k) (u.1, u.2.1, u.2.2 || sc.bad) (at' g n k)
  let ups := new.flatMap id
  let w := new.map fun row => row.map (·.w)
  let u0sat := ((us.flatMap id).filter (·.2.1)).length
  let reads := ws.flatMap id ++ rems.flatMap id ++ moms.flatMap id ++ h.reads
  let hpv : HV := if r.gamax != 0 then { v := f32 (s.iw x r.gamax 4), p := s.ipois x r.gamax } else { v := f32 i.amax, p := i.poison }
  -- hp, and the entries of IN.WHIST that go on, are read too (R355, R358)
  let hist := (i.whist.take 15).map fun c => ({ v := f32 c } : HV)
  let made := h.made + (ups.map (·.made)).sum
  let nonfin := nonfinOf (g.flatMap id) + sc.nonfin + nonfinOf reads + made + nonfinOf (hpv :: hist)
  let s := s.unValid r
  let s := if delayed then s.putStats r h else s
  let s := s.putF32s (r.outB + 0x1000) (ups.map (·.w))
  let s := s.putBf16s (r.outB + r.oRem) (ups.map (·.r))
  let s := if r.mom then s.putF32s (r.outB + r.oMom) (ups.map (·.m)) else s
  let fields := fun (_ : Nat) =>
    [(0, leBytes 4 ((i.t + 1) % 2 ^ 32)), (0x10, leBytes 4 (f32Code sc.p1n)), (0x14, leBytes 4 (f32Code sc.p2n)),
      (0x18, leBytes 4 (f32Code sc.qn)), (0x38, leBytes 4 (f32Code dt))]
      ++ if delayed then [(0x20, leBytes 16 usq.1)] else []
  let o := s.finishOut x r w (some hpv) i.whist fields (nonfin == 0 && !sc.glob) (sc.bad || usq.2.2) (!delayed)
  let clipped := if XV.lt (.ofInt 1) dt then ((us.flatMap id).filter fun u => !u.1.isZero).length else 0
  { o with
    counts := { saturated := (ups.map (·.sat)).sum + (if delayed then h.sat + b2n usq.2.1 else 0) + u0sat
                clipped := clipped
                flushed := (ups.filter (·.flush)).length
                zeros := (ups.filter fun u => u.w.v.isZero).length }
    nonfin := nonfin, made := made
    elements := ups.length * (1 + b2n r.mom) + (if delayed then h.rs.length + h.cs.length + (h.vs.flatMap id).length else 0)
    poison := o.poison || (ups.any fun u => u.w.p), skipped := (skips.filter id).length
    normSat := b2n (delayed && usq.2.1), glob := sc.glob }

/-! ### SEED (R360) -/

/-- A SEED of one tensor. DT of a seeded block is left open: a free value. -/
def State.passSeed (s : State) (x : Item) (r : HalRec) : HalOut :=
  let g := (s.readStream x (s.gStrm x r)).els
  let w := chunks r.k r.n (g.map fun e => ({ v := e.v, p := e.poison || r.bad } : HV))
  let nonfin := countNonfin g
  let zeros := fun (n : Nat) => List.replicate n ({ v := .zero } : HV)
  let f := s.free
  let s := f.2.unValid r
  let s := s.putF32s (r.outB + 0x1000) (w.flatMap id)
  let s := if r.mom then s.putF32s (r.outB + r.oMom) (zeros r.e) else s
  let s := s.putBf16s (r.outB + r.oRem) (zeros r.e)
  let s := if r.fact then (s.putF32s (r.outB + r.oSq) (zeros r.n)).putF32s (r.outB + r.oCol) (zeros r.k)
    else s.putF32s (r.outB + r.oSq) (zeros r.e)
  let fields := fun (_ : Nat) =>
    [(0, leBytes 4 0), (0x10, leBytes 4 0x3F800000), (0x14, leBytes 4 0x3F800000), (0x18, leBytes 4 0), (0x20, leBytes 16 0),
      (0x38, leBytes 4 f.1)]
  let o := s.finishOut x r w none [] fields (nonfin == 0) false false
  { o with counts := { zeros := (g.filter fun e => e.v.isZero).length }, nonfin := nonfin
           elements := r.e * (1 + b2n r.mom) + (if r.fact then r.n + r.k else r.e)
           poison := r.bad || g.any (·.poison) }

/-! ### The items -/

/-- One record under the item's pass. -/
def State.halPass (s : State) (x : Item) (r : HalRec) : HalOut :=
  match x.op with
  | 1 => s.passA x r
  | 2 => s.passB x r
  | 5 => s.passSeed x r
  | _ => s.passC x r

/-- What the records so far left, and what ended the item. -/
structure HalAcc where
  st : State
  out : Result := {}
  nonfin : Nat := 0
  glob : Bool := false
  total : XV := .fin 0 (-80)
  stop : Option (Nat × Nat) := none
  done : Nat := 0
  /-- REC, and what PASS shows beyond the item's own, while it drains (R368) -/
  last : Nat := 0

/-- The registers of the unit that counts a record: which of the four counts it is left open, a free value chooses. -/
def State.halCount (s : State) (region : Nat) (o : HalOut) : State :=
  let f := s.free
  let u := regionDie region * 4 + f.1 % 4
  let s := ((f.2.bump .halSkipCnt u 0 o.skipped).bump .halRepairCnt u 0 o.repairs).bump .halNsatCnt u 0 o.normSat
  s.flag .halSts u 0 (16 * b2n (o.normSat != 0) + 8 * b2n (o.repairs != 0) + 4 * b2n (decide (o.made < o.nonfin) || o.glob))

/-- Record i of the item. -/
def State.halRec (s : State) (x : Item) (i : Nat) : HalRec :=
  let a := x.hal.tlist + 64 * i
  parseHal (s.iw x a 64) (s.ipoisIn x a 64)

/-- One record of the list. -/
def State.halStep (x : Item) (region : Nat) (acc : HalAcc) (i : Nat) : HalAcc :=
  if acc.stop.isSome then acc
  else
    let s := acc.st
    let r := s.halRec x i
    match (if s.inHbm (x.hal.tlist + 64 * i) 64 then s.recBad x r else some 9) with
    | some reason =>
      let f := s.free
      { acc with st := f.2.flag .halSts (regionDie region * 4 + f.1 % 4) 0 1, stop := some (stInvalid, badDetail (reason, 0, i)), last := i }
    | none => match s.recSkew x r (s.skipRows x r) with
      | some c => { acc with stop := some (stSkew, c.1 * 2 ^ 24 + c.2 % 65536), last := i }
      | none =>
        let o := s.halPass x r
        { acc with
          st := o.st.halCount region o
          out := { acc.out with poison := acc.out.poison || o.poison || r.bad, counts := acc.out.counts.add o.counts
                                elements := acc.out.elements + o.elements }
          -- the last work on a copy that was repaired was the repair: PASS 7 (R368)
          last := i + if o.repairs == 0 then 0 else (7 - x.op) * 2 ^ 28
          nonfin := acc.nonfin + o.nonfin + b2n (o.glob && !acc.glob), glob := acc.glob || o.glob, total := acc.total.add o.total, done := acc.done + 1 }

/-- The units of the item's die have worked for a number of cycles that the spec does not give: free values (R368). -/
def State.halWorked (s : State) (region : Nat) : State :=
  (halUnits region).foldl (fun s u => let f := s.free; f.2.bump .halBusyCnt u 0 f.1) s

/-- Some of the memory of a pass is held (14 R475): its records, or the state blocks, gradient and sums of one. -/
def State.halHeld (s : State) (region : Nat) (x : Item) : Bool :=
  let d := regionDie region
  !s.calm && (List.range x.hal.count).any fun i =>
    let a := x.hal.tlist + 64 * i
    s.spanHeld d a 64 ||
      (let r := parseHal (s.iw x a 64)
       s.spanHeld d r.inB r.stop || s.spanHeld d r.outB r.stop || s.spanHeld d r.sums (16 + 16 * (r.n + r.k))
         || (r.skipmap && s.spanHeld d r.skip (r.n / 8 + 1)) || (r.gamax != 0 && s.spanHeld d r.gamax 4)
         || (x.hal.gnorm != 0 && s.spanHeld d x.hal.gnorm 16)
         || ((s.gStrm x r).reads (r.gList % 2 ^ 48) (r.gList / 2 ^ 48)).any fun p => s.spanHeld d p.1 p.2)

/-- The run of a pass over its records. -/
def State.halRun (s : State) (region : Nat) (x : Item) : RunOut :=
  if s.halHeld region x then .hold
  else
  let o := x.hal
  -- a skew that the item may retry restarts it before anything is written again
  let sk := (List.range o.count).findSome? fun i =>
    let r := s.halRec x i
    if s.inHbm (o.tlist + 64 * i) 64 && (s.recBad x r).isNone then s.recSkew x r (s.skipRows x r) else none
  match sk, x.replayable && !x.retried && !x.nmIssued with
  | some c, true => .skew c.1 0 c.2
  | _, _ =>
    .ok 0 fun s x =>
      let acc := (List.range o.count).foldl (State.halStep x region) { st := s.halWorked region }
      let out := { acc.out with stat := List.replicate 4 acc.last, nonfin := acc.nonfin != 0, shares := x.op != 1 }
      match acc.stop with
      | some e =>
        (acc.st, { out with
          statuses := [e], partialOut := acc.done != 0, counts := { acc.out.counts with nonfinite := acc.nonfin } })
      | none =>
        let sum := convCode 12 mRN 0 acc.total
        let res := if x.op == 1 && x.resultSlot != 0xFFFF
          then some (BitVec.ofNat 128 (longCode sum.1 acc.out.poison), acc.out.poison) else none
        (acc.st, { out with
          result := res
          counts := { acc.out.counts with nonfinite := acc.nonfin, saturated := acc.out.counts.saturated + b2n (res.isSome && sum.2) } })

def takesHal (op : Nat) (x : Item) : Bool := x.engine == 6 && x.op == op

/-- PASS_A (R350): exact sums of squared gradients. -/
def execPassA (region slot : Nat) (s : State) : Host.Outcome State Fault Refusal := .next (s.runItem region slot (takesHal 1) State.halRun)

/-- PASS_B (R352): statistics and the exact sum of squared updates. -/
def execPassB (region slot : Nat) (s : State) : Host.Outcome State Fault Refusal := .next (s.runItem region slot (takesHal 2) State.halRun)

/-- PASS_C (R347): the update applied, with PASS_B's statistics. -/
def execPassC (region slot : Nat) (s : State) : Host.Outcome State Fault Refusal := .next (s.runItem region slot (takesHal 3) State.halRun)

/-- PASS_C_DELAYED (R352): statistics and update in one pass. -/
def execPassCDelayed (region slot : Nat) (s : State) : Host.Outcome State Fault Refusal :=
  .next (s.runItem region slot (takesHal 4) State.halRun)

/-- SEED (R360): a fresh state block from FP32 masters. -/
def execSeed (region slot : Nat) (s : State) : Host.Outcome State Fault Refusal := .next (s.runItem region slot (takesHal 5) State.halRun)

/-! ### NM_BATCH (R364) -/

/-- What a batch leaves, entry by entry. -/
structure NmAcc where
  st : State
  sats : Nat := 0
  poison : Bool := false
  stop : Option (Nat × Nat) := none
  done : Nat := 0

/-- One entry: its 32 bytes with their poison. -/
def State.nmStep (tag : Nat) (acc : NmAcc) (e : List (Byte × Bool) × Nat) : NmAcc :=
  if acc.stop.isSome then acc
  else
    let s := acc.st
    let v := leNat (e.1.map (·.1))
    let a := fld v 0 6
    let w := fld v 6 2
    let ty := w % 8
    let op := bits w 4 3
    if 4 < ty || op == 3 || a % nmBytes ty != 0 || (s.stackOf a).isNone then { acc with stop := some (stInvalid, badDetail (9, 0, e.2)) }
    else if s.dieReset (stackDie ((s.stackOf a).getD 0)) then { acc with stop := some (stReset, 0) }
    else
      let d := s.nmApply a ty op (v / 2 ^ 128) (e.1.any (·.2)) false tag
      { acc with st := d.st, sats := acc.sats + b2n d.sat, poison := acc.poison || d.poison, done := acc.done + 1 }

/-- The run of an NM_BATCH. An operation whose target lies on a die that is frozen, or behind one, is held; one whose target's die
is under reset is lost, and ends the item (R371; 14 R475). -/
def State.nmRun (s : State) (region : Nat) (x : Item) : RunOut :=
  let a := s.strm x 0
  let n := x.opnd 0x68 4
  s.gated x [s.bytesCheck a, if a.byteCount < 32 * n then some (9, 0, 0) else none] [] fun _ =>
    let es := chunks 32 n (s.readFetched x a)
    if !s.calm && es.any fun e =>
        let t := fld (leNat (e.map (·.1))) 0 6
        s.heldAt (regionDie region) t && !s.dieReset (stackDie ((s.stackOf t).getD 0)) then .hold
    else .ok 0 fun s x =>
      let acc := (es.zipIdx).foldl (State.nmStep x.tag) { st := s.halWorked region }
      match acc.stop with
      | some e =>
        (acc.st, { statuses := [e], partialOut := acc.done != 0, poison := acc.poison, counts := { saturated := acc.sats } })
      | none => (acc.st, { poison := acc.poison, counts := { saturated := acc.sats } })

/-- NM_BATCH (R364): a list of near-memory operations, in order. -/
def execNmBatch (region slot : Nat) (s : State) : Host.Outcome State Fault Refusal :=
  .next (s.runItem region slot (takesHal 0x10) State.nmRun)

/-- NM_OPERATION (R362): an ADD, MAX or MIN of an item arrives at its controller. A reserved TYPE or OP, a misaligned
target, or one outside HBM, is applied nowhere. One whose target's die is under reset is lost, and its item completes with
ABORTED_BY_RESET (R371); one to a die that is frozen, or behind one, is held, so nothing happens yet (14 R475). -/
def execNmOperation (op : NmOp) (s : State) : Host.Outcome State Fault Refusal :=
  if 4 < op.ty || 2 < op.op || op.addr % nmBytes op.ty != 0 || (s.stackOf op.addr).isNone then .next s
  else if s.dieReset (stackDie ((s.stackOf op.addr).getD 0)) then
    .next (match s.item op.region op.slot with
      | some x =>
        if x.stage == .running then
          s.endRun op.region op.slot x { statuses := [(stReset, 0)], partialOut := x.wrote || x.nmIssued }
        else s
      | none => s)
  else if s.heldAt (regionDie op.region) op.addr then .next s
  else
    let tag := match s.item op.region op.slot with | some x => x.tag | none => 0
    let d := s.nmApply op.addr op.ty op.op op.value op.poisoned op.residue tag
    .next (match s.item op.region op.slot with
      | some x =>
        if x.stage == .running then
          d.st.setItem op.region op.slot (some { x with
            nmIssued := true, nmPoison := x.nmPoison || d.poison, nmSats := x.nmSats + b2n d.sat })
        else d.st
      | none => d.st)

end Sys2Proof.Machine
end

