-- ==== Sys2Proof/Machine/Work.lean ====
section
/-! DEFINITION. Work submission and retirement: the rings, the admission of descriptors with its checks, Lay gates, fetch
blocks, completion, Cleat operations, and the prepass (03 R81 to R122; 07 R206, R215, R216, R228, R238; 08 R254, R255;
14 R484). -/

namespace Sys2Proof.Machine

/-! ### Submission (R91, R92) -/

def State.sqSize (s : State) (region : Nat) : Nat := 2 ^ bits (s.reg .sqCfg region).toNat 3 0
def State.sqBase (s : State) (region : Nat) : Nat := (s.reg .sqBase region).toNat + (s.reg .sqBaseHi region).toNat * 2 ^ 32

/-- A write to WRK_SQ_TAIL: it is taken, or ignored with SQ_OVERRUN. -/
def State.writeSqTail (s : State) (region value : Nat) : State :=
  let v : Word := BitVec.ofNat 32 value
  if s.sqSize region < (v - s.reg .sqHead region).toNat then s.flag .wrkSts region 0 2 else s.setReg .sqTail region 0 v

/-- WRK_SQ_TAIL_WRITE (R92). -/
def execWrkSqTailWrite (ini region value : Nat) (s : State) : Host.Outcome State Fault Refusal :=
  .next ((s.intervene ini (regionDie region) none).writeSqTail region value)

/-! ### The checks at admission (R88) -/

/-- The operations of each engine. -/
def opKnown (engine op : Nat) : Bool :=
  match engine with
  | 0 => op == 1
  | 1 => op == 1 || op == 0x10
  | 2 => [0x400, 0x401, 0x402, 0x403, 0x410].contains op
  | 3 => op == 1
  | 4 => [1, 2, 0x10, 0x11].contains op
  | 5 => op == 1 || op == 2
  | 6 => [1, 2, 3, 4, 5, 0x10].contains op
  | 7 => [1, 0x10, 0x11, 0x12, 0x20, 0x21, 0x30].contains op
  | 8 => [1, 0x10, 0x11, 0x20, 0x21, 0x30].contains op
  | _ => false

/-- Reserved values of ROUND, STEP_SLOT, RESULT_SLOT, LAYER and the predicate KIND (R88, R90, R97; 07 R207). -/
def Item.reservedValue (x : Item) : Bool :=
  x.round == 3 || (16 ≤ x.stepSlot && x.stepSlot != 0xFFFF) || (1024 ≤ x.resultSlot && x.resultSlot != 0xFFFF)
    || (0x1000 ≤ x.layer && x.layer != 0xFFFF) || (x.predEn && bits x.pred 28 26 == 7)

/-- A wait, signal or predicate names a Cleat that does not exist (R88). -/
def Item.badCleat (x : Item) : Bool :=
  (waitEn (x.wait 0) && !cleatExists (waitDie (x.wait 0)) (waitIdx (x.wait 0)))
    || (waitEn (x.wait 1) && !cleatExists (waitDie (x.wait 1)) (waitIdx (x.wait 1)))
    || (sigEn (x.signal 0) && !cleatExists (sigDie (x.signal 0)) (sigIdx (x.signal 0)))
    || (sigEn (x.signal 1) && !cleatExists (sigDie (x.signal 1)) (sigIdx (x.signal 1)))
    || (x.predEn && decide (bits x.pred 28 26 < 3) && !cleatExists (bits x.pred 31 29) (bits x.pred 13 0))

/-- A memory predicate outside the address map. -/
def State.badPred (s : State) (x : Item) : Bool :=
  x.predEn && decide (3 ≤ bits x.pred 28 26) && bits x.pred 28 26 != 7 && !s.mapped (x.predAddr / 4 * 4) 4

/-- The operations that write a result slot (R90). -/
def Item.writesResult (x : Item) : Bool :=
  (x.engine == 6 && x.op == 1) || (x.engine == 7 && (x.op == 0x20 || x.op == 0x21 || x.op == 0x30))

/-- The state of an item's step slot admits it (07 R228). -/
def State.slotAdmits (s : State) (x : Item) : Bool :=
  let st := (s.step x.stepSlot).state
  if x.isVote then st == 1 else if x.isGated then st == 1 || st == 2 || st == 3 else st == 1

/-- REASON 0x0C: the slot takes no such item, or an ordinary item is not REPLAYABLE (07 R228). -/
def State.badSlot (s : State) (x : Item) : Bool :=
  decide (x.stepSlot < 16) && (!s.slotAdmits x || (!x.isVote && !x.isGated && !x.replayable))

/-- REASON 0x0B (07 R215). -/
def State.badWatch (s : State) (x : Item) : Bool :=
  x.watch != 0xFFFF && (16384 ≤ x.watch || x.stepSlot == 0xFFFF || !bit (s.trkCfg x.watch) 31
    || ((s.tracker x.watch).held && (s.tracker x.watch).slot != x.stepSlot)
    || (x.stream 2 != 0 && (s.strm x 2).fmt == 12))

/-- An ENGINE 0x0 item that is wide (07 R206). -/
def State.badWide (s : State) (region : Nat) (x : Item) : Bool :=
  x.engine == 0 && (x.wide || (x.layer < 4096 &&
    (bit (s.reg .wideMap region (x.layer / 32)).toNat (x.layer % 32) || s.widened x.layer)))

/-- SNARL_COPY: the operands name a slot that holds a capture (14 R482). -/
def State.snarlAdmit (s : State) (x : Item) : Option Bad :=
  match s.useCheck x [.no, .no, .yes, .no] with
  | some b => some b
  | none =>
    let die := x.opnd 0x68 1
    let slot := x.opnd 0x69 1
    if die ≤ 4 && slot ≤ 16 && (s.snarlIn die slot).isSome then none else some (9, 0, 0)

/-- The operation's own checks at admission. -/
def State.opAdmit (s : State) (region slot : Nat) (x : Item) : Option Bad :=
  match x.engine with
  | 0 => firstBad [s.twnAdmit x, s.reeveAdmit x]
  | 1 => if x.op == 1 then s.hwsAdmit x else s.segAdmit region x
  | 2 => if x.op == 0x410 then s.packAdmit x else s.drwAdmit x
  | 3 => s.rebAdmit x
  | 4 => s.ateAdmit x
  | 5 => s.rtrAdmit x
  | 6 => s.halAdmit x
  | 7 => s.fabAdmit (itemKey region slot) x
  | _ =>
    if x.op == 0x20 || x.op == 0x21 then s.gatherAdmit x
    else if x.op == 0x30 then s.snarlAdmit x
    else s.moveAdmit x [.yes, .no, .yes, .no]

/-- What a check gives when its condition holds. -/
def badIf (c : Bool) (reason : Nat) : Option Bad := if c then some (reason, 0, 0) else none

/-- The first check of an item that fails. -/
def State.admitCheck (s : State) (region slot : Nat) (x : Item) : Option Bad :=
  firstBad [
    badIf (!opKnown x.engine x.op) 1, badIf x.reservedValue 8, badIf x.badCleat 6, badIf (s.badPred x) 7,
    badIf (!x.writesResult && decide (x.resultSlot < 1024)) 9,
    badIf (s.badSlot x || s.badEpoch x) 0xC, badIf (s.badWatch x) 0xB, badIf (s.badWide region x) 0xA,
    s.opAdmit region slot x]

/-! ### Admission (R92, R94, R96, R119) -/

/-- A wait slot as it is registered: satisfied at once when the value is there (R94). -/
def State.registerWait (s : State) (w : Nat) : WaitSt :=
  if !waitEn w then .off
  else if waitThr w ≤ (s.cleat (waitDie w) (waitIdx w)).toNat then .satisfied else .registered

/-- FMT of an item's stream C, that of its first data entry; 0 where it has none (R113). -/
def State.ofmtOf (s : State) (x : Item) : Nat :=
  let first := if x.engine == 2 && x.op == 0x410 then x.pack.cFirst else 1
  if x.stream 2 == 0 || x.streamCount 2 ≤ first then 0 else (parseEnt (s.listEntry x 2 first)).fmt

/-- The item that a descriptor describes, as it enters a slot. -/
def State.newItem (s : State) (region raw count : Nat) : Item :=
  let x : Item :=
    { raw := raw, count := count, stage := .admitted, w0 := .off, w1 := .off, gateOpen := true, units := 0, gen := s.gen 2 region
      start := none, startCyc := 0, admitCyc := s.cycle, progCyc := s.cycle, late := false, retried := false, chained := false
      prepass := 0, latched := [], fetched := [], fetchedPoison := [], queued := [0, 0, 0, 0], runahead := 64, nmIssued := false, nmPoison := false
      nmSats := 0, wrote := false, seed := 0, bwl := 0, predDone := false, counted := 0, ofmt := 0, waiting := none, doneSeq := 0
      waitCyc := none, pin := none, res := {} }
  { x with ofmt := s.ofmtOf x }

/-- SPL_BWL_SEED (08 R254), and the stream identifier of R255. -/
def State.bwlSeedNow (s : State) : Nat := (s.reg .bwlSeed 0 0).toNat + (s.reg .bwlSeed 0 1).toNat * 2 ^ 32
def State.bwlOf (s : State) (x : Item) : Nat :=
  if x.stepSlot < 16 then ((s.step x.stepSlot).bwl + (s.step x.stepSlot).num) % 2 ^ 32 else (s.reg .bwlFree).toNat

/-- An item counted in its step slot: OUTSTANDING, GATED, or, for the vote item, neither (07 R231, R236). -/
def Item.countedAs (x : Item) : Nat := if 16 ≤ x.stepSlot || x.isVote then 0 else if x.isGated then 2 else 1
def StepSlot.takeIn (p : StepSlot) (n : Nat) : StepSlot :=
  { p with outstanding := if n == 1 then p.outstanding + 1 else p.outstanding
           gated := if n == 2 then p.gated + 1 else p.gated }

/-- A layer named by an ENGINE 0x0 item (07 R236, R242). -/
def State.seeLayer (s : State) (x : Item) : State :=
  if x.engine == 0 && decide (x.layer < 4096) then
    ({ s.flag .splSeen 0 (x.layer / 32) (2 ^ (x.layer % 32)) with seenEver := tset dF s.seenEver x.layer true }).globalCheck
      x.stepSlot
  else s

/-- Admit an item that passes its checks; the first admission locks the memory map (12 R380). -/
def State.takeItem (s : State) (region slot : Nat) (x : Item) : State :=
  let s := if x.watch < 16384 then s.holdTracker x.watch x.stepSlot else s
  let s := if x.stepSlot < 16 then s.setStep x.stepSlot ((s.step x.stepSlot).takeIn x.countedAs) else s
  let x := { x with
    w0 := s.registerWait (x.wait 0), w1 := s.registerWait (x.wait 1)
    gateOpen := !x.timed || decide (x.layGate ≤ s.lay.now)
    seed := s.bwlSeedNow, bwl := s.bwlOf x, counted := x.countedAs
    prepass := if x.watch < 16384 && (s.tracker x.watch).prepass then 1 else 0 }
  ({ s with mem := { s.mem with mapLocked := true } }.setItem region slot (some x)).admitColl (itemKey region slot) x

/-- The scheduler slots of a region and of the package that are occupied. -/
def State.usedSlots (s : State) (region : Nat) : Nat :=
  (s.items.filter fun e => e.2.isSome && e.1 / 256 == region).length
def State.freeSlot (s : State) (region : Nat) : Option Nat :=
  (List.range 256).find? fun k => (s.item region k).isNone

/-- A descriptor taken into a slot: it completes at once, or it is admitted. -/
def State.admitRaw (s : State) (region slot raw : Nat) (bad : Bool) : State :=
  let x := s.newItem region raw (s.reg .sqHead region).toNat
  let s := s.setReg .sqHead region 0 (s.reg .sqHead region + 1)
  let s := s.setItem region slot (some x)
  if bad then (s.flag .wrkSts region 0 1).finishAs region slot x stInvalid (badDetail (7, 0, 0)) (!s.slotAdmits x)
  else if x.genField != s.gen 2 region then s.finishAs region slot x stStale 0
  else
    let s := s.seeLayer x
    let fenced := maskUsed x.engine && s.maskFenced region x.mask
    match s.admitCheck region slot x with
    | some b =>
      let s := if b.1 == 0xA then s.bump .wideCnt region 0 1 else s
      s.finish region slot
        { x with res := { statuses := (stInvalid, badDetail b) :: (if fenced then [(stFenced, 0)] else []) } } (!s.slotAdmits x)
    | none =>
      if fenced then s.finishAs region slot x stFenced 0 else s.takeItem region slot x

/-- DESCRIPTOR_ADMIT (R92): the descriptor at WRK_SQ_HEAD enters the lowest free slot, when the ring is enabled and holds
one, neither the region nor a unit the item names is in recovery, and the region and the package have room. A descriptor that lies on a die in
recovery is not read yet (14 R475). -/
def execDescriptorAdmit (region : Nat) (s : State) : Host.Outcome State Fault Refusal :=
  .next (
    let a := s.sqBase region + (s.reg .sqHead region).toNat % s.sqSize region * 128
    if !bit (s.reg .sqCfg region).toNat 31 || s.reg .sqHead region == s.reg .sqTail region || s.frozen ⟨2, region⟩
      || decide (4096 ≤ s.items.length) || s.heldAt (regionDie region) a then s
    else match s.freeSlot region with
      | none => s
      | some slot =>
        let x := s.newItem region (s.rd a 128) 0
        if maskUsed x.engine && s.maskFrozen region x.mask then s
        else (s.admitRaw region slot (s.rd a 128) (s.poisonedIn a 128 || !s.mapped a 128)).settle)

/-- LAY_GATE_OPEN (R96, R451): the item's gate opens once Lay time has reached LAY_GATE. -/
def execLayGateOpen (region slot : Nat) (s : State) : Host.Outcome State Fault Refusal :=
  .next (match s.item region slot with
    | some x =>
      if x.timed && !x.gateOpen && decide (x.layGate ≤ s.lay.now) then
        (s.setItem region slot (some { x with gateOpen := true })).settle
      else s
    | none => s)

/-! ### Fetch blocks (R99, R100, R121; 14 R484) -/

/-- Address and length of fetch block b of an entry. -/
def Ent.fetchBlock (e : Ent) (two4 : Bool) (b : Nat) : Option (Nat × Nat) :=
  let c := max 1 (e.fetchBytes two4)
  let n := (e.len + c - 1) / c
  if n == 0 || e.rows * n ≤ b then none
  else some (e.addr + b / n * e.stride + b % n * c, min c (e.len - b % n * c))

/-- Bytes of scale lines and outlier regions that fetch block b of an entry needs. -/
def Ent.sideBytes (m : Strm) (e : Ent) (two4 : Bool) (b : Nat) : List (Nat × Nat) :=
  if !e.scaled then []
  else
    let bb := max 1 (blockBytes e.fmt e.nb two4)
    let c := max 1 (e.fetchBytes two4)
    let n := max 1 ((e.len + c - 1) / c)
    let first := e.blkidx + b / n * (e.len / bb) + b % n * (c / bb)
    let last := min (first + c / bb - 1) (e.blkidx + (b / n + 1) * (e.len / bb) - 1)
    [first, last].eraseDups.flatMap fun k =>
      (e.lineAddr m.hdr k, 64) :: (if m.esc then [(Ent.outAddr m.hdr k, 224)] else [])

/-- The bytes of a span join what the item has fetched; `bad` marks their lines poisoned. -/
def Item.keepSpan (x : Item) (s : State) (a n : Nat) (bad : Bool) : Item :=
  let x := (List.range n).foldl (fun (x : Item) i =>
    match tget dN x.fetched (a + i) with
    | some _ => x
    | none => { x with fetched := tset dN x.fetched (a + i) (some (s.rdByte (a + i))) }) x
  (List.range ((a % 64 + n + 63) / 64)).foldl (fun (x : Item) i =>
    if bad || s.poisoned (a / 64 * 64 + 64 * i) then { x with fetchedPoison := tset dF x.fetchedPoison (a / 64 + i) true } else x) x

/-- The stream of an item as the Fetch engine reads it, and whether it is in the 2:4 layout. -/
def State.fetchStrm (s : State) (x : Item) (k : Nat) : Strm × Bool :=
  if x.engine == 0 then (s.strm x k (if k == 1 then x.twn.bFirst else 1), k == 1 && x.twn.two4) else (s.strm x k, false)

/-- The queue of a stream takes one more block: it has room, or it is full and the Execute engine, which has a block of every other
input stream, consumes the oldest one (R100; DESIGN CHOICE, log entry 38). -/
def Item.queueTakes (x : Item) (k : Nat) : Bool :=
  decide (x.queued.getD k 0 < x.runahead) ||
    [0, 1, 3].all fun j => j == k || x.stream j == 0 || decide (0 < x.queued.getD j 0)

/-- Every input stream's last fetch block has been requested (R101). -/
def State.allRequested (s : State) (x : Item) : Bool :=
  [0, 1, 3].all fun k => x.stream k == 0 ||
    (let m := s.fetchStrm x k
     match m.1.ents.getLast? with
     | some e =>
       let c := max 1 (e.fetchBytes m.2)
       (match e.fetchBlock m.2 (e.rows * ((e.len + c - 1) / c) - 1) with
        | some (a, _) => (tget dN x.fetched a).isSome
        | none => true)
     | none => true)

/-- A fetch block arrives for a running item: what the item reads from then on is what was read now. The last block of a chained item
lets its successor's fetch begin. -/
def State.takeBlock (s : State) (region slot : Nat) (x : Item) (k entry block : Nat) (poisoned : Bool) : State :=
  let m := s.fetchStrm x k
  match m.1.ents[entry - 1]? with
  | none => s
  | some e =>
    match e.fetchBlock m.2 block with
    | none => s
    | some (a, n) =>
      let x := x.keepSpan s a n poisoned
      let x := (Ent.sideBytes m.1 e m.2 block).foldl (fun x sp => x.keepSpan s sp.1 sp.2 false) x
      let x := { x with queued := x.queued.set k (min x.runahead (x.queued.getD k 0 + 1)) }
      let s := s.setItem region slot (some x)
      if s.allRequested x then s.chain region x else s

/-- FETCH_BLOCK_ARRIVE (R99, R100, R121): a block of an input stream joins the stream's queue, if there is room. A ready item
starts when its engine is free. A reply of another generation, or one that reaches a region in recovery, is dropped and
counted (14 R484). -/
def execFetchBlockArrive (region slot stream entry block gen : Nat) (poisoned : Bool) (s : State) :
    Host.Outcome State Fault Refusal :=
  .next (
    if gen != s.gen 2 region || s.frozen ⟨2, region⟩ then s.bump .errStaleCnt (regionDie region) 0 1
    else match s.item region slot with
      | none => s
      | some x =>
        if 4 ≤ stream || stream == 2 || x.stream stream == 0 || entry == 0 then s
        else match s.startItem region slot x with
          | none => s
          | some (s, x) =>
            if x.queueTakes stream then s.takeBlock region slot x stream entry block poisoned else s)

/-! ### Completion and retirement (R106, R113 to R118) -/

/-- Sends of the item whose DELIVERED is awaited, its remote signals apart (R106; 13 R418). -/
def State.sendsLeft (s : State) (region slot : Nat) : Bool :=
  s.sends.any fun e => e.region == region && e.slot == slot && e.kind != 0x51

/-- ITEM_COMPLETE (R113): the last output of a finished item is visible, nothing of it is on its way, and it waits for no
spill: its record is written and its signals follow. -/
def execItemComplete (region slot : Nat) (s : State) : Host.Outcome State Fault Refusal :=
  .next (match s.item region slot with
    | some x =>
      if x.stage != .finished || x.waitCyc.isSome || s.sendsLeft region slot || s.frozen ⟨2, region⟩ then s
      else ((s.finish region slot x).showItem x region x.units).settle
    | none => s)

/-- A write to WRK_CQ_HEAD (R118). -/
def State.writeCqHead (s : State) (region ring value : Nat) : State :=
  let v : Word := BitVec.ofNat 32 value
  let h := s.reg .cqHead region ring
  if (s.reg .cqTail region ring - h).toNat < (v - h).toNat then s.flag .wrkSts region 0 16
  else ((s.setReg .cqHead region ring v).flushRing region ring).settle

/-- WRK_CQ_HEAD_WRITE (R118). -/
def execWrkCqHeadWrite (ini region ring value : Nat) (s : State) : Host.Outcome State Fault Refusal :=
  .next (if ring < 8 then (s.intervene ini (regionDie region) none).writeCqHead region ring value else s)

/-! ### Cleat operations (R103 to R112) -/

/-- The die at which an operation of a source that cannot be applied is counted (R105, R112). -/
def srcDie (src : Nat) : Nat :=
  if 48 ≤ src && src < 52 then src - 48
  else if 64 ≤ src && src < 82 then portDie (src - 64)
  else if 128 ≤ src && src < 144 then regionDie (src - 128) else hubDie

/-- An operation of an application core, a source below 32, is a store to its Cleat's die (02 R66). -/
def State.coreStore (s : State) (src die : Nat) : State := if src < 32 && die < 5 then s.intervene src die none else s

/-- CLEAT_SIGNAL (R103): SIGNAL(amount) from a source. A store of 0 has no effect (R109). -/
def execCleatSignal (src die index amount : Nat) (s : State) : Host.Outcome State Fault Refusal :=
  let s := s.coreStore src die
  .next (if amount % 2 ^ 32 == 0 then s else (s.cleatOp (srcDie src) die index (.signal (amount % 2 ^ 32))).settle)

/-- CLEAT_DECREMENT (R103, R108). -/
def execCleatDecrement (src die index amount : Nat) (s : State) : Host.Outcome State Fault Refusal :=
  let s := s.coreStore src die
  .next (if amount % 2 ^ 32 == 0 then s else (s.cleatOp (srcDie src) die index (.decrement (amount % 2 ^ 32))).settle)

/-- CLEAT_SET (R103): the value taken by the guarded write of CLT_SET. -/
def execCleatSet (_ini die index value : Nat) (s : State) : Host.Outcome State Fault Refusal :=
  .next ((s.cleatOp hubDie die index (.set value)).settle)

/-- A core arms a wait (R110): the interrupt at once when the value is there, ARM_REFUSED beyond 64 armed waits. -/
def State.armWait (s : State) (core die index threshold : Nat) : State :=
  if !cleatExists die index || s.dieDown die then s
  else if threshold ≤ (s.cleat die index).toNat then s.emit (.irq core causeCleat (die * 16384 + index))
  else if 64 ≤ (s.arms.filter fun a => a.core == core).length then s.flag .cltSts (cleatKey die index) 0 4
  else { s with arms := s.arms ++ [⟨core, die, index, threshold⟩] }

/-- CLEAT_ARM (R110). -/
def execCleatArm (core die index threshold : Nat) (s : State) : Host.Outcome State Fault Refusal :=
  .next ((s.coreStore core die).armWait core die index (threshold % 2 ^ 32))

/-! ### The prepass (07 R238) -/

/-- The run of an item, as its engine would make it, for the prepass. -/
def State.dryRun (s : State) (region : Nat) (x : Item) : RunOut :=
  match x.engine with
  | 0 => if s.isReeve x then s.reeveRun [] region x else s.twnRun [] region x
  | 1 => if x.op == 1 then s.hwsRun [] region x else s.segRun region x
  | 2 => if x.op == 0x410 then s.packRun region x else s.drwRun region x
  | 3 => s.rebRun region x
  | 4 =>
    if x.op == 1 then (match x.pin with | some k => s.attRun k region x | none => .bad (9, 0, 0))
    else if x.op == 2 then s.mergeRun region x
    else if x.op == 0x10 then s.publishRun region x else s.pteRun region x
  | 5 => s.rtrRun region x
  | 6 => if x.op == 0x10 then s.nmRun region x else s.halRun region x
  | 8 =>
    if x.op == 1 then s.copyRun region x else if x.op == 0x30 then .ok 0 fun s _ => (s, {}) else if x.op == 0x10 then s.fromMxRun region x
    else if x.op == 0x11 then s.toMxRun region x else s.gatherRun region x
  | _ => .ok 0 fun s _ => (s, {})

/-- The prepass of an item is over: its amax and itself are contributed, its engines are released, and it waits. -/
def State.passDone (s : State) (region slot : Nat) (x : Item) (amax : Nat) : State :=
  let s := s.bumpEach .splPreCnt (unitList region x.units) 1
  let s := s.setTracker x.watch ((s.tracker x.watch).prepassContribute amax)
  (s.setItem region slot (some { x with stage := .admitted, prepass := 2, queued := [0, 0, 0, 0], progCyc := s.cycle })).showItem x
    region x.units

/-- An ATTEND item takes its pin for the prepass (10 R309), when its record has no tokens spilled. -/
def State.prepassPin (s : State) (region slot : Nat) (x : Item) : State :=
  if x.engine == 4 && x.op == 1 && x.pin.isNone && !s.dieDown (kvHome x.att.seq) then
    match s.kvRec x.att.seq x.layer with
    | some r =>
      if r.valid && r.spill == 0 then
        let p := s.pinRec x.att.seq r (s.poisoned ((s.kvRecAddr x.att.seq x.layer).getD 0))
        match p.1.item region slot with
        | some y => p.1.setItem region slot (some { y with pin := some p.2, waitCyc := none })
        | none => p.1
      else s
    | none => s
  else s

/-- The pin of an item whose prepass is over, or that ended, is released (10 R310). -/
def State.prepassRelease (s : State) (region slot : Nat) : State :=
  match s.item region slot with
  | some x =>
    match x.pin with
    | some p => if x.stage == .running then s else (s.setItem region slot (some { x with pin := none })).releasePin (x.opnd 0x6C 2) p
    | none => s
  | none => s

/-- An ATTEND item must wait before its record can be pinned: tokens of the record lie in spill slots (10 R322). -/
def State.prepassWaits (s : State) (x : Item) : Bool :=
  !s.dieDown (kvHome x.att.seq) && (match s.kvRec x.att.seq x.layer with | some r => r.valid && r.spill != 0 | none => false)

/-- The prepass of a ready item runs. -/
def State.prepassRun (s : State) (region slot : Nat) : State :=
  match s.item region slot with
  | none => s
  | some x =>
    let wait := s
    match s.startItem region slot x with
    | none => s
    | some (s, x) =>
      match s.dryRun region x with
      | .hold => wait
      | .bad b => s.endRun region slot x { statuses := [(stInvalid, badDetail b)] }
      | .skew c k e => s.skewRun region slot x c k e
      | .ok amax _ => s.passDone region slot x amax

/-- PREPASS_PASS_DONE (R238): the item's prepass pass runs and ends. An item of a collective ends its pass when its exchange
is complete. -/
def execPrepassPassDone (region slot : Nat) (s : State) : Host.Outcome State Fault Refusal :=
  .next (match s.item region slot with
    | none => s
    | some x =>
      if x.prepass != 1 || 16384 ≤ x.watch || s.frozen ⟨2, region⟩ then s
      else if x.engine == 7 && x.op != 1 then
        match tget dColl s.colls (itemKey region slot) with
        | some c =>
          if x.stage == .running && s.collReadyToEnd region x c then (s.passDone region slot x (s.collAmax region x c)).settle else s
        | none => s
      else if x.stage != .ready && x.stage != .running then s
      else if x.engine == 4 && x.op == 1 && x.pin.isNone then
        if s.prepassWaits x then s.pinWait region slot x
        else (((s.prepassPin region slot x).prepassRun region slot).prepassRelease region slot).settle
      else ((s.prepassRun region slot).prepassRelease region slot).settle)

end Sys2Proof.Machine
end

