-- ==== Sys2Proof/Machine/Recovery.lean ====
section
/-! DEFINITION. Recovery: how the Fids dispose of RECOVER events, freeze, capture, reset and resume a domain; the Telltales; the
SRAM sweep; fences; what the management controller serves while the rest is stuck (14 R458 to R500). -/

namespace Sys2Proof.Machine

/-! ### Freezing a domain (R473 step 1; 03 R111, R119, R120; 01 R26) -/

/-- The Fid that recovers a domain: its die's, or the hub's for dies and the package (R471). -/
def domFid (d : Dom) : Nat := if d.level < 3 then domDie d else 4

/-- The domains within `d`, the package apart. -/
def domsWithin (d : Dom) : List Dom :=
  (List.range 4).flatMap fun l => ((List.range (levelCount l)).map fun i => (⟨l, i⟩ : Dom)).filter fun e => domWithin e d

/-- Generation of a domain: of the package at level 4. -/
def State.domGen (s : State) (d : Dom) : Nat := if d.level ≤ 3 then s.gen d.level d.index else s.pkgGen

/-- A running or finished item leaves its engine before its end, and its packets are no longer waited for. One that a reset aborts
leaves its outputs PARTIAL (03 R120; 14 R485). -/
def State.stopItem (s : State) (region slot : Nat) (x : Item) (st : Nat) (hold : Bool) : State :=
  let s := { s with sends := s.sends.filter fun e => e.region != region || e.slot != slot || e.kind == 0x51 }
  let part := x.wrote || (st == stReset && (x.stage == .running || x.stage == .finished))
  (s.finishStopped region slot { x with waitCyc := none, wrote := part } st 0 hold).showItem x region x.units

/-- An item is lost with the reset of a domain: every item in a slot of a region of it, or an item that runs on one of its units. -/
def Item.lostWith (x : Item) (region : Nat) (d : Dom) : Bool :=
  x.stage != .recordWaiting &&
    (domWithin ⟨2, region⟩ d ||
      ((x.stage == .running || x.stage == .finished) && (unitList region x.units).any fun u => domWithin ⟨0, u⟩ d))

/-- The items lost with a domain complete with ABORTED_BY_RESET; their records are held until it has recovered. -/
def State.abortItems (s : State) (d : Dom) : State :=
  s.items.foldl (fun s e =>
    match s.item (e.1 / 256) (e.1 % 256) with
    | some x => if x.lostWith (e.1 / 256) d then s.stopItem (e.1 / 256) (e.1 % 256) x stReset true else s
    | none => s) s

/-- A reset of any domain fails the steps in progress (01 R26; 07 R230); a vote whose contribution has not left the package votes
fault (07 R234). -/
def State.failSteps (s : State) : State :=
  let s := { s with votes := s.votes.map fun v => if v.passed then v else { v with own := 2 ^ 80 } }
  (List.range 16).foldl (fun s i =>
    let p := s.step i
    if p.state == 1 || p.state == 2 then s.setStep i { p with fault := (BitVec.ofNat 8 p.fault ||| 32#8).toNat } else s) s

/-- Step 1 of a recovery: generations advance, and the items of the domain are aborted. -/
def State.freeze (s : State) (d : Dom) : State :=
  let s := (domsWithin d).foldl (fun s e => s.bumpGen e.level e.index) s
  (s.abortItems d).failSteps

/-! ### Fid records (R462, R487, R488) -/

/-- A Fid event of KIND `kind` about domain `d`, from level `a` to level `b`. -/
def State.fidEvent (s : State) (kind action : Nat) (d : Dom) (a b : Nat) (us slot : Nat := 0) : State :=
  s.fidRecord sevRecover d.level action d.index
    (kind * 2 ^ 120 + a % 8 * 2 ^ 117 + b % 8 * 2 ^ 114 + d.index % 65536 * 2 ^ 96 + sat32 us * 2 ^ 64 + slot % 32 * 2 ^ 56)

/-- Recoveries within `d` are given up: one that runs leaves its capture ESCALATED; one that is queued is merged. -/
def State.abandonWithin (s : State) (d : Dom) : State :=
  (List.range 5).foldl (fun s f =>
    let x := s.fid f
    let s := match x.active with
      | some r => if domWithin r.dom d then
          (r.snarl.foldl (fun (s : State) k => s.modSnarl k fun c => { c with escalated := true }) s) else s
      | none => s
    let s := (x.queue.filter fun r => domWithin r.dom d).foldl (fun s r => s.fidEvent 4 4 r.dom r.dom.level d.level) s
    s.setFid f { active := x.active.filter fun r => !domWithin r.dom d
                 queue := x.queue.filter fun r => !domWithin r.dom d }) s

/-! ### Beginning, queueing, escalating (R473, R479, R486 to R488) -/

/-- What causes a recovery: SEQ and SRC of its record, and whether it came from the die's HBM. -/
structure Cause where
  seq : Nat
  src : Nat
  fromHbm : Bool := false

/-- Captures of step 2: of the domain, or of every ply die for the package. -/
def State.takeCaptures (s : State) (d : Dom) (genBefore : Nat) (c : Cause) : State × List Nat :=
  if d.level < 4 then s.capture (domDie d) d genBefore c.seq c.src c.fromHbm
  else (List.range 4).foldl (fun a die =>
    let r := a.1.capture die ⟨3, die⟩ (a.1.gen 3 die) c.seq c.src false
    (r.1, a.2 ++ r.2)) (s, [])

/-- Steps 2 and 3 of a recovery begin on its Fid. -/
def State.startRecovery (s : State) (r : Recovery) : State :=
  let c := s.takeCaptures r.dom r.genBefore ⟨r.causeSeq, r.causeSrc, r.fromHbm⟩
  let f := domFid r.dom
  c.1.setFid f { c.1.fid f with active := some { r with step := 3, snarl := c.2, from2 := s.lay.now } }

/-- A recovery of a domain, as it enters a Fid. -/
def State.newRecovery (s : State) (d : Dom) (c : Cause) : Recovery :=
  { dom := d, step := 1, began := s.lay.now, snarl := [], genBefore := s.domGen d, from2 := s.lay.now, causeSeq := c.seq
    causeSrc := c.src, fromHbm := c.fromHbm, drained := false, beganCyc := s.cycle }

/-- A domain is frozen and its recovery runs, what it contains being given up. -/
def State.beginRecovery (s : State) (d : Dom) (c : Cause) : State :=
  let r := s.newRecovery d c
  ((s.abandonWithin d).freeze d).startRecovery r

/-- A domain is frozen and its recovery waits for its Fid. -/
def State.queueRecovery (s : State) (d : Dom) (c : Cause) : State :=
  let r := s.newRecovery d c
  let s := (s.abandonWithin d).freeze d
  let f := domFid d
  s.setFid f { s.fid f with queue := (s.fid f).queue ++ [r] }

/-- How a RECOVER event is disposed of. -/
inductive Dispose where
  /-- nothing is reset: the domain is fenced, or the package is held in reset -/
  | none
  /-- a queued recovery will reset the domain -/
  | merge
  /-- its recovery begins at once -/
  | begin
  /-- it is queued -/
  | queue
  /-- the recovery of `k`, which contains it, escalates -/
  | escalate (k : Dom)
  /-- its Fid's queue is full: the die is recovered -/
  | die
  deriving DecidableEq, Repr

/-- The Fids that recover a domain or one that contains it. -/
def fidsOver (d : Dom) : List Nat := if d.level < 3 then [4, domDie d] else [4]

def State.dispose (s : State) (d : Dom) : Dispose :=
  let f := domFid d
  let above := (fidsOver d).filterMap fun k =>
    match (s.fid k).active with
    | some r => if domWithin d r.dom then some r.dom else none
    | none => none
  if s.held then .none
  else match above with
    | k :: _ => .escalate k
    | [] =>
      if (fidsOver d).any fun k => (s.fid k).queue.any fun r => domWithin d r.dom then .merge
      else if d.level < 3 && (domUnits d.level d.index).all s.unitFenced then .none
      else match (s.fid f).active with
        | none => .begin
        | some r =>
          if domWithin r.dom d then .begin
          else if 16 ≤ (s.fid f).queue.length then .die
          else .queue

/-- ACTION that the event's record carries (R461). -/
def Dispose.action : Dispose → Nat
  | .none => 0
  | .merge => 4
  | .begin => 3
  | .queue => 6
  | .escalate _ => 4
  | .die => 4

/-- The recovery of a die or of the package on the hub's Fid: at once, or after the one in progress. -/
def State.recoverOnHub (s : State) (d : Dom) (c : Cause) : State :=
  match (s.fid 4).active with
  | some r => if domWithin r.dom d then s.beginRecovery d c else s.queueRecovery d c
  | none => s.beginRecovery d c

/-- The recovery of `k` is given up for that of the domain that contains it (R486). -/
def State.escalate (s : State) (k : Dom) (c : Cause) : State :=
  let up := domParent k
  let s := (s.fidEvent 3 4 k k.level (if k.level == 4 then 4 else up.level)).mcBump 0x40A2 0 1
  let s := s.flag .errSts (domDie k) 0 8
  let s := if k.level == 0 then s.noteFault 0 k.index else s
  if k.level == 4 then s.coldStart s.boot.straps
  else if up.level < 3 then s.beginRecovery up c
  else s.recoverOnHub up c

/-- What follows from the disposition. -/
def State.actOn (s : State) (d : Dom) (p : Dispose) (c : Cause) : State :=
  match p with
  | .none => s
  | .merge => s
  | .begin => s.beginRecovery d c
  | .queue => s.queueRecovery d c
  | .escalate k => s.escalate k c
  | .die => s.recoverOnHub ⟨3, domDie d⟩ c

/-- A RECOVER event attributed to a domain: recorded with what is done about it, and done. `before` runs between the two. -/
def State.recoverEvent (s : State) (src : Nat) (d : Dom) (payload : Nat) (fromHbm : Bool := false)
    (before : State → Dispose → State := fun s _ => s) : State :=
  let p := s.dispose d
  let seq := s.nextSeq (domDie d)
  let s := s.record (domDie d) src sevRecover d.level p.action d.index (s.domGen d) payload
  ((before s p).actOn d p ⟨seq, src, fromHbm⟩).settle

/-! ### The reset of a domain (R472) -/

/-- Bytes of SRAM that a domain's reset clears. -/
def sramOf (d : Dom) (p : Nat) : Bool :=
  if d.level == 1 then
    let b := placeSram (clusterDie d.index) (0x10000000 + d.index % 32 * 0x800000)
    decide (b ≤ p) && decide (p < b + 0x600000)
  else if d.level == 2 then
    let b := placeSram (regionDie d.index) (d.index % 4 * 2 ^ 24)
    let c := placeSram (regionDie d.index) (0x10000000 + d.index % 4 * 8 * 0x800000)
    (decide (b ≤ p) && decide (p < b + 2 ^ 24)) || (decide (c ≤ p) && decide (p < c + 8 * 0x800000))
  else if d.level == 3 then decide (placeSram d.index 0 ≤ p) && decide (p < placeSram (d.index + 1) 0)
  else false

/-- The SRAM of a domain becomes zero, with valid codes (R473 step 4). -/
def State.clearSram (s : State) (d : Dom) : State :=
  { s with mem := { s.mem with
      bytes := tkeep (fun p => !sramOf d p) s.mem.bytes, poison := tkeep (fun l => !sramOf d (l * 64)) s.mem.poison } }

/-- A spilled token is discarded, and SPILL of its record lowered (10 R321). -/
def State.dropSpill (s : State) (t : SpillTok) : State :=
  match s.kvRec t.seq t.layer with
  | some r => s.setRecField t.seq t.layer 0x14 2 (r.spill - 1)
  | none => s

/-- The spill slots of the clusters of a domain are emptied. -/
def State.dropSpills (s : State) (d : Dom) : State :=
  (List.range 128).foldl (fun s c =>
    if domWithin ⟨1, c⟩ d then ((s.spillOf c).foldl State.dropSpill s).setSpill c [] else s) s

/-- The ports of a die: those it is home to, and those whose lanes 4–7 are its (13 R406, R410). -/
def homePorts (die : Nat) : List Nat := (List.range 18).filter fun p => portDie p == die
def State.dropPorts (s : State) (die : Nat) : State :=
  let s := (homePorts die).foldl (fun s p => if s.portState p == 0 then s else s.portDown p 0) s
  [16, 17].foldl (fun s p => if portDie p + 1 == die then s.dropLanes p 0xF0 false else s) s

/-- Waits registered on the Cleats of a die are discarded (03 R111). -/
def Item.dropWaits (x : Item) (die : Nat) : Item :=
  let one := fun (st : WaitSt) (w : Nat) => if st = .registered ∧ waitDie w = die then WaitSt.discarded else st
  { x with w0 := one x.w0 (x.wait 0), w1 := one x.w1 (x.wait 1) }

/-- What the reset of a ply die clears beside its registers and SRAM: Cleats, waits, trackers, result slots, guard slots, mailboxes,
ports; its stacks' operations are aborted, and the stacks are in self-refresh (R472; 02 R79; 03 R90, R111; 07 R220; 12 R390,
R393; 13 R410). -/
def State.resetDie (s : State) (die : Nat) : State :=
  let s := s.dropPorts die
  let s := { s with
    cleats := tkeep (fun k => k / 16384 != die) s.cleats
    arms := s.arms.filter fun a => a.die != die
    items := s.items.map fun e => (e.1, e.2.map fun x => x.dropWaits die)
    trk := tkeep (fun k => k / 4096 != die) s.trk
    results := tkeep (fun k => k / 256 != die) s.results
    resultPoison := tkeep (fun k => k / 256 != die) s.resultPoison
    guards := tkeep (fun k => k / 64 != die) s.guards
    mbx := tkeep (fun k => k / 64 != die) s.mbx }
  (List.range 4).foldl (fun s k =>
    let i := 4 * die + k
    let s := (s.setProgress (progTrain i) (s.progress (progTrain i)).abort).setProgress (progScrub i) (s.progress (progScrub i)).abort
    { s with mem := { s.mem with selfRef := tset dF s.mem.selfRef i (tget dF s.mem.trained i) } }) s

/-- Step 4 of a recovery: the domain is reset. -/
def State.resetDomain (s : State) (d : Dom) : State :=
  if d.level == 4 then (s.dropSpills d).warmStart
  else
    let s := if d.level == 0 then s else (s.dropSpills d).clearSram d
    let s := if d.level == 3 then s.resetDie d.index else s
    s.resetRegs d

/-! ### The end of a recovery (R473 steps 5 to 7, R493) -/

/-- An item touches a domain that is frozen: its region, or a unit it ran on. -/
def State.itemFrozen (s : State) (region : Nat) (x : Item) : Bool :=
  s.frozen ⟨2, region⟩ || (unitList region x.units).any fun u => s.frozen ⟨0, u⟩

/-- Held records of items that touch no frozen domain any more, oldest completion first. -/
def State.heldItems (s : State) : List (Nat × Item × Nat) :=
  (s.items.filterMap fun e =>
    match e.2 with
    | some x => match x.waiting with
      | some (_, r, true) => if s.itemFrozen (e.1 / 256) x then none else some (e.1, x, r)
      | _ => none
    | none => none).mergeSort fun a b => decide (a.2.1.doneSeq ≤ b.2.1.doneSeq)

/-- The Fid issues RELEASE for the pins of items whose end it held (10 R310). -/
def State.releasePins (s : State) : State :=
  s.heldItems.foldl (fun s e =>
    match e.2.1.pin with
    | some p => (s.setItem (e.1 / 256) (e.1 % 256) (some { e.2.1 with pin := none })).releasePin (e.2.1.opnd 0x6C 2) p
    | none => s) s

/-- The records held are delivered. -/
def State.deliverHeld (s : State) : State :=
  s.heldItems.foldl (fun s e => s.deliver (e.1 / 256) (e.1 % 256) { e.2.1 with waiting := none } e.2.2 false) s

/-- A unit's fence is lifted: it is reset, its faults are forgotten, and it returns to service (R494). -/
def State.unfenceNow (s : State) (u : Nat) : State :=
  let s := { s with fenced := tset dF s.fenced u false, faults := s.faults.filter fun f => f.1 != 0 || f.2.1 != u }
  let d : Dom := ⟨0, u⟩
  let s := s.rewriteInst u
  let p := s.dispose d
  let seq := s.nextSeq (domDie d)
  (s.fidEvent (if p == .queue then 4 else 1) p.action d 0 0).actOn d p ⟨seq, 9, false⟩

/-- Fences decided during a recovery take effect, and fences whose lifting waited are lifted, where nothing recovers any more. -/
def State.dueFences (s : State) : State :=
  let now := s.fenceDue.filter fun f => !s.frozen ⟨f.1, f.2⟩
  let s := { s with fenceDue := s.fenceDue.filter fun f => s.frozen ⟨f.1, f.2⟩ }
  let s := now.foldl (fun s f => if (domUnits f.1 f.2).all s.unitFenced then s else s.fenceNow f.1 f.2) s
  let un := s.unfenceDue.filter fun u => !s.frozen ⟨0, u⟩
  let s := { s with unfenceDue := s.unfenceDue.filter fun u => s.frozen ⟨0, u⟩ }
  un.foldl State.unfenceNow s

/-- The captures of a recovery take what is known at its end (R482). -/
def State.closeCaptures (s : State) (r : Recovery) (us : Nat) : State :=
  r.snarl.foldl (fun s k => s.modSnarl k fun c =>
    { c with genAfter := s.domGen c.dom, layDone := s.lay.now, durUs := us }) s

/-- Steps 6 and 7: homes are rewritten, pins released, the end is recorded and counted, records are written, and work goes on. -/
def State.endRecovery (s : State) (f : Nat) (r : Recovery) : State :=
  let d := r.dom
  let s := s.setFid f { s.fid f with active := none }
  let s := s.rewriteHomes d
  let s := if d.level != 3 then s else
    let s := (List.range 4).foldl (fun s k =>
      let i := 4 * d.index + k
      let p := s.progress (progScrub i)
      let s := if p.state == 4 then s.setProgress (progScrub i) { p with state := 1, lastError := 0 } else s
      { s with mem := { s.mem with selfRef := tset dF s.mem.selfRef i false } }) s
    (homePorts d.index).foldl (fun s p => s.portRetrainOne p) s
  let us := (s.lay.now - r.from2) * 10 ^ 6 / 2 ^ 32
  let s := s.releasePins
  let s := (s.fidEvent 2 3 d d.level d.level us (r.snarl.headD 0 % 32)).mcBump 0x40A1 d.level 1
  let s := (s.flag .errSts (domDie d) 0 4).closeCaptures r us
  s.deliverHeld.flushRings.releaseOps.dueFences.settle

/-- FID_DRAIN_DONE (R473, R474): every request of the domain in recovery is answered or has expired; the domain is reset. -/
def execFidDrainDone (fid : Nat) (s : State) : Host.Outcome State Fault Refusal :=
  .next (match (s.fid fid).active with
    | some r =>
      if r.step != 3 then s
      else (s.setFid fid { s.fid fid with active := some { r with step := 4, drained := true } }).resetDomain r.dom
    | none => s)

/-- Stacks that failed the pattern check are trained again, their contents kept (12 R393). -/
def State.retrain (s : State) (l : List Nat) : State :=
  l.foldl (fun s k => ({ s with mem := { s.mem with
    trained := tset dF s.mem.trained k false, selfRef := tset dF s.mem.selfRef k false } }).startProgress (progTrain k) 0x100 64) s

/-- FID_RECOVERY_DONE (R473, 12 R393): the reset of a domain and its memory checks are finished. Stacks named failed the pattern
check: they are trained first. The package's own recovery ends with its start-up. -/
def execFidRecoveryDone (fid : Nat) (badStacks : List Nat) (s : State) : Host.Outcome State Fault Refusal :=
  .next (match (s.fid fid).active with
    | none => s
    | some r =>
      if r.step < 4 then s
      else if r.dom.level == 4 then
        (if s.boot.stage == 3 && r.step == 4
         then (s.retrain ((badStacks.filter fun k => decide (k < 16)).eraseDups)).setFid fid { s.fid fid with active := some { r with step := 5 } }
         else s)
      else
        let bad := (badStacks.filter fun k => r.dom.level == 3 && decide (k < 16) && stackDie k == r.dom.index).eraseDups
        if r.step == 4 && !bad.isEmpty
        then (s.retrain bad).setFid fid { s.fid fid with active := some { r with step := 5 } }
        else if r.dom.level == 3 && (List.range 4).any fun k => (s.progress (progTrain (4 * r.dom.index + k))).state == 1 then s
        else s.endRecovery fid r)

/-- FID_QUEUED_START (R487): the oldest queued recovery of a free Fid runs from step 2, unless a recovery that contains its domain
runs. -/
def execFidQueuedStart (fid : Nat) (s : State) : Host.Outcome State Fault Refusal :=
  .next (match (s.fid fid).active, (s.fid fid).queue with
    | none, r :: rest =>
      if (List.range 5).any fun f => (s.fid f).active.any fun a => domWithin r.dom a.dom then s
      else (s.setFid fid { s.fid fid with queue := rest }).startRecovery r
    | _, _ => s)

/-! ### RESET_REQUEST (R476, R498) -/

/-- A reset that software asks for: recorded as begun or queued, and done (R476, R477). -/
def State.requestReset (s : State) (d : Dom) : State :=
  let p := s.dispose d
  match p with
  | .none | .merge | .escalate _ => s
  | _ =>
    let seq := s.nextSeq (domDie d)
    ((s.fidEvent (if p == .queue then 4 else 1) p.action d d.level d.level).actOn d p ⟨seq, 9, false⟩).settle

/-- The effect of RESET_REQUEST. In Bitter-end mode the dies stay in reset, and a reset of the package starts it again (15 R511). -/
def State.resetRequest (s : State) (level index : Nat) : State :=
  if !s.boot.power || s.boot.boardLow then s
  else if level == 5 || (level == 4 && s.boot.bitter) then s.notCounted.coldStart s.boot.straps
  else if level == 4 then
    (if (s.fid 4).active.any fun r => r.dom.level == 4 then s else s.notCounted.requestReset ⟨4, 0⟩)
  else if decide (levelCount level ≤ index) || s.frozen ⟨level, index⟩ then s
  else s.requestReset ⟨level, index⟩

/-- RESET_REQUEST (R476). -/
def execResetRequest (_ini level index : Nat) (s : State) : Host.Outcome State Fault Refusal :=
  .next (s.resetRequest level index)

/-! ### Telltales (R467 to R470) -/

/-- PAYLOAD of a Telltale's record. -/
def wdPayload (kind what limitUs elapsedUs : Nat) : Nat :=
  kind * 2 ^ 120 + what % 2 ^ 32 * 2 ^ 64 + sat32 limitUs * 2 ^ 32 + sat32 elapsedUs

/-- The smallest domain that holds all the units an item runs on; its region when it runs on none. -/
def smallestDom (region : Nat) (us : List Nat) : Dom :=
  match us with
  | [] => ⟨2, region⟩
  | u :: rest =>
    if rest.isEmpty then ⟨0, u⟩ else if rest.all fun v => unitCluster v == unitCluster u then ⟨1, unitCluster u⟩ else ⟨2, region⟩

/-- Microseconds in a number of cycles. -/
def usOfCyc (n : Nat) : Nat := n / 2100

/-- The recoveries that run or wait. -/
def State.recoveries (s : State) : List Recovery := (List.range 5).flatMap fun f => (s.fid f).active.toList ++ (s.fid f).queue

/-- The progress Telltale watches an item: it runs and is not waiting for a peer's readiness, or its outputs are on their way, or it has its
units and only memory on a frozen die holds it (R467, R468, R500). -/
def State.progressWatched (s : State) (region slot : Nat) (x : Item) : Bool :=
  x.waitCyc.isNone &&
    (x.stage == .finished || (x.stage == .ready && s.itemHeld region x && (s.chooseUnits region slot x).isSome) || (x.stage == .running &&
      match tget dColl s.colls (itemKey region slot) with
      | some c => !(c.peers.any fun r => !c.ready.any fun q => q.2 == r)
      | none => true))

/-- The cycle of an item's last progress: of one that is held before it starts, when it was ready and its hold had begun. -/
def State.progressFrom (s : State) (x : Item) : Nat :=
  if x.stage == .ready then max x.progCyc (s.recoveries.foldl (fun a r => min a r.beganCyc) s.cycle) else x.progCyc

/-- The units an item runs on, or would start on. -/
def State.unitsOf (s : State) (region slot : Nat) (x : Item) : List Nat :=
  unitList region (if x.stage == .ready then (s.chooseUnits region slot x).getD 0 else x.units)

/-- WD_PROGRESS_EXPIRY (R467, R469): a running item without progress for WD_PROGRESS_MS completes with WATCHDOG, and the smallest
domain that holds its units is reset. -/
def execWdProgressExpiry (region slot : Nat) (s : State) : Host.Outcome State Fault Refusal :=
  .next (match s.item region slot with
    | none => s
    | some x =>
      let start := s.progressFrom x
      let limit := s.limitFor 0x2090 start
      if !s.progressWatched region slot x || s.frozen ⟨2, region⟩ || decide (s.cycle < start + cycOfMs limit) then s
      else
        let d := smallestDom region (s.unitsOf region slot x)
        let s := s.recoverEvent 8 d (wdPayload 0 x.tag (limit * 1000) (usOfCyc (s.cycle - start))) false fun s p =>
          (s.mcBump 0x40A4 0 1).stopItem region slot x stWatchdog (p != .none)
        if d.level == 0 then s.noteFault 0 d.index else s)

/-- The Cleat-wait Telltale watches an item, from a cycle on: an admitted item with an unsatisfied wait slot, the wait between the
passes of a prepass, or a collective that awaits COLL_READY (R467). -/
def State.cleatWatched (s : State) (region slot : Nat) (x : Item) : Option Nat :=
  let open' := fun (w : WaitSt) => w == .registered || w == .discarded
  if x.stage == .admitted && x.prepass == 2 then some x.progCyc
  else if x.stage == .admitted && (open' x.w0 || open' x.w1) then some x.admitCyc
  else if x.stage == .running then
    match tget dColl s.colls (itemKey region slot) with
    | some c => if c.peers.any fun r => !c.ready.any fun q => q.2 == r then some x.startCyc else none
    | none => none
  else none

/-- WD_CLEAT_EXPIRY (R467): a wait of WD_CLEAT_MS ends its item with WATCHDOG. -/
def execWdCleatExpiry (region slot : Nat) (s : State) : Host.Outcome State Fault Refusal :=
  .next (match s.item region slot with
    | none => s
    | some x =>
      match s.cleatWatched region slot x with
      | none => s
      | some from' =>
        let limit := s.limitFor 0x2091 from'
        if s.frozen ⟨2, region⟩ || decide (s.cycle < from' + cycOfMs limit) then s
        else
          let s := s.record (regionDie region) 8 sevDeferred 2 1 region (s.gen 2 region)
            (wdPayload 1 x.tag (limit * 1000) (usOfCyc (s.cycle - from')))
          ((s.mcBump 0x40A4 1 1).stopItem region slot x stWatchdog false).settle)

def dExp : Nat → Option Nat := dN

/-- A Telltale expired less than a second ago. -/
def recentExpiry (e : Option Nat) (now : Nat) : Bool :=
  match e with
  | some c => decide (now < c + cycOfMs 1000)
  | none => false

/-- A VC of a port has packets queued and has had no credit returned for WD_CREDIT_MS (R467). -/
def State.creditStalled (s : State) (port vc : Nat) : Bool :=
  let x := s.port port
  (x.queue.any fun q => kindVc q.kind == vc) && decide (x.since.get vc + cycOfMs (s.limitFor 0x2092 (x.since.get vc)) ≤ s.cycle)

/-- WD_CREDIT_EXPIRY (R467): a port whose VC is stalled retrains at its width; a second stall within a second takes it DOWN. -/
def execWdCreditExpiry (port vc : Nat) (s : State) : Host.Outcome State Fault Refusal :=
  .next (if 18 ≤ port || !s.portUp port || !s.creditStalled port vc then s
    else
      let again := recentExpiry (tget dExp s.creditExp port) s.cycle
      let x := s.port port
      let limit := s.limitFor 0x2092 (x.since.get vc)
      let s := s.record (portDie port) 8 sevDeferred 7 1 0 0 (wdPayload 2 port (limit * 1000) (usOfCyc (s.cycle - x.since.get vc)))
      let s := { s.mcBump 0x40A4 2 1 with creditExp := tset dExp s.creditExp port (some s.cycle) }
      if again then s.portLost port 0 else (s.setPort port { x with since := x.since.set vc s.cycle }).linkRetrain port true)

/-- The physical line of a request held by a controller: `holder` is a stack, or 16 + root port. -/
def holderLine (holder line : Nat) : Nat := if holder < 16 then placeHbm holder 0 / 64 + line else placeFar (holder - 16) 0 / 64 + line

/-- WD_HBM_EXPIRY (R467, R470): a request held by a controller or a root port has expired. The line of a write is unknown until the
marking is written; a second expiry on a stack within a second resets its die. -/
def execWdHbmExpiry (stack line : Nat) (write : Bool) (s : State) : Host.Outcome State Fault Refusal :=
  .next (if 18 ≤ stack then s
    else
      let limit := s.dv 0x2093 0
      let again := decide (stack < 16) && recentExpiry (tget dExp s.hbmExp stack) s.cycle
      let l := holderLine stack line
      let s := { s.mcBump 0x40A4 3 1 with
        hbmExp := tset dExp s.hbmExp stack (some s.cycle)
        mem := if write && !s.mem.markDue.contains l then { s.mem with markDue := l :: s.mem.markDue } else s.mem }
      let payload := wdPayload 3 stack limit limit
      if again then s.recoverEvent 8 ⟨3, stackDie stack⟩ payload true
      else if stack < 16 then s.record (stackDie stack) 8 sevDeferred 3 2 (stackDie stack) (s.gen 3 (stackDie stack)) payload
      else s.record hubDie 8 sevDeferred 7 2 0 0 payload)

/-! ### The SRAM sweep (R458, R459, R492) -/

/-- The domain that owns the word: its array's, or for control state the one its structure code names. -/
def sramDom (e : SramEvent) : Dom :=
  let level := if e.array < 3 then 0 else if e.array == 3 then 1 else if e.array == 4 then 2 else if e.array == 5 then 4
    else min e.structureCode 4
  ⟨level, if level == 4 then 0 else e.index % levelCount level⟩

/-- The line of memory that holds the word: cluster, region and hub buffers are memory. -/
def sramLine (e : SramEvent) : Option Nat :=
  let i := e.index
  if e.array == 3 then some (placeSram (clusterDie (i % 128)) (0x10000000 + i % 32 * 0x800000 + e.offset * 16 % 0x600000) / 64)
  else if e.array == 4 then some (placeSram (regionDie (i % 16)) (i % 4 * 2 ^ 24 + e.offset * 16 % 2 ^ 24) / 64)
  else if e.array == 5 then some (placeSram 4 (e.offset * 16 % 2 ^ 24) / 64)
  else none

/-- PAYLOAD of an SRAM record. -/
def sramPayload (e : SramEvent) : Nat :=
  e.array % 256 * 2 ^ 120 + (if e.uncorrectable then 2 else 1) * 2 ^ 112 + (if e.array == 6 then e.structureCode % 65536 else 0) * 2 ^ 96
    + e.offset % 2 ^ 32 * 2 ^ 64 + e.syndrome % 2 ^ 64

/-- Lines of the fetch blocks that an item holds queued in the local buffers of its units. -/
def Item.queuedLines (x : Item) : List Nat :=
  (x.fetched.foldl (fun (l : List Nat) e => if l.head? == some (e.1 / 64) then l else e.1 / 64 :: l) []).reverse

/-- An uncorrectable word in the local buffer of a unit: where the buffer holds a queued fetch block at that word, the block is delivered
poisoned (R459, 03 R121). The place of a block in the buffer is left open: a free value chooses one of them, or a word that holds none
(log entry 68). -/
def State.poisonQueued (s : State) (u : Nat) : State :=
  let l := s.items.flatMap fun e => match e.2 with
    | some x => if e.1 / 256 == unitRegion u && bit x.units (u % 32) && x.stage == .running then x.queuedLines.map fun n => (e.1, n) else []
    | none => []
  if l.isEmpty then s
  else
    let f := s.free
    match l[f.1 % (l.length + 1)]? with
    | some p => match f.2.item (p.1 / 256) (p.1 % 256) with
      | some x => f.2.setItem (p.1 / 256) (p.1 % 256) (some { x with fetchedPoison := tset dF x.fetchedPoison p.2 true })
      | none => f.2
    | none => f.2

/-- SRAM_SWEEP (R458, R459): a word is corrected and written back; an uncorrectable word of a data buffer is poisoned; one of control
state resets its owner. A sweep that has not finished within its hour is counted. -/
def execSramSweep (ev : SramEvent) (s : State) : Host.Outcome State Fault Refusal :=
  let d := sramDom ev
  .next (if ev.late then (if ev.die ≤ 4 then s.mcBump 0x40A7 ev.die 1 else s)
    else if 7 ≤ ev.array then s
    else if !ev.uncorrectable then s.record (domDie d) 3 sevCorrected d.level 1 d.index (s.domGen d) (sramPayload ev)
    else
      let s :=
        if ev.array == 6 then s.recoverEvent 3 d (sramPayload ev)
        else
          let s := s.record (domDie d) 3 sevDeferred d.level 2 d.index (s.domGen d) (sramPayload ev)
          match sramLine ev with
          | some l => { s with mem := s.mem.setPoison l true }
          | none => if ev.array == 0 then s.poisonQueued d.index else s
      (if d.level < 3 then s.noteFault d.level d.index else s).settle)

/-! ### Fences (R493, R494) -/

/-- Units that a 64-bit mask of a subindex names. -/
def maskUnits (sub mask : Nat) : List Nat :=
  (List.range 64).filterMap fun i => if bit mask i && decide (64 * sub + i < 512) then some (64 * sub + i) else none

/-- The effect of FENCE_SET: units that are not fenced are. -/
def State.fenceUnits (s : State) (sub mask : Nat) : State :=
  ((maskUnits sub mask).foldl (fun s u => if s.unitFenced u then s else s.fence 0 u) s).settle

/-- FENCE_SET (R494). -/
def execFenceSet (_ini sub mask : Nat) (s : State) : Host.Outcome State Fault Refusal := .next (s.fenceUnits sub mask)

/-- The effect of FENCE_CLEAR: fences are lifted, after the recovery in progress where there is one (R500). -/
def State.unfenceUnits (s : State) (sub mask : Nat) : State :=
  ((maskUnits sub mask).foldl (fun s u =>
    if !s.unitFenced u then s
    else if s.frozen ⟨0, u⟩ then { s with unfenceDue := if s.unfenceDue.contains u then s.unfenceDue else s.unfenceDue ++ [u] }
    else s.unfenceNow u) s).settle

/-- FENCE_CLEAR (R494). -/
def execFenceClear (_ini sub mask : Nat) (s : State) : Host.Outcome State Fault Refusal := .next (s.unfenceUnits sub mask)

/-! ### Ring and controller (R463, R495 to R497) -/

/-- The effect of ERR_CLEAR's CLR_OVF. -/
def State.errClear (s : State) (die value : Nat) : State :=
  if bit value 31 then s.setErrDie die { s.errDie die with overflow := false, lostSev := 0, firstLost := 0 } else s

/-- ERR_CLEAR (R497). -/
def execErrClear (_ini die value : Nat) (s : State) : Host.Outcome State Fault Refusal := .next (s.errClear die value)

/-- MC_TELLTALE_EXPIRY (R496): the management controller restarts; its sessions lapse. A failed check of its image causes a package
warm reset. -/
def execMcTelltaleExpiry (imageOk : Bool) (s : State) : Host.Outcome State Fault Refusal :=
  let s := { s.mcBump 0x4012 2 s.sessions.length with sessions := [], ownerSession := 0 }
  -- the firmware update is the controller's own operation (02 R79)
  let s := s.setProgress 0x7030 (s.progress 0x7030).abort
  let s := s.record hubDie 11 sevCorrected 7 1 0 0 (1 * 2 ^ 120)
  .next (if imageOk then s else s.recoverEvent 11 ⟨4, 0⟩ (2 * 2 ^ 120))

/-- POWER_OFF_REQUEST (R495; 17 R558): PWROFF_REQ_N is asserted. -/
def State.powerOff (s : State) : State := { s with power := { s.power with offReq := true } }
def execPowerOffRequest (_ini : Nat) (s : State) : Host.Outcome State Fault Refusal := .next s.powerOff

/-- DIE_TO_DIE_LINK_ERROR (R462): recorded with SRC 0x05. -/
def execDieToDieLinkError (die edge kind : Nat) (s : State) : Host.Outcome State Fault Refusal :=
  .next (if 4 < die || 2 < edge || kind == 0 || 3 < kind then s
    else
      let d : Dom := if die < 4 then ⟨3, die⟩ else ⟨4, 0⟩
      s.record die 5 (if kind == 3 then sevFatal else sevCorrected) d.level (if kind == 3 then 0 else 1) d.index (s.domGen d)
        (edge * 2 ^ 120 + kind * 2 ^ 112))

/-! ### SNARL_COPY (R482) -/

/-- Bytes of the capture in a slot, with their poison. -/
def State.snarlBytes (s : State) (area slot n : Nat) : List (Byte × Bool) :=
  (List.range n).map fun i =>
    let p := s.snarlPlace area (snarlOff slot + i)
    (s.mem.byteAt p, s.mem.marked (p / 64))

/-- The run of SNARL_COPY: the whole capture goes to stream C as bytes. -/
def State.snarlCopyRun (s : State) (_region : Nat) (x : Item) : RunOut :=
  let area := x.opnd 0x68 1
  let slot := x.opnd 0x69 1
  let c := s.strm x 2
  match s.snarlIn area slot with
  | none => .bad (9, 0, 0)
  | some k =>
    s.gated x [s.bytesCheck c true, if c.byteCount == k.length then none else some (9, 2, 0)] [] fun _ =>
      let bs := s.snarlBytes area slot k.length
      .ok 0 fun s x => (s.writeByteStream (s.strm x 2) bs, moveResult 10 bs.length 0 (bs.any (·.2)))

/-- SNARL_COPY (R482). A capture in the area of a die in recovery is not read yet (R475). -/
def execSnarlCopy (region slot : Nat) (s : State) : Host.Outcome State Fault Refusal :=
  .next (match s.item region slot with
    | some x => if x.opnd 0x68 1 < 4 && s.dieDown (x.opnd 0x68 1) then s else s.runItem region slot (takesMove 0x30) State.snarlCopyRun
    | none => s)

end Sys2Proof.Machine
end

