-- ==== Sys2Proof/Machine/Boot.lean ====
section
/-! DEFINITION. Start-up, firmware slots, keys, attestation, debug, and the context record (15; 08 R266, R267; 12 R391 to R394). -/

namespace Sys2Proof.Machine

/-! ### Images and slots (15 R502 to R504, R511 to R513) -/

/-- Byte x of firmware slot 0 or 1. -/
def Boot.slotByte (b : Boot) (slot x : Nat) : Byte := tget dB b.flash ((if slot == 0 then 0x100000 else 0x2000000) + x)
def Boot.slotBytes (b : Boot) (slot x n : Nat) : List Byte := (List.range n).map fun i => b.slotByte slot (x + i)
def Boot.slotNum (b : Boot) (slot x n : Nat) : Nat := leNat (b.slotBytes slot x n)

def slotSize : Nat := 31 * 2 ^ 20

/-- Where image k (0–3: S1, MC, S2, APP) of a bundle begins: each follows the one before it at the next 64 KiB boundary. -/
def Boot.imageAt (b : Boot) (slot : Nat) : Nat → Nat
  | 0 => 0
  | k + 1 => let a := b.imageAt slot k; (a + 0x4000 + b.slotNum slot (a + 0x10) 8 + 0xFFFF) / 0x10000 * 0x10000

def Boot.imageSvn (b : Boot) (slot k : Nat) : Nat := b.slotNum slot (b.imageAt slot k + 8) 4
/-- D_x: the DIGEST of an image. -/
def Boot.imageDigest (b : Boot) (slot k : Nat) : List Byte := b.slotBytes slot (b.imageAt slot k + 0x20) 32

/-- The reason for which image k of a slot is refused, 0 when it is accepted (R504, R511): its header, its signatures, its payload's
digest, its security version. -/
def Boot.imageReason (b : Boot) (slot k : Nat) : Nat :=
  let a := b.imageAt slot k
  let n := b.slotNum slot (a + 0x10) 8
  let pk := b.slotBytes slot (a + 0x40) 1952
  let rooted := let sig := b.slotBytes slot (a + 0x7E0) 3309
    match k, b.ownerDigest with
    | 3, some d => Dsa.verifies (Config.ownerKey d) (sha3 pk) sig
    | _, _ => Dsa.verifies Config.rootKey (sha3 pk) sig
  if slotSize < a + 0x4000 + n || b.slotNum slot a 4 != 0x4B43494D || b.slotNum slot (a + 4) 1 != k + 1
    || !bit (b.slotNum slot (a + 0xC) 4) 9 || decide (64 < b.imageSvn slot k) then 4
  else if !rooted || !Dsa.verifies pk (sha3 (b.slotBytes slot a 0x14D0)) (b.slotBytes slot (a + 0x14D0) 3309) then 1
  else if sha3 (b.slotBytes slot (a + 0x4000) n) != b.imageDigest slot k then 2
  else if b.imageSvn slot k < b.rollback.getD k 0 then 3 else 0

/-- The reason for which a slot is refused: that of its first image refused. -/
def Boot.slotReason (b : Boot) (slot : Nat) : Nat := ((List.range 4).map (b.imageReason slot)).find? (· != 0) |>.getD 0

/-- Bytes of a bundle. -/
def Boot.bundleBytes (b : Boot) (slot : Nat) : Nat := b.imageAt slot 3 + 0x4000 + b.slotNum slot (b.imageAt slot 3 + 0x10) 8

def Boot.info (b : Boot) (slot : Nat) : SlotInfo := if slot == 0 then b.slotA else b.slotB
def Boot.setInfo (b : Boot) (slot : Nat) (x : SlotInfo) : Boot := if slot == 0 then { b with slotA := x } else { b with slotB := x }

/-! ### Stages (R506 to R510; 12 R391 to R394) -/

/-- The management controller runs: from stage 2 of a cold boot on, throughout a warm reset, and in Bitter-end mode. -/
def State.mcUp (s : State) : Bool := s.boot.power && !s.boot.boardLow && (s.boot.bitter || s.boot.warm || decide (2 ≤ s.boot.stage))

/-- Every stack is trained and none is in training. -/
def State.allTrained (s : State) : Bool :=
  (List.range 16).all fun k => tget dF s.mem.trained k && (s.progress (progTrain k)).state != 1

/-- The hub enumerates what is attached to its root ports. -/
def State.enumFar (s : State) : State :=
  (List.range 2).foldl (fun s p =>
    s.setFarPort p (match Config.farDevice s.freeCtr p with
      | some (cap, lanes, gts) =>
        { present := true, capacity := min cap (2 ^ 41), up := farRateOk lanes gts, lanes := lanes, gts := gts, downCyc := s.cycle }
      | none => {})) { s with freeCtr := s.freeCtr + 1 }

/-- HBM training of a cold boot; in a warm reset stacks leave self-refresh, and one that was not trained is. -/
def State.trainStage (s : State) : State :=
  if s.boot.warm then
    let s := { s with mem := { s.mem with selfRef := [] } }
    let s := ((List.range 16).filter fun k => tget dF s.mem.trained k).foldl State.scrubRuns s
    s.retrain ((List.range 16).filter fun k => !tget dF s.mem.trained k)
  else (List.range 16).foldl (fun s k => s.startProgress (progTrain k) 0x100 64) s

/-- Stage 5: SRAM, Cleats and the step table are cleared; HBM, the far tier and the fallback Snarl area are not SRAM to clear. -/
def State.clearStage (s : State) : State :=
  let keep := fun (p : Nat) => decide (p < 2 ^ 48) || decide (2 ^ 50 ≤ p) || decide (placeSram 4 0xC00000 ≤ p)
  { s with cleats := [], steps := []
           mem := { s.mem with bytes := tkeep keep s.mem.bytes, poison := tkeep (fun l => keep (l * 64)) s.mem.poison } }

/-- READY: the attempt is over, the slot that runs is ACTIVE, enabled ports come up; a warm reset's recovery ends. -/
def State.ready (s : State) : State :=
  let slot := s.boot.slot
  let s := s.modRec fun r => { r with attempts := 0, active := slot }
  let s := { s with boot := { s.boot with
    stage := 7, stageCyc := s.cycle, bootMs := (s.cycle - s.boot.began) / 2100000, warm := false } }
  let s := match (s.fid 4).active with
    | some r => if r.dom.level == 4 then s.endRecovery 4 r else s
    | none => s
  (List.range 18).foldl State.portRetrainOne s

/-- The next stage begins. -/
def State.nextStage (s : State) : State :=
  let n := s.boot.stage + 1
  if 7 ≤ n then s.ready
  else
    let s := { s with boot := { s.boot with stage := n, stageCyc := s.cycle } }
    if n == 1 then
      (if s.boot.warm && s.boot.debugNext != 0 then { s with boot := { s.boot with debug := s.boot.debugNext, debugNext := 0 } } else s)
    else if n == 2 then s.enumFar
    else if n == 3 then s.trainStage
    else if n == 4 then (if s.boot.warm then s else s.startProgress 0x7040 0x400 528)
    else if n == 5 then s.clearStage
    else s

/-- What the stage in progress waits for has happened: training, the self-test of a cold boot. -/
def State.stageOver (s : State) : Bool :=
  if s.boot.stage == 3 then s.allTrained
  else if s.boot.stage == 4 then s.boot.warm || (s.progress 0x7040).state == 2
  else true

/-- A start is in progress. -/
def State.starting (s : State) : Bool := s.boot.power && !s.boot.boardLow && !s.boot.bitter && s.boot.stage != 7

/-- HBM_TRAINING_DONE (R391, R392): training of a stack in progress ends: reason 0 with the pins whose eye failed, or a
reason of R392, which fails the boot stage of a start. -/
def execHbmTrainingDone (stack reason : Nat) (badPins : List (Nat × Nat)) (s : State) : Host.Outcome State Fault Refusal :=
  if (s.progress (progTrain stack)).state != 1 then .next s
  else
    let reason := if reason == 0 && tooManyPins badPins then 0x21 else reason
    if reason == 0 then
      let s := s.setErasures stack badPins
      let s := { s with mem := { s.mem with
        trained := tset dF s.mem.trained stack true, selfRef := tset dF s.mem.selfRef stack false
        pinLines := tkeep (fun k => k / (64 * 36) != stack) s.mem.pinLines
        pinDone := tkeep (fun k => k / (64 * 36) != stack) s.mem.pinDone } }
      .next ((s.setProgress (progTrain stack) { s.progress (progTrain stack) with state := 2, position := 64 }).scrubRuns stack)
    else
      let p := s.progress (progTrain stack)
      let s := s.setProgress (progTrain stack) { p with
        state := 3, lastError := reason, position := if reason == 0x20 then 0 else 64 }
      let s := s.memRecord stack 3 0 (memPayload 5 stack 0 false false 0 0 reason)
      .next (if s.starting && s.boot.stage == 3 then s.startFails reason else s)

/-- BOOT_STAGE_DONE (R506 to R508): the stage in progress ends with no reason, and the next begins, or it fails. A slot that fails
verification gives way to the other one once, when BOOT is 0b00. -/
def execBootStageDone (reason : Nat) (s : State) : Host.Outcome State Fault Refusal :=
  .next (if !s.starting then s
    else if reason == 0 then (if s.stageOver then s.nextStage else s)
    else if reason ≤ 4 && s.strapBoot == 0 && !s.boot.second then
      { s with boot := { s.boot with slot := 1 - s.boot.slot, second := true, stage := 0, stageCyc := s.cycle } }
    else s.startFails reason)

/-- Limits of the stages, s. -/
def stageLimit (stage : Nat) : Nat := [5, 5, 10, 20, 120, 30, 30].getD stage 30

/-- BOOT_STAGE_TIMEOUT (R508): a stage overruns its limit. -/
def execBootStageTimeout (s : State) : Host.Outcome State Fault Refusal :=
  .next (if s.starting && decide (s.boot.stageCyc + cycOfMs (stageLimit s.boot.stage * 1000) ≤ s.cycle) then s.startFails 5 else s)

/-- COLD_BOOT (R501, R508): the rising edge of PWR_GOOD. -/
def execColdBoot (straps : Nat) (s : State) : Host.Outcome State Fault Refusal := .next (s.coldStart straps)

/-- SELF_TEST_DONE (R510): units, clusters and regions that failed are fenced; a die-level structure that failed fails the boot. -/
def execSelfTestDone (bad : List Dom) (s : State) : Host.Outcome State Fault Refusal :=
  .next (if !s.starting || s.boot.stage != 4 || (s.progress 0x7040).state != 1 then s
    else if bad.any fun d => decide (3 ≤ d.level) then (s.endProgress 0x7040 3 0x30).startFails 0x30
    else
      let s := bad.foldl (fun s d =>
        if d.index < levelCount d.level && !((domUnits d.level d.index).all s.unitFenced) then s.fence d.level d.index else s) s
      s.setProgress 0x7040 { s.progress 0x7040 with state := 2, position := 528 })

/-! ### Firmware update (R512) -/

/-- The slot an update writes. -/
def Boot.spare (b : Boot) : Nat := 1 - b.record.active

/-- The effect of FW_DATA: 256 bytes at FW_OFFSET of the slot that is not ACTIVE; and the status. -/
def State.fwData (s : State) (data : List Byte) : State × Nat :=
  let off := s.dv 0x8050 0
  let p := s.progress 0x7030
  if p.busy then (s, agBusy)
  else if slotSize ≤ off then (s, agRange)
  else
    let b := s.boot
    let base := (if b.spare == 0 then 0x100000 else 0x2000000) + off
    let flash := ((data ++ List.replicate 256 0#8).take 256).zipIdx.foldl (fun (t : Sparse Byte) x => tset dB t (base + x.2) x.1) b.flash
    let b2 : Boot := { b with flash := flash }
    let s := { s with boot := b2.setInfo b.spare ({ b.info b.spare with verified := false } : SlotInfo) }
    let s := s.setProgress 0x7030 { p with
      state := 0, operation := 0x300, lastError := 0, position := (if off == 0 then 0 else p.position) + 256 }
    (s.setDv 0x8050 0 (off + 256), agOk)

/-- FW_DATA (R512). -/
def execFwData (_ini : Nat) (data : List Byte) (s : State) : Host.Outcome State Fault Refusal := .next (s.fwData data).1

/-- The effect of FW_COMMIT: verification of the slot begins. -/
def State.fwCommit (s : State) : State × Nat :=
  if (s.progress 0x7030).busy then (s, agBusy)
  else (s.startProgress 0x7030 0x300 (min (s.boot.bundleBytes s.boot.spare) slotSize), agOk)

/-- FW_COMMIT (R512). -/
def execFwCommit (_ini : Nat) (s : State) : Host.Outcome State Fault Refusal := .next s.fwCommit.1

/-- FW_VERIFY_DONE (R504, R512): the verification in progress ends: the slot is VERIFIED, or the reason of its first refused image
is shown. -/
def execFwVerifyDone (s : State) : Host.Outcome State Fault Refusal :=
  let p := s.progress 0x7030
  .next (if p.state != 1 then s
    else
      let b := s.boot
      let n := b.spare
      let r := b.slotReason n
      if r == 0 then
        let x : SlotInfo := { verified := true, kinds := 15, svn := ((List.range 4).map (b.imageSvn n)).foldl min 64 }
        ({ s with boot := b.setInfo n x }).setProgress 0x7030 { p with state := 2, position := p.total }
      else
        let bad := ((List.range 4).find? fun k => b.imageReason n k != 0).getD 0
        let x : SlotInfo := { verified := false, kinds := 2 ^ bad - 1, svn := ((List.range bad).map (b.imageSvn n)).foldl min 64 }
        ({ s with boot := b.setInfo n x }).endProgress 0x7030 3 r)

/-! ### The boot-attempt record and the fuses (R504, R511, R513) -/

/-- ACTIVE_SLOT (R511): the slot that the next start tries first. -/
def State.activeSlot (s : State) (v : Nat) : State := s.modRec fun r => { r with active := v % 2 }
def execActiveSlot (_ini value : Nat) (s : State) : Host.Outcome State Fault Refusal :=
  .next (if value ≤ 1 then s.activeSlot value else s)

/-- BOOT_RECORD_CLEAR (R511): ATTEMPTS 0, FAILED cleared. -/
def State.bootRecordClear (s : State) : State := s.modRec fun r => { r with attempts := 0, failed := [0, 0, 0], noted := false }
def execBootRecordClear (_ini : Nat) (s : State) : Host.Outcome State Fault Refusal := .next s.bootRecordClear

/-- ROLLBACK_COMMIT (R513, R524), in READY only: each counter rises to the running image's SVN, and a slot of lower SVN stops
verifying. -/
def State.rollbackCommit (s : State) : State × Nat :=
  if s.boot.stage != 7 || s.held then (s, agBusy)
  else
    let b := s.boot
    let b := { b with rollback := (List.range 4).map fun k => max (b.rollback.getD k 0) (min 64 (b.imageSvn b.slot k)) }
    let b := [0, 1].foldl (fun (b : Boot) n =>
      if (List.range 4).any fun k => decide (b.imageSvn n k < b.rollback.getD k 0) then b.setInfo n { b.info n with verified := false } else b) b
    ({ s with boot := b }, agOk)
def execRollbackCommit (_ini : Nat) (s : State) : Host.Outcome State Fault Refusal := .next s.rollbackCommit.1

/-- OWNER_DIGEST (R504, R522): fused once. -/
def State.ownerFuse (s : State) (data : List Byte) : State × Nat :=
  match s.boot.ownerDigest with
  | some _ => (s, agDenied)
  | none => ({ s with boot := { s.boot with ownerDigest := some ((data ++ List.replicate 32 0#8).take 32) } }, agOk)
def execOwnerDigest (_ini : Nat) (data : List Byte) (s : State) : Host.Outcome State Fault Refusal := .next (s.ownerFuse data).1

/-! ### Keys (R516) -/

/-- A slot of the key record is rewritten; VER advances. -/
def State.writeKey (s : State) (slot : Nat) (data : List Byte) : State :=
  let ver := match tget dN s.keys slot with | some k => k.ver + 1 | none => 1
  { s with keys := tset dN s.keys slot (some ⟨(data ++ List.replicate 32 0#8).take 32, ver % 2 ^ 32⟩) }

/-- KEY_SLOT (R516). -/
def execKeySlot (_ini sub : Nat) (data : List Byte) (s : State) : Host.Outcome State Fault Refusal :=
  .next (if sub < 8 then s.writeKey sub data else s)

/-- FM_KEY (R516). -/
def execFmKey (_ini : Nat) (data : List Byte) (s : State) : Host.Outcome State Fault Refusal := .next (s.writeKey 8 data)

/-! ### Identity and attestation (R514, R515) -/

/-- The digests of the images that run; in Bitter-end mode those of a slot that verified. -/
def State.digests (s : State) : List Byte :=
  (List.range 4).flatMap fun k =>
    if s.boot.bitter && !(s.boot.info s.boot.slot).verified then List.replicate 32 0#8 else s.boot.imageDigest s.boot.slot k

/-- Seeds of the device key and of the attestation key. -/
def deviceSeed : List Byte := sha3 (Config.uds ++ [1#8])
def State.attestSeed (s : State) : List Byte :=
  sha3 (Config.uds ++ [2#8] ++ s.digests ++ [if s.boot.debug == 0 then 0#8 else 1#8])

/-- Exactly n bytes. -/
def fitBytes (n : Nat) (l : List Byte) : List Byte := (l ++ List.replicate n 0#8).take n

/-- The 32 random bytes of a hedged signature (R504): free. -/
def randomBytes (use n : Nat) : List Byte := (List.range 32).map fun i => Config.freeByte (2 * n + use) i

/-- The certificate over the attestation key: KIND 2, SERIAL, the device key's digest, the key, a signature. -/
def State.attestCert (s : State) : List Byte :=
  let pk := Dsa.publicKey s.attestSeed
  let body := leBytes 8 2 ++ leBytes 8 Config.serial ++ sha3 (Dsa.publicKey deviceSeed) ++ List.replicate 16 0#8 ++ pk
  body ++ fitBytes 3309 (Dsa.sign deviceSeed (sha3 body) (randomBytes 0 s.boot.starts))

/-- The 256-byte body of an attestation report. -/
def State.reportBody (s : State) (nonce : List Byte) : List Byte :=
  let b := s.boot
  leBytes 4 0x4B415431
    ++ leBytes 4 (b2n (b.debug != 0) + 2 * b2n b.bitter + 4 * b2n s.strapDbg + 8 * b2n b.ownerDigest.isSome)
    ++ leBytes 8 Config.serial ++ fitBytes 32 nonce ++ leBytes 8 s.lay.now ++ leBytes 8 s.ownerJob ++ s.digests
    ++ (List.range 4).flatMap (fun k => leBytes 4 (b.rollback.getD k 0)) ++ leBytes 4 b.straps ++ leBytes 2 s.pkgGen
    ++ List.replicate 42 0#8

/-- ATTEST_NONCE (R515): a report is asked for. -/
def State.attestNonce (s : State) (data : List Byte) : State :=
  { s with boot := { s.boot with nonce := some (fitBytes 32 data), nonceCyc := s.cycle } }
def execAttestNonce (_ini : Nat) (data : List Byte) (s : State) : Host.Outcome State Fault Refusal := .next (s.attestNonce data)

/-- ATTEST_REPORT_READY (R515): the report asked for stands at ATTEST_REPORT with its signature. -/
def execAttestReportReady (s : State) : Host.Outcome State Fault Refusal :=
  .next (match s.boot.nonce with
    | none => s
    | some n =>
      let body := s.reportBody n
      let sig := fitBytes 3309 (Dsa.sign s.attestSeed (sha3 body) (randomBytes 1 s.freeCtr))
      { s with freeCtr := s.freeCtr + 1, boot := { s.boot with nonce := none, report := body ++ sig } })

/-! ### Debug (R518, R524) -/

/-- DEBUG_TOKEN (R518): a piece of the token. -/
def State.debugToken (s : State) (sub : Nat) (data : List Byte) : State :=
  { s with boot := { s.boot with token := tset (fun _ => []) s.boot.token sub (fitBytes 256 data) } }
def execDebugToken (_ini sub : Nat) (data : List Byte) (s : State) : Host.Outcome State Fault Refusal :=
  .next (if sub < 14 then s.debugToken sub data else s)

/-- The token as written: 64 bytes of body, then its signature. -/
def Boot.tokenBytes (b : Boot) : List Byte := (List.range 14).flatMap fun k => fitBytes 256 (tget (fun _ => []) b.token k)

/-- A token is good: SERIAL at byte 0 of its body, the nonce at 8, the level, 1 or 2, at 40, and Mirior's signature over the body's
digest. -/
def State.tokenGood (s : State) : Bool :=
  let t := s.boot.tokenBytes
  let level := (t.getD 40 0#8).toNat
  s.strapDbg && leNat (t.take 8) == Config.serial % 2 ^ 64 && (t.drop 8).take 32 == fitBytes 32 (Config.debugNonce s.boot.starts)
    && (level == 1 || level == 2) && Dsa.verifies Config.debugKey (sha3 (t.take 64)) ((t.drop 64).take 3309)

/-- DEBUG_ENABLE: a good token causes a package warm reset, with which its level comes into force. -/
def State.debugEnable (s : State) : State × Nat :=
  if s.boot.debug != 0 then (s, agOk)
  else if !s.tokenGood then (s, agGuard)
  else (({ s with boot := { s.boot with debugNext := (s.boot.tokenBytes.getD 40 0#8).toNat } }).resetRequest 4 0, agOk)
def execDebugEnable (_ini : Nat) (s : State) : Host.Outcome State Fault Refusal := .next s.debugEnable.1

/-! ### The context record (R519 to R521; 08 R266, R267) -/

/-- What stands for a step number that is not there. -/
def noStep : Nat := 2 ^ 64 - 1

/-- Section 0x01, Bowline. -/
def State.ctxBowline (s : State) : List Byte :=
  leBytes 8 s.bwlSeedNow ++ leBytes 4 (s.reg .bwlFree).toNat
    ++ (List.range 16).flatMap (fun i => leBytes 4 (s.reg .stepBwl 0 i).toNat) ++ leBytes 4 0

/-- One tracker: CFG, INIT, HCOUNT, 4 bytes of zero, HIST0–HIST15. -/
def State.ctxTracker (s : State) (t : Nat) : List Byte :=
  let x := s.tracker t
  leBytes 4 (s.trkCfg t) ++ leBytes 4 (s.reg .trkInit (t / 4096) (t % 4096)).toNat ++ leBytes 4 (min x.hist.length 16) ++ leBytes 4 0
    ++ (List.range 16).flatMap fun h => leBytes 4 (x.histWord h)

/-- One layer: 16 fault steps, until, narrowed_at, dur, 8 bytes of zero. -/
def State.ctxLayer (s : State) (l : Nat) : List Byte :=
  let x := tget dLayer s.layers l
  (List.range 16).flatMap (fun i => leBytes 8 (x.steps.getD i noStep)) ++ leBytes 8 x.until' ++ leBytes 8 (x.narrowedAt.getD noStep)
    ++ leBytes 8 x.dur ++ leBytes 8 0

/-- SPL_WIDENED, then WIDE_LAYERS. -/
def State.ctxWide (s : State) : List Byte :=
  (List.range 128).flatMap (fun i => leBytes 4 (s.reg .splWidened 0 i).toNat) ++ (List.range 64).flatMap fun i => leBytes 8 (s.dv 0x3100 i)

/-- One policy entry: index, subindex, type, length in 4 bytes, value, padded to 8 bytes. -/
def ctxEntry (idx sub ty len v : Nat) : List Byte := pad8 (leBytes 2 idx ++ leBytes 1 sub ++ leBytes 1 ty ++ leBytes 4 len ++ leBytes len v)

/-- The policy entries and the Halyard sets: every RW entry from 0x3000 to 0x3FFF. -/
def policyRows : List DEntry := dictTable.filter fun d => decide (0x3000 ≤ d.idx) && decide (d.idx < 0x4000) && d.acc == .rw
def State.ctxPolicy (s : State) : List Byte :=
  policyRows.flatMap fun d => (List.range d.idxN).flatMap fun n => d.subs.flatMap fun sub =>
    ctxEntry (d.idx + n) sub d.ty.code d.len (s.dv (d.idx + n) sub)

/-- A list filled up to a multiple of 1,024 bytes. -/
def pad1k (l : List Byte) : List Byte := l ++ List.replicate ((1024 - l.length % 1024) % 1024) 0#8

/-- The sections in the order of their place, the policy section last. -/
def State.ctxSections (s : State) : List (Nat × List Byte) :=
  [ (1, s.ctxBowline), (2, (List.range 16384).flatMap s.ctxTracker), (3, (List.range 4096).flatMap s.ctxLayer), (4, s.ctxWide)
  , (6, leBytes 8 s.lastOpen), (5, s.ctxPolicy) ]

/-- The record: header, table, sections at multiples of 1,024. -/
def State.ctxRecord (s : State) : List Byte :=
  let secs := s.ctxSections
  let placed := secs.foldl (fun (a : List Byte × List Byte) x =>
    (a.1 ++ leBytes 2 x.1 ++ leBytes 2 0 ++ leBytes 4 (1024 + a.2.length), a.2 ++ (if x.1 == 5 then x.2 else pad1k x.2))) ([], [])
  let tail := fitBytes (1024 - 0x30) placed.1 ++ placed.2
  leBytes 4 0x4B435831 ++ leBytes 2 9 ++ leBytes 2 secs.length ++ leBytes 8 (0x30 + tail.length) ++ sha3 tail ++ tail

/-- Bytes of the record: 1,970,176 and the policy section. -/
def State.ctxLength (s : State) : Nat := 1970176 + s.ctxPolicy.length

def State.allFree (s : State) : Bool := (List.range 16).all fun i => (s.step i).state == 0

/-- The effect of CTX_SAVE: refused unless every step slot is FREE. -/
def State.ctxSave (s : State) : State × Nat :=
  if !s.allFree || (s.progress 0x7020).busy then (s, agBusy)
  else (({ s with boot := { s.boot with ctxAddr := s.dv 0x20A0 0, ctxLen := s.dv 0x20A0 1 } }).startProgress 0x7020 0x200 s.ctxLength, agOk)

/-- CTX_SAVE (R520). -/
def execCtxSave (_ini : Nat) (s : State) : Host.Outcome State Fault Refusal := .next s.ctxSave.1

/-- CTX_SAVE_DONE (R520): the record stands in memory, or the save fails because CTX_LEN does not cover it, or because the area does
not lie in the map (LAST_ERROR 0x000A). -/
def execCtxSaveDone (s : State) : Host.Outcome State Fault Refusal :=
  let p := s.progress 0x7020
  let n := s.ctxLength
  .next (if p.state != 1 then s
    else if s.boot.ctxLen < n then s.endProgress 0x7020 3 agLarge
    else if !(s.mapped s.boot.ctxAddr n && decide (s.boot.ctxAddr + n ≤ 2 ^ 41)) then s.endProgress 0x7020 3 agInvalid
    else (s.wr s.boot.ctxAddr s.ctxRecord).setProgress 0x7020 { p with state := 2, position := p.total })

/-- The effect of CTX_RESTORE. -/
def State.ctxRestore (s : State) : State × Nat :=
  if !s.allFree || (s.progress 0x7021).busy then (s, agBusy)
  else
    let s := { s with boot := { s.boot with ctxAddr := s.dv 0x20A0 0, ctxLen := s.dv 0x20A0 1 } }
    (s.startProgress 0x7021 0x201 (s.rd (s.boot.ctxAddr + 8) 8), agOk)

/-- CTX_RESTORE (R520). -/
def execCtxRestore (_ini : Nat) (s : State) : Host.Outcome State Fault Refusal := .next s.ctxRestore.1

/-- The section table: ID, offset, and the bytes up to the section that lies next. -/
def ctxTable (r : List Byte) : List (Nat × List Byte) :=
  let n := leNat ((r.drop 6).take 2)
  let rows := (List.range n).map fun i => (leNat ((r.drop (0x30 + 8 * i)).take 2), leNat ((r.drop (0x34 + 8 * i)).take 4))
  rows.map fun x =>
    let stop := (rows.map (·.2)).foldl (fun m o => if x.2 < o then min m o else m) r.length
    (x.1, (r.drop x.2).take (stop - x.2))

def ctxSec (t : List (Nat × List Byte)) (id : Nat) : Option (List Byte) := (t.find? fun x => x.1 == id).map (·.2)

/-- Number of 4 or 8 bytes at an offset. -/
def num (l : List Byte) (x n : Nat) : Nat := leNat ((l.drop x).take n)

/-- A record checks: magic, length, digest, and a table whose sections lie in it. -/
def ctxGood (r : List Byte) (area : Nat) : Bool :=
  let n := num r 6 2
  num r 0 4 == 0x4B435831 && num r 8 8 == r.length && decide (r.length ≤ area) && decide (0x30 + 8 * n ≤ r.length)
    && (r.drop 0x10).take 32 == sha3 (r.drop 0x30)
    && (List.range n).all fun i => decide (0x30 + 8 * n ≤ num r (0x34 + 8 * i) 4) && decide (num r (0x34 + 8 * i) 4 ≤ r.length)

/-- Entries of a policy section: index, subindex, length, value. -/
def ctxEntries : Nat → List Byte → List (Nat × Nat × Nat × Nat)
  | 0, _ => []
  | fuel + 1, l =>
    let idx := num l 0 2
    let len := num l 4 4
    if l.length < 8 || idx == 0 then []
    else (idx, num l 2 1, len, num l 8 len) :: ctxEntries fuel (l.drop (8 + (len + 7) / 8 * 8))

/-- The row of a policy entry that this part has. -/
def policyRow (idx sub len : Nat) : Option DEntry :=
  match dictFind idx sub with
  | some d => if d.acc == .rw && decide (0x3000 ≤ idx) && decide (idx < 0x4000) && d.len == len && d.subs.contains sub then some d else none
  | none => none

/-- One tracker of a record is restored. -/
def State.restoreTracker (s : State) (l : List Byte) (t : Nat) : State :=
  let x := 80 * t
  let h := (List.range (min 16 (num l (x + 8) 4))).map fun i => num l (x + 16 + 4 * i) 4
  ((s.setReg .trkCfg (t / 4096) (t % 4096) (BitVec.ofNat 32 (trkCfgBack (num l x 4)))).setReg .trkInit (t / 4096) (t % 4096)
    (BitVec.ofNat 32 (trkInitBack (s.reg .trkInit (t / 4096) (t % 4096)).toNat (num l (x + 4) 4)))).setTracker t { hist := h }

/-- One layer of a record is restored. -/
def State.restoreLayer (s : State) (l : List Byte) (i : Nat) : State :=
  let x := 160 * i
  let steps := ((List.range 16).map fun k => num l (x + 8 * k) 8).filter (· != noStep)
  let na := num l (x + 136) 8
  let r : LayerRec :=
    { steps := steps, until' := num l (x + 128) 8, narrowedAt := if na == noStep then none else some na, dur := num l (x + 144) 8 }
  { s with layers := tset dLayer s.layers i r }

/-- A value into the image and into its home. -/
def State.putEntry (s : State) (d : DEntry) (idx sub v : Nat) : State := (s.setDv idx sub v).homePut d idx sub v

/-- The sections of a good record applied. -/
def State.applyCtx (s : State) (t : List (Nat × List Byte)) : State :=
  let s := match ctxSec t 1 with
    | some l =>
      let s := ((s.setReg .bwlSeed 0 0 (BitVec.ofNat 32 (num l 0 4))).setReg .bwlSeed 0 1 (BitVec.ofNat 32 (num l 4 4))).setReg
        .bwlFree 0 0 (BitVec.ofNat 32 (num l 8 4))
      let s := (s.setDv 0x3300 0 (num l 0 8)).setDv 0x3301 0 (num l 8 4)
      (List.range 16).foldl (fun s i =>
        (s.setReg .stepBwl 0 i (BitVec.ofNat 32 (num l (12 + 4 * i) 4))).setDv 0x3302 i (num l (12 + 4 * i) 4)) s
    | none => s
  let s := match ctxSec t 2 with
    | some l => (List.range (min 16384 (l.length / 80))).foldl (fun s i => s.restoreTracker l i) s
    | none => s
  let s := match ctxSec t 3 with
    | some l => (List.range (min 4096 (l.length / 160))).foldl (fun s i => s.restoreLayer l i) s
    | none => s
  let s := match ctxSec t 4 with
    | some l =>
      let s := (List.range 128).foldl (fun s i => s.setReg .splWidened 0 i (BitVec.ofNat 32 (num l (4 * i) 4))) s
      (List.range 64).foldl (fun s i => match dictFind 0x3100 i with
        | some d => s.putEntry d 0x3100 i (num l (512 + 8 * i) 8)
        | none => s) s
    | none => s
  let s := match ctxSec t 6 with
    | some l => { s with lastOpen := num l 0 8 }
    | none => s
  match ctxSec t 5 with
  | some l => (ctxEntries (l.length / 8 + 1) l).foldl (fun s e => match policyRow e.1 e.2.1 e.2.2.1 with
      | some d => s.putEntry d e.1 e.2.1 e.2.2.2
      | none => s) s
  | none => s

/-- Some policy value of a record lies outside this part's range: each is checked against the bounds as the record sets them. -/
def State.ctxOut (s : State) (es : List (Nat × Nat × Nat × Nat)) : Bool :=
  let t := es.foldl (fun s e => match policyRow e.1 e.2.1 e.2.2.1 with
    | some d => s.setDv e.1 e.2.1 e.2.2.2 |>.putEntry d e.1 e.2.1 e.2.2.2
    | none => s) s
  es.any fun e => match policyRow e.1 e.2.1 e.2.2.1 with
    | some d => !t.valueOk d e.2.1 e.2.2.2
    | none => false

/-- CTX_RESTORE_DONE (R520, R521): the record is checked, and applied or not applied as a whole. A step slot opened since the command
ends it FAILED with CONFIG_BUSY, as values are written only while every slot is FREE (08 R266; log entry 109). -/
def execCtxRestoreDone (s : State) : Host.Outcome State Fault Refusal :=
  let p := s.progress 0x7021
  let a := s.boot.ctxAddr
  let n := s.rd (a + 8) 8
  .next (if p.state != 1 then s
    else if !s.allFree then s.endProgress 0x7021 3 agBusy
    else if !(decide (n ≤ s.boot.ctxLen) && s.mapped a n && decide (a + n ≤ 2 ^ 41)) || s.poisonedIn a n then s.endProgress 0x7021 3 9
    else
      let r := s.rdBytes a n
      let t := ctxTable r
      let extra := match ctxSec t 2 with
        | some l => (List.range (l.length / 80 - 16384)).any fun i => bit (num l (80 * (16384 + i)) 4) 31
        | none => false
      if !ctxGood r s.boot.ctxLen || extra then s.endProgress 0x7021 3 9
      else
        let es := match ctxSec t 5 with | some l => ctxEntries (l.length / 8 + 1) l | none => []
        if s.ctxOut es then s.endProgress 0x7021 3 agRange
        else
          let skipped := (es.filter fun e => (policyRow e.1 e.2.1 e.2.2.1).isNone).length
          (s.applyCtx t).setProgress 0x7021 { p with state := 2, position := p.total + skipped })

end Sys2Proof.Machine
end

