-- ==== Sys2Proof/Machine/Power.lean ====
section
/-! DEFINITION. The power governor, ramps and the floor, thermal caps, and ageing (16 R525 to R546). -/

namespace Sys2Proof.Machine

/-! ### Rails (17 R549, R553) -/

/-- Fast limits of the rails, 0.1 A. -/
def railFast : List Nat := [7200, 7200, 7200, 7200, 2000, 2600, 320, 3900, 3400, 280, 520, 60, 70]

/-- Draw of rails `lo` to 12 in mW, from the last measurement. -/
def State.railsMw (s : State) (lo : Nat) : Nat :=
  (((List.range 13).filter fun n => decide (lo ≤ n)).map fun n => s.power.railMv.getD n 0 * s.power.railCurrent.getD n 0).sum / 10

/-- A measurement of the rails stands in RAIL_MV and RAIL_CURRENT; a current above its fast limit is counted. -/
def State.measureRails (s : State) (m : PowerSample) : State :=
  let s := { s with power := { s.power with
    railMv := (List.range 13).map fun n => m.railMv.getD n 0 % 65536
    railCurrent := (List.range 13).map fun n => m.railCurrent.getD n 0 % 65536 } }
  (List.range 13).foldl (fun s n =>
    if railFast.getD n 0 < s.power.railCurrent.getD n 0 then s.mcBump 0x40D2 n 1 else s) s

/-- Some rail is above its fast limit. -/
def State.railTrip (s : State) : Bool := (List.range 13).any fun n => decide (railFast.getD n 0 < s.power.railCurrent.getD n 0)

/-! ### Temperatures (R533) -/

/-- Sensors of a die: 20 of a ply die, 8 of the hub, by their numbers. -/
def dieSensors (die : Nat) : List Nat := if die < 4 then (List.range 20).map (die * 20 + ·) else (List.range 8).map (80 + ·)
def sensorDie (k : Nat) : Nat := if k < 80 then k / 20 else 4

/-- A reading of −20 °C to 150 °C, in 1/16 °C. -/
def tempGood (t : Int) : Bool := decide (-320 ≤ t) && decide (t ≤ 2400)

/-- Hottest of some temperatures; none of an empty list. -/
def hottest (l : List Int) : Option Int := l.foldl (fun a t => match a with | none => some t | some b => some (max b t)) none

/-- What a sensor answered, when it is good. -/
def goodAt (temps : List (Option Int)) (k : Nat) : Option Int :=
  match temps.getD k none with
  | some t => if tempGood t then some t else none
  | none => none

def State.setSensor (s : State) (k : Nat) (t : Int) : State :=
  { s with power := { s.power with sensors := tset dInt s.power.sensors k t } }
def State.setFailed (s : State) (k : Nat) (b : Bool) : State :=
  { s with power := { s.power with failed := tset dF s.power.failed k b } }

/-- A failed sensor takes the hottest sensor of its die plus 5 °C; its failure is recorded when it begins (KIND 0x08). -/
def State.readSensor (s : State) (temps : List (Option Int)) (k : Nat) : State :=
  match goodAt temps k with
  | some t => (s.setSensor k t).setFailed k false
  | none =>
    let d := sensorDie k
    let t := match hottest ((dieSensors d).filterMap (goodAt temps)) with | some t => t + 80 | none => s.sensor k
    let s := if tget dF s.power.failed k then s
      else s.pwrRecord 8 sevDeferred (if d < 4 then 3 else 7) 0 (if d < 4 then d else 0)
        (if d < 4 && k % 20 < 16 then d * 4 + k % 20 / 4 else 0xFF) 0xFFFF (sCode 32 t) 2400
    (s.setSensor k t).setFailed k true

/-- Temperature of a region: its hottest sensor. -/
def State.regionTemp (s : State) (r : Nat) : Int :=
  (hottest ((List.range 4).map fun k => s.sensor (r / 4 * 20 + r % 4 * 4 + k))).getD 0

/-- TEMP_MAX of a die, and the hottest sensor and stack of the package. -/
def State.tempMax (s : State) (die : Nat) : Int := (hottest ((dieSensors die).map s.sensor)).getD 0
def State.hottestDie (s : State) : Int := (hottest ((List.range 5).map s.tempMax)).getD 0
def State.hottestStack (s : State) : Int := (hottest ((List.range 16).map fun k => (s.spwr k).temp)).getD 0

/-- 1/16 °C of an entry in °C. -/
def State.degrees (s : State) (idx : Nat) : Int := (s.dv idx 0 * 16 : Nat)

/-! ### Thermal caps (R534) -/

/-- The region is above its control limit, or a stack of its die is above HBM_T_CTRL_C. -/
def State.hotNow (s : State) (r : Nat) : Bool :=
  decide (s.degrees 0x20B4 < s.regionTemp r) || (List.range 4).any fun k => decide (s.degrees 0x20B6 < (s.spwr (r / 4 * 4 + k)).temp)

/-- The region, and every stack of its die, is 2 °C below. -/
def State.coolNow (s : State) (r : Nat) : Bool :=
  decide (s.regionTemp r < s.degrees 0x20B4 - 32) && (List.range 4).all fun k => decide ((s.spwr (r / 4 * 4 + k)).temp < s.degrees 0x20B6 - 32)

/-- One interval of 10 µs of a region's thermal cap. -/
def State.thermalStep (s : State) (r : Nat) : State :=
  let x := s.rpwr r
  let t := s.regionTemp r
  let crit := decide (s.degrees 0x20B5 < t)
  let hot := if s.hotNow r then x.hot + 1 else 0
  let cool := if s.coolNow r then x.cool + 1 else 0
  let cap := if crit then 0 else if hot == 10 then x.tcap - 1 else if cool == 100 then min 18 (x.tcap + 1) else x.tcap
  let low := if cap < 18 then x.low + 1 else 0
  let s := s.setRpwr r { x with
    temp := t, hot := hot % 10, cool := cool % 100, crit := if crit then x.crit + 1 else 0, low := low, tcap := cap }
  let s := if cap < 18 && x.tcap == 18 then (s.flag .pwrSts hubDie 0 2).alert 4 else s
  let s := if crit && x.crit == 0 then s.pwrRecord 3 sevRecover 2 0 r r 0xFFFF (sCode 32 t) (s.dv 0x20B5 0 * 16) else s
  if low == 100001 then s.pwrRecord 2 sevCorrected 2 0 r r 0xFFFF (sCode 32 t) (s.dv 0x20B4 0 * 16) else s

/-! ### The floor (R529, R531, R541) -/

/-- F over 10 µs: the ramp in progress moves it by RATE ÷ 100 toward its TARGET and ends when F is there. -/
def State.floorStep (s : State) : State :=
  match s.power.active with
  | none => s
  | some e =>
    let goal := min (s.rampTarget e) s.pLimit * 100
    let f := s.power.floor
    let f' := if f < goal then min goal (f + s.rampRate e) else max goal (f - s.rampRate e)
    let s := { s with power := { s.power with floor := f' } }
    if f' == goal then ({ s with power := { s.power with active := none } }).rampFlag e 2 1 else s

def State.floorOn (s : State) : Bool := bit (s.reg .pwrRampCfg hubDie).toNat 31

/-- Units with no item placed, on which ballast can run. -/
def State.idleUnits (s : State) : Nat :=
  ((List.range 512).filter fun u => !s.unitFenced u && !s.frozen ⟨0, u⟩ && !(s.items.any fun e => match e.2 with
    | some x => x.stage == .running && e.1 / 256 == unitRegion u && bit x.units (u % 32)
    | none => false)).length

/-- Ballast after a measured draw: what is missing up to F, as far as idle units can draw it; a fall that is not held is counted
once. Ballast is suspended during a fast trip, and falls are not shaped with FLOOR_EN false. -/
def State.ballastStep (s : State) (draw : Nat) : State :=
  if !s.floorOn || s.power.tripCyc.isSome then { s with power := { s.power with ballast := 0, breach := false } }
  else
    let need := s.floorW - (draw - s.power.ballast)
    let b := min need (Config.ballastCap s.idleUnits)
    let fall := decide (b < need)
    let s := if fall && !s.power.breach then (s.bump .pwrBreachCnt hubDie 0 1).flag .pwrSts hubDie 0 16 else s
    { s with power := { s.power with ballast := b, breach := fall } }

/-! ### The loop (R526 to R528) -/

/-- A fast trip: every region at point 0 for 100 µs, counted and recorded. -/
def State.tripNow (s : State) (draw : Nat) : State :=
  let s := { s with power := { s.power with tripCyc := some s.cycle } }
  let s := (List.range 16).foldl (fun s r => s.setRpwr r { s.rpwr r with point := 0 }) s
  ((s.bump .pwrTripCnt hubDie 0 1).flag .pwrSts hubDie 0 1).pwrRecord 1 sevCorrected 7 0 0 0xFF 0xFFFF draw s.fastTrip

/-- A region's cap (R526): its thermal cap, its TOP, FREQ_CAP_MHZ and point 18. -/
def State.capOf (s : State) (r : Nat) : Nat :=
  let x := s.rpwr r
  min (min x.tcap x.top) (min ((bits (s.reg .pwrRegCap (r / 4) (r % 4)).toNat 11 0 - 1200) / 50) 18)

/-- Predicted draw of a region at point q in mW, rounded up: its measured draw scaled by f × V², ungated when `open'`. -/
def State.predicted (s : State) (r q : Nat) (open' : Bool) : Nat :=
  let x := s.rpwr r
  let g := if open' && x.gate != 0 then x.gate else 16
  let n := s.power.regionDraw.getD r 0 * 1000 * 16 * (pointMhz q * s.volt r q ^ 2)
  let d := g * (pointMhz x.point * s.volt r x.point ^ 2)
  (n + d - 1) / d

/-- Predicted draw of all regions at min(p, cap). -/
def State.predictedAll (s : State) (p : Nat) (open' : Bool) : Nat :=
  ((List.range 16).map fun r => s.predicted r (min p (s.capOf r)) open').sum

/-- The budget B in mW; `before` is the draw of 1 ms before. -/
def State.budget (s : State) (before : Nat) : Nat :=
  min s.pLimit (before + bits (s.reg .pwrRampCfg hubDie).toNat 15 0) * 1000 - s.railsMw 4 - s.pLimit * 20

/-- The regions of greatest measured draw. -/
def State.greatest (s : State) : List Nat :=
  let l := (List.range 16).map fun r => s.power.regionDraw.getD r 0
  (List.range 16).filter fun r => l.getD r 0 == l.foldl max 0

/-- g one lower, not below 1. -/
def gateDown (g : Nat) : Nat := if g == 0 then 15 else max 1 (g - 1)

/-- The gate of a region: the governor's, and 8 at most above its critical limit (R534, R541). -/
def critGate (crit bg : Nat) : Nat := if crit == 0 then bg else if bg == 0 then 8 else min 8 bg

/-- Every region goes to min(p, its cap); when the draw exceeds the budget with every region at point 0, issue is gated (R527). -/
def State.clockStep (s : State) (before : Nat) : State :=
  let b := s.budget before
  let fits := (List.range 19).reverse.find? fun p => decide (s.predictedAll p true ≤ b)
  let p := fits.getD 0
  let lower := fits.isNone && decide (b < s.predictedAll 0 false)
  let set := s.greatest
  let pts := (List.range 16).map fun r => min p (s.capOf r)
  (List.range 16).foldl (fun s r =>
    let x := s.rpwr r
    let bg := if fits.isSome then 0 else if lower && set.contains r then gateDown x.budgetGate else x.budgetGate
    s.setRpwr r { x with point := pts.getD r 0, budgetGate := bg, gate := critGate x.crit bg }) s

/-- Within a fast trip the clocks stand still; a region that is above its critical limit is gated all the same (R534). -/
def State.critGates (s : State) : State :=
  (List.range 16).foldl (fun s r =>
    let x := s.rpwr r
    s.setRpwr r { x with gate := critGate x.crit x.budgetGate }) s

/-- Time spent below the cap, thermally capped and gated, over the interval that ended. -/
def State.countStep (s : State) : State :=
  (List.range 16).foldl (fun s r =>
    let x := s.rpwr r
    let s := if x.point < s.capOf r then s.bump .pwrLimitCnt (r / 4) (r % 4) 10 else s
    let s := if x.tcap < 18 then s.bump .pwrThermCnt (r / 4) (r % 4) 10 else s
    if x.gate != 0 then s.bump .pwrGateCnt (r / 4) (r % 4) 10 else s) s

/-- GOVERNOR_TICK (R526): one interval of 10 µs. While the dies are held in reset the management controller measures the rails
alone. -/
def State.governor (s : State) (m : PowerSample) : State :=
  if !s.boot.power || s.boot.boardLow then s
  else
    let s := s.measureRails m
    if s.held then s
    else
      let s := s.countStep
      let s := (List.range 88).foldl (fun s k => s.readSensor m.temps k) s
      let s := (List.range 16).foldl State.thermalStep s
      let mw := s.railsMw 0
      let draw := mw / 1000
      let before := (s.power.draws.getLast?).getD draw
      let s := { s with power := { s.power with
        draws := (draw :: s.power.draws).take 100, regionDraw := (List.range 16).map fun r => m.regionDraw.getD r 0 } }
      let s := s.floorStep
      let s := if decide (s.fastTrip * 1000 < mw) || s.railTrip then s.tripNow draw else s
      let s := s.ballastStep draw
      if s.power.tripCyc.isSome then s.critGates else s.clockStep before

def execGovernorTick (m : PowerSample) (s : State) : Host.Outcome State Fault Refusal := .next (s.governor m)

/-- FAST_TRIP_END (R528). -/
def execFastTripEnd (s : State) : Host.Outcome State Fault Refusal :=
  .next (match s.power.tripCyc with
    | some c => if c + cycOfUs 100 ≤ s.cycle then { s with power := { s.power with tripCyc := none } } else s
    | none => s)

/-! ### Ramp entries (R530, R531) -/

/-- An entry whose AT has passed while its HOLD is unsatisfied sets HELD and is counted once. -/
def State.rampHeld (s : State) (e : Nat) : State :=
  if s.rampDue e && !s.rampHeldMet e && !bit (s.rampFlags e) 2
  then ((s.rampFlag e 4 0).bump .pwrHeldCnt hubDie 0 1).flag .pwrSts hubDie 0 8 else s

/-- RAMP_AT_REACHED (R531). -/
def execRampAtReached (entry : Nat) (s : State) : Host.Outcome State Fault Refusal :=
  .next (if s.held then s else (s.rampHeld entry).rampSweep)

/-- The hold of an entry as its Cleat stands now. -/
def State.holdNow (s : State) (w : Nat) : Bool := cleatExists (waitDie w) (waitIdx w) && decide (waitThr w ≤ (s.cleat (waitDie w) (waitIdx w)).toNat)

/-- What a write leaves of an entry: reserved bytes read zero, and of RFLAGS only VALID stays. -/
def rampClean (v : Nat) : Nat := v % 2 ^ 160 + v / 2 ^ 160 % 2 * 2 ^ 160

/-- A new content of an entry. -/
def State.rampStore (s : State) (e v : Nat) : State :=
  let v := rampClean v
  let s := (List.range 8).foldl (fun s i => s.setReg .pwrRamp hubDie (8 * e + i) (BitVec.ofNat 32 (fld v (4 * i) 4))) (s.setDv 0x20B3 e v)
  let s := { s with power := { s.power with holdMet := tset dF s.power.holdMet e (s.holdNow (s.rampHold e)) } }
  (s.rampHeld e).rampSweep

/-- The effect of a write of an entry, and its status: refused while its ramp is in progress. -/
def State.rampWrite (s : State) (ini e v : Nat) : State × Nat :=
  if s.power.active == some e then (s.refuse ini hubDie (0x20100 + 0x20 * e), agBusy) else (s.rampStore e v, agOk)

/-- RAMP_ENTRY_WRITE (R530). -/
def execRampEntryWrite (ini entry value : Nat) (s : State) : Host.Outcome State Fault Refusal :=
  .next (if entry < 16 && s.rngOk .rampEntry value then (s.rampWrite ini entry value).1 else s)

/-! ### The class (R525) -/

/-- The class is written, at most the strapped one; F never stands above P_LIMIT (R531). -/
def State.setClass (s : State) (v : Nat) : State :=
  let c := min v s.strapClass
  let s := (s.setDv 0x20B0 0 c).setReg .pwrClass hubDie 0 (BitVec.ofNat 32 c)
  { s with power := { s.power with floor := min s.power.floor (s.pLimit * 100) } }

/-- POWER_CLASS (R525). -/
def execPowerClass (_ini value : Nat) (s : State) : Host.Outcome State Fault Refusal := .next (s.setClass (value % 8))

/-! ### Critical temperatures (R534, R535) -/

/-- CRIT_TEMP_TIMEOUT (R534): 100 ms above the critical limit; the package asks for its power-off. -/
def execCritTempTimeout (stack : Bool) (index : Nat) (s : State) : Host.Outcome State Fault Refusal :=
  .next (if s.held then s
    else if stack then
      match (s.spwr index).critCyc with
      | some c =>
        if c + cycOfMs 100 ≤ s.cycle then
          (s.pwrRecord 4 sevFatal 3 0 (stackDie index) 0xFF 0xFFFF (sCode 32 (s.spwr index).temp) 1680).powerOff
        else s
      | none => s
    else if 10000 ≤ (s.rpwr index).crit then
      (s.pwrRecord 4 sevFatal 2 0 index index 0xFFFF (sCode 32 (s.rpwr index).temp) (s.dv 0x20B5 0 * 16)).powerOff
    else s)

/-- THERMAL_TRIP (R535): nothing can stop it. -/
def execThermalTrip (s : State) : Host.Outcome State Fault Refusal :=
  .next (if s.boot.power then { s with power := { s.power with tripPin := true } } else s)

/-- One stack's temperature: the refresh rate above 85 °C, the critical limit of 105 °C. -/
def State.readStack (s : State) (temps : List (Option Int)) (k : Nat) : State :=
  let d := stackDie k
  let good := goodAt temps k
  let t := match good with | some t => t | none => s.tempMax d + 80
  let s := if good.isNone && !tget dF s.power.failed (88 + k)
    then s.pwrRecord 8 sevDeferred 3 0 d 0xFF 0xFFFF (sCode 32 t) 2400 else s
  let s := s.setFailed (88 + k) good.isNone
  let x := s.spwr k
  let crit := decide (1680 < t)
  let s := s.setSpwr k { temp := t, refresh := decide (1360 < t)
                         critCyc := if !crit then none else match x.critCyc with | some c => some c | none => some s.cycle }
  if crit && x.critCyc.isNone then s.pwrRecord 3 sevRecover 3 0 d 0xFF 0xFFFF (sCode 32 t) 1680 else s

/-- HBM_TEMP_SAMPLE (R533, R534). -/
def execHbmTempSample (temps : List (Option Int)) (s : State) : Host.Outcome State Fault Refusal :=
  .next (if s.held then s else (List.range 16).foldl (fun s k => s.readStack temps k) s)

/-! ### Ageing (R536 to R540) -/

/-- Cycles in 1/64 h. -/
def cycPerAge : Nat := cycOfMs 56250

/-- AGE_HOURS now, in 1/64 h. -/
def State.ageNow (s : State) : Nat := sat32 (s.power.ageHours + (s.cycle - s.power.hourCyc) / cycPerAge)

/-- d0 of a monitor at a voltage, ps. -/
def freshDelay (m mv : Nat) : Nat := Config.monitorDelay (m / 4) (m % 4) mv

/-- Δ of a measured delay, per 65,536, rounded down. -/
def degradation (d d0 : Nat) : Nat := if d0 == 0 then 0 else min 65535 ((d - d0) * 65536 / d0)

/-- Largest Δ of a unit's four monitors. -/
def State.unitDelta (s : State) (u : Nat) : Nat := ((List.range 4).map fun p => (s.monitor (4 * u + p)).1).foldl max 0

/-- A value as a finite number, 0 where it is not. -/
def ageVal (c : Nat) : XV := f32 c

/-- The sums of a unit after a sample at t (1/64 h), in FP32 operations: S1 + Δ × t^0.25 and S2 + t^0.5. -/
def UnitAge.sample (a : UnitAge) (delta t : Nat) : UnitAge :=
  let r := (sqrt32 (.fin t (-6))).1
  let q := (sqrt32 r).1
  { s1 := f32Code ((ageVal a.s1).add (rn32 (XV.mul (.ofInt delta) q)).1), s2 := f32Code ((ageVal a.s2).add r)
    delta := delta, count := min 65535 (a.count + 1) }

def State.setAge (s : State) (u : Nat) (a : UnitAge) : State := { s with power := { s.power with ages := tset dAge s.power.ages u a } }
def State.setMonitor (s : State) (m : Nat) (x : Nat × Nat) : State :=
  { s with power := { s.power with monitors := tset dMon s.power.monitors m x } }

/-- A monitor meets the condition of R537 at a point of frequency f and a voltage: in ps, with f in MHz. -/
def State.meets (s : State) (m mv f : Nat) : Bool :=
  decide (freshDelay m mv * (65536 + (s.monitor m).1) * f ≤ (1000000 - s.power.guardPs * f) * 65536)

/-- A unit meets it at every path. -/
def State.unitMeets (s : State) (u mv f : Nat) : Bool := (List.range 4).all fun p => s.meets (4 * u + p) mv f

/-- The lowest voltage of a point that some units meet, 650 to 900 mV in steps of 5. -/
def State.pointVolt (s : State) (units : List Nat) (i : Nat) : Option Nat :=
  ((List.range 51).map fun k => 650 + 5 * k).find? fun mv => units.all fun u => s.unitMeets u mv (pointMhz i)

/-- Re-plan of a region over its units that stay (R537, R538). -/
def State.replan (s : State) (r : Nat) : State :=
  let units := (domUnits 2 r).filter fun u => !s.unitFenced u && !(s.fenceDue.contains (0, u))
  let bad := units.filter fun u => !s.unitMeets u 900 (pointMhz 0)
  let s := bad.foldl (fun s u => (s.pwrRecord 6 sevRecover 0 5 u r u (s.unitDelta u) 0).fence 0 u) s
  let units := units.filter fun u => !bad.contains u
  let plan := (List.range 19).map fun i => s.pointVolt units i
  let top := ((List.range 19).reverse.find? fun i => (plan.getD i none).isSome).getD 0
  let s := { s with power := { s.power with
    volts := (List.range 19).foldl (fun t i => tset d0 t (r * 19 + i) ((plan.getD i none).getD 0)) s.power.volts } }
  let x := s.rpwr r
  let s := s.setRpwr r { x with top := top, point := min x.point top, planned := true }
  if top < x.top then s.pwrRecord 5 sevCorrected 2 0 r r 0xFFFF (pointMhz top) (pointMhz x.top) else s

/-- AGE_SAMPLE (R536 to R539): the 2,048 monitors, then every region's plan. -/
def State.ageSample (s : State) (delays : List Nat) : State :=
  let t := s.ageNow
  let s := (List.range 2048).foldl (fun s m =>
    let d := delays.getD m 0 % 65536
    let r := unitRegion (m / 4)
    s.setMonitor m (degradation d (freshDelay m (s.volt r (s.rpwr r).point)), d)) s
  let s := (List.range 512).foldl (fun s u => s.setAge u ((s.age u).sample (s.unitDelta u) t)) s
  let s := { s with power := { s.power with ageCyc := s.cycle, guardPs := s.dv 0x20B8 0 } }
  ((List.range 16).foldl State.replan s).settle

def execAgeSample (delays : List Nat) (s : State) : Host.Outcome State Fault Refusal := .next (if s.held then s else s.ageSample delays)

/-- Hours that a value holds, rounded down. -/
def wholeOf (x : XV) : Nat := match x with | .fin m e => let q := magFrac m e; if m < 0 then 0 else q.1 / q.2 | _ => 0xFFFFFFFF

/-- Forecast of a unit for a limit Δlim, hours (R539): (Δlim ÷ a)^4 − AGE_HOURS, with a := S1 ÷ S2; unknown until 16 samples. -/
def State.forecast (s : State) (u lim : Nat) : Nat :=
  let a := s.age u
  if a.count < 16 || (ageVal a.s1).isZero then 0xFFFFFFFF
  else
    let q := (div32 (XV.ofInt lim) (div32 (ageVal a.s1) (ageVal a.s2)).1).1
    let q2 := (rn32 (q.mul q)).1
    sat32 (wholeOf (rn32 (q2.mul q2)).1 - s.ageNow / 64)

/-- Δ at which a unit stops meeting a frequency at 900 mV, per 65,536. -/
def State.deltaLim (s : State) (u f : Nat) : Nat :=
  ((List.range 4).map fun p =>
    let d := freshDelay (4 * u + p) 900
    if d == 0 then 0xFFFFFFFF else (1000000 - s.power.guardPs * f) * 65536 / (f * d) - 65536).foldl min 0xFFFFFFFF

/-- REGION_FORECAST_H and FENCE_FORECAST_H. -/
def State.regionForecast (s : State) (r : Nat) : Nat :=
  (((domUnits 2 r).filter fun u => !s.unitFenced u).map fun u => s.forecast u (s.deltaLim u (pointMhz (s.rpwr r).top))).foldl min 0xFFFFFFFF
def State.fenceForecast (s : State) : Nat :=
  ((List.range 512).map fun u => s.forecast u (s.deltaLim u (pointMhz 0))).foldl min 0xFFFFFFFF

/-- UNIT_MARGIN_PS: the clock period of the region's present point less the slowest degraded path, ps; 0 before the first sampling. -/
def State.unitMargin (s : State) (u : Nat) : Int :=
  let r := unitRegion u
  let x := s.rpwr r
  if (s.age u).count == 0 then 0
  else
    let slow := ((List.range 4).map fun p =>
      (freshDelay (4 * u + p) (s.volt r x.point) * (65536 + (s.monitor (4 * u + p)).1) + 65535) / 65536).foldl max 0
    ((1000000 / pointMhz x.point : Nat) : Int) - slow

/-! ### AGE_STATE (R540) -/

/-- The 6,160 bytes. -/
def State.ageBytes (s : State) : List Byte :=
  leBytes 4 s.ageNow ++ List.replicate 12 0#8
    ++ (List.range 512).flatMap fun u => let a := s.age u; leBytes 4 a.s1 ++ leBytes 4 a.s2 ++ leBytes 2 a.delta ++ leBytes 2 a.count

/-- Bytes of a subindex. -/
def agePieceLen (sub : Nat) : Nat := if sub == 24 then 16 else 256
def State.agePiece (s : State) (sub : Nat) : List Byte := (s.ageBytes.drop (256 * sub)).take (agePieceLen sub)

/-- A restored state. -/
def State.ageRestore (s : State) (l : List Byte) : State :=
  let s := { s with power := { s.power with ageHours := num l 0 4, hourCyc := s.cycle } }
  (List.range 512).foldl (fun s u =>
    let x := 16 + 12 * u
    s.setAge u { s1 := num l x 4, s2 := num l (x + 4) 4, delta := num l (x + 8) 2, count := num l (x + 10) 2 }) s

/-- A piece written: the state is restored when every piece is there, and refused when it is another part's. -/
def State.ageWrite (s : State) (sub : Nat) (data : List Byte) : State × Nat :=
  let t := tset (fun _ => []) s.power.ageIn sub (fitBytes (agePieceLen sub) data)
  let l := (List.range 25).flatMap fun k => tget (fun _ => []) t k
  if l.length != 6160 then ({ s with power := { s.power with ageIn := t } }, agOk)
  else
    -- a refused write changes nothing (02 R39): the pieces taken so far stay
    if Config.ageSerial l == Config.serial then (State.ageRestore { s with power := { s.power with ageIn := [] } } l, agOk) else (s, agRange)

/-- AGE_STATE (R540). -/
def execAgeState (_ini sub : Nat) (data : List Byte) (s : State) : Host.Outcome State Fault Refusal :=
  .next (if sub < 25 then (s.ageWrite sub data).1 else s)

end Sys2Proof.Machine
end

