-- ==== Sys2Proof/Machine/Package.lean ====
section
/-! DEFINITION. The package's pins, rails and sideband (17 R549 to R559, R564). -/

namespace Sys2Proof.Machine

/-! ### Rails and resets from outside (R550, R557) -/

/-- RAIL_RANGE_FAULT (R550; 15 R507): a FATAL record, the alert, and PWROFF_REQ_N; a start in progress fails with reason 0x0050. -/
def execRailRangeFault (rail : Nat) (s : State) : Host.Outcome State Fault Refusal :=
  .next (if !s.boot.power || s.boot.boardLow || 13 ≤ rail then s
    else
      let mv := s.power.railMv.getD rail 0
      let s := if s.starting && !s.boot.warm then s.startFails 0x50 else s
      ((s.mcBump 0x40D3 rail 1).pwrRecord 9 sevFatal 7 0 0 0xFF 0xFFFF mv 0 |>.alert 8).powerOff)

/-- Every block in reset: what fuses, the boot flash and the board hold stays. -/
def State.allReset (s : State) : State :=
  let b := s.boot
  { State.reset with
    small := s.small, pending := s.pending, keys := s.keys, out := s.out, freeCtr := s.freeCtr
    boot := { straps := b.straps, copy0 := b.copy0, copy1 := b.copy1, starts := b.starts, flash := b.flash
              slotA := b.slotA, slotB := b.slotB, rollback := b.rollback, ownerDigest := b.ownerDigest }
    mem := { far0 := s.mem.far0, far1 := s.mem.far1 } }

/-- PWR_GOOD_FALL (R557): the rails follow, and with them the latched outputs. -/
def execPwrGoodFall (s : State) : Host.Outcome State Fault Refusal :=
  .next (let t := s.allReset; { t with boot := { t.boot with power := false } })

/-- BRD_RST_N_LOW (R557): low for 1 ms while PWR_GOOD is high. -/
def execBrdRstNLow (s : State) : Host.Outcome State Fault Refusal :=
  .next (if !s.boot.power || s.boot.boardLow then s
    else
      let t := s.allReset
      { t with boot := { t.boot with boardLow := true }, power := { offReq := s.power.offReq, tripPin := s.power.tripPin } })

/-- BRD_RST_N_RISE (R557): after a board reset it counts as the rising edge of PWR_GOOD. -/
def execBrdRstNRise (straps : Nat) (s : State) : Host.Outcome State Fault Refusal :=
  .next (if s.boot.power && s.boot.boardLow then s.coldStart straps else s)

/-! ### The I3C target (R558, R559) -/

/-- ALERT_N is asserted. -/
def State.alertPin (s : State) : Bool := (BitVec.ofNat 6 s.power.alert &&& ~~~(BitVec.ofNat 6 s.power.alertMask)) != 0#6

/-- The sideband's contents, by offset: start, bytes, value. -/
def State.sideband (s : State) : List (Nat × Nat × Nat) :=
  [ (0x00, 2, s.mcv 0x1003 0), (0x08, 8, Config.serial)
  , (0x10, 4, s.boot.stage + b2n s.boot.bitter * 2 ^ 8 + b2n (s.boot.stage == 7 && !s.boot.bitter) * 2 ^ 9 + s.powerClass * 2 ^ 10)
  , (0x14, 4, s.power.alert), (0x18, 4, s.power.alertMask)
  , (0x20, 4, min s.draw100 65535 + s.floorW % 65536 * 65536)
  , (0x24, 4, sCode 16 s.hottestDie + sCode 16 s.hottestStack * 65536) ]
  ++ (List.range 13).map fun n => (0x30 + 4 * n, 4, s.power.railMv.getD n 0 % 65536 + s.power.railCurrent.getD n 0 % 65536 * 65536)

/-- One byte of it; an offset that is not listed reads zero. -/
def State.sidebandByte (s : State) (x : Nat) : Byte :=
  match s.sideband.find? fun e => decide (e.1 ≤ x) && decide (x < e.1 + e.2.1) with
  | some e => BitVec.ofNat 8 (fld e.2.2 (x - e.1) 1)
  | none => 0#8

/-- I3C_DYNAMIC_ADDRESS (R559): the target answers only while the management controller runs. -/
def execI3cDynamicAddress (addr : Nat) (s : State) : Host.Outcome State Fault Refusal :=
  .next (if s.mcUp then { s with power := { s.power with i3cAddr := some (addr % 128) } } else s)

/-- I3C_READ (R559). -/
def execI3cRead (offset len : Nat) (s : State) : Host.Outcome State Fault Refusal :=
  .next (if s.mcUp then s.emit (.i3c ((List.range len).map fun i => s.sidebandByte (offset % 256 + i))) else s)

/-- One byte written: ALERT_STATUS clears by 1, ALERT_MASK takes it, other offsets ignore it. -/
def State.sidebandPut (s : State) (x : Nat) (b : Byte) : State :=
  if x == 0x14 then
    { s with power := { s.power with alert := (BitVec.ofNat 6 s.power.alert &&& ~~~(BitVec.ofNat 6 b.toNat)).toNat } }
  else if x == 0x18 then { s with power := { s.power with alertMask := b.toNat % 64 } }
  else s

/-- I3C_WRITE (R559). -/
def execI3cWrite (offset : Nat) (data : List Byte) (s : State) : Host.Outcome State Fault Refusal :=
  .next (if s.mcUp then data.zipIdx.foldl (fun s e => s.sidebandPut (offset % 256 + e.2) e.1) s else s)

end Sys2Proof.Machine
end

