-- ==== Sys2Proof/Machine/Dict.lean ====
section
/-! DEFINITION. The parameter dictionary: reading an entry, and writing one after the checks of 02 R39 with the effect the owning
chapter gives it (02 R28 to R40, R53, R67, R73 to R80; 14 R498; 15 R511, R522; 16 R545; 17 R553). -/

namespace Sys2Proof.Machine

/-! ### Values that no single register holds -/

/-- PART_NUMBER. -/
def State.partNumber (s : State) : List Byte := (if s.small then "CK9-768-LC" else "CK9-1T-LC").toList.map fun c => BitVec.ofNat 8 c.toNat

/-- A progress object as it is read: a scrub that runs is PAUSED while SCRUB_EN is false (12 R390), and a training that runs shows the
pseudo-channels trained so far (12 R391). -/
def State.progressShown (s : State) (i : Nat) : Progress :=
  let p := s.progress i
  if 0x7010 ≤ i && i < 0x7020 && p.state == 1 && s.dv 0x6010 0 == 0 then { p with state := 5 }
  else if 0x7000 ≤ i && i < 0x7010 && p.state == 1 then { p with position := trainedChannels (s.lay.now - p.started) } else p

/-- The fields of a progress object in subindex order, with their widths in bytes (R77). -/
def Progress.fields (p : Progress) : List (Nat × Nat) :=
  [(p.state, 1), (p.position, 8), (p.total, 8), (p.permille, 2), (p.operation, 4), (p.started, 8), (p.lastError, 2), (p.runs, 4), (0, 3)]

/-- The eight words of a Snarl descriptor; zero where no capture is. -/
def descWords (x : Option Snarl) : List Nat := match x with | some k => k.words | none => List.replicate 8 0

/-- Fields of a WIDE entry: value and bytes of each, in ascending order. -/
def State.wideFields (s : State) (idx sub : Nat) : List (Nat × Nat) :=
  if idx < 0x2000 then (descWords (s.snarlIn (idx - 0x1400) sub)).map fun w => (w, 8) else (s.progressShown idx).fields

/-- Fields as one little-endian number. -/
def packFields : List (Nat × Nat) → Nat
  | [] => 0
  | (v, n) :: l => v % 2 ^ (8 * n) + packFields l * 2 ^ (8 * n)

/-- A 256-byte piece of a list. -/
def pieceOf (l : List Byte) (sub : Nat) : Nat := leNat (fitBytes 256 (l.drop (256 * sub)))

/-- SNARL_DATA: 256 bytes of the area that SNARL_WINDOW names (14 R498). -/
def State.snarlData (s : State) (sub : Nat) : Nat :=
  let w := s.dv 0x1410 0
  leNat ((List.range 256).map fun i => s.mem.byteAt (s.snarlPlace (bits w 18 16) (bits w 5 0 * 65536 + sub * 256 + i)))

/-- Fenced units of a group of 64. -/
def State.fencedBits (s : State) (sub : Nat) : Nat := ((List.range 64).map fun b => b2n (s.unitFenced (64 * sub + b)) * 2 ^ b).sum

/-- SLOT_STATE. -/
def SlotInfo.word (x : SlotInfo) : Nat := b2n x.verified * 2 ^ 31 + x.kinds % 16 * 2 ^ 24 + x.svn % 2 ^ 24

/-- An entry of the peer table (13 R420). -/
def Peer.word (p : Peer) : Nat := p.state % 4 + p.pgen % 65536 * 2 ^ 16 + p.since % 2 ^ 32 * 2 ^ 32

/-- The values of entries that the management controller forms from the state, little-endian. Commands read 0 (14 R498). -/
def State.viewEntry (s : State) (idx sub : Nat) : Nat :=
  let b := s.boot
  if idx == 0x1001 then (if sub == 0 then leNat s.partNumber else 16 * s.stackBytes)
  else if idx == 0x1002 then Config.serial % 2 ^ 64
  else if idx == 0x1010 then b.straps
  else if idx == 0x1030 then b.stage
  else if idx == 0x1031 then sat32 b.bootMs
  else if idx == 0x1032 then b.slot
  else if 0x1100 ≤ idx && idx < 0x1105 then (match (s.errDie (idx - 0x1100)).copy[sub]? with | some r => r.bits | none => 0)
  else if 0x1400 ≤ idx && idx < 0x1405 then packFields (s.wideFields idx sub)
  else if idx == 0x1411 then s.snarlData sub
  else if idx == 0x1420 then s.fencedBits sub
  else if idx == 0x1421 then (List.range 512).countP fun u => s.unitFenced u
  else if idx == 0x1F00 then b2n b.bitter
  else if idx == 0x1F01 then b.cause
  else if idx == 0x1F02 then b.record.failed.getD sub 0
  else if idx == 0x1F03 then b.record.attempts
  else if idx == 0x1F04 then b.record.active
  else if idx == 0x1F06 then (b.info sub).word
  else if idx == 0x2041 then (if sub == 0 then s.ownerJob else s.ownerSession)
  else if idx == 0x2099 then s.lay.now
  else if idx == 0x20BA then leNat (s.agePiece sub)
  else if 0x3210 ≤ idx && idx < 0x3220 then (s.layer ((idx - 0x3210) * 256 + sub)).until'
  else if idx == 0x3230 then
    (if sub == 0 then b2n s.globalWiden else if sub == 1 then s.layersInUse.countP fun l => s.layerWide l else s.layersInUse.length)
  else if idx == 0x4063 then (s.reg .ateRingTail sub - s.reg .ateRingHead sub).toNat
  else if idx == 0x4084 then ((List.range 64).map fun pc => (s.erasedPins sub pc).length).sum
  else if idx == 0x40A8 || idx == 0x40A9 then s.recentFaults 0 ((idx - 0x40A8) * 256 + sub)
  else if idx == 0x40B0 then
    (if sub == 0 then min s.draw100 65535 else if sub == 1 then s.floorW else if sub == 2 then s.pLimit else s.power.ballast)
  else if idx == 0x40B2 then pointMhz (s.rpwr sub).top
  else if idx == 0x40B7 then sCode 32 (s.tempMax sub)
  else if idx == 0x40B8 then sCode 32 (s.spwr sub).temp
  else if idx == 0x40C0 || idx == 0x40C1 then sCode 32 (s.unitMargin ((idx - 0x40C0) * 256 + sub))
  else if idx == 0x40C2 then s.regionForecast sub
  else if idx == 0x40C3 then s.fenceForecast
  else if idx == 0x40C4 then s.ageNow
  else if idx == 0x40D0 then s.power.railMv.getD sub 0
  else if idx == 0x40D1 then s.power.railCurrent.getD sub 0
  else if idx == 0x5002 then s.peerEpoch
  else if 0x5100 ≤ idx && idx < 0x5200 then (s.peer ((idx - 0x5100) * 256 + sub)).word
  else if idx == 0x6001 then (if sub == 1 then b2n s.mem.mapLocked else 0)
  else if idx == 0x6002 then ((List.range 16).map fun k => s.stackBytes - s.localBytes k).sum
  else if idx == 0x6003 then ((List.range 4).map fun k => s.localBytes (4 * sub + k) - 64 * 2 ^ 20).sum
  else if idx == 0x6020 then (if (s.farPort sub).present then (s.farPort sub).capacity else 0)
  else if idx == 0x6021 then (let f := s.farPort sub; if f.up then f.lanes % 256 * 256 + f.gts % 256 else 0)
  else if 0x7000 ≤ idx && idx < 0x7100 then
    (let l := (s.progressShown idx).fields; if sub < 8 then (l.getD sub (0, 0)).1 else packFields l)
  else if idx == 0x8000 then b.rollback.getD sub 0
  else if idx == 0x8002 then (match b.ownerDigest with | some d => leNat d | none => 0)
  else if idx == 0x8010 then pieceOf Config.deviceCert sub
  else if idx == 0x8011 then pieceOf s.attestCert sub
  else if idx == 0x8021 then pieceOf b.report sub
  else if idx == 0x8041 then (if sub == 0 then leNat (fitBytes 32 (Config.debugNonce b.starts)) else if sub == 2 then b.debug else 0)
  else 0

/-! ### Reading (R36, R39) -/

/-- What a read of an entry returned. -/
structure Got where
  status : Nat
  ty : Nat
  len : Nat
  /-- little-endian value, and the bytes as Agrex carries them -/
  val : Nat
  wire : List Byte
  stale : Bool

def Got.refused (status : Nat) : Got := ⟨status, 0, 0, 0, [], false⟩

/-- The bytes of a value in an Agrex message: numbers big-endian, STR and BLOB as they are, WIDE field by field (R29). -/
def State.wireOf (s : State) (d : DEntry) (idx sub len v : Nat) : List Byte :=
  match d.ty with
  | .str | .blob => leBytes len v
  | .wide => (s.wideFields idx sub).flatMap fun f => beBytes f.2 f.1
  | _ => beBytes len v

/-- The dies that hold the registers an entry formed from the state has as its home (R36). FAB_ID, FAB_EPOCH and LOCKED of MEM_MAP
lie on every ply die; one of them in reset marks the value (DESIGN CHOICE, log entry 96). -/
def viewDies (idx sub : Nat) : List Nat :=
  if idx == 0x4063 || idx == 0x40B7 then [sub]
  else if idx == 0x4084 || idx == 0x40B2 || idx == 0x40B8 then [sub / 4]
  else if idx == 0x40C0 || idx == 0x40C1 then [unitDie ((idx - 0x40C0) * 256 + sub)]
  else if idx == 0x40B0 && sub < 3 then [hubDie]
  else if idx == 0x5000 || idx == 0x5002 || idx == 0x6001 then [0, 1, 2, 3]
  else []

/-- The part that serves the entry is in reset or recovery, or the entry's instance is fenced. -/
def State.entryDown (s : State) (d : DEntry) (idx sub : Nat) : Bool :=
  s.homeDown d idx sub || s.instFenced d idx sub || (viewDies idx sub).any s.dieDown

def State.obs (s : State) (idx sub : Nat) : Nat := tget dictDefault s.observed (dkey idx sub)
def State.setObs (s : State) (idx sub v : Nat) : State := { s with observed := tset dictDefault s.observed (dkey idx sub) v }

/-- Clear the home of an RC entry. -/
def State.homeClear (s : State) (d : DEntry) (idx sub : Nat) : State :=
  match d.home with
  | .mc => s.setMc idx sub 0
  | .cqSum => (List.range 8).foldl (fun s k => s.setReg .cqFullCnt sub k 0#32) s
  | _ => (homePieces d idx sub).foldl (fun s p => s.putPiece p 0) s

/-- The value an entry reads as now at its home. -/
def State.liveValue (s : State) (d : DEntry) (idx sub : Nat) : Nat :=
  match d.home with
  | .mc => s.mcv idx sub
  | .view => s.viewEntry idx sub
  | _ => s.homeGet d idx sub

/-- Value, stale mark and the state after a read that passed its checks; `clear` for the owner and the local port (R53). Ramp entries
are read at their home, where the governor sets their flags (16 R530). -/
def State.entryRead (s : State) (d : DEntry) (idx sub : Nat) (clear : Bool) : Nat × Bool × State :=
  let down := s.entryDown d idx sub
  if d.acc == .rw || d.acc == .gw then
    (if d.home == .view || idx == 0x20B3 then s.liveValue d idx sub else s.dv idx sub, down, s)
  else if down then (s.obs idx sub, true, s)
  else
    let v := s.liveValue d idx sub
    let rc := d.acc == .rc && clear
    let s := if rc then s.homeClear d idx sub else s
    (v, false, if d.home == .mc then s else s.setObs idx sub (if rc then 0 else v))

/-- Length of an entry's value in bytes. -/
def State.entryLen (s : State) (d : DEntry) : Nat := if d.ty == .str then s.partNumber.length else d.len

/-- A subindex names an instance of the entry. -/
def DEntry.has (d : DEntry) (sub : Nat) : Bool := decide (d.sub ≤ sub) && decide (sub < d.sub + d.subN)

/-- The entry has a broadcast subindex (R32). -/
def DEntry.broad (d : DEntry) : Bool := d.scheme != .plain && d.scheme != .table

/-- A read of index:subindex with the checks of R39, steps 4 to 7. -/
def State.dictRead (s : State) (idx sub : Nat) (clear : Bool) : Got × State :=
  match dictFind idx sub with
  | none => (.refused agNoObject, s)
  | some d =>
    if d.broad && sub == 0xFF then (.refused agNoObject, s)
    else if d.acc == .wo then (.refused agDenied, s)
    else if !d.has sub then (.refused agInvalid, s)
    else
      let r := s.entryRead d idx sub clear
      let n := s.entryLen d
      let v := r.1 % 2 ^ (8 * n)
      (⟨agOk, d.ty.code, n, v, s.wireOf d idx sub n v, r.2.1⟩, r.2.2)

/-! ### Running blocks (R75) -/

/-- Some item of the regions of a die satisfies p. -/
def State.anyItemOn (s : State) (die : Nat) (p : Item → Bool) : Bool :=
  s.items.any fun e => regionDie (e.1 / 256) == die && (match e.2 with | some x => p x | none => false)

/-- The key-value units of a die are running (10 R336). -/
def State.ateBusy (s : State) (die : Nat) : Bool :=
  s.anyItemOn die (fun x => x.engine == 4 || s.isReeve x)
    || s.spills.any fun e => clusterDie e.1 == die && !e.2.isEmpty

/-- The variant fields of a die are running (09 R298). -/
def State.varBusy (s : State) (die : Nat) : Bool := s.anyItemOn die fun x => x.engine == 1 && x.op == 0x10

/-- FAB_PKG_ID is running (13 R454). -/
def State.idBusy (s : State) : Bool :=
  s.selfMember || s.items.any fun e => match e.2 with | some x => x.engine == 7 | none => false

/-- The block of a register with Idle-only fields is running. -/
def State.regBusy (s : State) (r : Reg) (i e : Nat) : Bool :=
  match regBlk r with
  | .wrkB => s.items.any fun x => x.1 / 256 == i && x.2.isSome
  | .ateDB => s.ateBusy i
  | .rtrDB => s.varBusy i
  | .memB => s.mem.mapLocked
  | .trkB => (s.tracker (i * 4096 + e)).held
  | .stepB => if r == .bwlSeed then !s.allFree else (s.step e).state != 0
  | _ => false

/-- An Idle-only entry is running. -/
def State.entryBusy (s : State) (d : DEntry) (idx sub : Nat) : Bool :=
  if idx == 0x5000 then s.idBusy
  else if idx == 0x6022 then s.mem.mapLocked
  else (homePieces d idx sub).any fun p => s.regBusy p.reg p.inst p.el

/-! ### Writing (R36 to R39, R67, R73 to R76) -/

/-- A refusal with CONFIG_BUSY, counted at the die of the entry's home (R36, R75). -/
def State.entryRefuse (s : State) (ini : Nat) (d : DEntry) (idx sub : Nat) : State × Nat :=
  let off := match homePieces d idx sub with | p :: _ => (regPlace p.reg p.inst p.el).2 | [] => 0
  (s.refuse ini (homeDie d idx sub) off, agBusy)

/-- A refusal with its status, counted where it is CONFIG_BUSY. -/
def State.counted (r : State × Nat) (ini : Nat) : State × Nat := if r.2 == agBusy then (r.1.refuse ini hubDie 0, agBusy) else r

/-- A command entry takes effect on true. -/
def onTrue (v : Nat) (s : State) (r : State × Nat) : State × Nat := if v == 1 then r else (s, agOk)

/-- A mask of ports of which one has its die in reset. -/
def State.portsDown (s : State) (mask : Nat) : Option Nat := (List.range 18).find? fun p => bit mask p && s.dieDown (portDie p)

/-- MAP_LOCK, whose home is MEM_MAP of every controller: refused while a ply die is in reset (R36), else the map is locked
(12 R380). -/
def State.lockMap (s : State) (ini : Nat) : State × Nat :=
  match (List.range 4).find? s.dieDown with
  | some d => (s.refuse ini d 0x40008, agBusy)
  | none => ({ s with mem := { s.mem with mapLocked := true } }, agOk)

/-- MAP_LOCK (12 R380; R36). -/
def execMapLock (ini : Nat) (s : State) : Host.Outcome State Fault Refusal := .next (s.lockMap ini).1

/-- The bits of an entry's value that are not reserved (00 R7): of a layout record (10 R300) and of DRAIN_CLEAT (12 R400). -/
def entryMask (idx sub v : Nat) : Nat :=
  if idx == 0x2074 then ((List.range 8).map fun e => (BitVec.ofNat 32 (fld v (4 * e) 4) &&& BitVec.ofNat 32 (elMask .ateLayout e)).toNat * 2 ^ (32 * e)).sum
  else if idx == 0x6030 && sub == 3 then (BitVec.ofNat 32 v &&& 0xF0003FFF#32).toNat
  else v

/-- The effect of a write that passed its checks on entries whose write does more than store a value; none for the others. -/
def State.entryEffect (s : State) (ini idx sub v : Nat) (data : List Byte) : Option (State × Nat) :=
  if idx == 0x1412 then some (s.snarlAckAll sub v, agOk)
  else if idx == 0x1422 then some (s.fenceUnits sub v, agOk)
  else if idx == 0x1423 then some (s.unfenceUnits sub v, agOk)
  else if idx == 0x1F04 then some (s.activeSlot v, agOk)
  else if idx == 0x1F05 then some (onTrue v s (s.bootRecordClear, agOk))
  else if idx == 0x2084 then some (if s.dieDown hubDie then (s.refuse ini hubDie 0x30014, agBusy) else (s.laySetWrite v, agOk))
  else if idx == 0x2097 then
    some (if s.boot.bitter && bits v 31 29 < 4 then (s.refuse ini hubDie 0, agBusy) else (s.resetRequest (bits v 31 29) (bits v 15 0), agOk))
  else if idx == 0x2098 then some (onTrue v s (s.powerOff, agOk))
  else if idx == 0x20A0 && sub == 2 then some (onTrue v s (State.counted s.ctxSave ini))
  else if idx == 0x20A0 && sub == 3 then some (onTrue v s (State.counted s.ctxRestore ini))
  else if idx == 0x20B0 then some (s.setClass v, agOk)
  else if idx == 0x20B3 then some (s.rampWrite ini sub v)
  else if idx == 0x20BA then some (s.ageWrite sub data)
  else if idx == 0x5007 then
    some ((List.range 18).foldl (fun s p => s.portEnableOne p (bit v p)) (s.setDv 0x5007 0 v), agOk)
  else if idx == 0x5008 then
    some (match s.portsDown v with
      | some p => (s.refuse ini (portDie p) 0x300008, agBusy)
      | none => ((List.range 18).foldl (fun s p => if bit v p then s.portRetrainOne p else s) s, agOk))
  else if idx == 0x6001 then some (onTrue v s (s.lockMap ini))
  else if idx == 0x6030 && sub == 4 then some (onTrue v s (State.counted s.startDrain ini))
  else if idx == 0x8001 then some (onTrue v s (State.counted s.rollbackCommit ini))
  else if idx == 0x8002 then some (s.ownerFuse data)
  else if idx == 0x8020 then some (s.attestNonce data, agOk)
  else if idx == 0x8030 then some (s.writeKey sub data, agOk)
  else if idx == 0x8031 then some (s.writeKey 8 data, agOk)
  else if idx == 0x8040 then some (s.debugToken sub data, agOk)
  else if idx == 0x8041 then some (onTrue v s s.debugEnable)
  else if idx == 0x8051 then some (State.counted (s.fwData data) ini)
  else if idx == 0x8052 then some (onTrue v s (State.counted s.fwCommit ini))
  else none

/-- What else follows the store of a value. -/
def State.entryAfter (old s : State) (idx v : Nat) : State :=
  if idx == 0x2080 then s.layReselect old.laySource
  else if 0x2090 ≤ idx && idx ≤ 0x2093 then { s with wdPast := (idx, s.cycle, old.dv idx 0) :: s.wdPast }
  else if idx == 0x6022 then { s with mem := { s.mem with farInterleave := v == 1 } }
  -- the layers that are wide, or the mark, have changed (07 R242)
  else if idx == 0x3100 || idx == 0x3026 then s.globalCheck 16
  else s

/-- The write of one instance: step 10 of R39 and the effect. The parts of a home in reset take the value at their recovery (R36),
a fenced instance takes it when it returns to service (R33). -/
def State.entryWrite (s : State) (ini : Nat) (d : DEntry) (idx sub v : Nat) (data : List Byte) : State × Nat :=
  if d.apply == .idle && s.entryBusy d idx sub then s.entryRefuse ini d idx sub
  else match s.entryEffect ini idx sub v data with
    | some r => r
    | none =>
      let v := entryMask idx sub v
      let t := s.setDv idx sub v
      (State.entryAfter s (if s.instFenced d idx sub then t else t.homePut d idx sub v) idx v, agOk)

/-- A write of index:subindex with the checks of R39, steps 4 to 10. `ty` is the type code carried, where one is; `comp` whether the
complement carried is right, where one is. KEY_SLOT and FM_KEY are written through the local port alone (15 R516), and OWNER_DIGEST
while it is blank (15 R504). -/
def State.dictWrite (s : State) (ini : Nat) (agrex : Bool) (idx sub : Nat) (ty : Option Nat) (data : List Byte) (comp : Option Bool) :
    State × Nat :=
  match dictFind idx sub with
  | none => (s, agNoObject)
  | some d =>
    if d.acc == .ro || d.acc == .rc || (agrex && (idx == 0x8030 || idx == 0x8031))
        || (idx == 0x8002 && s.boot.ownerDigest.isSome) then (s, agDenied)
    else if ty.any (· != d.ty.code) || data.length != d.len then (s, agType)
    else if !d.has sub && !(d.broad && sub == 0xFF) then (s, agInvalid)
    else
      let v := leNat data
      let subs := if d.has sub then [sub] else d.subs
      if !locOk d.rng v then (s, agInvalid)
      else if !subs.all fun k => s.valueOk d k v then (s, agRange)
      else if comp == some false || (d.acc == .gw && comp.isNone) then (s, agGuard)
      else
        match subs.find? fun k => (s.entryWrite ini d idx k v data).2 != agOk with
        | some k => s.entryWrite ini d idx k v data
        | none => (subs.foldl (fun s k => (s.entryWrite ini d idx k v data).1) s, agOk)

end Sys2Proof.Machine
end

