-- ==== Sys2Proof/Machine/Bus.lean ====
section
/-! DEFINITION. The register space: direct loads and stores, guarded writes, bit-alias words, the wide-value mailbox and the local
dictionary port (02 R36, R37, R54 to R72; 13 R450; 14 R482). -/

namespace Sys2Proof.Machine

/-! ### Addresses (R59, R60) -/

/-- Die and offset of a register-space address. -/
def busPlace (a : Nat) : Option (Nat × Nat) :=
  if 0x3F00000000 ≤ a && a < 0x4000000000 then (if a < 0x3F40000000 then some (4, a - 0x3F00000000) else none)
  else if 0x4000000000 ≤ a && a < 0x4100000000 then some ((a - 0x4000000000) / 0x40000000, (a - 0x4000000000) % 0x40000000)
  else none

/-- The banked ranges (R68). -/
def banked (die off : Nat) : Bool := (die == hubDie && decide (0x10000 ≤ off) && decide (off < 0x10200)) || (decide (0xF00000 ≤ off) && decide (off < 0x1000000))

/-- The width of an access is one that registers take; the address is aligned to it. -/
def busOk (addr width : Nat) : Bool := (width == 4 || width == 8) && addr % width == 0

/-! ### Guard slots (R65, R66) -/

/-- The bits of a register that are GW fields, at an offset. -/
def gwAt (die off : Nat) : Nat := match regAt die off with | some (d, _, _) => d.gw | none => 0

/-- A write to the guard mirror of offset `off`. -/
def State.guardWrite (s : State) (ini die off width value : Nat) : State :=
  let s := s.intervene ini die none
  if banked die off || (gwAt die off == 0 && (width == 4 || gwAt die (off + 4) == 0)) then s
  else s.setGuard ini die (some ⟨off, value % 2 ^ (8 * width), width, s.cycle⟩)

/-- A write to offset `off` takes its GW fields: the slot is armed for it with the complement. The slot disarms; else the attempt
aborts. Fields that are not GW apply either way. -/
def State.guardPass (s : State) (ini die off width value : Nat) : Bool × State :=
  let s := s.intervene ini die (some off)
  if gwAt die off == 0 && (width == 4 || gwAt die (off + 4) == 0) then (false, s)
  else match s.guardOf ini die with
    | some g =>
      if g.width == width && g.comp == compl (8 * width) value then (true, s.setGuard ini die none)
      else (false, (s.setGuard ini die none).abort ini die 2 off)
    | none => (false, s.abort ini die 5 off)

/-! ### Homes of a register's fields (R34, R37) -/

/-- The registers that an entry's home lies in. -/
def homeRegs : Home → List Reg
  | .mc | .view => []
  | .cqSum => [.cqFullCnt]
  | .hp => [.halHp]
  | .wide => [.wideMap]
  | .everyPly64 r hi => [r, hi]
  | .die r _ _ | .region r _ _ | .regionPwr r _ _ | .stack r _ _ | .everyPly r _ _ | .everyCtrl r _ _ | .hub r _ _ | .port r _ _ => [r]
  | .regionLay r | .cluster r | .unit r | .everyPlyBlob r | .hub64 r | .hubPair r | .hubBlob r | .root r | .slot r => [r]
  | .portBits r _ => [r]

/-- The entries, with index, subindex and piece, that have a field in a register. -/
def homesOf (r : Reg) (i e : Nat) : List (DEntry × Nat × Nat × Piece) :=
  (dictTable.filter fun d => (homeRegs d.home).contains r).flatMap fun d =>
    (List.range d.idxN).flatMap fun n => d.subs.flatMap fun sub =>
      ((homePieces d (d.idx + n) sub).filter fun p => p.reg == r && p.inst == i && p.el == e).map fun p => (d, d.idx + n, sub, p)

/-- A store to a field that is an entry's home leaves it at the nearest legal value, in the field and in the image; a NaN is
ignored (R37). -/
def State.homeStore (old : Word) (s : State) (h : DEntry × Nat × Nat × Piece) : State :=
  let (d, idx, sub, p) := h
  let part := bits (s.reg p.reg p.inst p.el).toNat (p.lo + p.w - 1) p.lo
  let part := if idx == 0x2071 then valueOf idx part else part
  let w := if idx == 0x2071 then 16 else p.w
  match s.nearest d sub (setBits (s.dv idx sub) (p.pos + w - 1) p.pos part) with
  | some v => (s.setDv idx sub v).putPiece p (fieldOf idx v)
  | none => s.setReg p.reg p.inst p.el old

/-- Ring sizes outside their range read back as the nearer end (03 R91; 10 R336). -/
def normWord (r : Reg) (old v : Nat) : Nat :=
  match r with
  | .trkInit => trkInitBack old v
  | .sqCfg | .cqCfg => setBits v 3 0 (clampNat 6 12 (bits v 3 0))
  | .ateRingCfg => setBits v 4 0 (clampNat 10 25 (bits v 4 0))
  | _ => v

/-! ### Stores -/

/-- Words whose store is a command of its own: the value is what the word would hold. None where the store is an ordinary one. -/
def State.storeCommand (s : State) (ini : Nat) (r : Reg) (i e m v : Nat) : Option State :=
  match r with
  | .sqTail => some (s.writeSqTail i v)
  | .cqHead => some (s.writeCqHead i e v)
  | .ateRingTail => some (if s.ateSize i < (BitVec.ofNat 32 v - s.reg .ateRingHead i).toNat then s.flag .ateSts i 0 4
      else s.setReg .ateRingTail i 0 (BitVec.ofNat 32 v))
  | .trkCfg => some (s.writeTrkCfg ini (i * 4096 + e) v)
  | .cltSig => some (if v == 0 then s else (s.cleatOp hubDie (i / 16384) (i % 16384) (.signal v)).settle)
  | .cltDec => some (if v == 0 then s else (s.cleatOp hubDie (i / 16384) (i % 16384) (.decrement v)).settle)
  | .cltSet => some ((s.cleatOp hubDie (i / 16384) (i % 16384) (.set v)).settle)
  | .cltArm => some (s.armWait ini (i / 16384) (i % 16384) v)
  | .stepCmd => some (s.stepCommand ini e (bits v 31 28))
  | .laySet => some (s.laySetWrite v)
  | .errClear => some (s.errClear i v)
  | .pwrClass => some (s.setClass (v % 8))
  | .pwrRamp =>
    some (s.rampWrite ini (e / 8) (setBits (s.homeGet ⟨0x20B3, 1, 0, 16, .blob, 32, .rw, 0, .rampEntry, .live, .hubBlob .pwrRamp, .inst⟩ 0x20B3 (e / 8))
      (32 * (e % 8) + 31) (32 * (e % 8)) v)).1
  | .fabPortCfg =>
    let p := if e == 4 then (if i == 0 then 16 else 17) else 4 * i + e
    if e == 4 && i != 0 && i != 2 then some s
    else
      let s := if bit m 31 then (s.setDv 0x5007 0 (setBits (s.dv 0x5007 0) p p (b2n (bit v 31)))).portEnableOne p (bit v 31) else s
      some (if bit m 30 && bit v 30 then s.portRetrainOne p else s)
  | _ => none

/-- A change of the ring's size leaves RING_LOW within it (02 R38). -/
def State.ringLowFit (s : State) (die : Nat) : State :=
  if s.ateSize die < s.dv 0x2076 die
  then (s.setDv 0x2076 die (s.ateSize die)).setReg .ateRingLow die 0 (BitVec.ofNat 32 (s.ateSize die)) else s

/-- The bits of `m` that a store may change in a register's word. -/
def RegDef.writable (d : RegDef) (e m : Nat) : Word :=
  BitVec.ofNat 32 m &&& (BitVec.ofNat 32 d.rw ||| BitVec.ofNat 32 d.gw ||| BitVec.ofNat 32 d.wo) &&& BitVec.ofNat 32 (elMask d.name e)

/-- A store of the bits `m` at an offset meets Idle-only fields of a running block (R75). A tracker's configuration word decides for
itself (07 R220). -/
def State.idleHit (s : State) (die off m : Nat) : Bool :=
  match regAt die off with
  | none => false
  | some (d, i, e) => d.name != .trkCfg && (d.writable e m &&& BitVec.ofNat 32 d.idle) != 0#32 && s.regBusy d.name i e

/-- Store the bits `m` of `v` into the register word at an offset: what they may change is what the caller's access allows. Idle-only
fields of a running block keep their value. -/
def State.storeOpen (s : State) (ini die off m v : Nat) : State :=
  match regAt die off with
  | none => s
  | some (d, i, e) =>
    let mask := d.writable e m
    if mask == 0#32 then s
    else
      let had : Word := BitVec.ofNat 32 (s.readReg d.name i e)
      let want := (had &&& ~~~mask) ||| (BitVec.ofNat 32 v &&& mask)
      match s.storeCommand ini d.name i e mask.toNat want.toNat with
      | some t => t
      | none =>
        let mask := if s.idleHit die off m then mask &&& ~~~(BitVec.ofNat 32 d.idle) else mask
        let old := s.reg d.name i e
        let new := BitVec.ofNat 32 (normWord d.name old.toNat ((old &&& ~~~mask) ||| (BitVec.ofNat 32 v &&& mask)).toNat)
        let src := s.laySource
        let s := s.setReg d.name i e new
        let s := ((homesOf d.name i e).filter fun h =>
          (mask &&& BitVec.ofNat 32 ((2 ^ h.2.2.2.w - 1) * 2 ^ h.2.2.2.lo)) != 0#32).foldl (fun s h => State.homeStore old s h) s
        if d.name == .layCfg then s.layReselect src else if d.name == .ateRingCfg then s.ringLowFit i else s

/-- A store of bits of one word, refused and counted where it meets Idle-only fields of a running block (R75). -/
def State.storeBits (s : State) (ini die off m v : Nat) : State :=
  (if s.idleHit die off m then s.refuse ini die off else s).storeOpen ini die off m v

/-- The bits of the word at an offset that a plain store changes: RW and WO fields, GW fields where the guard passed; writes to RO and
RC fields are ignored. -/
def storeMask (die off : Nat) (gw : Bool) : Nat :=
  match regAt die off with
  | none => 0
  | some (d, _, _) => (BitVec.ofNat 32 d.rw ||| BitVec.ofNat 32 d.wo ||| (if gw then BitVec.ofNat 32 d.gw else 0#32)).toNat

/-- A store to the register windows. A 64-bit store is a single access: refused once, at its own offset (R62, R75). -/
def State.regStore (s : State) (ini die off width v : Nat) : State :=
  let g := s.guardPass ini die off width v
  let lo := storeMask die off g.1
  let hi := storeMask die (off + 4) g.1
  if width == 8 then
    let s := if g.2.idleHit die off lo || g.2.idleHit die (off + 4) hi then g.2.refuse ini die off else g.2
    (s.storeOpen ini die off lo (v % 2 ^ 32)).storeOpen ini die (off + 4) hi (v / 2 ^ 32 % 2 ^ 32)
  else g.2.storeBits ini die off lo (v % 2 ^ 32)

/-! ### Bit-alias words (R68) -/

/-- Offset of the register and the bit of an alias offset. -/
def aliasOf (off : Nat) : Nat × Nat := ((off - 0x20000000) / 128 * 4, (off - 0x20000000) / 4 % 32)

/-- A write to an alias word. -/
def State.aliasWrite (s : State) (ini die off value : Nat) : State :=
  let (o, b) := aliasOf off
  let s := s.intervene ini die none
  if banked die o then s
  else if bit (gwAt die o) b then s.abort ini die 4 o
  else s.storeBits ini die o (2 ^ b) (value % 2 * 2 ^ b)

/-! ### Loads (R62, R64) -/

/-- The entry formed from the state whose whole home is one register word (R36). -/
def viewOf (r : Reg) (i e : Nat) : Option (Nat × Nat) :=
  match r with
  | .fabEpoch => some (0x5002, 0)
  | .memMap => some (0x6001, 1)
  | .pwrRegFreq => some (0x40B2, i * 4 + e)
  | .pwrHbmTemp => some (0x40B8, i * 4 + e)
  | _ => none

/-- After a load that reached them, the values last observed at the homes in a register (R36). -/
def State.observe (s : State) (r : Reg) (i e : Nat) : State :=
  let s := match viewOf r i e with
    | some (idx, sub) => s.setObs idx sub (s.viewEntry idx sub)
    | none => s
  (homesOf r i e).foldl (fun (s : State) h =>
    if h.1.acc == .ro || h.1.acc == .rc then s.setObs h.2.1 h.2.2.1 (s.homeGet h.1 h.2.1 h.2.2.1) else s) s

/-- A load of one register word, and the clear of the bits `m` that are RC. -/
def State.loadWord (s : State) (die off m : Nat) : Nat × State :=
  match regAt die off with
  | none => (0, s)
  | some (d, i, e) =>
    let v := s.readReg d.name i e
    let clear : Word := BitVec.ofNat 32 d.rc &&& BitVec.ofNat 32 m
    (v, (if clear == 0#32 then s else s.setReg d.name i e (s.reg d.name i e &&& ~~~clear)).observe d.name i e)

/-! ### The mailbox (R69 to R72) -/

def dMbx : Nat → MbxBank := fun _ => {}
def mbxKey (ini die : Nat) : Nat := die * 64 + ini % 64
def State.mbxBank (s : State) (ini die : Nat) : MbxBank := tget dMbx s.mbx (mbxKey ini die)
def State.setMbx (s : State) (ini die : Nat) (b : MbxBank) : State := { s with mbx := tset dMbx s.mbx (mbxKey ini die) b }

/-- A capture starts: the words or the error taken at this instant are shown when it completes. -/
def State.mbxCapture (s : State) (ini die : Nat) (r : Nat ⊕ List Nat) : State :=
  let s := s.intervene ini die none
  let b := s.mbxBank ini die
  let b := { b with valid := false, err := false, error := 0, busy := true, seq := (b.seq + 1) % 256 }
  s.setMbx ini die (match r with
    | .inl e => { b with pendError := e, data := [] }
    | .inr l => { b with pendError := 0, data := l.map fun v => BitVec.ofNat 64 v })

/-- KIND 0x01: a LONG128 result slot, on its own die. -/
def State.captureLong (s : State) (die index : Nat) : Nat ⊕ List Nat :=
  if 1024 ≤ index then .inl 2
  else if index / 256 != die then .inl 3
  else
    let q : Quad := tget (fun _ => 0#128) s.results index
    -- one written from poisoned data reads as NaR (04 R156)
    .inr (if tget dF s.resultPoison index then [0, 2 ^ 63] else [q.toNat % 2 ^ 64, q.toNat / 2 ^ 64])

/-- KIND 0x02: the Lay snapshot (13 R450). -/
def State.captureLay (s : State) (index : Nat) : Nat ⊕ List Nat :=
  if index != 0 then .inl 2
  else .inr [s.lay.now % 2 ^ 64, s.cycle % 2 ^ 64, s.layErrNs + s.lay.state % 4 * 2 ^ 32 + s.laySource % 4 * 2 ^ 34,
             s.peerEpoch + (if s.pkgId == 0xFFFFFFFF then 0xFFFF else s.pkgId % 65536) * 2 ^ 32]

/-- KIND 0x03: the Snarl descriptor of a domain of the die, its level in ARG. -/
def State.captureSnarl (s : State) (die level index : Nat) : Nat ⊕ List Nat :=
  if 4 ≤ level || levelCount level ≤ index then .inl 2
  else if domDie ⟨level, index⟩ != die then .inl 3
  else .inr (descWords (s.snarlOf ⟨level, index⟩))

/-- KIND 0x04: a WIDE entry, on the hub. -/
def State.captureWide (s : State) (die index : Nat) : Nat ⊕ List Nat :=
  if die != hubDie then .inl 3
  else match dictFind (index / 256) (index % 256) with
    | some d =>
      if d.ty == .wide && d.has (index % 256) then
        let v := s.viewEntry (index / 256) (index % 256)
        .inr ((List.range (d.len / 8)).map fun i => fld v (8 * i) 8)
      else .inl 2
    | none => .inl 2

/-- A write of MGT_MBX_SEL. -/
def State.mbxSelect (s : State) (ini die v : Nat) : State :=
  let kind := v / 2 ^ 24 % 256
  let index := v % 2 ^ 24
  s.mbxCapture ini die
    (if kind == 1 then s.captureLong die index else if kind == 2 then s.captureLay index
     else if kind == 3 then s.captureSnarl die (s.mbxBank ini die).arg.toNat index
     else if kind == 4 then s.captureWide die index else .inl 1)

/-- The word at an offset of an initiator's bank. -/
def MbxBank.word (b : MbxBank) (x : Nat) : Nat :=
  if x == 4 then b.arg.toNat
  else if x == 8 then
    b2n b.valid * 2 ^ 31 + b2n b.busy * 2 ^ 30 + b2n b.err * 2 ^ 29 + b.error % 256 * 2 ^ 16 + b.seq % 256 * 2 ^ 8
      + (if b.valid then b.data.length % 16 else 0)
  else if 0x40 ≤ x && x < 0x80 && !b.busy then (b.data.getD ((x - 0x40) / 8) 0#64).toNat / 2 ^ (8 * (x % 8 / 4 * 4)) % 2 ^ 32
  else 0

/-! ### The local dictionary port (R56 to R58) -/

def dDic : Nat → DicBank := fun _ => {}
def State.dicBank (s : State) (ini : Nat) : DicBank := tget dDic s.dic (ini % 64)
def State.setDic (s : State) (ini : Nat) (b : DicBank) : State := { s with dic := tset dDic s.dic (ini % 64) b }

/-- A command begins, and its outcome is kept for its end: status, length, stale, and the value read with its place. -/
def State.dicStart (s : State) (ini status len : Nat) (stale : Bool) (v : Option (Nat × Bool)) : State :=
  let b := s.dicBank ini
  s.setDic ini { b with done := false, busy := true, pendStatus := status, pendLength := len, pendStale := stale, pendValue := v }

/-- An operation through the port; ignored while one is in progress. -/
def State.dicGo (s : State) (ini : Nat) (f : State → DicBank → State) : State :=
  let s := s.intervene ini hubDie none
  let b := s.dicBank ini
  if b.busy then s else f s b

/-- OP read: a WIDE entry is read through the mailbox alone. -/
def State.dicReadOp (s : State) (ini idx sub : Nat) : State :=
  s.dicGo ini fun s _ =>
    let wide : Bool := match dictFind idx sub with | some d => d.ty == .wide | none => false
    let broad : Bool := match dictFind idx sub with | some d => d.broad && sub == 0xFF | none => false
    -- the type is checked before the instance (R39)
    if wide && !broad then s.dicStart ini agType 0 false none
    else
    let r := s.dictRead idx sub true
    if r.1.status != agOk then s.dicStart ini r.1.status 0 false none
    else r.2.dicStart ini agOk r.1.len r.1.stale (some (r.1.val, r.1.ty == 8 || r.1.ty == 9))

/-- Bytes of the value to write: from the buffer for STR and BLOB, of the length in MGT_DIC_DATA. A length above 256 is no entry's
length and fails the check of R39: 257 bytes stand for it. -/
def DicBank.value (b : DicBank) (d : Option DEntry) : List Byte :=
  match d with
  | some d => if d.ty == .blob || d.ty == .str then leBytes (min 257 (b.data.toNat % 65536)) b.buf else leBytes d.len b.data.toNat
  | none => []

/-- OP write and guarded write. -/
def State.dicWriteOp (s : State) (ini idx sub : Nat) (guarded : Bool) : State :=
  s.dicGo ini fun s b =>
    let d := dictFind idx sub
    let data := b.value d
    let blob : Bool := match d with | some d => d.ty == .blob || d.ty == .str | none => false
    if guarded && blob && 128 < b.data.toNat % 65536 then s.dicStart ini agLarge 0 false none
    else
      let comp := if !guarded then none
        else if blob then some (fld b.buf 0x80 data.length == compl (8 * data.length) (leNat data))
        else some (b.guard.toNat % 2 ^ (8 * data.length) == compl (8 * data.length) (leNat data))
      let r := s.dictWrite ini false idx sub none data comp
      r.1.dicStart ini r.2 (if r.2 == agOk then data.length else 0) false none

/-- The reserved OP. -/
def State.dicReserved (s : State) (ini : Nat) : State := s.dicGo ini fun s _ => s.dicStart ini agDenied 0 false none

/-- A write of MGT_DIC_CMD. -/
def State.dicCommand (s : State) (ini v : Nat) : State :=
  let op := bits v 31 30
  if op == 0 then s.dicReadOp ini (bits v 23 8) (bits v 7 0)
  else if op == 3 then s.dicReserved ini
  else s.dicWriteOp ini (bits v 23 8) (bits v 7 0) (op == 2)

/-- The word at an offset of an initiator's bank. -/
def DicBank.word (b : DicBank) (x : Nat) : Nat :=
  if x == 4 then b2n b.done * 2 ^ 31 + b2n b.busy * 2 ^ 30 + b2n b.stale * 2 ^ 29 + b.status % 256 * 2 ^ 16 + b.length % 65536
  else if x == 0x10 || x == 0x14 then b.data.toNat / 2 ^ (8 * (x - 0x10)) % 2 ^ 32
  else if x == 0x18 || x == 0x1C then b.guard.toNat / 2 ^ (8 * (x - 0x18)) % 2 ^ 32
  else if 0x100 ≤ x && x < 0x200 then fld b.buf (x - 0x100) 4
  else 0

/-- A store of a word to an initiator's bank. -/
def State.dicStore (s : State) (ini x v : Nat) : State :=
  let s := s.intervene ini hubDie none
  let b := s.dicBank ini
  if x == 0 then s.dicCommand ini v
  else if x == 0x10 || x == 0x14 then s.setDic ini { b with data := BitVec.ofNat 64 (setBits b.data.toNat (8 * (x - 0x10) + 31) (8 * (x - 0x10)) v) }
  else if x == 0x18 || x == 0x1C then s.setDic ini { b with guard := BitVec.ofNat 64 (setBits b.guard.toNat (8 * (x - 0x18) + 31) (8 * (x - 0x18)) v) }
  else if 0x100 ≤ x && x < 0x200 then s.setDic ini { b with buf := setBits b.buf (8 * (x - 0x100) + 31) (8 * (x - 0x100)) v }
  else s

/-- A store of a word to an initiator's mailbox bank. -/
def State.mbxStore (s : State) (ini die x v : Nat) : State :=
  if x == 0 then s.mbxSelect ini die v
  else
    let s := s.intervene ini die none
    if x == 4 then s.setMbx ini die { s.mbxBank ini die with arg := BitVec.ofNat 32 v } else s

/-! ### An access of an initiator -/

/-- One word of a banked range stored. -/
def State.bankStore (s : State) (ini die off v : Nat) : State :=
  if off < 0xF00000 then s.dicStore ini (off - 0x10000) v else s.mbxStore ini die (off - 0xF00000) v
def State.bankLoad (s : State) (ini die off : Nat) : Nat :=
  if off < 0xF00000 then (s.dicBank ini).word (off - 0x10000) else (s.mbxBank ini die).word (off - 0xF00000)

/-- The device address that an application core names through the alias at 0x1000_0000_0000 (12 R373). -/
def coreAlias (ini addr : Nat) : Option Nat :=
  if ini < 32 && 2 ^ 44 ≤ addr && addr < 2 ^ 45 then some (addr - 2 ^ 44) else none

/-- A core's store to memory: a bus error outside the address map (12 R374); held while the memory is (14 R475); else the bytes are
written, part of a poisoned line leaving it poisoned (12 R384, R565). -/
def State.memStoreCore (s : State) (ini a width value : Nat) : State :=
  if !s.mapped a width then s.emit (.busError ini)
  else if s.spanHeld hubDie a width then s
  else s.wr a (leBytes width value)

/-- A poisoned line read by a core is counted at its controller, or recorded at its root port (12 R383, R397, R565). -/
def State.corePoison (s : State) (a : Nat) : State :=
  match s.place a with
  | some p =>
    if p < 2 ^ 48 then (s.bump .memPoisonCnt (p / 2 ^ 40) 0 1).flag .memSts (p / 2 ^ 40) 0 4
    else if 2 ^ 50 ≤ p && !s.farDown a then (s.bump .memFarPoisCnt 0 (s.farRoot a) 1).farRecord (s.farRoot a) 1 2 0x10 (p % 2 ^ 42 / 4096) 0
    else s
  | none => s

/-- A core's load from memory: a bus error outside the address map or on a poisoned line (12 R374, R565). -/
def State.memLoadCore (s : State) (ini a width : Nat) : State :=
  if !s.mapped a width then s.emit (.busError ini)
  else if s.spanHeld hubDie a width then s
  else if s.poisonedIn a width then (s.corePoison a).emit (.busError ini)
  else s.emit (.busData ini (s.rd a width))

/-- A store: byte and halfword accesses end in a bus error; unassigned addresses ignore it (R59, R62). The hub's initiators are in
reset while the dies are held. -/
def State.busStore (s : State) (ini addr width value : Nat) : State :=
  if s.held then s
  else match coreAlias ini addr with
  | some a => s.memStoreCore ini a width value
  | none =>
    match busPlace addr with
    | none => s
    | some (die, off) =>
      if !busOk addr width then s.emit (.busError ini)
      else if 0x20000000 ≤ off then
        let s := s.aliasWrite ini die off (value % 2 ^ 32)
        if width == 8 then s.aliasWrite ini die (off + 4) (value / 2 ^ 32) else s
      else if 0x10000000 ≤ off then (if off < 0x11000000 then s.guardWrite ini die (off - 0x10000000) width value else s.intervene ini die none)
      else if banked die off then
        let s := s.bankStore ini die off (value % 2 ^ 32)
        if width == 8 then s.bankStore ini die (off + 4) (value / 2 ^ 32 % 2 ^ 32) else s
      else s.regStore ini die off width value

/-- The boot flash interface in the hub's MEM_ block (12 R402, 15 R502): core stores to it are ignored, and a load reads its status,
whose layout the spec does not give: a free value (log entry 120). -/
def flashPlace (die off : Nat) : Bool := die == hubDie && decide (0x218000 ≤ off) && decide (off < 0x220000)

/-- One word loaded at an offset. -/
def State.loadOff (s : State) (ini die off : Nat) : Nat × State :=
  if 0x20000000 ≤ off then
    let (o, b) := aliasOf off
    if banked die o then (0, s) else let r := s.loadWord die o (2 ^ b); (bits r.1 b b, r.2)
  else if 0x10000000 ≤ off then (0, s)
  else if banked die off then (s.bankLoad ini die off, s)
  else if flashPlace die off then (s.free.1 % 2 ^ 32, s.free.2)
  else s.loadWord die off 0xFFFFFFFF

/-- A load: its data goes to the initiator. -/
def State.busLoad (s : State) (ini addr width : Nat) : State :=
  if s.held then s
  else match coreAlias ini addr with
  | some a => s.memLoadCore ini a width
  | none =>
    match busPlace addr with
    | none => s.emit (.busData ini 0)
    | some (die, off) =>
      if !busOk addr width then s.emit (.busError ini)
      else
        let r := s.loadOff ini die off
        if width == 8 then let q := r.2.loadOff ini die (off + 4); q.2.emit (.busData ini (r.1 + q.1 * 2 ^ 32)) else r.2.emit (.busData ini r.1)

/-! ### The commands -/

/-- REGISTER_WRITE (R37, R73 to R75). -/
def execRegisterWrite (ini addr width value : Nat) (s : State) : Host.Outcome State Fault Refusal := .next (s.busStore ini addr width value)

/-- RC_REGISTER_READ (R64): a load. -/
def execRcRegisterRead (ini addr width : Nat) (s : State) : Host.Outcome State Fault Refusal := .next (s.busLoad ini addr width)

/-- GUARD_WRITE (R65): a store to the guard mirror. -/
def execGuardWrite (ini addr width value : Nat) (s : State) : Host.Outcome State Fault Refusal := .next (s.busStore ini addr width value)

/-- GW_FIELD_WRITE (R65, R66): a store to a register that holds a GW field. -/
def execGwFieldWrite (ini addr width value : Nat) (s : State) : Host.Outcome State Fault Refusal := .next (s.busStore ini addr width value)

/-- GUARD_TIMEOUT (R66): the 512 cycles of an armed slot run out. -/
def execGuardTimeout (ini die : Nat) (s : State) : Host.Outcome State Fault Refusal := .next (s.expire ini die true)

/-- BIT_ALIAS_WRITE (R68): a store of a word to the alias window. -/
def execBitAliasWrite (ini addr value : Nat) (s : State) : Host.Outcome State Fault Refusal := .next (s.busStore ini addr 4 value)

/-- BIT_ALIAS_READ (R68). -/
def execBitAliasRead (ini addr : Nat) (s : State) : Host.Outcome State Fault Refusal := .next (s.busLoad ini addr 4)

/-- MBX_CAPTURE_LONG128 (R70). -/
def execMbxCaptureLong128 (ini die index : Nat) (s : State) : Host.Outcome State Fault Refusal :=
  .next (if s.held then s else s.mbxCapture ini die (s.captureLong die index))

/-- MBX_CAPTURE_LAY (R70; 13 R450). -/
def execMbxCaptureLay (ini die index : Nat) (s : State) : Host.Outcome State Fault Refusal :=
  .next (if s.held then s else s.mbxCapture ini die (s.captureLay index))

/-- MBX_CAPTURE_SNARL (R70; 14 R482). -/
def execMbxCaptureSnarl (ini die index : Nat) (s : State) : Host.Outcome State Fault Refusal :=
  .next (if s.held then s else s.mbxCapture ini die (s.captureSnarl die (s.mbxBank ini die).arg.toNat index))

/-- MBX_CAPTURE_WIDE (R70). -/
def execMbxCaptureWide (ini die index : Nat) (s : State) : Host.Outcome State Fault Refusal :=
  .next (if s.held then s else s.mbxCapture ini die (s.captureWide die index))

/-- MBX_CAPTURE_DONE (R71): the capture in progress completes. -/
def execMbxCaptureDone (ini die : Nat) (s : State) : Host.Outcome State Fault Refusal :=
  .next (let b := s.mbxBank ini die
    if !b.busy then s
    else s.setMbx ini die { b with busy := false, valid := b.pendError == 0, err := b.pendError != 0, error := b.pendError, pendError := 0 })

/-- DIC_READ (R57). -/
def execDicRead (ini index sub : Nat) (s : State) : Host.Outcome State Fault Refusal :=
  .next (if s.held then s else s.dicReadOp ini (index % 65536) (sub % 256))

/-- DIC_WRITE (R57). -/
def execDicWrite (ini index sub : Nat) (s : State) : Host.Outcome State Fault Refusal :=
  .next (if s.held then s else s.dicWriteOp ini (index % 65536) (sub % 256) false)

/-- DIC_GUARDED_WRITE (R57, R67). -/
def execDicGuardedWrite (ini index sub : Nat) (s : State) : Host.Outcome State Fault Refusal :=
  .next (if s.held then s else s.dicWriteOp ini (index % 65536) (sub % 256) true)

/-- DIC_RESERVED_OP (R58). -/
def execDicReservedOp (ini : Nat) (s : State) : Host.Outcome State Fault Refusal := .next (if s.held then s else s.dicReserved ini)

/-- DIC_CMD_DONE (R58): the command in progress finishes and shows its outcome. A value read into MGT_DIC_BUF fills the buffer: the
bytes past its length are zero (DESIGN CHOICE, log entry 98). -/
def execDicCmdDone (ini : Nat) (s : State) : Host.Outcome State Fault Refusal :=
  .next (let b := s.dicBank ini
    if !b.busy then s
    else
      let b := match b.pendValue with
        | some (v, true) => { b with buf := v % 2 ^ 2048 }
        | some (v, false) => { b with data := BitVec.ofNat 64 v }
        | none => b
      s.setDic ini { b with done := true, busy := false, stale := b.pendStale, status := b.pendStatus, length := b.pendLength
                            pendStatus := 0, pendLength := 0, pendStale := false, pendValue := none })

end Sys2Proof.Machine
end

