-- ==== Sys2Proof/Machine/Agrex.lean ====
section
/-! DEFINITION. Agrex, the management protocol: messages, sessions, sequence numbers, the owner role, and its requests (02 R41 to R51;
15 R511, R516, R517). -/

namespace Sys2Proof.Machine

/-! ### Messages (R41, R42) -/

/-- The 16 bytes before the payload. -/
def agHeader (opcode session seq length status flags : Nat) : List Byte :=
  [0xA9#8, 0xE7#8, 0x01#8] ++ beBytes 1 opcode ++ beBytes 4 session ++ beBytes 2 seq ++ beBytes 2 length ++ beBytes 1 status
    ++ beBytes 1 flags ++ [0#8, 0#8]

/-- The tag of a message under a key. -/
def agTag (key msg : List Byte) : List Byte := (sha3 (key ++ msg)).take 16

/-- Bytes 0 to 15 + LENGTH of a request as it was received. -/
def dgBytes (d : Datagram) : List Byte :=
  beBytes 2 d.magic ++ beBytes 1 d.version ++ beBytes 1 d.opcode ++ beBytes 4 d.session ++ beBytes 2 d.seq ++ beBytes 2 d.length
    ++ beBytes 1 d.status ++ beBytes 1 d.flags ++ [0#8, 0#8] ++ d.payload

/-- A datagram that is not dropped unread. -/
def dgWell (d : Datagram) : Bool :=
  !d.fragment && d.magic == 0xA9E7 && d.version == 1 && d.length == d.payload.length && decide (d.length ≤ 1024) && d.tag.length == 16

/-- A response from the port its request came on, to the request's source (R48). -/
def State.reply (s : State) (d : Datagram) (key : List Byte) (opcode session seq status flags : Nat) (payload : List Byte) : State :=
  s.emit (.agrex d.port d.source (opcode + 128) session seq status flags payload
    (agTag key (agHeader (opcode + 128) session seq payload.length status flags ++ payload)))

/-! ### Keys (15 R516, R517) -/

/-- The key of an OPEN's SLOT: a client slot, or 0xFE, the recovery key, in Bitter-end mode or with no valid slot; none when the slot is
empty. -/
def State.openKey (s : State) (slot : Nat) : Option (List Byte) :=
  if slot < 8 then (tget dN s.keys slot).map (·.key)
  else if slot == 0xFE && (s.boot.bitter || (List.range 8).all fun k => (tget dN s.keys k).isNone) then some (sha3 (Config.uds ++ [0xFE#8]))
  else none

/-- OPEN (R517): authenticates with a slot's key, and opens a session with a device nonce and a starting SEQ. -/
def State.agOpen (s : State) (d : Datagram) : State :=
  let drop := s.mcBump 0x4012 0 1
  match s.openKey (d.payload.getD 0 0#8).toNat with
  | none => drop
  | some mkey =>
    if d.payload.length != 36 || agTag mkey (dgBytes d) != d.tag then drop
    else if s.dv 0x2040 1 ≤ s.sessions.length then s.reply d mkey 1 0 d.seq agLimit 0 []
    else
      let nc := d.payload.drop 4
      let nd := (List.range 32).map fun i => Config.freeByte s.freeCtr i
      let first := Config.freeNat s.freeCtr % 65536
      let id := s.nextSession
      let key := sha3 (mkey ++ nc ++ nd ++ beBytes 4 id)
      let x : Session := { id := id, key := key, expected := (first + 1) % 65536, cached := none, lastAt := s.cycle }
      let s := { s with sessions := s.sessions ++ [x], nextSession := (id + 1) % 2 ^ 32, freeCtr := s.freeCtr + 1 }
      s.reply d key 1 id first agOk 0 nd

/-! ### Sessions (R46, R49, R51) -/

def State.session (s : State) (id : Nat) : Option Session := s.sessions.find? fun x => x.id == id
def State.putSession (s : State) (x : Session) : State := { s with sessions := s.sessions.map fun y => if y.id == x.id then x else y }

/-- A session ends: its slot is free, and the owner role with it; OWNER_JOB stays. -/
def State.endSession (s : State) (id : Nat) : State :=
  { s with sessions := s.sessions.filter fun x => x.id != id, ownerSession := if s.ownerSession == id then 0 else s.ownerSession }

/-- No authenticated request for AGX_IDLE_TIMEOUT. -/
def State.idle (s : State) (x : Session) : Bool := decide (x.lastAt + cycOfMs (s.dv 0x2040 0) ≤ s.cycle)

def State.lapse (s : State) (id : Nat) : State := (s.endSession id).mcBump 0x4012 2 1

/-- AGX_SESSION_LAPSE (R49). -/
def execAgxSessionLapse (session : Nat) (s : State) : Host.Outcome State Fault Refusal :=
  .next (match s.session session with
    | some x => if s.idle x then s.lapse session else s
    | none => s)

/-! ### The requests (R43, R44, R51) -/

/-- What a request answers: status, flags, payload. -/
structure Answer where
  status : Nat
  flags : Nat := 0
  payload : List Byte := []

/-- Indexes that Bitter-end mode serves (15 R511). -/
def bitterServes (idx : Nat) : Bool :=
  (decide (0x1000 ≤ idx) && decide (idx < 0x2000)) || (decide (0x8000 ≤ idx) && decide (idx < 0x9000))
    || (decide (0x4000 ≤ idx) && decide (idx < 0x5000)) || (decide (0x7000 ≤ idx) && decide (idx < 0x7100))
    || (decide (0x2097 ≤ idx) && decide (idx ≤ 0x2099))

def be (l : List Byte) (x n : Nat) : Nat := beNat ((l.drop x).take n)

/-- READ_MULTI and READ share the read of one entry; only the owner's read clears (R53). -/
def State.agReadOne (s : State) (owner : Bool) (idx sub : Nat) : Got × State :=
  if s.boot.bitter && !bitterServes idx then (.refused agDenied, s) else s.dictRead idx sub owner

/-- READ. -/
def State.agRead (s : State) (owner : Bool) (p : List Byte) : Answer × State :=
  if p.length != 4 then ({ status := agType }, s)
  else
    let r := s.agReadOne owner (be p 0 2) (be p 2 1)
    if r.1.status != agOk then ({ status := r.1.status }, r.2)
    else ({ status := agOk, flags := if r.1.stale then 2 else 0
            payload := beBytes 1 r.1.ty ++ [0#8] ++ beBytes 2 r.1.len ++ r.1.wire }, r.2)

/-- One entry of a READ_MULTI's response, filled to a multiple of 4 bytes. -/
def Got.multi (g : Got) : List Byte :=
  let l := beBytes 1 g.status ++ beBytes 1 g.ty ++ beBytes 2 g.len ++ g.wire
  l ++ List.replicate ((4 - l.length % 4) % 4) 0#8

/-- READ_MULTI: refused as a whole, reading nothing, when its response would exceed 1,024 bytes. A COUNT of 0 or above 32 answers
TYPE_MISMATCH, as a payload of another length does (DESIGN CHOICE, log entry 14). -/
def State.agReadMulti (s : State) (owner : Bool) (p : List Byte) : Answer × State :=
  let n := be p 0 1
  if n == 0 || 32 < n || p.length != 4 + 4 * n then ({ status := agType }, s)
  else
    let r := (List.range n).foldl (fun (a : List Byte × Bool × State) i =>
      let g := a.2.2.agReadOne owner (be p (4 + 4 * i) 2) (be p (6 + 4 * i) 1)
      (a.1 ++ g.1.multi, a.2.1 || g.1.stale, g.2)) (([], false, s) : List Byte × Bool × State)
    if 1024 < r.1.length then ({ status := agLarge }, s)
    else ({ status := agOk, flags := if r.2.1 then 2 else 0, payload := r.1 }, r.2.2)

/-- The value carried by a write, in the byte order of the image. -/
def carried (idx sub : Nat) (v : List Byte) : List Byte :=
  match dictFind idx sub with
  | some d => if d.ty == .blob || d.ty == .str then v else v.reverse
  | none => v

/-- WRITE and GUARDED_WRITE, of the owner (R43, R67). -/
def State.agWrite (s : State) (guarded : Bool) (p : List Byte) : Answer × State :=
  let idx := be p 0 2
  let sub := be p 2 1
  let n := be p 4 2
  if s.boot.bitter && !bitterServes idx then ({ status := agDenied }, s)
  else if p.length != 8 + (if guarded then 2 * n else n) then ({ status := agType }, s)
  else
    let v := (p.drop 8).take n
    let comp := if guarded then some (p.drop (8 + n) == v.map fun (b : Byte) => ~~~b) else none
    let r := s.dictWrite 32 true idx sub (some (be p 3 1)) (carried idx sub v) comp
    ({ status := r.2 }, r.1)

/-- CLAIM (R51). -/
def State.agClaim (s : State) (id : Nat) (p : List Byte) : Answer × State :=
  let job := be p 0 8
  if p.length != 8 then ({ status := agType }, s)
  else if job == 0 then ({ status := agRange }, s)
  else if (s.ownerSession == 0 || s.ownerSession == id) && (s.ownerJob == 0 || s.ownerJob == job)
  then ({ status := agOk }, { s with ownerJob := job, ownerSession := id })
  else ({ status := agNotOwner }, s)

/-- RELEASE (R51). -/
def State.agRelease (s : State) : Answer × State := ({ status := agOk }, { s with ownerSession := 0 })

/-- An authenticated request of a session: the sequence rule of R46, the role of R43, and the request's effect. -/
def State.agSession (s : State) (d : Datagram) (roleOwner : Bool) (f : State → Bool → Nat → Answer × State) (close : Bool) : State :=
  let s := match s.session d.session with | some x => if s.idle x then s.lapse d.session else s | none => s
  match s.session d.session with
  | none => s.reply d [] d.opcode d.session d.seq agNoSession 0 []
  | some x =>
    if agTag x.key (dgBytes d) != d.tag then s.mcBump 0x4012 0 1
    else
      let x := { x with lastAt := s.cycle }
      let s := s.putSession x
      let prev := (x.expected + 65535) % 65536
      if d.seq == x.expected then
        let owner := s.ownerSession == x.id
        let r := if roleOwner && !owner then (({ status := agNotOwner } : Answer), s) else f s owner x.id
        let a := r.1
        let x := { x with expected := (x.expected + 1) % 65536, cached := some (d.opcode, a.status, a.flags, a.payload) }
        let s := r.2.putSession x
        let s := s.reply d x.key d.opcode x.id d.seq a.status a.flags a.payload
        if close then s.endSession x.id else s
      else
        match (if d.seq == prev then x.cached else none) with
        | some (op, st, fl, pl) => s.reply d x.key op x.id d.seq st fl pl
        | none => (s.mcBump 0x4012 1 1).reply d x.key d.opcode x.id prev agSeq 0 []

/-- A datagram for the management controller while it runs, of the opcode of its command. -/
def State.agReceive (s : State) (d : Datagram) (opcode : Nat) (f : State → State) : State :=
  if s.mcUp && dgWell d && d.opcode == opcode then f s else s

/-! ### The commands -/

/-- OPEN (15 R517). -/
def execAgxOpen (dg : Datagram) (s : State) : Host.Outcome State Fault Refusal := .next (s.agReceive dg 0x01 fun s => s.agOpen dg)

/-- CLOSE (R43): the session ends after its response. -/
def execAgxClose (dg : Datagram) (s : State) : Host.Outcome State Fault Refusal :=
  .next (s.agReceive dg 0x02 fun s => s.agSession dg false (fun s _ _ => ({ status := agOk }, s)) true)

/-- CLAIM (R51). -/
def execAgxClaim (dg : Datagram) (s : State) : Host.Outcome State Fault Refusal :=
  .next (s.agReceive dg 0x03 fun s => s.agSession dg false (fun s _ id => s.agClaim id dg.payload) false)

/-- RELEASE (R51), of the owner. -/
def execAgxRelease (dg : Datagram) (s : State) : Host.Outcome State Fault Refusal :=
  .next (s.agReceive dg 0x04 fun s => s.agSession dg true (fun s _ _ => s.agRelease) false)

/-- KEEPALIVE (R43). -/
def execAgxKeepalive (dg : Datagram) (s : State) : Host.Outcome State Fault Refusal :=
  .next (s.agReceive dg 0x05 fun s => s.agSession dg false (fun s _ _ => ({ status := agOk }, s)) false)

/-- READ (R43). -/
def execAgxRead (dg : Datagram) (s : State) : Host.Outcome State Fault Refusal :=
  .next (s.agReceive dg 0x10 fun s => s.agSession dg false (fun s owner _ => s.agRead owner dg.payload) false)

/-- READ_MULTI (R44). -/
def execAgxReadMulti (dg : Datagram) (s : State) : Host.Outcome State Fault Refusal :=
  .next (s.agReceive dg 0x11 fun s => s.agSession dg false (fun s owner _ => s.agReadMulti owner dg.payload) false)

/-- WRITE (R39, R43), of the owner. -/
def execAgxWrite (dg : Datagram) (s : State) : Host.Outcome State Fault Refusal :=
  .next (s.agReceive dg 0x12 fun s => s.agSession dg true (fun s _ _ => s.agWrite false dg.payload) false)

/-- GUARDED_WRITE (R43, R67), of the owner. -/
def execAgxGuardedWrite (dg : Datagram) (s : State) : Host.Outcome State Fault Refusal :=
  .next (s.agReceive dg 0x13 fun s => s.agSession dg true (fun s _ _ => s.agWrite true dg.payload) false)

end Sys2Proof.Machine
end

