-- ==== Sys2Proof/Machine/Dispatch.lean ====
section
/-! DEFINITION. The dispatch: one arm per command, each a direct call of the command's meaning. -/

namespace Sys2Proof.Machine

def exec (i : Instr) (s : State) : Host.Outcome State Fault Refusal :=
  match i with
  | .agxOpen dg => Sys2Proof.Machine.execAgxOpen dg s
  | .agxClose dg => Sys2Proof.Machine.execAgxClose dg s
  | .agxClaim dg => Sys2Proof.Machine.execAgxClaim dg s
  | .agxRelease dg => Sys2Proof.Machine.execAgxRelease dg s
  | .agxKeepalive dg => Sys2Proof.Machine.execAgxKeepalive dg s
  | .agxRead dg => Sys2Proof.Machine.execAgxRead dg s
  | .agxReadMulti dg => Sys2Proof.Machine.execAgxReadMulti dg s
  | .agxWrite dg => Sys2Proof.Machine.execAgxWrite dg s
  | .agxGuardedWrite dg => Sys2Proof.Machine.execAgxGuardedWrite dg s
  | .agxSessionLapse session => Sys2Proof.Machine.execAgxSessionLapse session s
  | .dicRead ini index sub => Sys2Proof.Machine.execDicRead ini index sub s
  | .dicWrite ini index sub => Sys2Proof.Machine.execDicWrite ini index sub s
  | .dicGuardedWrite ini index sub => Sys2Proof.Machine.execDicGuardedWrite ini index sub s
  | .dicReservedOp ini => Sys2Proof.Machine.execDicReservedOp ini s
  | .dicCmdDone ini => Sys2Proof.Machine.execDicCmdDone ini s
  | .registerWrite ini addr width value => Sys2Proof.Machine.execRegisterWrite ini addr width value s
  | .rcRegisterRead ini addr width => Sys2Proof.Machine.execRcRegisterRead ini addr width s
  | .guardWrite ini addr width value => Sys2Proof.Machine.execGuardWrite ini addr width value s
  | .gwFieldWrite ini addr width value => Sys2Proof.Machine.execGwFieldWrite ini addr width value s
  | .guardTimeout ini die => Sys2Proof.Machine.execGuardTimeout ini die s
  | .bitAliasWrite ini addr value => Sys2Proof.Machine.execBitAliasWrite ini addr value s
  | .bitAliasRead ini addr => Sys2Proof.Machine.execBitAliasRead ini addr s
  | .mbxCaptureLong128 ini die index => Sys2Proof.Machine.execMbxCaptureLong128 ini die index s
  | .mbxCaptureLay ini die index => Sys2Proof.Machine.execMbxCaptureLay ini die index s
  | .mbxCaptureSnarl ini die index => Sys2Proof.Machine.execMbxCaptureSnarl ini die index s
  | .mbxCaptureWide ini die index => Sys2Proof.Machine.execMbxCaptureWide ini die index s
  | .mbxCaptureDone ini die => Sys2Proof.Machine.execMbxCaptureDone ini die s
  | .wrkSqTailWrite ini region value => Sys2Proof.Machine.execWrkSqTailWrite ini region value s
  | .descriptorAdmit region => Sys2Proof.Machine.execDescriptorAdmit region s
  | .layGateOpen region slot => Sys2Proof.Machine.execLayGateOpen region slot s
  | .fetchBlockArrive region slot stream entry block gen poisoned => Sys2Proof.Machine.execFetchBlockArrive region slot stream entry block gen poisoned s
  | .itemComplete region slot => Sys2Proof.Machine.execItemComplete region slot s
  | .wrkCqHeadWrite ini region ring value => Sys2Proof.Machine.execWrkCqHeadWrite ini region ring value s
  | .cleatSignal src die index amount => Sys2Proof.Machine.execCleatSignal src die index amount s
  | .cleatDecrement src die index amount => Sys2Proof.Machine.execCleatDecrement src die index amount s
  | .cleatSet ini die index value => Sys2Proof.Machine.execCleatSet ini die index value s
  | .cleatArm core die index value => Sys2Proof.Machine.execCleatArm core die index value s
  | .twineMatmul region slot residue => Sys2Proof.Machine.execTwineMatmul region slot residue s
  | .hawserMatmul region slot residue => Sys2Proof.Machine.execHawserMatmul region slot residue s
  | .segMatmul region slot => Sys2Proof.Machine.execSegMatmul region slot s
  | .reblock region slot => Sys2Proof.Machine.execReblock region slot s
  | .mask region slot => Sys2Proof.Machine.execMask region slot s
  | .dropout region slot => Sys2Proof.Machine.execDropout region slot s
  | .fillUniform region slot => Sys2Proof.Machine.execFillUniform region slot s
  | .fillNormal4 region slot => Sys2Proof.Machine.execFillNormal4 region slot s
  | .packSparse region slot => Sys2Proof.Machine.execPackSparse region slot s
  | .route region slot => Sys2Proof.Machine.execRoute region slot s
  | .gateRoute region slot => Sys2Proof.Machine.execGateRoute region slot s
  | .attend region slot => Sys2Proof.Machine.execAttend region slot s
  | .merge region slot => Sys2Proof.Machine.execMerge region slot s
  | .publish region slot => Sys2Proof.Machine.execPublish region slot s
  | .pteWrite region slot => Sys2Proof.Machine.execPteWrite region slot s
  | .passA region slot => Sys2Proof.Machine.execPassA region slot s
  | .passB region slot => Sys2Proof.Machine.execPassB region slot s
  | .passC region slot => Sys2Proof.Machine.execPassC region slot s
  | .passCDelayed region slot => Sys2Proof.Machine.execPassCDelayed region slot s
  | .seed region slot => Sys2Proof.Machine.execSeed region slot s
  | .nmBatch region slot => Sys2Proof.Machine.execNmBatch region slot s
  | .nmOperation op => Sys2Proof.Machine.execNmOperation op s
  | .send region slot => Sys2Proof.Machine.execSend region slot s
  | .allreduce region slot => Sys2Proof.Machine.execAllreduce region slot s
  | .reduceScatter region slot => Sys2Proof.Machine.execReduceScatter region slot s
  | .allgather region slot => Sys2Proof.Machine.execAllgather region slot s
  | .sumL128 region slot => Sys2Proof.Machine.execSumL128 region slot s
  | .maxF32 region slot => Sys2Proof.Machine.execMaxF32 region slot s
  | .vote region slot => Sys2Proof.Machine.execVote region slot s
  | .copy region slot => Sys2Proof.Machine.execCopy region slot s
  | .scalesFromMx region slot => Sys2Proof.Machine.execScalesFromMx region slot s
  | .scalesToMx region slot => Sys2Proof.Machine.execScalesToMx region slot s
  | .gatherRows region slot => Sys2Proof.Machine.execGatherRows region slot s
  | .gatherSlots region slot => Sys2Proof.Machine.execGatherSlots region slot s
  | .snarlCopy region slot => Sys2Proof.Machine.execSnarlCopy region slot s
  | .scaleLineMerge m => Sys2Proof.Machine.execScaleLineMerge m s
  | .stepOpen ini slot => Sys2Proof.Machine.execStepOpen ini slot s
  | .stepReopen ini slot => Sys2Proof.Machine.execStepReopen ini slot s
  | .stepAbandon ini slot => Sys2Proof.Machine.execStepAbandon ini slot s
  | .stepFree ini slot => Sys2Proof.Machine.execStepFree ini slot s
  | .stepCmdReserved ini slot op => Sys2Proof.Machine.execStepCmdReserved ini slot op s
  | .splTrkCfgWrite ini tracker value => Sys2Proof.Machine.execSplTrkCfgWrite ini tracker value s
  | .prepassPassDone region slot => Sys2Proof.Machine.execPrepassPassDone region slot s
  | .voteResult epoch step attempt sum => Sys2Proof.Machine.execVoteResult epoch step attempt sum s
  | .voteDoubtTimeout slot => Sys2Proof.Machine.execVoteDoubtTimeout slot s
  | .voteQuery port pkt => Sys2Proof.Machine.execVoteQuery port pkt s
  | .voteQueryAnswer port pkt => Sys2Proof.Machine.execVoteQueryAnswer port pkt s
  | .voteQueryTimeout slot => Sys2Proof.Machine.execVoteQueryTimeout slot s
  | .recordPin op => Sys2Proof.Machine.execRecordPin op s
  | .recordRelease op => Sys2Proof.Machine.execRecordRelease op s
  | .recordAppend op => Sys2Proof.Machine.execRecordAppend op s
  | .recordPublish op => Sys2Proof.Machine.execRecordPublish op s
  | .spillDrain cluster => Sys2Proof.Machine.execSpillDrain cluster s
  | .pageWaitTimeout region slot => Sys2Proof.Machine.execPageWaitTimeout region slot s
  | .pinWaitTimeout region slot => Sys2Proof.Machine.execPinWaitTimeout region slot s
  | .ateRingTailWrite ini die value => Sys2Proof.Machine.execAteRingTailWrite ini die value s
  | .memRead core stack off errs => Sys2Proof.Machine.execMemRead core stack off errs s
  | .memWrite stack off data poisoned => Sys2Proof.Machine.execMemWrite stack off data poisoned s
  | .memPartialWrite stack off data errs poisoned => Sys2Proof.Machine.execMemPartialWrite stack off data errs poisoned s
  | .scrubRead stack errs => Sys2Proof.Machine.execScrubRead stack errs s
  | .hbmTrainingDone stack reason badPins => Sys2Proof.Machine.execHbmTrainingDone stack reason badPins s
  | .mapLock ini => Sys2Proof.Machine.execMapLock ini s
  | .farRead core addr cxlPoison => Sys2Proof.Machine.execFarRead core addr cxlPoison s
  | .farWrite addr data poisoned => Sys2Proof.Machine.execFarWrite addr data poisoned s
  | .farLinkDown root => Sys2Proof.Machine.execFarLinkDown root s
  | .farLinkRetrain root lanes gts => Sys2Proof.Machine.execFarLinkRetrain root lanes gts s
  | .farEvent root code off => Sys2Proof.Machine.execFarEvent root code off s
  | .drainStart ini => Sys2Proof.Machine.execDrainStart ini s
  | .drainAtReached => Sys2Proof.Machine.execDrainAtReached s
  | .drainComplete => Sys2Proof.Machine.execDrainComplete s
  | .portEnable ini mask => Sys2Proof.Machine.execPortEnable ini mask s
  | .portRetrain ini mask => Sys2Proof.Machine.execPortRetrain ini mask s
  | .linkUp port lanes seeds credit nbr => Sys2Proof.Machine.execLinkUp port lanes seeds credit nbr s
  | .portTrainTimeout port => Sys2Proof.Machine.execPortTrainTimeout port s
  | .laneFail port lane => Sys2Proof.Machine.execLaneFail port lane s
  | .frameReceive port f => Sys2Proof.Machine.execFrameReceive port f s
  | .packetForward port pkt => Sys2Proof.Machine.execPacketForward port pkt s
  | .hello port pkt => Sys2Proof.Machine.execHello port pkt s
  | .membership port pkt => Sys2Proof.Machine.execMembership port pkt s
  | .epochReply port pkt => Sys2Proof.Machine.execEpochReply port pkt s
  | .routeSet port pkt => Sys2Proof.Machine.execRouteSet port pkt s
  | .suspectReport port pkt => Sys2Proof.Machine.execSuspectReport port pkt s
  | .laySync port t1 t2 t3 t4 => Sys2Proof.Machine.execLaySync port t1 t2 t3 t4 s
  | .put port pkt => Sys2Proof.Machine.execPut port pkt s
  | .collData port fr => Sys2Proof.Machine.execCollData port fr s
  | .delivered port pkt => Sys2Proof.Machine.execDelivered port pkt s
  | .cleatOp port pkt => Sys2Proof.Machine.execCleatOp port pkt s
  | .collReady port pkt => Sys2Proof.Machine.execCollReady port pkt s
  | .collAbort port pkt => Sys2Proof.Machine.execCollAbort port pkt s
  | .sendTimeout seq => Sys2Proof.Machine.execSendTimeout seq s
  | .neighbourSilent port => Sys2Proof.Machine.execNeighbourSilent port s
  | .layPpsEdge phaseNs => Sys2Proof.Machine.execLayPpsEdge phaseNs s
  | .laySetSeconds ini seconds => Sys2Proof.Machine.execLaySetSeconds ini seconds s
  | .layPpsLoss => Sys2Proof.Machine.execLayPpsLoss s
  | .layRefLoss => Sys2Proof.Machine.execLayRefLoss s
  | .laySyncTick => Sys2Proof.Machine.execLaySyncTick s
  | .wdProgressExpiry region slot => Sys2Proof.Machine.execWdProgressExpiry region slot s
  | .wdCleatExpiry region slot => Sys2Proof.Machine.execWdCleatExpiry region slot s
  | .wdCreditExpiry port vc => Sys2Proof.Machine.execWdCreditExpiry port vc s
  | .wdHbmExpiry stack line write => Sys2Proof.Machine.execWdHbmExpiry stack line write s
  | .poisonMarkWrite stack => Sys2Proof.Machine.execPoisonMarkWrite stack s
  | .sramSweep ev => Sys2Proof.Machine.execSramSweep ev s
  | .resetRequest ini level index => Sys2Proof.Machine.execResetRequest ini level index s
  | .fidQueuedStart fid => Sys2Proof.Machine.execFidQueuedStart fid s
  | .fidDrainDone fid => Sys2Proof.Machine.execFidDrainDone fid s
  | .fidRecoveryDone fid badStacks => Sys2Proof.Machine.execFidRecoveryDone fid badStacks s
  | .fenceSet ini sub mask => Sys2Proof.Machine.execFenceSet ini sub mask s
  | .fenceClear ini sub mask => Sys2Proof.Machine.execFenceClear ini sub mask s
  | .snarlAck ini area mask => Sys2Proof.Machine.execSnarlAck ini area mask s
  | .errClear ini die value => Sys2Proof.Machine.execErrClear ini die value s
  | .mcTelltaleExpiry imageOk => Sys2Proof.Machine.execMcTelltaleExpiry imageOk s
  | .powerOffRequest ini => Sys2Proof.Machine.execPowerOffRequest ini s
  | .coldBoot straps => Sys2Proof.Machine.execColdBoot straps s
  | .bootStageDone reason => Sys2Proof.Machine.execBootStageDone reason s
  | .bootStageTimeout => Sys2Proof.Machine.execBootStageTimeout s
  | .selfTestDone bad => Sys2Proof.Machine.execSelfTestDone bad s
  | .fwData ini data => Sys2Proof.Machine.execFwData ini data s
  | .fwCommit ini => Sys2Proof.Machine.execFwCommit ini s
  | .fwVerifyDone => Sys2Proof.Machine.execFwVerifyDone s
  | .activeSlot ini value => Sys2Proof.Machine.execActiveSlot ini value s
  | .bootRecordClear ini => Sys2Proof.Machine.execBootRecordClear ini s
  | .rollbackCommit ini => Sys2Proof.Machine.execRollbackCommit ini s
  | .ownerDigest ini data => Sys2Proof.Machine.execOwnerDigest ini data s
  | .keySlot ini sub data => Sys2Proof.Machine.execKeySlot ini sub data s
  | .fmKey ini data => Sys2Proof.Machine.execFmKey ini data s
  | .attestNonce ini data => Sys2Proof.Machine.execAttestNonce ini data s
  | .attestReportReady => Sys2Proof.Machine.execAttestReportReady s
  | .debugToken ini sub data => Sys2Proof.Machine.execDebugToken ini sub data s
  | .debugEnable ini => Sys2Proof.Machine.execDebugEnable ini s
  | .ctxSave ini => Sys2Proof.Machine.execCtxSave ini s
  | .ctxSaveDone => Sys2Proof.Machine.execCtxSaveDone s
  | .ctxRestore ini => Sys2Proof.Machine.execCtxRestore ini s
  | .ctxRestoreDone => Sys2Proof.Machine.execCtxRestoreDone s
  | .governorTick m => Sys2Proof.Machine.execGovernorTick m s
  | .fastTripEnd => Sys2Proof.Machine.execFastTripEnd s
  | .rampAtReached entry => Sys2Proof.Machine.execRampAtReached entry s
  | .rampEntryWrite ini entry value => Sys2Proof.Machine.execRampEntryWrite ini entry value s
  | .powerClass ini value => Sys2Proof.Machine.execPowerClass ini value s
  | .critTempTimeout stack index => Sys2Proof.Machine.execCritTempTimeout stack index s
  | .thermalTrip => Sys2Proof.Machine.execThermalTrip s
  | .hbmTempSample temps => Sys2Proof.Machine.execHbmTempSample temps s
  | .ageSample delays => Sys2Proof.Machine.execAgeSample delays s
  | .ageState ini sub data => Sys2Proof.Machine.execAgeState ini sub data s
  | .railRangeFault rail => Sys2Proof.Machine.execRailRangeFault rail s
  | .pwrGoodFall => Sys2Proof.Machine.execPwrGoodFall s
  | .brdRstNLow => Sys2Proof.Machine.execBrdRstNLow s
  | .brdRstNRise straps => Sys2Proof.Machine.execBrdRstNRise straps s
  | .i3cDynamicAddress addr => Sys2Proof.Machine.execI3cDynamicAddress addr s
  | .i3cRead offset len => Sys2Proof.Machine.execI3cRead offset len s
  | .i3cWrite offset data => Sys2Proof.Machine.execI3cWrite offset data s
  | .dieToDieLinkError die edge kind => Sys2Proof.Machine.execDieToDieLinkError die edge kind s
  | .layRefReturn => Sys2Proof.Machine.execLayRefReturn s

end Sys2Proof.Machine
end

