-- ==== Sys2Proof/Machine/Canon.lean ====
section
/-! DEFINITION. The canonical form of the state: every sparse table lists its keys in rising order and holds no entry that
equals what an unlisted key reads as, so that equal memories and equal register files are equal data. -/

namespace Sys2Proof.Machine

/-- The canonical form of the memory (12). -/
def Mem.wf (m : Mem) : Bool :=
  twf dB m.bytes && twf dF m.poison && twf dF m.trained && twf dF m.selfRef && twf dLines m.pinLines && twf dF m.pinDone
    && twf d0 m.scrubPos && twf dCe m.ceSec

/-- The canonical form of the power tables (16). -/
def Power.wf (p : Power) : Bool :=
  twf dF p.holdMet && twf dRegionPwr p.regions && twf dStackPwr p.hbm && twf dInt p.sensors && twf dF p.failed
    && twf d0 p.volts && twf dMon p.monitors && twf dAge p.ages && twf (fun _ => []) p.ageIn

/-- Register words, dictionary values, the banks and the key record. -/
def State.wfRegs (s : State) : Bool :=
  twf regReset s.regs && twf dGuard s.guards && twf dDic s.dic && twf dMbx s.mbx && twf dictDefault s.image
    && twf dictDefault s.mc && twf dictDefault s.observed && twf dN s.keys

/-- Error rings, generations, reset domains and the tables of faults. -/
def State.wfRas (s : State) : Bool :=
  twf dErr s.err && twf dGen s.gens && twf dFid s.fids && twf dN s.snarl && twf d0 s.snarlSeq && twf dF s.fenced
    && twf dExp s.creditExp && twf dExp s.hbmExp && twf dProg s.prog

/-- Cleats, items, results, steps, key-value and fabric tables. -/
def State.wfWork (s : State) : Bool :=
  twf dW s.cleats && twf dItem s.items && twf dQ s.results && twf dF s.resultPoison && twf dTrk s.trk && twf dStep s.steps
    && twf dLayer s.layers && twf dF s.seenEver && twf dPeer s.peers && twf dSpill s.spills && twf dColl s.colls
    && twf dPort s.ports

/-- The canonical form of the whole state. -/
def State.wf (s : State) : Bool :=
  s.wfRegs && s.wfRas && s.wfWork && s.mem.wf && s.power.wf && twf dB s.boot.flash && twf (fun _ => []) s.boot.token

end Sys2Proof.Machine
end

