-- ==== Sys2Proof/Safety.lean ====
section
/-! DEFINITION. What counts as a safe run, and the vocabulary of the statements: what a command's sender sees of the state. -/

namespace Sys2Proof.Machine

/-- A step answers a next state. -/
def stepOk (s : State) : Prop := ∃ t, step s = .next t

/-! ### Nothing waits -/

/-- No item, collective or ramp entry is there to move when something changes. -/
abbrev State.quiet (s : State) : Prop :=
  s.items = [] ∧ s.colls = [] ∧ (List.range 16).filter (fun e => s.rampDue e && s.rampHeldMet e) = []

/-! ### Agrex (02 R42 to R51) -/

/-- A well-formed datagram of an opcode, with the tag of session `x`, which it names (02 R42, R49). -/
abbrev State.agHears (s : State) (dg : Datagram) (op : Nat) (x : Session) : Prop :=
  s.mcUp = true ∧ dgWell dg = true ∧ dg.opcode = op ∧ s.session dg.session = some x ∧ s.idle x = false
    ∧ agTag x.key (dgBytes dg) = dg.tag

/-- The state as an authenticated request of session `x` finds it: the session has been heard. -/
def State.heard (s : State) (x : Session) : State := s.putSession { x with lastAt := s.cycle }

/-- The answer to an executed request: it is kept with the session, whose expected SEQ advances, and is sent (02 R46). -/
def State.agAnswered (u : State) (dg : Datagram) (x : Session) (now status flags : Nat) (payload : List Byte) : State :=
  (u.putSession { x with lastAt := now, expected := (x.expected + 1) % 65536, cached := some (dg.opcode, status, flags, payload) }).reply
    dg x.key dg.opcode x.id dg.seq status flags payload

/-- What a READ_MULTI of a list of entries, index and subindex, reads one after another: the parts of its answer, whether one was stale,
and the state left (02 R44). An entry that Bitter-end mode does not serve answers ACCESS_DENIED in its part. -/
def State.readEach (s : State) (owner : Bool) : List (Nat × Nat) → List Byte × Bool × State
  | [] => ([], false, s)
  | e :: l =>
    let g := if s.boot.bitter && !bitterServes e.1 then (.refused 0x41, s) else s.dictRead e.1 e.2 owner
    let r := g.2.readEach owner l
    (g.1.multi ++ r.1, g.1.stale || r.2.1, r.2.2)

/-! ### The register space (02 R59 to R72) -/

/-- The register-space address of a die-level offset. -/
def busAddr (die off : Nat) : Nat := if die = 4 then 0x3F00000000 + off else 0x4000000000 + die * 0x40000000 + off

/-- A register word that is no command, no home of a dictionary entry, and is held as it is written. -/
abbrev plainWord (d : RegDef) (i e : Nat) : Prop :=
  homesOf d.name i e = [] ∧
    ¬ ([.sqTail, .cqHead, .ateRingTail, .trkCfg, .cltSig, .cltDec, .cltSet, .cltArm, .stepCmd, .laySet, .errClear, .pwrClass,
        .pwrRamp, .fabPortCfg, .sqCfg, .cqCfg, .ateRingCfg, .layCfg, .trkInit].contains d.name)

/-- A mailbox bank with a capture in progress (02 R71). -/
def State.mbxBusy (s : State) (ini die : Nat) (b : MbxBank) (error : Nat) (words : List DWord) : State :=
  s.setMbx ini die { b with valid := false, err := false, error := 0, busy := true, seq := (b.seq + 1) % 256, pendError := error, data := words }

/-! ### Cleats (03) -/

/-- `u` is `s` after an operation at one Cleat, before what became ready moves: other Cleats keep their values, and only waiters,
event registers and interrupts change beside (03 R103, R104, R110; 16 R530). -/
abbrev State.cleatMoved (u s : State) (die i : Nat) : Prop :=
  (∀ d j, d ≤ 4 → j < 16384 → (d, j) ≠ (die, i) → u.cleat d j = s.cleat d j)
    ∧ u = { s with cleats := u.cleats, regs := u.regs, items := u.items, arms := u.arms, out := u.out, power := u.power }

/-! ### Numbers (04) -/

/-- The rational a finite value stands for. -/
def XV.rat : XV → ℚ
  | .fin m e => (m : ℚ) * (2 : ℚ) ^ e
  | _ => 0

/-- Grid value k of a format. -/
def gridRat (fmt k : Nat) : ℚ := ((gval (grid fmt) k).1 : ℚ) * (2 : ℚ) ^ (gval (grid fmt) k).2

/-! ### Work items (03) -/

/-- A command that runs an item: its ENGINE, its OP, and the run of its operation. -/
abbrev ItemRow := Instr × Nat × Nat × (State → Nat → Item → RunOut)

/-- The item `x` of a slot, of an engine and operation, can start: it is ready, what it needs is not held, its engine is free on the units
it names, or on one, and no earlier ready item wants them (01 R18; 03 R83, R93; 14 R475). -/
abbrev State.canStart (s : State) (region slot engine op : Nat) (x : Item) : Prop :=
  s.item region slot = some x ∧ x.engine = engine ∧ x.op = op ∧ x.prepass ≠ 1 ∧ x.stage = .ready ∧ s.frozen ⟨2, region⟩ = false
    ∧ s.itemHeld region x = false ∧ ∃ units, s.chooseUnits region slot x = some units ∧ s.yields region slot x units = false

/-- A started item runs on: the chained item before it does not run any more, and none of its near-memory operations is lost with a
reset (03 R101; 11 R371). -/
abbrev State.runsNow (u : State) (region slot : Nat) (y : Item) : Prop :=
  u.behind region slot y = false ∧ (u.calm = true ∨ ∀ p ∈ u.nmaRows y, u.nmLost p.1 = false)

/-- The item `x` of a slot, of an engine and operation, starts: `u` and `y` are the state and the item as its run finds them. -/
abbrev State.itemStarts (s : State) (region slot engine op : Nat) (x : Item) (u : State) (y : Item) : Prop :=
  s.item region slot = some x ∧ x.engine = engine ∧ x.op = op ∧ x.prepass ≠ 1 ∧ s.frozen ⟨2, region⟩ = false
    ∧ s.startItem region slot x = some (u, y) ∧ u.runsNow region slot y

/-- Its checks pass, and the scale lines of its input streams are in step (03 R88; 07 R244). -/
abbrev State.passes (u : State) (y : Item) (checks : List (Option Bad)) (ins : List (Strm × Bool)) : Prop :=
  firstBad checks = none ∧ u.firstSkew y ins = none

/-- The units of a mask are not free for an item: some is in recovery, or its engine is busy on one; a GATE_ROUTE needs the Hawser arrays
too (01 R18; 03 R83; 14 R475). -/
def State.unitsBusy (s : State) (region slot : Nat) (x : Item) (m : Nat) : Bool :=
  s.maskFrozen region m || s.engineBusy region slot x x.engine m || (x.engine == 5 && x.op == 2 && s.engineBusy region slot x 1 m)

/-- A pass: none of its memory is held, and no gradient line of a well-formed record is out of step (11 R343, R350; 14 R475). -/
abbrev halSteady (u : State) (region : Nat) (y : Item) : Prop :=
  u.halHeld region y = false ∧ ∀ i < y.hal.count, u.recSkew y (u.halRec y i) (u.skipRows y (u.halRec y i)) = none

/-- A drawing item: its checks pass, and stream A, where it is read, is in step (08 R262). -/
abbrev drwSteady (u : State) (_region : Nat) (y : Item) : Prop :=
  u.passes y (u.drwChecks y) (if y.drwReads then [(u.strm y 0, false)] else [])

/-- A gather: its checks pass, stream A is in step, and it has every row that the list names (09 R288). -/
abbrev gatherSteady (u : State) (_region : Nat) (y : Item) : Prop :=
  u.passes y (u.gatherChecks y) [(u.strm y 0, false)] ∧ ∀ p ∈ u.gatherPicks y, u.pickBad y p = false

/-- `t` is `s` after the item's run with outputs and result `w`: the item waits for its outputs to be visible, and beside items,
engine registers, memory, the counters of the controller and the free values drawn nothing changes. -/
abbrev State.ranTo (t s : State) (region slot : Nat) (y : Item) (w : State × Result) : Prop :=
  t.item region slot = some { y with
      stage := .finished, wrote := true, progCyc := s.cycle
      res := { w.2 with poison := w.2.poison || y.nmPoison
                        counts := { w.2.counts with saturated := w.2.counts.saturated + y.nmSats } } }
    ∧ t.mem = w.1.mem ∧ t.mc = w.1.mc ∧ t = { s with items := t.items, regs := t.regs, mem := t.mem, mc := t.mc, freeCtr := t.freeCtr }

/-- The state after an item's run with outputs and result `w`: a fence that the run decided takes hold of what waits for the unit. -/
def State.ranOn (u : State) (region slot : Nat) (y : Item) (w : State × Result) : State :=
  if (w.1.endRun region slot y w.2).fenced = u.fenced then w.1.endRun region slot y w.2 else (w.1.endRun region slot y w.2).settle

/-- The command of a row completes on every item that can start, runs on, and meets `ok`: its run writes its outputs. -/
def itemRowCompletes (region slot : Nat) (row : ItemRow) (ok : State → Nat → Item → Prop) : Prop :=
  ∀ (s : State) (x : Item), s.canStart region slot row.2.1 row.2.2.1 x → ∃ (u : State) (y : Item),
    s.startItem region slot x = some (u, y) ∧ y.raw = x.raw ∧ y.stage = .running ∧ u = { s with items := u.items, regs := u.regs } ∧
      (u.runsNow region slot y → ok u region y → ∃ (amax : Nat) (go : State → Item → State × Result) (t : State),
        row.2.2.2 u region y = .ok amax go ∧ exec row.1 s = .next t ∧ t.ranTo s region slot y (go u y))

/-- What the command of a row does with an item that starts, by how its operation's run ends. -/
def itemRowRuns (region slot : Nat) (row : ItemRow) : Prop :=
  ∀ (s u : State) (x y : Item), s.itemStarts region slot row.2.1 row.2.2.1 x u y →
    (row.2.2.2 u region y = .hold → exec row.1 s = .next s) ∧
    (∀ amax go, row.2.2.2 u region y = .ok amax go → ∃ t, exec row.1 s = .next t ∧ t.ranTo s region slot y (go u y)) ∧
    (∀ b, row.2.2.2 u region y = .bad b → ∃ (t : State) (z : Item), exec row.1 s = .next t ∧ t.item region slot = some z ∧
      z.stage = .finished ∧ z.res.statuses = [(0x0A, b.1 * 2 ^ 24 + b.2.1 % 4 * 2 ^ 16 + b.2.2 % 65536)] ∧
      t = { s with items := t.items, regs := t.regs }) ∧
    (∀ cause k entry, row.2.2.2 u region y = .skew cause k entry → ∃ (t : State) (z : Item), exec row.1 s = .next t ∧
      t.item region slot = some z ∧ t = { s with items := t.items, regs := t.regs } ∧
      (y.replayable = true ∧ y.retried = false ∧ y.nmIssued = false → z.stage = .ready ∧ z.retried = true) ∧
      (¬ (y.replayable = true ∧ y.retried = false ∧ y.nmIssued = false) →
        z.stage = .finished ∧ z.res.statuses = [(0x03, cause * 2 ^ 24 + k % 4 * 2 ^ 16 + entry % 65536)]))

/-! ### Lay time (13) -/

/-- `t` is `s` in HOLDOVER (13 R445, R448): the entry is recorded and told by LAY_STS, and Lay time goes on. -/
abbrev State.holdoverOf (t s : State) (refLost : Bool) : Prop :=
  t.lay.state = 3 ∧ t.lay.now = s.lay.now ∧ t.lay.refLost = refLost ∧ (s.lay.state ≠ 3 → t.lay.errNs = s.layErrNs ∧ t.lay.parent = 0xFF)
    ∧ t = { s with lay := t.lay, regs := t.regs, err := t.err, out := t.out }

/-! ### Records (10) -/

/-- The token that an APPEND operation carries for the item that issues it (10 R311 to R316). -/
def State.opToken (s : State) (op : RecOp) (x : Item) : Token :=
  { seq := op.seq, layer := op.layer, index := op.index, pos := op.pos, fresh := (s.reeveCoarse x).1, round := x.round
    die := unitDie op.unit, cluster := unitCluster op.unit, region := op.region, item := x.count
    els := (op.row.zipIdx).map fun p =>
      ({ v := f32 p.1, r := if x.round == mSR then x.word op.seq ((op.pos * op.row.length + p.2) % 2 ^ 48) 0 % 16 else 0 } : OutEl) }

/-- A record whose 32 bytes lie at `a`, in memory that is there. -/
abbrev State.recAt (s : State) (seq layer a : Nat) (r : KvRec) : Prop :=
  s.kvRecAddr seq layer = some a ∧ s.kvRec seq layer = some r ∧ (∀ i < 32, (s.place (a + i)).isSome = true) ∧ s.farDown a = false

/-- LEN, LAST_POS and SPILL of the record at `a`. -/
abbrev State.recFields (s : State) (a len pos spill : Nat) : Prop :=
  s.rd (a + 8) 4 = len ∧ s.rd (a + 0xC) 4 = pos ∧ s.rd (a + 0x14) 2 = spill

/-- An image is a legal replacement of a record (10 R324). -/
abbrev State.publishLegal (s : State) (r : KvRec) (image flags expect : Nat) : Prop :=
  r.spill = 0 ∧ (bit flags 0 = true → r.len = expect) ∧
    ((parseRec image).dir = r.dir → (parseRec image).ref = r.ref → (parseRec image).len < r.len →
      (refEn r.ref = true → (s.cleat (bits r.ref 30 28) (bits r.ref 13 0)).toNat ≤ 1))

/-! ### Records of errors (14) -/

/-- `t` holds one more record than `s` at a die, from a source and of a severity: the management controller's copy has it (14 R463, R464). -/
abbrev State.recorded (t s : State) (die src sev : Nat) : Prop :=
  (t.errDie die).seq = (s.errDie die).seq + 1 ∧ ∃ r, (t.errDie die).copy.head? = some r ∧ r.src = src ∧ r.sev = sev

/-- A counter register has counted one more event. -/
abbrev State.countedAt (t s : State) (r : Reg) (i e : Nat) : Prop :=
  (t.reg r i e).toNat = min ((s.reg r i e).toNat + 1) 0xFFFFFFFF

end Sys2Proof.Machine
end

