-- ==== Sys2Proof/Certificates/Slice0/Obligations.lean ====
section
/-! DEFINITION. The statements about the model, for the provers. -/

open Sys2Proof Sys2Proof.Machine

/-! ### The queue, the clock, and what every command keeps -/

/-- The front command of the queue is the one that runs, with the rest of the queue. -/
def Obligations.StepRunsTheFrontCommand : Prop :=
  ∀ (s : State) (c : Instr) (rest : List Instr), s.pending = c :: rest → step s = exec c { s with pending := rest }

/-- On an empty queue one core cycle passes (log entry 4): nothing but the cycle count and the Lay unit changes, Lay time
never runs back, and with no offset to remove it advances at its rate (13 R443, R447). -/
def Obligations.EmptyQueueIsOneCycle : Prop :=
  ∀ s : State, s.pending = [] → ∃ t, step s = .next t ∧ t = { s with cycle := s.cycle + 1, lay := t.lay } ∧
    s.lay.now ≤ t.lay.now ∧
    (s.lay.back = 0 → s.lay.slew = 0 → t.lay.now * layFine + t.lay.rem = s.lay.now * layFine + s.lay.rem + layStepFull)

/-- No command stops the block, and no command touches the queue. -/
def Obligations.EveryCommandAnswersAndKeepsTheQueue : Prop :=
  ∀ (c : Instr) (s : State), ∃ t, exec c s = .next t ∧ t.pending = s.pending

/-- Every step keeps the canonical form of memory and of every other table. -/
def Obligations.EveryStepKeepsTheCanonicalForm : Prop :=
  ∀ s t : State, s.wf = true → step s = .next t → t.wf = true

/-- Fuses only advance: no step lowers an anti-rollback counter or replaces OWNER_DIGEST once it is written. -/
def Obligations.EveryStepKeepsTheFuses : Prop :=
  ∀ s t : State, step s = .next t →
    (∀ k < 4, s.boot.rollback.getD k 0 ≤ t.boot.rollback.getD k 0) ∧
    (∀ d, s.boot.ownerDigest = some d → t.boot.ownerDigest = some d)

/-- The Lay STATE and BOOT_STAGE stay within their codes (13 R453; 15 R508). -/
def Obligations.EveryStepKeepsTheModesLegal : Prop :=
  ∀ s t : State, s.lay.state ≤ 3 → s.boot.stage ≤ 7 → step s = .next t → t.lay.state ≤ 3 ∧ t.boot.stage ≤ 7

/-- Right after reset: the canonical form, Lay STATE 0, BOOT_STAGE 0, an empty queue, every generation 1, every Cleat 0, every
scheduler and step slot free, no session and no owner, nothing recorded, and the spec's own reset values of the submission and
completion ring sizes, the memory map and the hyperparameters (03 R91, R111; 11 R369; 12 R402; 14 R483). -/
def Obligations.ResetLeavesTheSpecsValues : Prop :=
  State.reset.wf = true ∧ State.reset.lay.state = 0 ∧ State.reset.boot.stage = 0 ∧ State.reset.pending = [] ∧
    (∀ d i, State.reset.cleat d i = 0#32) ∧ (∀ l i, State.reset.gen l i = 1) ∧
    (∀ r k, State.reset.item r k = none) ∧ (∀ k, (State.reset.step k).state = 0) ∧
    (∀ id, State.reset.session id = none) ∧ (∀ d, State.reset.errDie d = {}) ∧
    State.reset.ownerJob = 0 ∧ State.reset.ownerSession = 0 ∧
    (∀ r < 16, State.reset.reg .sqCfg r = 6#32 ∧ State.reset.reg .memMap r = 0x10#32 ∧
      ∀ e < 8, (State.reset.reg .cqCfg r e).toNat % 16 = 6) ∧
    (∀ k < 16, State.reset.reg .halHp k 1 = 0x3F666666#32 ∧ State.reset.reg .halHp k 2 = 0x3F7FBE77#32 ∧
      State.reset.reg .halHp k 3 = 0x0D800000#32 ∧ State.reset.reg .halHp k 4 = 0x3F800000#32)

/-! ### Agrex (02 R41 to R53; 15 R517) -/

/-- KEEPALIVE, CLOSE, CLAIM and RELEASE, heard in order, are executed and answered: KEEPALIVE with nothing more; CLOSE ends
the session after its answer; CLAIM takes the role where no session or this one holds it and OWNER_JOB is 0 or the JOB asked,
else NOT_OWNER and no change; the owner's RELEASE clears OWNER_SESSION and leaves OWNER_JOB. That a JOB of 0 answers
OUT_OF_RANGE is the model's choice (log entry 12). -/
def Obligations.AgrexRoleRequestsAnswered : Prop :=
  ∀ (s : State) (dg : Datagram) (x : Session), dg.seq = x.expected →
    (s.agHears dg 0x05 x → exec (.agxKeepalive dg) s = .next ((s.heard x).agAnswered dg x s.cycle 0x00 0 [])) ∧
    (s.agHears dg 0x02 x → exec (.agxClose dg) s = .next (((s.heard x).agAnswered dg x s.cycle 0x00 0 []).endSession x.id)) ∧
    (s.agHears dg 0x03 x → dg.payload.length = 8 →
      (beNat dg.payload = 0 → exec (.agxClaim dg) s = .next ((s.heard x).agAnswered dg x s.cycle 0x43 0 [])) ∧
      (beNat dg.payload ≠ 0 →
        ((s.ownerSession = 0 ∨ s.ownerSession = x.id) ∧ (s.ownerJob = 0 ∨ s.ownerJob = beNat dg.payload) →
          exec (.agxClaim dg) s = .next (({ s.heard x with ownerJob := beNat dg.payload, ownerSession := x.id }).agAnswered dg x
            s.cycle 0x00 0 [])) ∧
        (¬ ((s.ownerSession = 0 ∨ s.ownerSession = x.id) ∧ (s.ownerJob = 0 ∨ s.ownerJob = beNat dg.payload)) →
          exec (.agxClaim dg) s = .next ((s.heard x).agAnswered dg x s.cycle 0x47 0 [])))) ∧
    (s.agHears dg 0x04 x → s.ownerSession = x.id →
      exec (.agxRelease dg) s = .next (({ s.heard x with ownerSession := 0 }).agAnswered dg x s.cycle 0x00 0 []))

/-- READ, READ_MULTI, WRITE and GUARDED_WRITE, heard in order. A READ answers what the dictionary's read gives, made as the owner's
where the session is the owner's (02 R53), or that read's status. A READ_MULTI of 1 to 32 entries reads them in order and answers one part for each,
STALE when one is; one whose answer would exceed 1,024 bytes answers LARGE and reads nothing. A WRITE and a GUARDED_WRITE of the owner write the
value, the latter with the complement that follows it, and answer the write's status; of another session, NOT_OWNER, and no write. In Bitter-end mode
an entry that mode does not serve answers ACCESS_DENIED. Other payload lengths answer TYPE_MISMATCH: the model's choice (log entry 14). -/
def Obligations.AgrexDictionaryRequestsAnswered : Prop :=
  ∀ (s : State) (dg : Datagram) (x : Session), dg.seq = x.expected →
    (s.agHears dg 0x10 x →
      (dg.payload.length ≠ 4 → exec (.agxRead dg) s = .next ((s.heard x).agAnswered dg x s.cycle 0x42 0 [])) ∧
      (∀ idx sub, dg.payload.length = 4 → idx = beNat (dg.payload.take 2) → sub = beNat ((dg.payload.drop 2).take 1) →
        (s.boot.bitter = true → bitterServes idx = false →
          exec (.agxRead dg) s = .next ((s.heard x).agAnswered dg x s.cycle 0x41 0 [])) ∧
        (s.boot.bitter = false ∨ bitterServes idx = true → ∀ g v, (s.heard x).dictRead idx sub (s.ownerSession == x.id) = (g, v) →
          (g.status = 0 → exec (.agxRead dg) s = .next (v.agAnswered dg x s.cycle 0 (if g.stale then 2 else 0)
            (beBytes 1 g.ty ++ [0#8] ++ beBytes 2 g.len ++ g.wire))) ∧
          (g.status ≠ 0 → exec (.agxRead dg) s = .next (v.agAnswered dg x s.cycle g.status 0 []))))) ∧
    (s.agHears dg 0x11 x → ∀ n, n = beNat (dg.payload.take 1) →
      (n = 0 ∨ 32 < n ∨ dg.payload.length ≠ 4 + 4 * n →
        exec (.agxReadMulti dg) s = .next ((s.heard x).agAnswered dg x s.cycle 0x42 0 [])) ∧
      (0 < n → n ≤ 32 → dg.payload.length = 4 + 4 * n →
        ∀ r, r = (s.heard x).readEach (s.ownerSession == x.id) ((List.range n).map fun i =>
          (beNat ((dg.payload.drop (4 + 4 * i)).take 2), beNat ((dg.payload.drop (6 + 4 * i)).take 1))) →
        (r.1.length ≤ 1024 → exec (.agxReadMulti dg) s = .next (r.2.2.agAnswered dg x s.cycle 0 (if r.2.1 then 2 else 0) r.1)) ∧
        (1024 < r.1.length → exec (.agxReadMulti dg) s = .next ((s.heard x).agAnswered dg x s.cycle 0x44 0 [])))) ∧
    (∀ g : Bool, s.agHears dg (if g then 0x13 else 0x12) x →
      (s.ownerSession ≠ x.id →
        exec (if g then .agxGuardedWrite dg else .agxWrite dg) s = .next ((s.heard x).agAnswered dg x s.cycle 0x47 0 [])) ∧
      (s.ownerSession = x.id →
        (s.boot.bitter = true → bitterServes (beNat (dg.payload.take 2)) = false →
          exec (if g then .agxGuardedWrite dg else .agxWrite dg) s = .next ((s.heard x).agAnswered dg x s.cycle 0x41 0 [])) ∧
        (s.boot.bitter = false ∨ bitterServes (beNat (dg.payload.take 2)) = true →
          ∀ n, n = beNat ((dg.payload.drop 4).take 2) →
          (dg.payload.length ≠ 8 + (if g then 2 * n else n) →
            exec (if g then .agxGuardedWrite dg else .agxWrite dg) s = .next ((s.heard x).agAnswered dg x s.cycle 0x42 0 [])) ∧
          (dg.payload.length = 8 + (if g then 2 * n else n) → ∀ (idx sub : Nat) (value : List Byte),
            idx = beNat (dg.payload.take 2) → sub = beNat ((dg.payload.drop 2).take 1) → value = (dg.payload.drop 8).take n →
            ∀ w, (s.heard x).dictWrite 32 true idx sub (some (beNat ((dg.payload.drop 3).take 1))) (carried idx sub value)
                  (if g then some (dg.payload.drop (8 + n) == value.map (fun b => ~~~b)) else none) = w →
              exec (if g then .agxGuardedWrite dg else .agxWrite dg) s = .next (w.1.agAnswered dg x s.cycle w.2 0 [])))))

/-- An authenticated request out of order is not executed: one whose SEQ is E − 1 gets the cached response again, any other
gets SEQ_ERROR with SEQ = E − 1 and is counted at 0x4012:0x01. A request with a wrong tag is counted at 0x4012:0x00 and gets nothing, and one that names no session gets NO_SESSION.
OPEN with the right tag under a filled slot's key opens a session, while fewer than AGX_MAX_SESSIONS are open: E is the
starting SEQ of its answer plus 1, and the key is derived from the slot's key, both nonces and the identifier. A full device
answers SESSION_LIMIT, and an empty slot, a wrong tag or a payload of another length than 36 bytes is dropped and counted. A session heard for AGX_IDLE_TIMEOUT no more
lapses: it is gone, the lapse is counted, and OWNER_JOB stays. The device nonce and the starting SEQ are free values. -/
def Obligations.AgrexSessionsAndOrder : Prop :=
  (∀ (s : State) (dg : Datagram) (x : Session), s.agHears dg 0x12 x →
    (dg.seq ≠ x.expected → dg.seq = (x.expected + 65535) % 65536 → ∀ op st fl pl, x.cached = some (op, st, fl, pl) →
      exec (.agxWrite dg) s = .next ((s.heard x).reply dg x.key op x.id dg.seq st fl pl)) ∧
    (dg.seq ≠ x.expected → (dg.seq ≠ (x.expected + 65535) % 65536 ∨ x.cached = none) →
      exec (.agxWrite dg) s = .next (((s.heard x).mcBump 0x4012 1 1).reply dg x.key dg.opcode x.id ((x.expected + 65535) % 65536)
        0x46 0 [])) ∧
    (∀ tag : List Byte, tag.length = 16 → tag ≠ dg.tag → exec (.agxWrite { dg with tag := tag }) s = .next (s.mcBump 0x4012 0 1)) ∧
    (∀ n : Nat, s.session n = none →
      exec (.agxWrite { dg with session := n }) s
        = .next (s.reply { dg with session := n } [] dg.opcode n dg.seq 0x49 0 []))) ∧
  ((∀ (s : State) (dg : Datagram), s.mcUp = true → dgWell dg = true → dg.opcode = 1 →
    (∀ key, s.openKey (dg.payload.getD 0 0#8).toNat = some key → dg.payload.length = 36 → agTag key (dgBytes dg) = dg.tag →
      (s.dv 0x2040 1 ≤ s.sessions.length → exec (.agxOpen dg) s = .next (s.reply dg key 1 0 dg.seq 0x48 0 [])) ∧
      (s.sessions.length < s.dv 0x2040 1 → ∃ first < 65536, ∃ nd : List Byte, nd.length = 32 ∧ ∃ x : Session,
        x.id = s.nextSession ∧ x.expected = (first + 1) % 65536 ∧ x.cached = none ∧ x.lastAt = s.cycle ∧
        x.key = sha3 (key ++ dg.payload.drop 4 ++ nd ++ beBytes 4 s.nextSession) ∧
        exec (.agxOpen dg) s = .next (({ s with sessions := s.sessions ++ [x], nextSession := (s.nextSession + 1) % 2 ^ 32,
                                                freeCtr := s.freeCtr + 1 }).reply dg x.key 1 x.id first 0x00 0 nd))) ∧
    (s.openKey (dg.payload.getD 0 0#8).toNat = none → exec (.agxOpen dg) s = .next (s.mcBump 0x4012 0 1)) ∧
    (∀ key, s.openKey (dg.payload.getD 0 0#8).toNat = some key → dg.payload.length ≠ 36 ∨ agTag key (dgBytes dg) ≠ dg.tag →
      exec (.agxOpen dg) s = .next (s.mcBump 0x4012 0 1))) ∧
  (∀ (s : State) (id : Nat) (x : Session), s.session id = some x → x.lastAt + cycOfMs (s.dv 0x2040 0) ≤ s.cycle →
    ∃ t : State, exec (.agxSessionLapse id) s = .next t ∧ t.session id = none ∧ t.ownerJob = s.ownerJob ∧
      t.ownerSession = (if s.ownerSession = id then 0 else s.ownerSession) ∧
      t = { s with sessions := t.sessions, ownerSession := t.ownerSession, mc := t.mc } ∧
      (∀ n, n ≠ id → t.session n = s.session n) ∧
      (s.wf = true → t.mcv 0x4012 2 = min (s.mcv 0x4012 2 + 1) 0xFFFFFFFF)))

/-! ### The local dictionary port and the dictionary (02 R34 to R39, R56 to R58, R67) -/

/-- The local port's operations begin a command that shows what the dictionary gives: a read the value, its length and STALE, or
the status of the refusal; a WIDE entry TYPE_MISMATCH, but for the instance 0xFF of one that has instances; a write and a guarded write of the value
in MGT_DIC_DATA, or for STR and BLOB in MGT_DIC_BUF, the write's status; a guarded write of more than 128 bytes LARGE; an entry that does not exist
NO_SUCH_OBJECT; the reserved OP ACCESS_DENIED. One begun while another is in progress is ignored. DIC_CMD_DONE then shows DONE, the outcome and the
value; it does nothing when no command is in progress. -/
def Obligations.LocalPortCommandsBeginAndEnd : Prop :=
  ∀ (s u : State) (b : DicBank) (ini idx sub : Nat), s.held = false → idx < 65536 → sub < 256 → u = s.intervene ini 4 none →
    b = s.dicBank ini →
    (b.busy = false →
      (∀ g v wide, u.dictRead idx sub true = (g, v) →
        (wide = true ↔ ∃ d, dictFind idx sub = some d ∧ d.ty = .wide ∧ ¬(d.broad = true ∧ sub = 255)) →
        (wide = true → exec (.dicRead ini idx sub) s = .next (u.dicStart ini 0x42 0 false none)) ∧
        (wide = false → g.status ≠ 0 → exec (.dicRead ini idx sub) s = .next (u.dicStart ini g.status 0 false none)) ∧
        (wide = false → g.status = 0 →
          exec (.dicRead ini idx sub) s = .next (v.dicStart ini 0 g.len g.stale (some (g.val, g.ty == 8 || g.ty == 9))))) ∧
      (dictFind idx sub = none →
        exec (.dicWrite ini idx sub) s = .next (u.dicStart ini 0x40 0 false none) ∧
        exec (.dicGuardedWrite ini idx sub) s = .next (u.dicStart ini 0x40 0 false none)) ∧
      (∀ d, dictFind idx sub = some d → ∀ (data : List Byte) (n : Nat), n = b.data.toNat →
        ((d.ty ≠ .blob ∧ d.ty ≠ .str ∧ data = leBytes d.len n)
          ∨ ((d.ty = .blob ∨ d.ty = .str) ∧ n % 65536 ≤ 256 ∧ data = leBytes (n % 65536) b.buf)) →
        (∀ w, u.dictWrite ini false idx sub none data none = w →
          exec (.dicWrite ini idx sub) s = .next (w.1.dicStart ini w.2 (if w.2 = 0 then data.length else 0) false none)) ∧
        (d.ty ≠ .blob → d.ty ≠ .str →
          ∀ w, u.dictWrite ini false idx sub none data
              (some (b.guard.toNat % 2 ^ (8 * d.len) == 2 ^ (8 * d.len) - 1 - n % 2 ^ (8 * d.len))) = w →
            exec (.dicGuardedWrite ini idx sub) s = .next (w.1.dicStart ini w.2 (if w.2 = 0 then d.len else 0) false none)) ∧
        (d.ty = .blob ∨ d.ty = .str →
          (128 < n % 65536 → exec (.dicGuardedWrite ini idx sub) s = .next (u.dicStart ini 0x44 0 false none)) ∧
          (n % 65536 ≤ 128 → ∀ w, u.dictWrite ini false idx sub none data
              (some (fld b.buf 0x80 (n % 65536) == 2 ^ (8 * (n % 65536)) - 1 - leNat data)) = w →
            exec (.dicGuardedWrite ini idx sub) s = .next (w.1.dicStart ini w.2 (if w.2 = 0 then data.length else 0) false none)))) ∧
      exec (.dicReservedOp ini) s = .next (u.dicStart ini 0x41 0 false none) ∧
      exec (.dicCmdDone ini) s = .next s) ∧
    (b.busy = true →
      exec (.dicRead ini idx sub) s = .next u ∧ exec (.dicWrite ini idx sub) s = .next u ∧
      exec (.dicGuardedWrite ini idx sub) s = .next u ∧ exec (.dicReservedOp ini) s = .next u ∧
      (s.wf = true → ∃ t : State, exec (.dicCmdDone ini) s = .next t ∧ t = { s with dic := t.dic } ∧
        (t.dicBank ini).done = true ∧ (t.dicBank ini).busy = false ∧ (t.dicBank ini).status = b.pendStatus ∧
        (t.dicBank ini).length = b.pendLength ∧ (t.dicBank ini).stale = b.pendStale ∧
        (t.dicBank ini).data = (match b.pendValue with
          | some (v, false) => BitVec.ofNat 64 v
          | _ => b.data) ∧
        (t.dicBank ini).buf = (match b.pendValue with
          | some (v, true) => v % 2 ^ 2048
          | _ => b.buf) ∧
        (∀ j, j % 64 ≠ ini % 64 → t.dicBank j = s.dicBank j)))

/-- A write of the dictionary is checked in the order of R39, and one that a check of steps 4 to 9 refuses changes nothing:
no entry 0x40, a read-only one 0x41, a wrong length 0x42, an instance that is not there 0x0A, a value outside its range
0x43, a missing or wrong complement 0x45. -/
def Obligations.RefusedDictionaryWriteChangesNothing : Prop :=
  ∀ (s : State) (ini idx sub : Nat) (data : List Byte) (comp : Option Bool),
    (dictFind idx sub = none → s.dictWrite ini false idx sub none data comp = (s, 0x40)) ∧
    (∀ d, dictFind idx sub = some d →
      (d.acc = .ro ∨ d.acc = .rc → s.dictWrite ini false idx sub none data comp = (s, 0x41)) ∧
      (d.acc ≠ .ro → d.acc ≠ .rc →
        (data.length ≠ d.len → s.dictWrite ini false idx sub none data comp = (s, 0x42)) ∧
        (data.length = d.len →
          (d.has sub = false → (d.broad = false ∨ sub ≠ 255) → s.dictWrite ini false idx sub none data comp = (s, 0x0A)) ∧
          (d.has sub = true →
            (s.valueOk d sub (leNat data) = false → s.dictWrite ini false idx sub none data comp = (s, 0x43)) ∧
            (s.valueOk d sub (leNat data) = true →
              (comp = some false ∨ (d.acc = .gw ∧ comp = none) → s.dictWrite ini false idx sub none data comp = (s, 0x45)))))))

/-- A write that passes every check of an entry that holds a value: it answers OK, the image holds the value, and no other
entry of the image changes; an Idle-only entry whose block runs refuses it with CONFIG_BUSY, counted, its value kept. -/
def Obligations.DictionaryWriteTakesTheValue : Prop :=
  ∀ (s : State) (ini idx sub : Nat) (d : DEntry) (data : List Byte), s.wf = true → sub < 256 →
    dictFind idx sub = some d → (d.acc = .rw ∨ d.acc = .wo) → data.length = d.len → d.has sub = true →
    s.valueOk d sub (leNat data) = true → s.entryEffect ini idx sub (leNat data) data = none →
    (¬ (d.apply = .idle ∧ s.entryBusy d idx sub = true) →
      ∃ t : State, s.dictWrite ini false idx sub none data none = (t, 0) ∧ t.dv idx sub = leNat data ∧
        (∀ i j, j < 256 → (i ≠ idx ∨ j ≠ sub) → t.dv i j = s.dv i j) ∧
        t = { s with image := t.image, regs := t.regs, mem := t.mem, lay := t.lay, globalWiden := t.globalWiden, mc := t.mc, out := t.out }) ∧
    (d.apply = .idle → s.entryBusy d idx sub = true →
      ∃ t : State, s.dictWrite ini false idx sub none data none = (t, 0x08) ∧ t = { s with regs := t.regs })

/-! ### Registers (02 R59 to R68) -/

/-- A store of a word to a register whose words hold plain fields gives its RW and WO bits that are not reserved the value stored and
leaves its other bits and every other register alone; it aborts an attempt the initiator had armed for another address of the die.
A register word reads what was written last, and a write leaves every word of another place as it was. -/
def Obligations.RegisterWritesStoreAndReadBack : Prop :=
  (∀ (s : State) (ini die off v i e : Nat) (d : RegDef), s.held = false → off < 0x10000000 → die ≤ 4 → off % 4 = 0 →
    banked die off = false → regAt die off = some (d, i, e) → d.gw = 0 → v < 2 ^ 32 → plainWord d i e →
    s.regBusy d.name i e = false → ∀ m : Word, m = (BitVec.ofNat 32 d.rw ||| BitVec.ofNat 32 d.wo) &&& BitVec.ofNat 32 (elMask d.name e) →
      ∃ u : State, u = s.intervene ini die (some off) ∧
        exec (.registerWrite ini (busAddr die off) 4 v) s = .next (u.setReg d.name i e
          ((u.reg d.name i e &&& ~~~m) ||| (BitVec.ofNat 32 v &&& m)))) ∧
  (∀ (s : State) (r q : Reg) (i e j f : Nat) (v : Word), s.wf = true →
    (s.setReg r i e v).reg r i e = v ∧ (s.setReg r i e v).wf = true ∧
    (regKey q j f ≠ regKey r i e → (s.setReg r i e v).reg q j f = s.reg q j f))

/-- A load returns the register's value and clears its RC bits, and only those; a load of an alias word returns its bit and
clears that bit alone, where it is RC (02 R64, R68).
A write to the alias word of a plain RW bit changes that bit alone, whatever the other 31 bits written; one to an RO or RC
bit changes nothing; one to a GW bit aborts as ALIAS. -/
def Obligations.LoadsReturnValuesAndAliasesReachOneBit : Prop :=
  (∀ (s : State) (ini die off i e : Nat) (d : RegDef), s.wf = true → s.held = false → off < 0x10000000 → die ≤ 4 → off % 4 = 0 →
    banked die off = false → regAt die off = some (d, i, e) →
    (∃ t : State, exec (.rcRegisterRead ini (busAddr die off) 4) s = .next t ∧
      t = { s with regs := t.regs, observed := t.observed, out := .busData ini (s.readReg d.name i e) :: s.out } ∧
      t.reg d.name i e = s.reg d.name i e &&& ~~~(BitVec.ofNat 32 d.rc) ∧
      (∀ q j f, regKey q j f ≠ regKey d.name i e → t.reg q j f = s.reg q j f)) ∧
    (∀ b < 32, off * 32 + b * 4 < 0x20000000 → ∃ t : State, exec (.bitAliasRead ini (busAddr die (0x20000000 + off * 32 + b * 4))) s = .next t ∧
      t = { s with regs := t.regs, observed := t.observed, out := .busData ini (bits (s.readReg d.name i e) b b) :: s.out } ∧
      t.reg d.name i e = s.reg d.name i e &&& ~~~(BitVec.ofNat 32 d.rc &&& BitVec.ofNat 32 (2 ^ b)))) ∧
  (∀ (s : State) (ini die off v i e b : Nat) (d : RegDef), s.held = false → off * 32 + b * 4 < 0x20000000 → b < 32 → die ≤ 4 →
    off % 4 = 0 → banked die off = false → regAt die off = some (d, i, e) →
    (bit d.gw b = true →
      exec (.bitAliasWrite ini (busAddr die (0x20000000 + off * 32 + b * 4)) v) s = .next ((s.intervene ini die none).abort ini die 4 off)) ∧
    (bit d.gw b = false → bit d.rw b = false → bit d.wo b = false →
      exec (.bitAliasWrite ini (busAddr die (0x20000000 + off * 32 + b * 4)) v) s = .next (s.intervene ini die none)) ∧
    (bit d.gw b = false → bit d.rw b = true → bit (elMask d.name e) b = true → plainWord d i e → s.regBusy d.name i e = false →
      ∃ u w, u = s.intervene ini die none ∧
        exec (.bitAliasWrite ini (busAddr die (0x20000000 + off * 32 + b * 4)) v) s = .next (u.setReg d.name i e w) ∧
        w.getLsbD b = (v % 2 == 1) ∧ (∀ c < 32, c ≠ b → w.getLsbD c = (u.reg d.name i e).getLsbD c)))

/-- The guarded write (02 R65, R66): a store to the guard mirror arms the initiator's slot with the complement; a store of the
value itself within 512 cycles is taken and disarms the slot, its guarded bits stored with the others; a wrong value aborts as MISMATCH, a store with no slot armed as
UNGUARDED, and 512 cycles without one as TIMEOUT. An abort counts and is the last one recorded. -/
def Obligations.GuardedWriteTakesItsComplement : Prop :=
  ∀ (s : State) (ini die off v : Nat), s.held = false → off < 0x1000000 → die ≤ 4 → off % 4 = 0 → v < 2 ^ 32 →
    banked die off = false → gwAt die off ≠ 0 →
    exec (.guardWrite ini (busAddr die (0x10000000 + off)) 4 (2 ^ 32 - 1 - v)) s
      = .next ((s.intervene ini die none).setGuard ini die (some ⟨off, 2 ^ 32 - 1 - v, 4, s.cycle⟩)) ∧
    (∀ g, s.guardOf ini die = some g → g.off = off → g.width = 4 → s.cycle ≤ g.at' + 512 →
      (g.comp = 2 ^ 32 - 1 - v →
        exec (.gwFieldWrite ini (busAddr die off) 4 v) s
          = .next ((s.setGuard ini die none).storeBits ini die off (storeMask die off true) v)) ∧
      (g.comp ≠ 2 ^ 32 - 1 - v →
        exec (.gwFieldWrite ini (busAddr die off) 4 v) s
          = .next (((s.setGuard ini die none).abort ini die 2 off).storeBits ini die off (storeMask die off false) v))) ∧
    (s.guardOf ini die = none →
      exec (.gwFieldWrite ini (busAddr die off) 4 v) s
        = .next ((s.abort ini die 5 off).storeBits ini die off (storeMask die off false) v)) ∧
    (∀ g, s.guardOf ini die = some g → g.at' + 512 ≤ s.cycle →
      exec (.guardTimeout ini die) s = .next ((s.setGuard ini die none).abort ini die 1 g.off)) ∧
    (s.wf = true → ∀ reason < 8,
      ((s.abort ini die reason off).reg .mgtGuardCnt die).toNat = min ((s.reg .mgtGuardCnt die).toNat + 1) 0xFFFFFFFF ∧
      ((s.abort ini die reason off).reg .mgtGuardLast die).toNat = reason * 2 ^ 29 + off ∧
      ((s.abort ini die reason off).reg .mgtGuardInit die).toNat = ini % 64)

/-! ### The mailbox (02 R69 to R72; 13 R450; 14 R482) -/

/-- A capture takes its words at once, clears VALID and ERR, sets BUSY and advances SEQ: of a LONG128 result slot, whose word is NaR
when it was written from poisoned data, of the Lay unit, of a domain's Snarl descriptor, of a WIDE entry, each on its own die. When it completes, it
shows VALID, or ERR with the code of a wrong index (0x02) or die (0x03). -/
def Obligations.MailboxCapturesItsWords : Prop :=
  ∀ (s u : State) (b : MbxBank) (ini die index : Nat), s.held = false → u = s.intervene ini die none → b = u.mbxBank ini die →
    (exec (.mbxCaptureLong128 ini die index) s = .next (u.mbxBusy ini die b
      (if 1024 ≤ index then 2 else if index / 256 ≠ die then 3 else 0)
      (if index < 1024 ∧ index / 256 = die then
        (if tget dF s.resultPoison index then [0#64, 0x8000000000000000#64]
         else [BitVec.ofNat 64 ((tget dQ s.results index).toNat % 2 ^ 64), BitVec.ofNat 64 ((tget dQ s.results index).toNat / 2 ^ 64)])
        else []))) ∧
    (index = 0 → exec (.mbxCaptureLay ini die index) s = .next (u.mbxBusy ini die b 0 [BitVec.ofNat 64 (s.lay.now % 2 ^ 64), BitVec.ofNat 64 (s.cycle % 2 ^ 64),
      BitVec.ofNat 64 (s.layErrNs + s.lay.state % 4 * 2 ^ 32 + s.laySource % 4 * 2 ^ 34),
      BitVec.ofNat 64 (s.peerEpoch + (if s.pkgId = 0xFFFFFFFF then 0xFFFF else s.pkgId % 65536) * 2 ^ 32)])) ∧
    (index ≠ 0 → exec (.mbxCaptureLay ini die index) s = .next (u.mbxBusy ini die b 2 [])) ∧
    (∀ level, level = (s.mbxBank ini die).arg.toNat →
      (4 ≤ level ∨ levelCount level ≤ index → exec (.mbxCaptureSnarl ini die index) s = .next (u.mbxBusy ini die b 2 [])) ∧
      (level < 4 → index < levelCount level →
        (domDie ⟨level, index⟩ ≠ die → exec (.mbxCaptureSnarl ini die index) s = .next (u.mbxBusy ini die b 3 [])) ∧
        (domDie ⟨level, index⟩ = die → exec (.mbxCaptureSnarl ini die index) s
          = .next (u.mbxBusy ini die b 0 ((descWords (s.snarlOf ⟨level, index⟩)).map fun v => BitVec.ofNat 64 v))))) ∧
    (die ≠ 4 → exec (.mbxCaptureWide ini die index) s = .next (u.mbxBusy ini die b 3 [])) ∧
    (die = 4 →
      (∀ d, dictFind (index / 256) (index % 256) = some d → d.ty = .wide → d.has (index % 256) = true →
        exec (.mbxCaptureWide ini die index) s = .next (u.mbxBusy ini die b 0
          ((List.range (d.len / 8)).map fun k => BitVec.ofNat 64 (fld (s.viewEntry (index / 256) (index % 256)) (8 * k) 8)))) ∧
      ((∀ d, dictFind (index / 256) (index % 256) = some d → d.ty ≠ .wide ∨ d.has (index % 256) = false) →
        exec (.mbxCaptureWide ini die index) s = .next (u.mbxBusy ini die b 2 []))) ∧
    ((s.mbxBank ini die).busy = true →
      exec (.mbxCaptureDone ini die) s = .next (s.setMbx ini die { s.mbxBank ini die with
        busy := false, valid := (s.mbxBank ini die).pendError == 0, err := (s.mbxBank ini die).pendError != 0,
        error := (s.mbxBank ini die).pendError, pendError := 0 })) ∧
    ((s.mbxBank ini die).busy = false → exec (.mbxCaptureDone ini die) s = .next s)

/-! ### Lay time (13 R443 to R448; 17 R564) -/

/-- A PPS edge, with LAY_SOURCE PINS and the reference there, measures the offset from the seconds written to LAY_SET, or from
the nearest whole second, and takes those seconds; otherwise it moves nothing. LAY_SET keeps its seconds for the next edge.
How a measured offset of d Lay units is removed (13 R447): within LAY_STEP_NS it is left to the slew, Lay time not
stepped; beyond it a positive one is stepped at once and counted at 0x4099:0x01, and a negative one is run out at half rate, so
that Lay time does not go back, and is counted at 0x4099:0x02. Beyond LAY_STEP_NS the state is ACQUIRING. -/
def Obligations.PpsEdgesMeasureOffsetsWhichAreRemoved : Prop :=
  (∀ (s : State) (phase : Int),
    (s.laySource = 0 → s.lay.refLost = false → ∀ at' : Int,
      at' = (s.lay.now : Int) + (phase * 2 ^ 32).tdiv (10 ^ 9) - layOfPs (sInt 32 (s.dv 0x2085 0)) →
      ∃ d : Int, exec (.layPpsEdge phase) s
          = .next ((({ s with lay := { s.lay with setSec := none, ppsCyc := s.cycle } }).layOffsetBy d).settle) ∧
        (∀ n, s.lay.setSec = some n → d = (n : Int) * 2 ^ 32 - at') ∧
        (s.lay.setSec = none → -(2 ^ 31) < d ∧ d ≤ 2 ^ 31 ∧ (at' + d) % 2 ^ 32 = 0)) ∧
    (s.laySource ≠ 0 ∨ s.lay.refLost = true → exec (.layPpsEdge phase) s = .next s.settle) ∧
    (∀ ini n, exec (.laySetSeconds ini n) s = .next { s with lay := { s.lay with setSec := some (n % 2 ^ 32) } })) ∧
  (∀ (s : State) (d : Int), ∃ t : State, t = s.layOffsetBy d ∧ t.lay.offset = nsOfLayInt d ∧
    t = { s with lay := t.lay, mc := t.mc, regs := t.regs, err := t.err, out := t.out } ∧
    ((nsOfLayInt d).natAbs ≤ s.dv 0x2081 0 →
      t.lay.now = s.lay.now ∧ t.lay.slew = d * layFine ∧ t.lay.back = 0 ∧ t.mc = s.mc ∧ t.regs = s.regs ∧
      (t.lay.state = 2 ↔ s.lay.state = 2 ∨ ((nsOfLayInt d).natAbs < 50 ∧ 15 ≤ s.lay.good))) ∧
    (s.dv 0x2081 0 < (nsOfLayInt d).natAbs → t.lay.state = 1 ∧ t.lay.slew = 0 ∧
      (0 ≤ d → t.lay.now = (s.lay.now + d.toNat) % 2 ^ 64 ∧ t.lay.back = 0 ∧
        (s.wf = true → t.mcv 0x4099 1 = min (s.mcv 0x4099 1 + 1) 0xFFFFFFFF)) ∧
      (d < 0 → t.lay.now = s.lay.now ∧ t.lay.back = d.natAbs * layFine ∧
        (s.wf = true → t.mcv 0x4099 2 = min (s.mcv 0x4099 2 + 1) 0xFFFFFFFF))))

/-- A PPS missing for 1.5 s and a lost LAY_REF take the Lay unit to HOLDOVER, with PINS, its error at entry kept and its time
going on; LAY_REF's return leaves HOLDOVER for ACQUIRING. The exchange of FABRIC takes its parent from LAY_PORT_LIST and goes
to HOLDOVER when no listed port can give time. -/
def Obligations.LosingTheReferenceIsHoldover : Prop :=
  ∀ s : State,
    (s.laySource = 0 → s.lay.ppsCyc + 3150000000 ≤ s.cycle → ∃ t : State, exec .layPpsLoss s = .next t ∧ t.holdoverOf s s.lay.refLost) ∧
    (s.laySource = 0 → ∃ t : State, exec .layRefLoss s = .next t ∧ t.holdoverOf s true) ∧
    (s.lay.refLost = true → exec .layRefReturn s = .next { s with lay := { s.lay with
      refLost := false, good := 0, ppsCyc := s.cycle, state := if s.lay.state = 3 then 1 else s.lay.state } }) ∧
    (s.laySource = 1 → s.lay.syncCyc + 2100000 ≤ s.cycle →
      (∀ p, s.layPort = some p → p < 18 ∧ s.portUp p = true ∧
        p ∈ [bits (s.reg .layCfg 4).toNat 4 0, bits (s.reg .layCfg 4).toNat 12 8] ∧
        ∃ (l : Lay) (pkt : Packet), exec .laySyncTick s = .next (({ s with lay := l }).portSend p pkt) ∧ l.parent = p ∧
        l.now = s.lay.now ∧ l.syncCyc = s.cycle ∧ (s.lay.state = 0 ∨ s.lay.state = 1 ∨ s.lay.state = 3 → l.state = 1) ∧
        (s.lay.state = 2 → l.state = 2) ∧ pkt.kind = 0x20 ∧ pkt.body = leBytes 8 s.lay.now) ∧
      (s.layPort = none → ∃ t : State, exec .laySyncTick s = .next t ∧
        t.holdoverOf { s with lay := { s.lay with syncCyc := s.cycle } } s.lay.refLost)) ∧
    (∀ port t1 t2 t3 t4 : Nat, s.laySource = 1 → s.lay.parent = port → port < 18 →
      exec (.laySync port t1 t2 t3 t4) s
        = .next ((s.layOffsetBy ((((t2 : Int) - t1) - ((t4 : Int) - t3)).tdiv 2)).settle))

/-! ### Rings, admission, Lay gates, fetch blocks, completion (03 R88 to R122) -/

/-- A write to a submission tail, a completion head or an exhaustion-ring tail is taken when it stays within the ring (for a
completion head: does not pass TAIL), and is else ignored with its event bit; a completion head taken releases the records that
wait for the space. -/
def Obligations.RingPointerWritesStayWithinTheirRings : Prop :=
  ∀ (s : State) (ini v : Nat), v < 2 ^ 32 →
    (∀ (region : Nat) (u : State), region < 16 → u = s.intervene ini (region / 4) none →
      ((BitVec.ofNat 32 v - u.reg .sqHead region).toNat ≤ u.sqSize region →
        exec (.wrkSqTailWrite ini region v) s = .next (u.setReg .sqTail region 0 (BitVec.ofNat 32 v))) ∧
      (u.sqSize region < (BitVec.ofNat 32 v - u.reg .sqHead region).toNat →
        exec (.wrkSqTailWrite ini region v) s = .next (u.flag .wrkSts region 0 2)) ∧
      (∀ ring < 8,
        ((BitVec.ofNat 32 v - u.reg .cqHead region ring).toNat ≤ (u.reg .cqTail region ring - u.reg .cqHead region ring).toNat →
          exec (.wrkCqHeadWrite ini region ring v) s
            = .next (((u.setReg .cqHead region ring (BitVec.ofNat 32 v)).flushRing region ring).settle)) ∧
        ((u.reg .cqTail region ring - u.reg .cqHead region ring).toNat < (BitVec.ofNat 32 v - u.reg .cqHead region ring).toNat →
          exec (.wrkCqHeadWrite ini region ring v) s = .next (u.flag .wrkSts region 0 16)))) ∧
    (∀ (die : Nat) (u : State), die < 4 → u = s.intervene ini die none →
      ((BitVec.ofNat 32 v - u.reg .ateRingHead die).toNat ≤ u.ateSize die →
        exec (.ateRingTailWrite ini die v) s = .next (u.setReg .ateRingTail die 0 (BitVec.ofNat 32 v))) ∧
      (u.ateSize die < (BitVec.ofNat 32 v - u.reg .ateRingHead die).toNat →
        exec (.ateRingTailWrite ini die v) s = .next (u.flag .ateSts die 0 4)))

/-- The descriptor at WRK_SQ_HEAD of an enabled ring that holds one is taken into the lowest free slot and HEAD moves past it:
one that passes every check is admitted, the first admission locking the memory map; a poisoned read, an old generation and a
failed check complete it at once as DESCRIPTOR_INVALID with REASON 0x07, STALE_GENERATION and DESCRIPTOR_INVALID with its
REASON, stream and entry; one that names a fenced unit as FENCED_TARGET. What became ready then moves. -/
def Obligations.DescriptorsAreAdmittedInRingOrder : Prop :=
  ∀ (s : State) (region slot a : Nat), region < 16 → bit (s.reg .sqCfg region).toNat 31 = true →
    s.reg .sqHead region ≠ s.reg .sqTail region → s.frozen ⟨2, region⟩ = false → s.items.length < 4096 →
    a = s.sqBase region + (s.reg .sqHead region).toNat % s.sqSize region * 128 → s.heldAt (regionDie region) a = false →
    s.freeSlot region = some slot → ∀ (x : Item) (u : State), x = s.newItem region (s.rd a 128) (s.reg .sqHead region).toNat →
    u = (s.setReg .sqHead region 0 (s.reg .sqHead region + 1)).setItem region slot (some x) →
    (maskUsed x.engine && s.maskFrozen region x.mask) = false →
    (s.poisonedIn a 128 = true ∨ s.mapped a 128 = false →
      exec (.descriptorAdmit region) s = .next (((u.flag .wrkSts region 0 1).finishAs region slot x 0x0A 0x07000000 (!u.slotAdmits x)).settle)) ∧
    (s.poisonedIn a 128 = false → s.mapped a 128 = true →
      (x.genField ≠ s.gen 2 region → exec (.descriptorAdmit region) s = .next ((u.finishAs region slot x 0x06 0).settle)) ∧
      (x.genField = s.gen 2 region → ∀ w : State, w = u.seeLayer x →
        (∀ b, w.admitCheck region slot x = some b → ∀ v : State, v = (if b.1 = 0x0A then w.bump .wideCnt region 0 1 else w) →
          exec (.descriptorAdmit region) s = .next ((v.finish region slot { x with res := { statuses :=
            (0x0A, b.1 * 2 ^ 24 + b.2.1 % 4 * 2 ^ 16 + b.2.2 % 65536)
              :: (if (maskUsed x.engine && w.maskFenced region x.mask) = true then [(0x0C, 0)] else []) } } (!v.slotAdmits x)).settle)) ∧
        (w.admitCheck region slot x = none →
          ((maskUsed x.engine && w.maskFenced region x.mask) = true →
            exec (.descriptorAdmit region) s = .next ((w.finishAs region slot x 0x0C 0).settle)) ∧
          ((maskUsed x.engine && w.maskFenced region x.mask) = false →
            ∃ (t : State) (y : Item), exec (.descriptorAdmit region) s = .next t.settle ∧ t.item region slot = some y ∧ y.raw = x.raw ∧
              y.count = (s.reg .sqHead region).toNat ∧ y.stage = .admitted ∧ t.mem = { s.mem with mapLocked := true } ∧
              t.regs = w.regs ∧ t.cleats = s.cleats ∧ t.gens = s.gens ∧
              (waitEn (x.wait 0) = true → (y.w0 = .satisfied ↔ waitThr (x.wait 0) ≤ (s.cleat (waitDie (x.wait 0)) (waitIdx (x.wait 0))).toNat)) ∧
              (y.gateOpen = true ↔ x.timed = false ∨ x.layGate ≤ s.lay.now)))))

/-- An item's Lay gate opens once Lay time has reached LAY_GATE (03 R96). A fetch block of the region's present generation joins
its stream's queue, which takes it while it holds fewer than the item's latched WRK_RUNAHEAD, and the item reads from then on what
memory held when it arrived; one of another generation, or one that reaches a frozen region, is dropped and counted (14 R484). A finished item whose outputs are visible completes. -/
def Obligations.ItemsGatesFetchesAndCompletion : Prop :=
  ∀ (s : State) (region slot : Nat) (x : Item), s.item region slot = some x →
    (x.timed = true → x.gateOpen = false → x.layGate ≤ s.lay.now →
      exec (.layGateOpen region slot) s = .next ((s.setItem region slot (some { x with gateOpen := true })).settle)) ∧
    (s.lay.now < x.layGate → exec (.layGateOpen region slot) s = .next s) ∧
    (∀ (stream entry block gen : Nat) (poisoned : Bool), gen ≠ s.gen 2 region ∨ s.frozen ⟨2, region⟩ = true →
      exec (.fetchBlockArrive region slot stream entry block gen poisoned) s = .next (s.bump .errStaleCnt (region / 4) 0 1)) ∧
    (∀ (stream entry block : Nat) (poisoned : Bool) (u : State) (y : Item) (e : Ent) (a n : Nat), s.frozen ⟨2, region⟩ = false → stream < 4 → stream ≠ 2 → x.stream stream ≠ 0 → entry ≠ 0 →
      s.startItem region slot x = some (u, y) → (y.queueTakes stream = false →
        exec (.fetchBlockArrive region slot stream entry block (s.gen 2 region) poisoned) s = .next u) ∧ (y.queueTakes stream = true →
      (u.fetchStrm y stream).1.ents[entry - 1]? = some e → e.fetchBlock (u.fetchStrm y stream).2 block = some (a, n) →
      ∃ (t : State) (z : Item), exec (.fetchBlockArrive region slot stream entry block (s.gen 2 region) poisoned) s = .next t ∧
        t = { u with items := t.items } ∧ t.item region slot = some z ∧ z.stage = .running ∧
        z.queued = y.queued.set stream (min y.runahead (y.queued.getD stream 0 + 1)) ∧
        (∀ i < n, tget dN z.fetched (a + i) = some ((tget dN y.fetched (a + i)).getD (u.rdByte (a + i)))))) ∧
    (x.stage = .finished → x.waitCyc = none → s.sendsLeft region slot = false → s.frozen ⟨2, region⟩ = false →
      exec (.itemComplete region slot) s = .next (((s.finish region slot x).showItem x region x.units).settle))

/-- The completion of an item outside every step and tracker: its record takes the status that R115 puts first, its TAG, flags,
START and counters; the record is written at the ring's tail, the tail moves on, the slot is free, and no other byte of
memory changes. -/
def Obligations.CompletionWritesTheRecord : Prop :=
  ∀ (s : State) (region slot : Nat) (x : Item), s.wf = true → region < 16 → 16384 ≤ x.watch → 16 ≤ x.stepSlot →
    x.res.shares = false → x.res.nonfin = false → x.res.result = none → sigEn (x.signal 0) = false → sigEn (x.signal 1) = false →
    s.ringOn region x.compRing = true → s.ringFull region x.compRing = false → s.recordHeld region x.compRing = false → x.pin = none →
    ∀ st a, st = primaryStatus ((if x.res.poison then [0x01] else []) ++ x.res.statuses.map (·.1)) →
      a = s.cqBase region x.compRing + (s.reg .cqTail region x.compRing).toNat % s.ringSize region x.compRing * 64 →
      (∀ i < 64, (s.place (a + i)).isSome = true) → s.farDown a = false → a % 64 = 0 → x.units < 2 ^ 32 →
      ∃ (t : State) (r : Nat), s.finish region slot x = t ∧ t.item region slot = none ∧
        fld r 0 4 = x.tag ∧ fld r 4 1 = st ∧ fld r 6 1 = region ∧ fld r 8 2 = x.gen % 65536 ∧ fld r 0x10 8 = x.start.getD 0 % 2 ^ 64 ∧
        bit (fld r 5 1) 0 = x.res.poison ∧ bit (fld r 5 1) 1 = x.late ∧ bit (fld r 5 1) 2 = x.retried ∧ bit (fld r 5 1) 3 = x.chained ∧
        fld r 0x20 4 = min x.res.counts.saturated 0xFFFFFFFF ∧ fld r 0x30 4 = min x.res.counts.nonfinite 0xFFFFFFFF ∧
        t.rdBytes a 64 = leBytes 64 r ∧ (∀ b, b < a ∨ a + 64 ≤ b → t.rdByte b = s.rdByte b) ∧
        t.reg .cqTail region x.compRing = s.reg .cqTail region x.compRing + 1 ∧
        t.cleats = s.cleats ∧ t.steps = s.steps ∧ t.trk = s.trk ∧ t.results = s.results

/-! ### Cleats (03 R103 to R112) -/

/-- SIGNAL, DECREMENT and SET on a Cleat that exists, its die up: the value R103 gives, SATURATED or UNDERFLOW with its count
where it stopped at an end, every other Cleat as it was, and then what became ready moves. With no zero notice configured, and no
die on the way in recovery; an operation that such a die holds back waits (14 R475). The operation of a core is a store of its own to the
Cleat's die (02 R66). A store of 0 has no effect (03 R109). -/
def Obligations.CleatOperationsGiveTheirValues : Prop :=
  ∀ (s₀ s : State) (src ini die i n : Nat), s = s₀.coreStore src die → s.wf = true → cleatExists die i = true → s.dieDown die = false →
    n < 2 ^ 32 →
    (s.pathDown (srcDie src) die false = true → n ≠ 0 →
      exec (.cleatSignal src die i n) s₀ = .next ({ s with heldOps := s.heldOps ++ [(⟨srcDie src, die, i, .signal n⟩ : HeldOp)] }).settle ∧
      exec (.cleatDecrement src die i n) s₀ = .next ({ s with heldOps := s.heldOps ++ [(⟨srcDie src, die, i, .decrement n⟩ : HeldOp)] }).settle) ∧
    (s.pathDown (srcDie src) die false = false → n ≠ 0 → ∃ u : State, exec (.cleatSignal src die i n) s₀ = .next u.settle ∧ u.cleatMoved s die i ∧
      (u.cleat die i).toNat = min ((s.cleat die i).toNat + n) 0xFFFFFFFF ∧
      (0xFFFFFFFF < (s.cleat die i).toNat + n → (u.reg .cltSts (cleatKey die i)).getLsbD 0 = true ∧
        (u.reg .cltSatCnt die).toNat = min ((s.reg .cltSatCnt die).toNat + 1) 0xFFFFFFFF) ∧
      ((s.cleat die i).toNat + n ≤ 0xFFFFFFFF → u.regs = s.regs)) ∧
    (s.pathDown (srcDie src) die false = false → n ≠ 0 → bit (s.reg .cltCfg (cleatKey die i)).toNat 31 = false →
      ∃ u : State, exec (.cleatDecrement src die i n) s₀ = .next u.settle ∧ u.cleatMoved s die i ∧
      (u.cleat die i).toNat = (s.cleat die i).toNat - n ∧
      ((s.cleat die i).toNat < n → (u.reg .cltSts (cleatKey die i)).getLsbD 1 = true ∧
        (u.reg .cltSatCnt die).toNat = min ((s.reg .cltSatCnt die).toNat + 1) 0xFFFFFFFF) ∧
      (n ≤ (s.cleat die i).toNat → u.regs = s.regs)) ∧
    (∃ u : State, exec (.cleatSet ini die i n) s = .next u.settle ∧ u.cleatMoved s die i ∧ (u.cleat die i).toNat = n ∧ u.regs = s.regs) ∧
    exec (.cleatSignal src die i 0) s₀ = .next s ∧ exec (.cleatDecrement src die i 0) s₀ = .next s

/-- A decrement that takes a Cleat from above 0 to 0 signals the Cleat its CLT_CFG names by 1 (03 R108); a Cleat whose die is in
reset, or that does not exist, takes no operation, which is counted at the issuing die (03 R112).
A core's armed wait: the interrupt at once when the value is there; beyond 64 armed waits of the core, ARM_REFUSED; else the
wait is armed (03 R110). -/
def Obligations.ZeroNoticesUndeliveredOperationsAndArmedWaits : Prop :=
  (∀ (s₀ s : State) (src die i zd zi : Nat), s = s₀.coreStore src die → s.wf = true →
    (cleatExists die i = true → s.dieDown die = false → s.pathDown (srcDie src) die false = false → bit (s.reg .cltCfg (cleatKey die i)).toNat 31 = true →
      zd = bits (s.reg .cltCfg (cleatKey die i)).toNat 30 28 → zi = bits (s.reg .cltCfg (cleatKey die i)).toNat 13 0 →
      (zd, zi) ≠ (die, i) → cleatExists zd zi = true → s.dieDown zd = false → s.pathDown die zd false = false →
      ∀ n, (s.cleat die i).toNat ≤ n → n < 2 ^ 32 → s.cleat die i ≠ 0#32 →
        ∃ u : State, exec (.cleatDecrement src die i n) s₀ = .next u.settle ∧ u.cleat die i = 0#32 ∧
          (u.cleat zd zi).toNat = min ((s.cleat zd zi).toNat + 1) 0xFFFFFFFF ∧
          (∀ d j, d ≤ 4 → j < 16384 → (d, j) ≠ (die, i) → (d, j) ≠ (zd, zi) → u.cleat d j = s.cleat d j)) ∧
    (cleatExists die i = false ∨ s.dieDown die = true → ∀ n, n ≠ 0 → n < 2 ^ 32 →
      exec (.cleatSignal src die i n) s₀ = .next ((s.bump .cltUndelCnt (srcDie src) 0 1).settle) ∧
      exec (.cleatDecrement src die i n) s₀ = .next ((s.bump .cltUndelCnt (srcDie src) 0 1).settle) ∧
      ∀ ini, exec (.cleatSet ini die i n) s = .next ((s.bump .cltUndelCnt 4 0 1).settle))) ∧
  (∀ (s u : State) (core die i t : Nat), core < 32 → u = s.intervene core die none → cleatExists die i = true → u.dieDown die = false →
    t < 2 ^ 32 →
    (t ≤ (s.cleat die i).toNat →
      exec (.cleatArm core die i t) s = .next { u with out := .irq core causeCleat (die * 16384 + i) :: u.out }) ∧
    ((s.cleat die i).toNat < t →
      ((s.arms.filter fun a => a.core == core).length < 64 →
        exec (.cleatArm core die i t) s = .next { u with arms := s.arms ++ [⟨core, die, i, t⟩] }) ∧
      (64 ≤ (s.arms.filter fun a => a.core == core).length →
        exec (.cleatArm core die i t) s = .next (u.flag .cltSts (cleatKey die i) 0 4))))

/-! ### Numbers (04 R123 to R142; 05 R162) -/

/-- Rounding to a format's grid (04 R142): a magnitude above Max saturates at Max; below it, with lo the grid value at or below and f
the fraction of the way to the next, a grid value stays as it is, RZ takes lo, RN the nearer one and in a tie the one of even code,
and SR the next one when the floor of 16 f plus r reaches 16. -/
def Obligations.RoundingTakesTheGridValue : Prop :=
  ∀ (fmt n d r : Nat) (x : ℚ), fmt ≤ 12 → 0 < d → x = (n : ℚ) / d → r < 16 →
    (gridRat fmt (grid fmt).last < x → ∀ mode ≤ 2, roundQ (grid fmt) mode r n d = ((grid fmt).last, true)) ∧
    (x ≤ gridRat fmt (grid fmt).last → ∃ (lo : Nat) (f : ℚ), lo ≤ (grid fmt).last ∧ gridRat fmt lo ≤ x ∧ x < gridRat fmt (lo + 1) ∧
      f = (x - gridRat fmt lo) / (gridRat fmt (lo + 1) - gridRat fmt lo) ∧
      (f = 0 → ∀ mode ≤ 2, roundQ (grid fmt) mode r n d = (lo, false)) ∧
      roundQ (grid fmt) mRZ r n d = (lo, false) ∧
      (f < 1 / 2 → roundQ (grid fmt) mRN r n d = (lo, false)) ∧
      (1 / 2 < f → roundQ (grid fmt) mRN r n d = (lo + 1, false)) ∧
      (f = 1 / 2 → roundQ (grid fmt) mRN r n d = (if lo % 2 = 0 then lo else lo + 1, false)) ∧
      roundQ (grid fmt) mSR r n d = (if 16 ≤ ⌊16 * f⌋ + r then lo + 1 else lo, false))

/-- A finite element written back in its own format keeps its code, in every format and mode, exactly and without saturating; the
one code left out is −0, the most negative integer, or the escape. A zero result is written +0 whatever the sign it is given, and
no format writes its negative-zero code for a value (04 R146). -/
def Obligations.ElementCodesRoundTrip : Prop :=
  ∀ fmt ≤ 12,
    (∀ (c mode r : Nat) (v : XV), c < 2 ^ fmtBits fmt → c ≠ 2 ^ (fmtBits fmt - 1) → codeVal fmt c = some v →
      v.isFinite = true → convCode fmt mode r v = (c, false)) ∧
    (∀ neg, signCode fmt neg 0 = 0) ∧
    (∀ neg, ∀ k ≤ (grid fmt).last, signCode fmt neg k ≠ 2 ^ (fmtBits fmt - 1)) ∧
    (∀ (mode r : Nat) (m e : Int), (convCode fmt mode r (.fin m e)).1 ≠ 2 ^ (fmtBits fmt - 1) ∧
      ((roundQ (grid fmt) mode r (magFrac m e).1 (magFrac m e).2).1 = 0 → (convCode fmt mode r (.fin m e)).1 = 0))

/-- The Twine reduction of finite elements is their exact sum of products, with no rounding, and skipping the pairs with a zero
block does not change it (05 R162). -/
def Obligations.TwineSumIsExact : Prop :=
  ∀ (init : XV) (ra rb : List El), init.isFinite = true → (∀ e ∈ ra ++ rb, e.v.isFinite = true ∧ (e.z = true → e.v.rat = 0)) →
    (twineSum init ra rb).isFinite = true ∧
    (twineSum init ra rb).rat = init.rat + ((ra.zip rb).map fun p => p.1.v.rat * p.2.v.rat).sum

/-! ### Work items on their engines (03 R83, R88, R113; 04 to 09; 11) -/

/-- A ready item none of whose memory is held starts when its engine is free on the units it names, or, with mask 0, on the lowest
free unit that is not fenced, and no earlier ready item wants them: it is running, its first start's Lay time is its START, and only items
and registers change. While a die that its streams lie on, or lie behind, is in recovery, it does not start. -/
def Obligations.ReadyItemsStartWhereTheirEngineIsFree : Prop :=
  ∀ (s : State) (region slot : Nat) (x : Item), x.stage = .ready →
    (∀ units, s.itemHeld region x = false → s.chooseUnits region slot x = some units → s.yields region slot x units = false →
      ∃ (u : State) (y : Item),
      s.startItem region slot x = some (u, y) ∧ y.stage = .running ∧ y.units = units ∧ y.raw = x.raw ∧ y.count = x.count ∧
      (x.start = none → y.start = some s.lay.now ∧ y.startCyc = s.cycle ∧
        (y.late = true ↔ x.late = true ∨ (x.timed = true ∧ layOfNs (s.dv 0x2082 0) < s.lay.now - x.layGate))) ∧
      (x.start ≠ none → y.start = x.start) ∧ u.item region slot = some y ∧ u = { s with items := u.items, regs := u.regs }) ∧
    ((s.chooseUnits region slot x = none ∨ s.itemHeld region x = true
        ∨ ∃ units, s.chooseUnits region slot x = some units ∧ s.yields region slot x units = true) → s.startItem region slot x = none) ∧
    (maskUsed x.engine = true → x.mask ≠ 0 → s.chooseUnits region slot x
      = (if s.unitsBusy region slot x x.mask = true ∨ s.maskFenced region x.mask = true then none else some x.mask)) ∧
    (maskUsed x.engine = true → x.mask = 0 →
      (∀ units, s.chooseUnits region slot x = some units → ∃ k < 32, units = 2 ^ k ∧ s.unitFenced (region * 32 + k) = false ∧
        s.unitsBusy region slot x (2 ^ k) = false ∧
        ∀ j < k, s.unitFenced (region * 32 + j) = true ∨ s.unitsBusy region slot x (2 ^ j) = true) ∧
      (s.chooseUnits region slot x = none →
        ∀ j < 32, s.unitFenced (region * 32 + j) = true ∨ s.unitsBusy region slot x (2 ^ j) = true))

/-- MATMUL of the Hawser arrays, SEG_MATMUL, REBLOCK, ROUTE, GATE_ROUTE, the Halyard's passes, SEED and NM_BATCH run as their rows say: the item that starts ends its
run with the outputs its operation writes, or with the check that failed, or with the scale line out of step, which restarts a
REPLAYABLE item once. Each completes, writing its outputs, when its item can start, its checks pass and its scale lines are in step; a segment
product and a batch with no recovery in progress, a pass with none of its memory held. A Hawser product with residue mismatches completes with its outputs
poisoned. -/
def Obligations.ArrayRouterAndHalyardItemsRun : Prop :=
  ∀ region slot : Nat,
    (∀ row ∈ ([((.hawserMatmul region slot [], 1, 1, State.hwsRun []),
          fun u _ y => u.passes y (u.hwsChecks y) [(u.strm y 0, false), (u.strm y 1, false)]),
        ((.segMatmul region slot, 1, 0x10, State.segRun),
          fun u region y => u.passes y (u.segChecks y) [] ∧ u.calm = true ∧ u.segSkew region y = none),
        ((.reblock region slot, 3, 1, State.rebRun), fun u _ y => u.passes y (u.rebChecks y) [(u.strm y 0, false)]),
        ((.route region slot, 5, 1, State.rtrRun),
          fun u _ y => u.passes y (u.rtrChecks y) (if y.gate then [(u.strm y 0, false), (u.strm y 1, false)] else [])),
        ((.gateRoute region slot, 5, 2, State.rtrRun),
          fun u _ y => u.passes y (u.rtrChecks y) (if y.gate then [(u.strm y 0, false), (u.strm y 1, false)] else [])),
        ((.passA region slot, 6, 1, State.halRun), halSteady), ((.passB region slot, 6, 2, State.halRun), halSteady),
        ((.passC region slot, 6, 3, State.halRun), halSteady), ((.passCDelayed region slot, 6, 4, State.halRun), halSteady),
        ((.seed region slot, 6, 5, State.halRun), halSteady),
        ((.nmBatch region slot, 6, 0x10, State.nmRun), fun u _ y => u.calm = true ∧
          u.passes y [u.bytesCheck (u.strm y 0), if (u.strm y 0).byteCount < 32 * y.opnd 0x68 4 then some (9, 0, 0) else none] [])]
        : List (ItemRow × (State → Nat → Item → Prop))),
      itemRowRuns region slot row.1 ∧ itemRowCompletes region slot row.1 row.2) ∧
    (∀ (s : State) (x : Item) (residue : List Nat), s.canStart region slot 1 1 x → ∃ (u : State) (y : Item),
      s.startItem region slot x = some (u, y) ∧ y.raw = x.raw ∧ (u.runsNow region slot y →
        u.passes y (u.hwsChecks y) [(u.strm y 0, false), (u.strm y 1, false)] →
        ∃ (amax : Nat) (go : State → Item → State × Result) (z : Item), u.hwsRun residue region y = .ok amax go ∧
          exec (.hawserMatmul region slot residue) s = .next (u.ranOn region slot y (go u y)) ∧
          ((go u y).1.endRun region slot y (go u y).2).item region slot = some z ∧ z.stage = .finished ∧ z.raw = x.raw ∧
          ((∃ k ∈ residue, k < tileCount y.hws.m y.hws.n) → z.res.poison = true)))

/-- MASK, DROPOUT, FILL_UNIFORM, FILL_NORMAL4 and PACK_SPARSE run as their rows say. What a drawing item writes, when its checks pass,
is stream C filled with its draws: element i from the Bowline word of its index, in C's format under its coarse scale. Stream A, where it is read, gives its
elements times its own coarse scale. Each completes when its item can start, its checks pass and its scale lines are in step.
The draws (08 R262): MASK writes 1 where the word's bits are below P, else 0; DROPOUT scales the inputs kept and writes +0 for
the others; FILL_UNIFORM lies on LO plus the fraction of HI − LO that the word names. -/
def Obligations.VectorItemsRunAndDraw : Prop :=
  ((∀ region slot : Nat, ∀ row ∈ ([((.mask region slot, 2, 0x400, State.drwRun), drwSteady),
      ((.dropout region slot, 2, 0x401, State.drwRun), drwSteady), ((.fillUniform region slot, 2, 0x402, State.drwRun), drwSteady),
      ((.fillNormal4 region slot, 2, 0x403, State.drwRun), drwSteady),
      ((.packSparse region slot, 2, 0x410, State.packRun), fun u _ y => u.passes y (u.packChecks y) [(u.strm y 0, false)])]
      : List (ItemRow × (State → Nat → Item → Prop))), itemRowRuns region slot row.1 ∧ itemRowCompletes region slot row.1 row.2) ∧
  (∀ (u : State) (region : Nat) (y : Item) (ins : List El), firstBad (u.drwChecks y) = none →
    (y.drwReads = true → u.firstSkew y [(u.strm y 0, false)] = none ∧ ins = (u.readStream y (u.strm y 0)).els.map fun e => { e with v := e.v.mul (srcCoarse (u.strm y 0)) }) →
    (y.drwReads = false → ins = []) → 16384 ≤ y.watch → y.stream 3 = 0 →
    ∃ amax go, u.drwRun region y = .ok amax go ∧
      (go u y).1 = (u.writeStream (u.strm y 2) y.round (u.strm y 2).hdr.coarse (drawBits y (u.strm y 2) 0
        (((u.strm y 2).indexes.zipIdx).map fun p =>
          drawEl y.drw y.op (y.word (u.strm y 2).hdr.tag p.1 y.drw.draw) (ins.getD p.2 El.zero))) y.tag).st)) ∧
  (∀ (o : DrawOp) (w : Nat) (a : El),
    (o.psrc = false → (drawEl o 0x400 w a).v = .ofInt (if bits w 31 16 < o.a0 % 65536 then 1 else 0)) ∧
    (o.psrc = true → ∀ p : Int, a.v = .ofInt p → (drawEl o 0x400 w a).v = .ofInt (if (bits w 31 16 : Int) < max 0 (min p 65535) then 1 else 0) ∧
      ((drawEl o 0x400 w a).clip = true ↔ p < 0 ∨ 65535 < p)) ∧
    (bits w 31 16 < o.a0 % 65536 → (drawEl o 0x401 w a).v = (rn32 (a.v.mul (f32 o.a1))).1) ∧
    (o.a0 % 65536 ≤ bits w 31 16 → (drawEl o 0x401 w a).v.isZero = true) ∧
    (drawEl o 0x402 w a).v = (rn32 ((rn32 ((XV.fin (bits w 63 40) (-24)).mul (rn32 ((f32 o.a1).sub (f32 o.a0))).1)).1.add (f32 o.a0))).1)

/-- COPY, SCALES_FROM_MX, SCALES_TO_MX, GATHER_ROWS, GATHER_SLOTS and SNARL_COPY run as their rows say, SNARL_COPY when the die it
names is up. Each completes, writing its outputs, when its item can start, its checks pass and its scale lines are in step; the scale moves
when every code is a scale, a gather when every row it names is there, and SNARL_COPY when its slot holds a capture. A COPY writes to
C the bytes of A with their poison. A SCALE_LINE_MERGE of a line in the map is the merge at its memory. -/
def Obligations.MovementItemsRun : Prop :=
  (∀ region slot : Nat,
    (∀ row ∈ ([((.copy region slot, 8, 1, State.copyRun), fun u _ y => u.passes y (u.copyChecks y) []),
        ((.scalesFromMx region slot, 8, 0x10, State.fromMxRun), fun u _ y => u.passes y (u.fromMxChecks y) [] ∧
          ∀ b ∈ u.readFetched y (u.strm y 0), mxBad b = false),
        ((.scalesToMx region slot, 8, 0x11, State.toMxRun), fun u _ y => u.passes y (u.toMxChecks y) [] ∧ u.mxLinesBad y = false),
        ((.gatherRows region slot, 8, 0x20, State.gatherRun), gatherSteady),
        ((.gatherSlots region slot, 8, 0x21, State.gatherRun), gatherSteady)] : List (ItemRow × (State → Nat → Item → Prop))),
      itemRowRuns region slot row.1 ∧ itemRowCompletes region slot row.1 row.2) ∧
    (∀ (s : State) (x : Item), s.canStart region slot 8 0x30 x → (4 ≤ x.opnd 0x68 1 ∨ s.dieDown (x.opnd 0x68 1) = false) →
      ∃ (u : State) (y : Item), s.startItem region slot x = some (u, y) ∧ y.raw = x.raw ∧
      ∀ k, u.snarlIn (y.opnd 0x68 1) (y.opnd 0x69 1) = some k → u.runsNow region slot y →
        u.passes y [u.bytesCheck (u.strm y 2) true, if (u.strm y 2).byteCount == k.length then none else some (9, 2, 0)] [] →
        ∃ (amax : Nat) (go : State → Item → State × Result) (t : State), u.snarlCopyRun region y = .ok amax go ∧
          exec (.snarlCopy region slot) s = .next t ∧ t.ranTo s region slot y (go u y))) ∧
  (∀ (u : State) (region : Nat) (y : Item) (amax : Nat) (go : State → Item → State × Result), u.copyRun region y = .ok amax go →
    (go u y).1 = u.writeByteStream (u.strm y 2) (u.readByteStream y (u.strm y 0))) ∧
  (∀ (s : State) (m : LineMerge), s.mapped m.addr 64 = true → (∀ a, m.outAddr = some a → s.mapped a 224 = true) →
    exec (.scaleLineMerge m) s = .next (s.mergeLine m))

/-- MATMUL of the Twine arrays: an item whose rows go to stream C completes when it can start, its checks pass and its scale lines are in
step: it ends its run with the product written; residue mismatches poison its outputs and are recorded, and a fence they lead to takes
hold. A reeve item, whose rows go to their records, completes so too, and then waits for the tokens it spilled. -/
def Obligations.TwineItemsRun : Prop :=
  ∀ (s : State) (region slot : Nat) (x : Item) (residue : List Nat), s.canStart region slot 0 1 x → ∃ (u : State) (y : Item),
    s.startItem region slot x = some (u, y) ∧ y.raw = x.raw ∧ u = { s with items := u.items, regs := u.regs } ∧ (u.runsNow region slot y →
      (s.isReeve x = false → s.itemSpills region x.count = [] →
        u.passes y (u.twnChecks y) [(u.strm y 0, false), (u.strm y 1 y.twn.bFirst, y.twn.two4)] →
        ∃ (amax : Nat) (go : State → Item → State × Result) (z : Item), u.twnRun residue region y = .ok amax go ∧
          exec (.twineMatmul region slot residue) s = .next (u.ranOn region slot y (go u y)) ∧
          ((go u y).1.endRun region slot y (go u y).2).item region slot = some z ∧ z.stage = .finished ∧ z.raw = x.raw ∧
          (residue = [] → (u.ranOn region slot y (go u y)).ranTo s region slot y (go u y)) ∧
          ((∃ k ∈ residue, k < tileCount y.twn.m y.twn.n) → z.res.poison = true)) ∧
      (s.isReeve x = true → u.passes y (u.reeveChecks y) [(u.strm y 0, false), (u.strm y 1 y.twn.bFirst, y.twn.two4)] →
        ∃ (amax : Nat) (go : State → Item → State × Result), u.reeveRun residue region y = .ok amax go ∧
          exec (.twineMatmul region slot residue) s = .next ((u.ranOn region slot y (go u y)).reeveWait region slot)))

/-- A near-memory operation on an aligned element in HBM replaces it by the sum, maximum or minimum as one step, counts itself at
its stack, and tells its item; a saturated result is counted; a LONG128 of poisoned data becomes NaR (04 R156). No other byte of memory changes. A residue mismatch in the adder is
recorded and poisons the element. One that is held, its target on a die
in recovery or behind one, changes nothing yet; one whose target's die is under reset is lost, and its running item ends
ABORTED_BY_RESET. -/
def Obligations.NearMemoryOperationsReplaceTheirElement : Prop :=
  ∀ (s : State) (op : NmOp) (k : Nat), s.wf = true → op.ty ≤ 4 → op.op ≤ 2 → op.addr % nmBytes op.ty = 0 → s.stackOf op.addr = some k →
    (s.heldAt (regionDie op.region) op.addr = true → s.dieReset (stackDie k) = false → exec (.nmOperation op) s = .next s) ∧
    (s.dieReset (stackDie k) = true → ∃ t : State, exec (.nmOperation op) s = .next t ∧ t = { s with regs := t.regs, items := t.items } ∧
      (∀ x, s.item op.region op.slot = some x → x.stage = .running →
        ∃ z, t.item op.region op.slot = some z ∧ z.stage = .finished ∧ z.res.statuses = [(0x07, 0)])) ∧
    (s.heldAt (regionDie op.region) op.addr = false → s.dieReset (stackDie k) = false → op.residue = true →
      ∃ t : State, exec (.nmOperation op) s = .next t ∧ t.recorded s (stackDie k) 4 1 ∧ t.poisonedIn op.addr (nmBytes op.ty) = true) ∧
    (s.heldAt (regionDie op.region) op.addr = false → s.dieReset (stackDie k) = false → op.residue = false →
      ∀ r : Nat × Bool, r = nmResult op.ty op.op (s.rd op.addr (nmBytes op.ty)) (op.value % 2 ^ (8 * nmBytes op.ty)) →
    ∃ t : State, exec (.nmOperation op) s = .next t ∧ t = { s with mem := t.mem, regs := t.regs, items := t.items } ∧
      t.rdBytes op.addr (nmBytes op.ty) = leBytes (nmBytes op.ty)
        (if (op.poisoned = true ∨ s.poisonedIn op.addr (nmBytes op.ty) = true) ∧ op.ty = 4 then 2 ^ 127 else r.1) ∧
      (∀ b, b < op.addr ∨ op.addr + nmBytes op.ty ≤ b → t.rdByte b = s.rdByte b) ∧
      (t.reg .halNmCnt k).toNat = min ((s.reg .halNmCnt k).toNat + 1) 0xFFFFFFFF ∧
      (r.2 = true → (t.reg .halNmSatCnt k).toNat = min ((s.reg .halNmSatCnt k).toNat + 1) 0xFFFFFFFF) ∧
      (∀ x, s.item op.region op.slot = some x → x.stage = .running →
        ∃ z, t.item op.region op.slot = some z ∧ z.nmIssued = true ∧ z.nmSats = x.nmSats + b2n r.2))

/-! ### Key-value records (10) -/

/-- MERGE and PTE_WRITE run as their rows say; a MERGE completes when its item can start, its checks pass and its records are pairs, a
PTE_WRITE when its entry is in the map. A PUBLISH item completes when its checks pass and its record is there on a die that is up. An ATTEND
item with its record pinned completes when its checks pass, its scale lines are in step and no recovery is in progress; then the pin is
released, and what became ready moves. One without its pin takes it, and goes on as with it; while its record holds spilled tokens it
waits (10 R322, R323, R326, R329, R333). A PTE_WRITE stores its 8 bytes, and refuses to change a VALID entry with CONFIG_BUSY (10 R308). -/
def Obligations.KvItemsRun : Prop :=
  (∀ region slot : Nat,
    (∀ row ∈ ([((.merge region slot, 4, 2, State.mergeRun), fun u _ y => u.passes y (u.mergeChecks y) [] ∧
          ∀ p ∈ u.mergePairs y, pairBad y.att.partial' p = false),
        ((.pteWrite region slot, 4, 0x11, State.pteRun), fun u _ y => u.mapped (y.opnd 0x68 8 % 2 ^ 48 / 8 * 8) 8 = true)]
        : List (ItemRow × (State → Nat → Item → Prop))), itemRowRuns region slot row.1 ∧ itemRowCompletes region slot row.1 row.2) ∧
    (∀ (s : State) (x : Item), s.canStart region slot 4 0x10 x → ∃ (u : State) (y : Item),
      s.startItem region slot x = some (u, y) ∧ y.raw = x.raw ∧ (u.runsNow region slot y → u.passes y (u.publishChecks y) [] →
        u.dieDown (kvHome (y.opnd 0x68 2)) = false → (u.kvRecAddr (y.opnd 0x68 2) y.layer).isSome = true →
        ∃ (amax : Nat) (go : State → Item → State × Result), u.publishRun region y = .ok amax go ∧
          exec (.publish region slot) s = .next (((go u y).1.endRun region slot y (go u y).2).settle))) ∧
    (∀ (s : State) (x : Item) (k : Pin), s.canStart region slot 4 1 x → x.pin = some k → ∃ (u : State) (y : Item),
      s.startItem region slot x = some (u, y) ∧ y.raw = x.raw ∧ (u.runsNow region slot y → u.calm = true →
        u.passes y (u.attChecks y ++ u.attShape y (u.kvLay (kvHome y.att.seq) k.layout) k) [(u.strm y 0, false)] → u.attSkew k y = none →
        ∃ (amax : Nat) (go : State → Item → State × Result) (v : State) (z : Item), u.attRun k region y = .ok amax go ∧
          v.ranTo s region slot y (go u y) ∧ v.item region slot = some z ∧
          exec (.attend region slot) s = .next (((v.setItem region slot (some { z with pin := none })).releasePin x.att.seq k).settle))) ∧
    (∀ (s : State) (x : Item) (r : KvRec), s.item region slot = some x → x.engine = 4 → x.op = 1 → x.stage = .ready → x.pin = none →
      s.dieDown (kvHome x.att.seq) = false → s.kvRec x.att.seq x.layer = some r → r.valid = true →
      (r.spill ≠ 0 → exec (.attend region slot) s = .next (s.pinWait region slot x)) ∧
      (∀ (w : State × Pin) (z : Item), r.spill = 0 → (s.startItem region slot { x with waitCyc := none }).isSome = true →
        w = s.pinRec x.att.seq r (s.poisoned ((s.kvRecAddr x.att.seq x.layer).getD 0)) → w.1.item region slot = some z →
        exec (.attend region slot) s
          = exec (.attend region slot) (w.1.setItem region slot (some { z with pin := some w.2, waitCyc := none })).settle))) ∧
  (∀ (u : State) (region : Nat) (y : Item) (a v : Nat), a = y.opnd 0x68 8 % 2 ^ 48 / 8 * 8 → v = y.opnd 0x70 8 → u.mapped a 8 = true →
    ∃ go, u.pteRun region y = .ok 0 go ∧
      (bit (u.rd a 8) 63 = true → u.rd a 8 ≠ v → go u y = (u, { statuses := [(0x08, 0)] })) ∧
      (bit (u.rd a 8) 63 = false ∨ u.rd a 8 = v → u.farDown a = false →
        (go u y).2 = {} ∧ (go u y).1.rd a 8 = v ∧ (∀ b, b < a ∨ a + 8 ≤ b → (go u y).1.rdByte b = u.rdByte b)))

/-- A PIN of a valid record without spilled tokens takes the snapshot and signals REF by 1; with spilled tokens its item waits. A
RELEASE decrements the REF that was pinned (10 R309, R310, R322). -/
def Obligations.PinsTakeSnapshotsAndRelease : Prop :=
  ∀ (s : State) (op : RecOp) (x : Item), s.item op.region op.slot = some x →
    (∀ (a : Nat) (r : KvRec), s.wf = true → s.recAt op.seq op.layer a r → x.attends op.seq op.layer = true → x.pin = none →
      s.dieDown (kvHome op.seq) = false → r.valid = true →
      (r.spill ≠ 0 → exec (.recordPin op) s
        = .next (s.setItem op.region op.slot (some { x with waitCyc := some (x.waitCyc.getD s.cycle) }))) ∧
      (r.spill = 0 → ∃ (u : State) (z : Item), exec (.recordPin op) s = .next u.settle ∧ u.item op.region op.slot = some z ∧
        z.pin = some ⟨r.dir, r.len, r.lastPos, r.layout, r.ref, s.poisoned a⟩ ∧ z.raw = x.raw ∧ z.stage = x.stage ∧
        (refEn r.ref = false → u.cleats = s.cleats) ∧
        (∀ d i, d = bits r.ref 30 28 → i = bits r.ref 13 0 → refEn r.ref = true → cleatExists d i = true → s.dieDown d = false →
          s.pathDown (kvHome op.seq) d false = false →
          (u.cleat d i).toNat = min ((s.cleat d i).toNat + 1) 0xFFFFFFFF ∧
          ∀ e j, e ≤ 4 → j < 16384 → (e, j) ≠ (d, i) → u.cleat e j = s.cleat e j) ∧
        u = { s with cleats := u.cleats, regs := u.regs, items := u.items, arms := u.arms, out := u.out, power := u.power
                     heldOps := u.heldOps })) ∧
    (∀ p : Pin, x.pin = some p → exec (.recordRelease op) s
      = .next (((s.setItem op.region op.slot (some { x with pin := none })).releasePin (x.opnd 0x6C 2) p).settle))

/-- APPEND at the end of a record with no spilled token (10 R316 to R319): into the page that is there; into a page popped from
the ring of its die; or, with no page to pop, into its cluster's spill slot, the exhaustion counted, once for a token. A token that is placed makes
LEN one more and LAST_POS its position.
SPILL_DRAIN places the cluster's oldest token once its page is there: LEN and LAST_POS follow it, SPILL is one less; a token
out of turn stays. PAGE_WAIT_US later a reeve item with tokens still spilled, or an item that could not pin, ends with PAGE_WAIT, the
former with the SEQ of its first row that is not placed and the number of its spilled tokens (10 R320 to R322). -/
def Obligations.AppendsPlaceOrSpillTokensWhichDrain : Prop :=
  (∀ (s : State) (t : Token) (a : Nat) (r : KvRec), s.wf = true → s.recAt t.seq t.layer a r → r.valid = true → r.spill = 0 →
    s.spilled t.seq t.layer = [] → t.index = r.len → t.index < 4194304 → t.pos < 2 ^ 32 → (r.len = 0 ∨ r.lastPos < t.pos) →
    (∀ e, t.index % 128 ≠ 0 → s.pte r.dir (t.index / 128) = some e →
      ∃ (u : State) (c : Counts), s.kvAppend t = (u, .placed c) ∧ u.rd (a + 8) 4 = r.len + 1 ∧ u.rd (a + 0xC) 4 = t.pos) ∧
    (∀ coarse pte ring, t.index % 128 = 0 → newPageCoarse t.fresh (s.kvLay (kvHome t.seq) r.layout).headroom = some coarse →
      ring = ringDie r t.die (t.index / 128) → s.pteAddr r.dir (t.index / 128) = some pte → ring < 4 →
      (s.ateReady ring = true → bit (s.rd pte 8) 63 = false →
        ∃ (u : State) (c : Counts), s.kvAppend t = (u, .placed c) ∧ u.rd (a + 8) 4 = r.len + 1 ∧ u.rd (a + 0xC) 4 = t.pos ∧
          u.reg .ateRingHead ring = s.reg .ateRingHead ring + 1) ∧
      (s.ateReady ring = false → (s.spillOf t.cluster).length < 16 →
        ∃ (u : State) (c : Counts) (k : SpillTok), s.kvAppend t = (u, .spilled c) ∧ u.spillOf t.cluster = s.spillOf t.cluster ++ [k] ∧
          k.seq = t.seq ∧ k.layer = t.layer ∧ k.index = t.index ∧ k.pos = t.pos ∧ k.coarse = coarse ∧
          u.recFields a r.len r.lastPos 1 ∧ (u.reg .ateExhCnt ring).toNat = (if (t.seq, t.layer, t.index) ∈ s.exhSeen
            then (s.reg .ateExhCnt ring).toNat else min ((s.reg .ateExhCnt ring).toNat + 1) 0xFFFFFFFF)) ∧
      (s.ateReady ring = false → 16 ≤ (s.spillOf t.cluster).length → (s.kvAppend t).2 = .full))) ∧
  ((∀ (s : State) (cluster a e : Nat) (k : SpillTok) (rest : List SpillTok) (r : KvRec), s.wf = true → s.spillOf cluster = k :: rest →
    s.recAt k.seq k.layer a r → r.valid = true → s.dieDown (kvHome k.seq) = false → k.index % 128 ≠ 0 →
    s.pte r.dir (k.index / 128) = some e →
    (r.len = k.index → k.index < 4194304 → k.pos < 2 ^ 32 → ∃ t : State, exec (.spillDrain cluster) s = .next t ∧
      t.spillOf cluster = rest ∧ t.recFields a (r.len + 1) k.pos (r.spill - 1) ∧
      (∀ c, c ≠ cluster → t.spillOf c = s.spillOf c)) ∧
    (r.len ≠ k.index → exec (.spillDrain cluster) s = .next s)) ∧
  (∀ (s : State) (region slot : Nat) (x : Item), s.item region slot = some x → s.pageWaitOver region x = true →
    (∀ d, d = s.pageWaitDetail region x none → x.stage = .finished ∨ x.stage = .running → s.isReeve x = true →
      s.itemSpills region x.count ≠ [] →
      exec (.pageWaitTimeout region slot) s = .next ((((s.bump .ateWaitCnt (regionDie region) 0 1).finishStopped region slot
        { x with waitCyc := none, wrote := true } 0x05 d).showItem x region x.units).settle) ∧
      ∀ m < x.twn.m, (∃ t ∈ s.itemSpills region x.count, t.seq = (s.reeveRow x m).seq ∧ t.index = (s.reeveRow x m).index) →
        (∀ j < m, ∀ t ∈ s.itemSpills region x.count, t.seq ≠ (s.reeveRow x j).seq ∨ t.index ≠ (s.reeveRow x j).index) →
        d = (s.reeveRow x m).seq * 2 ^ 16 + (s.itemSpills region x.count).length) ∧
    (∀ r, x.stage = .ready → x.engine = 4 → x.pin = none → s.kvRec (x.opnd 0x6C 2) x.layer = some r → r.spill ≠ 0 →
      exec (.pinWaitTimeout region slot) s = .next (((s.bump .ateWaitCnt (regionDie region) 0 1).finish region slot
        { x with waitCyc := none, res := { statuses := [(0x05, x.opnd 0x6C 2 * 2 ^ 16)], partialOut := true } }).settle))))

/-- RECORD_APPEND hands its row to the record and tells its item how that ended: a row that finds the spill slot full ends it with PAGE_WAIT; RECORD_PUBLISH of a legal image replaces the record
by it with SPILL 0 and changes no other byte, and one that is not legal leaves the record (10 R316, R321, R324). -/
def Obligations.RecordAppendsAndPublishesAreApplied : Prop :=
  (∀ (s u : State) (op : RecOp) (x : Item), s.item op.region op.slot = some x → x.stage = .running → s.isReeve x = true →
    x.layer = op.layer → s.dieDown (kvHome op.seq) = false →
    (∀ c, (s.reeveCoarse x).2.kvAppend (s.opToken op x) = (u, .placed c) →
      exec (.recordAppend op) s = .next (u.setItem op.region op.slot (some { x with wrote := true, progCyc := s.cycle }))) ∧
    (∀ c, (s.reeveCoarse x).2.kvAppend (s.opToken op x) = (u, .spilled c) →
      exec (.recordAppend op) s = .next (u.setItem op.region op.slot
        (some { x with wrote := true, waitCyc := some (x.waitCyc.getD s.cycle), progCyc := s.cycle }))) ∧
    ((s.reeveCoarse x).2.kvAppend (s.opToken op x) = (u, .full) →
      exec (.recordAppend op) s = .next ((u.bump .ateWaitCnt (regionDie op.region) 0 1).endRun op.region op.slot x
        { statuses := [(0x05, u.pageWaitDetail op.region x (some (op.seq, op.index)))], partialOut := true })) ∧
    ((s.reeveCoarse x).2.kvAppend (s.opToken op x) = (u, .bad) →
      exec (.recordAppend op) s = .next (u.endRun op.region op.slot x { statuses := [(0x0A, 0x09020000)], partialOut := x.wrote }))) ∧
  (∀ (s : State) (op : RecOp) (a : Nat) (r : KvRec), s.wf = true → s.recAt op.seq op.layer a r → s.dieDown (kvHome op.seq) = false →
    s.item op.region op.slot = none →
    (s.publishLegal r op.image op.flags op.expectLen → ∃ u : State, exec (.recordPublish op) s = .next u.settle ∧
      u.rd a 32 = setBits op.image 175 160 0 % 2 ^ 256 ∧ (∀ b, b < a ∨ a + 32 ≤ b → u.rdByte b = s.rdByte b) ∧
      (refEn r.ref = false → refEn (parseRec op.image).ref = false → u = { s with mem := u.mem, exhSeen := u.exhSeen })) ∧
    (r.spill ≠ 0 ∨ (bit op.flags 0 = true ∧ r.len ≠ op.expectLen) → exec (.recordPublish op) s = .next s))

/-! ### Fabric items and the commit vote (13 R424 to R441) -/

/-- SEND, ALLREDUCE, REDUCE_SCATTER, ALLGATHER, SUM_L128 and MAX_F32, ready, with this package and their peers members, their
checks passed and their scale lines in step. A SEND sends its lines as PUT packets to its peer and waits for their delivery. A
collective tells its neighbours that it is ready, puts in its own values, sends what it may, and ends when its outputs are
there. While the package takes no part, a fabric item ends with PEER_LOST.
A collective ends its run exactly when its outputs are there: an exact collective writes its result and, for element 0, its
result slot; else it goes on waiting (13 R431, R438). -/
def Obligations.FabricItemsRunAndEnd : Prop :=
  (∀ (s u : State) (region slot : Nat) (x y : Item), s.itemStarts region slot 7 x.op x u y → x.stage = .ready → x.prepass = 0 →
    (∀ l, s.selfMember = true → x.op = 1 → s.peerOk (x.opnd 0x68 4) = true → firstBad (u.sendChecks y) = none →
      u.firstSkew y [(u.strm y 0, false)] = none →
      l = sendRuns (u.strm y 2).blkBytes ((rawGroups (u.strm y 0) (u.rawBlocks y (u.strm y 0))).zip (u.strm y 2).dests) →
      ∃ (t : State) (z : Item), exec (.send region slot) s = .next t ∧ t.item region slot = some z ∧ z.stage = .finished ∧
        z.res.statuses = [] ∧ t.mem = s.mem ∧ t.cleats = s.cleats ∧ t.steps = s.steps ∧
        ∃ new, t.sends = new ++ s.sends ∧ new.length = l.length ∧
          ∀ e ∈ new, e.kind = 0x40 ∧ e.dst = x.opnd 0x68 4 ∧ e.region = region ∧ e.slot = slot) ∧
    (∀ row ∈ ([(.allreduce region slot, 0x10), (.reduceScatter region slot, 0x11), (.allgather region slot, 0x12),
        (.sumL128 region slot, 0x20), (.maxF32 region slot, 0x21)] : List (Instr × Nat)), x.op = row.2 →
      (∀ (c : Coll) (v w : State × Coll), s.selfMember = true → tget dColl s.colls (itemKey region slot) = some c →
        s.collRuns (itemKey region slot) c.id = false → s.lostPeer c = none → firstBad (u.collChecks y c) = none →
        u.firstSkew y (u.collIns y) = none → v = (u.sendReady c).collFill region y c → w = v.1.flushColl (itemKey region slot) v.2 →
        exec row.1 s = .next (w.1.collTry (itemKey region slot) w.2)) ∧
      (s.selfMember = false → exec row.1 s = .next ((s.peerLost region slot 4 s.pkgId).settle))) ∧
    (s.selfMember = false → x.op = 1 → exec (.send region slot) s = .next ((s.peerLost region slot 4 s.pkgId).settle))) ∧
  (∀ (s : State) (region slot : Nat) (x : Item) (c : Coll), region < 16 → slot < 256 → s.item region slot = some x → x.stage = .running →
    x.prepass ≠ 1 →
    (s.collReadyToEnd region x c = false → s.collTry (itemKey region slot) c = s.setColl (itemKey region slot) (some c)) ∧
    (∀ v, s.collReadyToEnd region x c = true → isTree x = true → c.down = some v → ∃ z : Item,
      (s.collTry (itemKey region slot) c).item region slot = some z ∧ z.stage = .finished ∧
      (x.resultSlot < 1024 → z.res.result = some (BitVec.ofNat 128 (v.getD 0 (0, false)).1, (v.getD 0 (0, false)).2)) ∧
      ((∃ p ∈ v, p.2 = true) → z.res.poison = true)))

/-- VOTE starts its slot's exchange: the slot is VOTING from this cycle, and this package contributes 0 or, with a fault flag
set, 1. The step slot must be OPEN with no item outstanding (07 R231; 13 R439). -/
def Obligations.VoteItemsStartTheExchange : Prop :=
  ∀ (s u : State) (region slot : Nat) (x y : Item) (c : Coll), s.itemStarts region slot 7 0x30 x u y → x.stage = .ready → x.stepSlot < 16 →
    s.selfMember = true → tget dColl s.colls (itemKey region slot) = some c → s.collRuns (itemKey region slot) c.id = false →
    ((s.step x.stepSlot).state = 1 → (s.step x.stepSlot).outstanding = 0 →
      ∃ (t : State) (v : VoteX), exec (.vote region slot) s = .next t ∧
        t.step x.stepSlot = { s.step x.stepSlot with state := 2, voteCyc := s.cycle } ∧ v ∈ t.votes ∧ v.slot = x.stepSlot ∧
        v.num = (s.step x.stepSlot).num ∧ v.attempt = (s.step x.stepSlot).attempt ∧
        v.own = (if (s.step x.stepSlot).fault % 128 = 0 then 0 else 2 ^ 80) ∧ t.mem = s.mem ∧ t.cleats = s.cleats ∧ t.trk = s.trk) ∧
    ((s.step x.stepSlot).state ≠ 1 ∨ (s.step x.stepSlot).outstanding ≠ 0 → exec (.vote region slot) s = .next s)

/-! ### Steps (07 R215 to R249) -/

/-- The commands of a step slot, in a state that allows them. OPEN latches the step's registers and the policy, attempt 0; REOPEN
starts the next attempt of the same step, its charged trackers with a prepass and the others from their history; ABANDON lets the
trackers go with their history; FREE clears the slot but for its counts and registers.
A command that the slot's state does not allow, and a reserved OP in any state, is refused: counted, with the register and the
initiator recorded, and nothing else changes (07 R227, R236). -/
def Obligations.StepCommandsChangeTheirSlotsOrAreRefused : Prop :=
  (∀ (s : State) (ini slot : Nat), s.wf = true → slot < 16 →
    ((s.step slot).state = 0 → ∃ u : State, exec (.stepOpen ini slot) s = .next u.settle ∧ (u.step slot).state = 1 ∧
      (u.step slot).attempt = 0 ∧ (u.step slot).fault = 0 ∧ (u.step slot).num = s.stepNumReg slot ∧
      (u.step slot).epoch = (s.reg .stepEpoch 0 slot).toNat ∧ (∀ i ∈ policyIdx, u.policy slot i = s.dv i 0) ∧
      (∀ k, k ≠ slot → u.step k = s.step k) ∧ u.trk = s.trk ∧
      u = { s with steps := u.steps, layers := u.layers, regs := u.regs, lastOpen := s.stepNumReg slot, globalWiden := u.globalWiden }) ∧
    ((s.step slot).state = 4 ∨ (s.step slot).state = 5 → ∃ u : State, exec (.stepReopen ini slot) s = .next u.settle ∧
      (u.step slot).state = 1 ∧ (u.step slot).attempt = min ((s.step slot).attempt + 1) 15 ∧ (u.step slot).fault = 0 ∧
      (u.step slot).num = (s.step slot).num ∧ (∀ k, k ≠ slot → u.step k = s.step k) ∧
      (∀ t, (s.tracker t).held = true → (s.tracker t).slot = slot →
        (u.tracker t).items = 0 ∧ (u.tracker t).hist = (s.tracker t).hist ∧
        ((s.tracker t).faulted = true → (u.tracker t).prepass = true ∧ (u.tracker t).producers = (s.tracker t).items) ∧
        ((s.tracker t).faulted = false → (u.tracker t).prepass = false ∧ (u.tracker t).hmax = u.histMax slot t)) ∧
      (∀ t, (s.tracker t).held = false ∨ (s.tracker t).slot ≠ slot → u.tracker t = s.tracker t) ∧
      u = { s with steps := u.steps, trk := u.trk, mc := u.mc, layers := u.layers, regs := u.regs }) ∧
    ((s.step slot).state ∈ [1, 4, 5, 6] → ∃ u : State, exec (.stepAbandon ini slot) s = .next u.settle ∧ (u.step slot).state = 7 ∧
      (∀ k, k ≠ slot → u.step k = s.step k) ∧ (∀ v ∈ u.votes, v.slot ≠ slot) ∧
      (∀ t, (s.tracker t).held = true → (s.tracker t).slot = slot →
        (u.tracker t).held = false ∧ (u.tracker t).hist = (s.tracker t).hist) ∧
      (∀ t, (s.tracker t).held = false ∨ (s.tracker t).slot ≠ slot → u.tracker t = s.tracker t) ∧ u.mem = s.mem) ∧
    (((s.step slot).state = 3 ∧ (s.step slot).gated = 0) ∨ (s.step slot).state = 7 →
      ∃ u : State, exec (.stepFree ini slot) s = .next u.settle ∧ u = { s with steps := u.steps } ∧ (∀ k, k ≠ slot → u.step k = s.step k) ∧
        u.step slot = { ({} : StepSlot) with outstanding := (s.step slot).outstanding, gated := (s.step slot).gated
                                             num := (s.step slot).num, epoch := (s.step slot).epoch, bwl := (s.step slot).bwl })) ∧
  (∀ (s t : State) (ini slot : Nat), s.wf = true → slot < 16 → t = s.refuse ini 4 (0x500000 + slot * 0x100) →
    (t = { s with regs := t.regs } ∧ (t.reg .mgtRefuseCnt 4).toNat = min ((s.reg .mgtRefuseCnt 4).toNat + 1) 0xFFFFFFFF ∧
      (t.reg .mgtRefuseLast 4).toNat = 0x500000 + slot * 0x100 ∧ (t.reg .mgtRefuseInit 4).toNat = ini % 64) ∧
    ((s.step slot).state ≠ 0 → exec (.stepOpen ini slot) s = .next t) ∧
    ((s.step slot).state ∉ [4, 5] → exec (.stepReopen ini slot) s = .next t) ∧
    ((s.step slot).state ∉ [1, 4, 5, 6] → exec (.stepAbandon ini slot) s = .next t) ∧
    ((s.step slot).state ≠ 7 → ¬((s.step slot).state = 3 ∧ (s.step slot).gated = 0) → exec (.stepFree ini slot) s = .next t) ∧
    (∀ op, op = 0 ∨ 5 ≤ op → exec (.stepCmdReserved ini slot op) s = .next t))

/-- A store to SPL_TRK_CFG of a tracker that is held is refused; else it is taken with its reserved codes folded, EN rising
clearing its history, its shares and its prepass state. A prepass pass adds its item to PRE_DONE and its amax to PREMAX, and the item waits again (07 R216, R220, R238). -/
def Obligations.TrackersAreConfiguredAndPrepassed : Prop :=
  (∀ (s u : State) (ini t value : Nat), s.wf = true → t < 16384 → u = s.intervene ini (t / 4096) none →
    ((u.tracker t).held = true → exec (.splTrkCfgWrite ini t value) s = .next (u.refuse ini (t / 4096) (0x500000 + t % 4096 * 0x80))) ∧
    ((u.tracker t).held = false → ∃ w : State, exec (.splTrkCfgWrite ini t value) s = .next w ∧ w = { u with trk := w.trk, regs := w.regs } ∧
      w.trkCfg t = trkCfgBack value ∧ (∀ k, k ≠ t → w.tracker k = u.tracker k) ∧
      (bit value 31 = true → bit (u.trkCfg t) 31 = false → w.tracker t = { u.tracker t with
        hist := [], counts := {}, prepass := false, usePre := false, premax := 0, preDone := 0, producers := 0 }) ∧
      (bit value 31 = false ∨ bit (u.trkCfg t) 31 = true → w.tracker t = u.tracker t))) ∧
  (∀ (s u : State) (region slot : Nat) (x y : Item) (amax : Nat) (go : State → Item → State × Result), s.wf = true →
    s.item region slot = some x → x.prepass = 1 → x.watch < 16384 → s.frozen ⟨2, region⟩ = false → x.stage = .ready → x.pin = none →
    (x.engine ≠ 7 ∨ x.op = 1) → (x.engine ≠ 4 ∨ x.op ≠ 1) → s.startItem region slot x = some (u, y) → u.dryRun region y = .ok amax go →
    ∃ (w : State) (z : Item), exec (.prepassPassDone region slot) s = .next w.settle ∧ w.item region slot = some z ∧
      z.prepass = 2 ∧ z.stage = .admitted ∧ (w.tracker x.watch).preDone = (s.tracker x.watch).preDone + 1 ∧
      (w.tracker x.watch).premax = max (s.tracker x.watch).premax amax ∧
      ((w.tracker x.watch).prepass = true ↔ (s.tracker x.watch).prepass = true ∧ (s.tracker x.watch).preDone + 1 ≠ (s.tracker x.watch).producers) ∧
      w = { s with items := w.items, regs := w.regs, trk := w.trk })

/-- The outcome of a vote (07 R231, R232): a sum of 0 commits the step, each of its trackers taking STEPMAX into its history and
letting go; another sum makes it REPLAY, or EXHAUSTED once its attempt has reached REPLAY_MAX, the charged trackers marked. A
result no slot waits for is only kept. -/
def Obligations.VoteResultsDecideTheirSlots : Prop :=
  ∀ (s : State) (epoch num attempt sum : Nat), s.wf = true →
    (∀ slot, s.votingSlot epoch num attempt = some slot → ∃ u : State, exec (.voteResult epoch num attempt sum) s = .next u.settle ∧
      (u.step slot).vote = voteCount sum ∧ (∀ v ∈ u.votes, v.slot ≠ slot) ∧ u.mem = s.mem ∧
      (u.step slot).state = (if sum = 0 then 3 else if s.policy slot 0x3020 ≤ (s.step slot).attempt then 5 else 4) ∧
      (∀ t, (s.tracker t).held = true → (s.tracker t).slot = slot →
        (sum = 0 → (u.tracker t).held = false ∧ (u.tracker t).hist = ((s.tracker t).stepmax :: (s.tracker t).hist).take 16) ∧
        (sum ≠ 0 → (u.tracker t).held = true ∧ (u.tracker t).hist = (s.tracker t).hist ∧
          (u.tracker t).faulted = (s.tracker t).faultNow)) ∧
      (∀ t, (s.tracker t).held = false ∨ (s.tracker t).slot ≠ slot → u.tracker t = s.tracker t)) ∧
    (s.votingSlot epoch num attempt = none → ∃ t : State, exec (.voteResult epoch num attempt sum) s = .next t ∧
      t = { s with voteKept := t.voteKept } ∧ (0 < s.dv 0x5006 0 → (t.keptVote epoch num attempt).isSome = true))

/-- A vote without a result in VOTE_DOUBT_MS is in doubt, and the other members are asked, 64 at a time; a kept sum that one of
them answers decides the slot; when every one has answered that it has none, or VOTE_DOUBT_MS more have passed, the slot is
ABANDONED. A query is answered with the kept sum, or with none (07 R247, R248; 13 R440). -/
def Obligations.VotesInDoubtAsk : Prop :=
  ∀ (s : State) (slot : Nat), slot < 16 →
    (∀ v, (s.step slot).state = 2 → (s.step slot).voteCyc + cycOfMs (s.dv 0x3027 0) ≤ s.cycle →
      s.votes.find? (fun v => v.slot == slot) = some v →
      ∃ u : State, exec (.voteDoubtTimeout slot) s = .next u.settle ∧ (u.step slot).state = 6 ∧ (u.step slot).doubtCyc = s.cycle ∧
        (u.step slot).asked.length ≤ 64 ∧ (u.step slot).asked ++ (u.step slot).toAsk = v.plan.members.filter (· != s.pkgId) ∧
        u.trk = s.trk) ∧
    ((s.step slot).state = 6 → (s.step slot).doubtCyc + cycOfMs (s.dv 0x3027 0) ≤ s.cycle →
      exec (.voteQueryTimeout slot) s = .next ((s.abandonStep slot).settle)) ∧
    (∀ (port : Nat) (p : Packet), p.kind = 0x31 → p.dst = s.pkgId → p.tgen = s.pkgGen →
      (bodyCode p.body = 0 → exec (.voteQuery port p) s = .next (s.sendControl 0x31 p.src
        (match s.keptVote (bodyEpoch p.body) (bodyNum p.body) (bodyAttempt p.body) with
          | some sum => voteBody (bodyEpoch p.body) (bodyNum p.body) (bodyAttempt p.body) 1 sum
          | none => voteBody (bodyEpoch p.body) (bodyNum p.body) (bodyAttempt p.body) 2 0))) ∧
      (s.votingSlot (bodyEpoch p.body) (bodyNum p.body) (bodyAttempt p.body) = some slot → (s.step slot).state = 6 →
        p.src ∈ (s.step slot).asked →
        (bodyCode p.body = 1 → exec (.voteQueryAnswer port p) s
          = .next ((s.keepVote (bodyEpoch p.body) (bodyNum p.body) (bodyAttempt p.body) (bodySum p.body)).applyVote slot (bodySum p.body))) ∧
        (2 ≤ bodyCode p.body → (s.step slot).asked = [p.src] → (s.step slot).toAsk = [] →
          ∃ u : State, exec (.voteQueryAnswer port p) s = .next u.settle ∧ (u.step slot).state = 7)))

/-! ### Memory lines, the far tier, the checkpoint drain (12; 14 R470) -/

/-- A demand read delivers the line; a corrected line as corrected, and counted; a poisoned or uncorrectable line as a bus error,
counted, the latter recorded. A whole-line write replaces bytes and marking; a partial write merges, a line read poisoned or
uncorrectable staying poisoned (12 R382 to R388). -/
def Obligations.MemoryLinesAreReadAndWritten : Prop :=
  ∀ (s : State) (stack off : Nat) (errs : List (Nat × Nat)), s.wf = true → s.dieDown (stackDie stack) = false →
    (errs = [] → s.erasedPins stack (bits off 11 6) = [] →
      s.readLine stack off errs = (if s.mem.marked (lineNo stack off) then .poison else .clean)) ∧
    (s.readLine stack off errs = .clean → exec (.memRead none stack off errs) s = .next s ∧
      ∀ c, exec (.memRead (some c) stack off errs) s = .next { s with out := .busData c (leNat (s.lineBytes stack off)) :: s.out }) ∧
    (∀ c, s.readLine stack off errs = .poison → ∃ t : State, exec (.memRead (some c) stack off errs) s = .next t ∧
      t = { s with regs := t.regs, out := .busError c :: s.out } ∧ t.countedAt s .memPoisonCnt stack 0) ∧
    (∀ c, s.readLine stack off errs = .uncorrectable → ∃ t : State, exec (.memRead (some c) stack off errs) s = .next t ∧
      t = { s with regs := t.regs, err := t.err, out := t.out } ∧ t.out.head? = some (.busError c) ∧ t.countedAt s .memUeCnt stack 0 ∧
      t.recorded s (stackDie stack) 6 1) ∧
    (∀ c u, s.readLine stack off errs = .corrected u → ∃ t : State, exec (.memRead (some c) stack off errs) s = .next t ∧
      t = { s with regs := t.regs, err := t.err, out := t.out, mem := t.mem } ∧ t.countedAt s .memCeCnt stack 0 ∧
      t.out.head? = some (.busData c (leNat (t.lineBytes stack off))) ∧
      (u = errVec errs → t.lineBytes stack off = s.lineBytes stack off)) ∧
    (∀ (data : List Byte) (poisoned : Bool), data.length = 64 → ∃ t : State, exec (.memWrite stack off data poisoned) s = .next t ∧
      t = { s with mem := t.mem } ∧ t.lineBytes stack off = data ∧ t.mem.marked (lineNo stack off) = poisoned ∧
      (∀ p, p / 64 ≠ lineNo stack off → t.mem.byteAt p = s.mem.byteAt p ∧ t.mem.marked (p / 64) = s.mem.marked (p / 64))) ∧
    (∀ (data : List Byte) (poisoned : Bool), data.length ≤ 64 - off % 64 →
      (∀ u, s.readLine stack off errs = .corrected u → u = errVec errs) →
      ∃ t : State, exec (.memPartialWrite stack off data errs poisoned) s = .next t ∧
        t = { s with mem := t.mem, regs := t.regs, err := t.err, out := t.out } ∧
        (∀ i, i < data.length → t.mem.byteAt (placeHbm stack off + i) = data.getD i 0#8) ∧
        (∀ p, p < placeHbm stack off ∨ placeHbm stack off + data.length ≤ p → t.mem.byteAt p = s.mem.byteAt p) ∧
        (t.mem.marked (lineNo stack off) = true ↔
          poisoned = true ∨ s.readLine stack off errs = .poison ∨ s.readLine stack off errs = .uncorrectable))

/-- A patrol read takes the scrub one line on, back to 0 at the end of the stack, and leaves an uncorrectable line poisoned; it
does nothing while SCRUB_EN is 0. Training ends DONE, or FAILED with its reason and, with three bad pins in a pseudo-channel,
reason 0x21, and a failed training fails the boot stage of a start. A stack that accepts writes again marks its lines of expired
writes. MAP_LOCK locks the map; while a ply die is in reset it is refused (log entry 96) (12 R380, R386 to R392). -/
def Obligations.ScrubTrainingAndMarksAct : Prop :=
  ∀ (s : State) (stack : Nat), s.wf = true →
    (∀ errs, s.dieDown (stackDie stack) = false → bit (s.reg .memScrubCfg stack).toNat 31 = true →
      ∃ t : State, exec (.scrubRead stack errs) s = .next t ∧
        t = { s with mem := t.mem, prog := t.prog, regs := t.regs, err := t.err, out := t.out } ∧
        t.scrubAt stack = (if s.scrubAt stack + 1 = s.stackLines then 0 else s.scrubAt stack + 1) ∧
        (t.progress (progScrub stack)).state = 1 ∧ (t.progress (progScrub stack)).position = t.scrubAt stack ∧
        (s.readLine stack (s.scrubAt stack * 64) errs = .uncorrectable →
          t.mem.poisonAt (lineNo stack (s.scrubAt stack * 64)) = true ∧ t.countedAt s .memUeCnt stack 0)) ∧
    (∀ errs, bit (s.reg .memScrubCfg stack).toNat 31 = false → exec (.scrubRead stack errs) s = .next s) ∧
    (∀ (reason : Nat) (bad : List (Nat × Nat)), (s.progress (progTrain stack)).state = 1 →
      (reason = 0 → tooManyPins bad = false → ∃ t : State, exec (.hbmTrainingDone stack reason bad) s = .next t ∧
        t = { s with regs := t.regs, mem := t.mem, prog := t.prog, err := t.err, out := t.out } ∧ (t.progress (progTrain stack)).state = 2 ∧
        (t.progress (progTrain stack)).position = 64 ∧ tget dF t.mem.trained stack = true) ∧
      (∀ code, reason ≠ 0 ∨ tooManyPins bad = true → code = (if reason = 0 then 0x21 else reason) → ∃ t : State,
        exec (.hbmTrainingDone stack reason bad) s = .next (if s.starting = true ∧ s.boot.stage = 3 then t.startFails code else t) ∧
        t = { s with prog := t.prog, regs := t.regs, err := t.err, out := t.out, power := t.power } ∧ t.recorded s (stackDie stack) 6 3 ∧
        (t.progress (progTrain stack)).state = 3 ∧
        (t.progress (progTrain stack)).lastError = code)) ∧
    (∃ t : State, exec (.poisonMarkWrite stack) s = .next t ∧ t = { s with mem := t.mem } ∧ t.mem.bytes = s.mem.bytes ∧
      (∀ l, t.mem.marked l = s.mem.marked l) ∧ (∀ l ∈ s.mem.markDue, lineHolder l = stack → t.mem.poisonAt l = true ∧ l ∉ t.mem.markDue)) ∧
    (∀ ini, ((∀ d < 4, s.dieDown d = false) → exec (.mapLock ini) s = .next { s with mem := { s.mem with mapLocked := true } }) ∧
      (∀ d < 4, s.dieDown d = true → (∀ e < d, s.dieDown e = false) → exec (.mapLock ini) s = .next (s.refuse ini d 0x40008)))

/-- A far-tier read of a populated line delivers it, or a bus error when it is poisoned or its link is down; a write of a line
reaches the device, or is dropped and counted. A link going down is recorded and fails a drain in progress; 100 ms later a retrain
that ends at a legal width and rate brings it up. A device event is recorded (12 R394 to R398).
The checkpoint drain (12 R399 to R401): a list that passes its checks runs, waiting for DRAIN_AT where it is set and still to
come; one that does not fails; a drain that runs is not started again. At its end it is DONE, each line copied with its poison. -/
def Obligations.FarTierAnswersAndDrainsRun : Prop :=
  (∀ (s : State) (a c : Nat), s.wf = true → a % 64 = 0 → 2 ^ 42 ≤ a → a < 2 ^ 43 → (∀ i < 64, (s.place (a + i)).isSome = true) →
    (s.farDown a = true → ∀ p, exec (.farRead (some c) a p) s = .next { s with out := .busError c :: s.out }) ∧
    (s.farDown a = false → s.poisoned a = false →
      exec (.farRead (some c) a false) s = .next { s with out := .busData c (s.rd a 64) :: s.out }) ∧
    (∀ p, s.farDown a = false → s.poisoned a = true ∨ p = true → ∃ t : State, exec (.farRead (some c) a p) s = .next t ∧
      t = { s with regs := t.regs, err := t.err, out := t.out } ∧ t.out.head? = some (.busError c) ∧
      t.countedAt s .memFarPoisCnt 0 (s.farRoot a) ∧ t.recorded s 4 6 1) ∧
    (∀ (data : List Byte) (p : Bool), data.length = 64 → s.mapped a 64 = true →
      (s.farDown a = false → ∃ t : State, exec (.farWrite a data p) s = .next t ∧ t = { s with mem := t.mem } ∧ t.rdBytes a 64 = data ∧
        t.poisoned a = p ∧ ∀ b, b < a ∨ a + 64 ≤ b → t.rdByte b = s.rdByte b) ∧
      (s.farDown a = true → ∃ t : State, exec (.farWrite a data p) s = .next t ∧ t = { s with regs := t.regs } ∧
        t.countedAt s .memFarDropCnt 0 (s.farRoot a))) ∧
    (∀ root < 2,
      ((s.farPort root).up = true → ∃ t : State, exec (.farLinkDown root) s = .next t ∧ (t.farPort root).up = false ∧
        (t.farPort root).downCyc = s.cycle ∧ t.recorded s 4 6 1 ∧ t.mem.bytes = s.mem.bytes ∧ t.mem.poison = s.mem.poison ∧
        ((s.progress progDrain).state = 1 → (t.progress progDrain).state = 3 ∧ (t.progress progDrain).lastError = 0x0101)) ∧
      (∀ lanes gts, (s.farPort root).present = true → (s.farPort root).up = false → (s.farPort root).downCyc + cycOfMs 100 ≤ s.cycle →
        (farRateOk lanes gts = true → exec (.farLinkRetrain root lanes gts) s
          = .next (s.setFarPort root { s.farPort root with up := true, lanes := lanes, gts := gts })) ∧
        (farRateOk lanes gts = false → exec (.farLinkRetrain root lanes gts) s
          = .next (s.setFarPort root { s.farPort root with downCyc := s.cycle }))) ∧
      (∀ code off, ∃ t : State, exec (.farEvent root code off) s = .next t ∧ t = { s with regs := t.regs, err := t.err, out := t.out } ∧
        t.recorded s 4 6 0))) ∧
  (∀ (s : State), s.wf = true →
    (∀ (ini : Nat) (es : List (Nat × Nat × Nat)), (s.progress progDrain).busy = false → s.dv 0x6030 1 ≠ 0 →
      s.mapped (s.dv 0x6030 0) (32 * s.dv 0x6030 1) = true → es = (List.range (s.dv 0x6030 1)).map s.drainEntry →
      (s.drainOk es = true → ∃ t : State, exec (.drainStart ini) s = .next t ∧ (t.progress progDrain).state = 1 ∧
        (t.progress progDrain).total = (es.map fun e => e.2.2).sum ∧
        t = { s with prog := t.prog, mem := { s.mem with
          drainWaits := s.dv 0x6030 2 != 0 && decide (s.lay.now < s.dv 0x6030 2), drainList := es } }) ∧
      (s.drainOk es = false → ∃ t : State, exec (.drainStart ini) s = .next t ∧ t = { s with prog := t.prog } ∧
        (t.progress progDrain).state = 3 ∧ (t.progress progDrain).lastError = 0x000A)) ∧
    (∀ ini, (s.progress progDrain).busy = true → exec (.drainStart ini) s = .next s) ∧
    ((s.progress progDrain).state = 1 → s.mem.drainWaits = true → s.dv 0x6030 2 ≤ s.lay.now →
      exec .drainAtReached s = .next { s with mem := { s.mem with drainWaits := false } }) ∧
    ((s.progress progDrain).state = 1 → s.mem.drainWaits = false → ∃ u : State, exec .drainComplete s = .next u.settle ∧
      (u.progress progDrain).state = 2 ∧ (u.progress progDrain).position = (s.progress progDrain).total ∧ u.mem.drainList = [] ∧
      (∀ a b, s.mem.drainList = [(a, b, 64)] → a % 64 = 0 → b % 64 = 0 → (∀ i < 64, (s.place (b + i)).isSome = true) →
        s.farDown b = false → u.rdBytes b 64 = s.rdBytes a 64 ∧ u.poisoned b = s.poisoned a ∧
        ∀ d, d < b ∨ b + 64 ≤ d → u.rdByte d = s.rdByte d)))

/-! ### Ports, frames and packets (13 R406 to R423, R428, R440 to R442) -/

/-- Ports are enabled, retrained and come up: enabling one that was off, and a retrain of an enabled one, start a full bring-up;
disabling brings it DOWN; the lanes that lock make it UP with all eight and DEGRADED with fewer, its link begins afresh and HELLO goes
out, then what waits; a start that locks none in 100 ms is
repeated, and the third leaves the port FAILED; a lane that fails narrows it, or brings it DOWN when it was the last; a silent
neighbour is suspected (13 R408 to R410, R423). -/
def Obligations.PortsTrainNarrowAndFail : Prop :=
  ∀ (s : State) (ini mask port : Nat), s.wf = true → port < 18 →
    (∃ t : State, exec (.portEnable ini mask) s = .next t ∧ t.portEnabled port = bit mask port ∧
      (bit mask port = true → s.portEnabled port = false → t.portState port = 1 ∧ (t.port port).trainCyc = s.cycle) ∧
      (bit mask port = false → s.portEnabled port = true → t.portState port = 0) ∧
      (bit mask port = s.portEnabled port → t.portStat port = s.portStat port) ∧ t.mem = s.mem ∧ t.items = s.items ∧ t.cleats = s.cleats) ∧
    (∃ t : State, exec (.portRetrain ini mask) s = .next t ∧ t = { s with regs := t.regs, ports := t.ports } ∧
      (bit mask port = true → s.portEnabled port = true → t.portState port = 1 ∧ (t.port port).starts = 0) ∧
      (bit mask port = false ∨ s.portEnabled port = false → t.portStat port = s.portStat port)) ∧
    (∀ (lanes good : Nat) (seeds : Seeds) (credit : Vcs) (nbr : Hello), s.portState port = 1 → good = (BitVec.ofNat 8 lanes &&& ~~~BitVec.ofNat 8 (s.lanesOut port)).toNat →
      good ≠ 0 → s.dieDown (portDie port) = false →
      ∃ u : State, exec (.linkUp port lanes seeds credit nbr) s = .next (u.portSend port (s.helloPacket port nbr.id nbr.gen)) ∧
        u = { s with regs := u.regs, ports := u.ports } ∧
        u.portState port = (if good = 255 then 2 else 3) ∧ u.portGood port = good ∧ (u.port port).nbrGen = nbr.gen ∧
        (u.port port).rxSeq = 0 ∧ (u.port port).txSeq = 0 ∧ (u.port port).txLim = credit ∧ (u.port port).queue = (s.port port).queue ∧
        u.reg .fabPortNbr (portDie port) (portEl port) = BitVec.ofNat 32 (2 ^ 31 + nbr.port % 32 * 2 ^ 17 + nbr.id % 2 ^ 17)) ∧
    (s.portState port = 1 → (s.port port).trainCyc + cycOfMs 100 ≤ s.cycle →
      ((s.port port).starts < 2 → exec (.portTrainTimeout port) s
        = .next (s.setPort port { s.port port with starts := (s.port port).starts + 1, trainCyc := s.cycle })) ∧
      (2 ≤ (s.port port).starts → ∃ t : State, exec (.portTrainTimeout port) s = .next t ∧ t.portState port = 4 ∧
        t.recorded s (portDie port) 7 1 ∧ (t.port port).kept = [] ∧ t.mem = s.mem ∧ t.items = s.items)) ∧
    (∀ lane < 8, s.portUp port = true → bit (s.portGood port) lane = true → ∃ t : State, exec (.laneFail port lane) s = .next t ∧
      t.countedAt s .fabWidthCnt (portDie port) (portEl port) ∧
      (s.portGood port ≠ 2 ^ lane → t.portState port = 3 ∧ t.portGood port = s.portGood port - 2 ^ lane) ∧
      (s.portGood port = 2 ^ lane → t.portState port = 0)) ∧
    (∀ nbr, nbr = (s.reg .fabPortNbr (portDie port) (portEl port)).toNat → s.portUp port = true → bit nbr 31 = true →
      (s.port port).rxCyc + cycOfMs 1 ≤ s.cycle → exec (.neighbourSilent port) s
        = .next (s.reportSuspect (bits nbr 16 0) (s.port port).nbrGen 2)) ∧
    (∀ id pgen cause, s.liveSuspects = [] → ∃ e, (s.reportSuspect id pgen cause).suspects.head? = some e ∧ e.id = id ∧ e.pgen = pgen ∧
      e.at' = s.lay.now)

/-- A frame whose codewords and CRC are good and whose number is the next is taken; any other frame is refused; then the lanes that have
taken too many uncorrectable codewords leave. A frame taken is the last received, what it acknowledges is no longer kept, and the packets
its cells complete are delivered; with no other frame gone out, what came is acknowledged in one of its own. A frame refused is answered with NAK in a new
frame, and what was received last stays. A packet for elsewhere leaves on its route with one hop less, or is discarded and counted; a
report of a suspect to a manager's endpoint passes the filter first (13 R409, R411 to R417; 14 R490). -/
def Obligations.FramesAndTransitAreHandled : Prop :=
  ∀ (s : State) (port : Nat), s.wf = true → port < 18 →
    (∀ (f : Frame) (r : Port × List Byte × List (Nat × Option Nat)), s.portUp port = true →
      r = (s.port port).wordsIn (s.portLanes port) f.words → ∃ v : State, v = { s with regs := v.regs, ports := v.ports } ∧
        (v.port port).rxSeq = (s.port port).rxSeq ∧ (v.port port).kept = (s.port port).kept ∧ (v.port port).rxCyc = s.cycle ∧
        (∀ (h : LinkHdr) (cells : List (List Byte)), (∀ w ∈ r.2.2, w.2 ≠ none) → readFrame r.2.1 = some (h, cells) →
          h.seq = ((s.port port).rxSeq + 1) % 65536 → ∀ t : State, t = v.takeFrame port h cells →
          exec (.frameReceive port f) s = .next (t.dropLanes port (t.badLanes port) true)) ∧
        ((∃ w ∈ r.2.2, w.2 = none) ∨ readFrame r.2.1 = none ∨
            (∃ (h : LinkHdr) (cells : List (List Byte)), readFrame r.2.1 = some (h, cells) ∧ h.seq ≠ ((s.port port).rxSeq + 1) % 65536) →
          ∀ t : State, t = v.refuseFrame port → exec (.frameReceive port f) s = .next (t.dropLanes port (t.badLanes port) true))) ∧
    (∀ (h : LinkHdr) (cells : List (List Byte)), h.nak = false → h.retrain = false → ∃ u : State,
      u = { s with ports := u.ports, out := u.out } ∧ (u.port port).rxSeq = h.seq ∧ (u.port port).rxWait = false ∧
      ((s.port port).queue = [] →
        (u.port port).kept = (s.port port).kept.filter (fun k => !decide ((h.ack + 65536 - k.1) % 65536 < 32768))) ∧
      ∀ w : State, w = (takeCells (s.port port).rxBuf cells).1.foldl (fun s q => s.deliverPacket port q.1) u →
        s.takeFrame port h cells = w ∨ s.takeFrame port h cells = w.newFrame port false false []) ∧
    (∃ t : State, s.refuseFrame port = t ∧ (t.port port).rxSeq = (s.port port).rxSeq ∧ (t.port port).rxWait = true ∧
      (t.port port).txSeq = ((s.port port).txSeq + 1) % 65536 ∧
      t = { s with ports := t.ports, out := .frame port { words := ((s.port port).wordsOut (s.portLanes port) (frameBytes
        ⟨((s.port port).txSeq + 1) % 65536, (s.port port).rxSeq, true, false, (s.port port).grant⟩ [])).2 } :: s.out }) ∧
    (∀ p : Packet, p.dst ≠ s.pkgId → s.pkgId ≠ 0xFFFFFFFF →
      (knownKind p.kind = true → p.kind ≠ 0x13 ∨ p.dst < 0x10000 →
        (∀ q l, 1 < p.hops → s.routePorts (portDie port) p.dst = q :: l →
          exec (.packetForward port p) s = .next (s.portSend q { p with hops := p.hops - 1 })) ∧
        (1 < p.hops → s.routePorts (portDie port) p.dst = [] → exec (.packetForward port p) s = .next (s.routeDrop (portDie port)))) ∧
      (p.hops ≤ 1 ∨ knownKind p.kind = false → exec (.packetForward port p) s = .next (s.routeDrop (portDie port))) ∧
      (∀ (h : Nat) (r : State × Option Nat), 1 < p.hops → p.kind = 0x13 → 0x10000 ≤ p.dst → h = leNat ((p.body.drop 8).take 4) →
        r = s.filterSuspect (leNat (p.body.take 4)) (leNat ((p.body.drop 4).take 2)) (leNat ((p.body.drop 6).take 1)) h (h + 1) →
        (r.2 = none → exec (.packetForward port p) s = .next r.1) ∧
        (∀ n b, r.2 = some n →
          b = suspectBody (leNat (p.body.take 4)) (leNat ((p.body.drop 4).take 2)) (leNat ((p.body.drop 6).take 1)) n →
          exec (.packetForward port p) s = .next (r.1.sendFrom (portDie port) { p with hops := p.hops - 1, body := b })))) ∧
    (∀ (p : Packet) (row : Instr × Nat), row ∈ ([(.membership port p, 0x10), (.epochReply port p, 0x11), (.routeSet port p, 0x12),
        (.suspectReport port p, 0x13), (.voteQuery port p, 0x31), (.voteQueryAnswer port p, 0x31), (.put port p, 0x40),
        (.collData port ⟨p, false⟩, 0x41), (.collData port ⟨p, true⟩, 0x41), (.delivered port p, 0x50),
        (.cleatOp port p, 0x51), (.collReady port p, 0x52), (.collAbort port p, 0x53)] : List (Instr × Nat)) → p.kind = row.2 →
      (p.dst ≠ s.pkgId → exec row.1 s = .next (s.forward port p)) ∧
      (p.dst = s.pkgId → p.tgen ≠ s.pkgGen → exec row.1 s
        = .next ((s.bump .fabPgenDropCnt (portDie port) 0 1).flag .fabSts (portDie port) 0 1)))

/-- HELLO names the neighbour of its port. A MEMBERSHIP with the manager's tag and a newer epoch replaces the peer table; one without
the tag is discarded, one of another base or an older epoch is refused and answered with this package's epoch. A ROUTE_SET with the tag writes its entries
on every ply die. EPOCH_REPLY and SUSPECT_REPORT for this package are consumed (13 R416, R417, R421). -/
def Obligations.ControlPacketsTakeEffect : Prop :=
  ∀ (s : State) (port : Nat) (p : Packet), s.wf = true → port < 18 →
    (p.kind = 1 → ∃ t : State, exec (.hello port p) s = .next t ∧ t = { s with regs := t.regs, ports := t.ports, out := t.out } ∧
      t.reg .fabPortNbr (portDie port) (portEl port)
        = BitVec.ofNat 32 (2 ^ 31 + leNat ((p.body.drop 4).take 1) % 32 * 2 ^ 17 + leNat (p.body.take 4) % 2 ^ 17) ∧
      (t.port port).nbrGen = leNat ((p.body.drop 5).take 2) ∧ (t.port port).rxCyc = s.cycle) ∧
    (p.dst = s.pkgId → p.tgen = s.pkgGen →
      (p.kind = 0x11 → exec (.epochReply port p) s = .next s) ∧ (p.kind = 0x13 → exec (.suspectReport port p) s = .next s) ∧
      (p.kind = 0x10 → s.fmOk p = false → exec (.membership port p) s = .next (s.routeDrop (portDie port))) ∧
      (∀ base new full n, base = leNat (p.body.take 4) → new = leNat ((p.body.drop 4).take 4) →
        full = bit (leNat ((p.body.drop 8).take 1)) 0 → n = leNat ((p.body.drop 10).take 2) → p.kind = 0x10 → s.fmOk p = true →
        (s.peerEpoch < new → full = true ∨ base = s.peerEpoch → ∃ u : State, exec (.membership port p) s = .next u.settle ∧
          u.peerEpoch = new ∧ u.peers = peersAfter s.peers full new (memberChanges p.body n)) ∧
        (new ≤ s.peerEpoch ∨ (full = false ∧ base ≠ s.peerEpoch) → ∃ t : State, exec (.membership port p) s = .next t ∧
          t.peerEpoch = s.peerEpoch ∧ t.peers = s.peers ∧ (t.reg .fabSts (portDie port)).getLsbD 2 = true ∧ t.items = s.items)) ∧
      (p.kind = 0x12 → s.fmOk p = true → ∃ t : State, exec (.routeSet port p) s = .next t ∧ t = { s with regs := t.regs } ∧
        ∀ j i die, j < leNat ((p.body.drop 4).take 2) → i = leNat (p.body.take 4) + j → i < 65536 → die < 4 →
          bits (t.reg .fabRoute die (i / 2)).toNat (16 * (i % 2) + 15) (16 * (i % 2)) = leNat ((p.body.drop (8 + 2 * j)).take 2)))

/-- Data packets for this package. PUT writes its blocks and their scale line and is acknowledged; COLL_DATA reaches the running
collective it names, COLL_READY lets it send, COLL_ABORT ends it with PEER_LOST; DELIVERED ends the wait for its packet, or is a
stale reply; CLEAT_OP is applied and acknowledged; a packet not delivered in SEND_TIMEOUT_MS ends its item with PEER_LOST and
reports the peer (13 R418, R422 to R424, R428, R441, R442). -/
def Obligations.DataPacketsTakeEffect : Prop :=
  ∀ (s : State) (port : Nat) (p : Packet), s.wf = true → p.dst = s.pkgId → p.tgen = s.pkgGen →
    (p.kind = 0x40 → ∀ blks addr, leNat ((p.body.drop 8).take 8) = 2 ^ 64 - 1 → addr = leNat (p.body.take 8) →
      blks = unrawFrame false (fmtBits (leNat ((p.body.drop 26).take 1) % 16) *
        (if bit (leNat ((p.body.drop 26).take 1)) 4 then 32 else 16) / 8) (p.body.drop 32) →
      exec (.put port p) s = .next ((s.wrMarks addr (blks.flatMap (·.bytes))).ack p)) ∧
    (p.kind = 0x40 → ∀ blks addr line out first, line = leNat ((p.body.drop 8).take 8) → line ≠ 2 ^ 64 - 1 →
      addr = leNat (p.body.take 8) → out = leNat ((p.body.drop 16).take 8) → first = leNat ((p.body.drop 32).take 4) →
      blks = unrawFrame true (fmtBits (leNat ((p.body.drop 26).take 1) % 16) *
        (if bit (leNat ((p.body.drop 26).take 1)) 4 then 32 else 16) / 8) (p.body.drop 32) →
      exec (.put port p) s = .next (((s.wrMarks addr (blks.flatMap (·.bytes))).mergeLine
        { addr := line, outAddr := (if out = 0 then none else some out), tag := leNat ((p.body.drop 24).take 2), first := first / 56 * 56,
          total := leNat ((p.body.drop 28).take 4), blocks := (blks.zipIdx).map fun q => (first % 56 + q.2, q.1.byte, q.1.outs) }).ack p)) ∧
    (∀ (k : Nat) (c : Coll) (x : Item), s.collOf (leNat (p.body.take 4)) = some (k, c) → tget dItem s.items k = some x →
      x.stage = .running → p.src ∈ c.plan.members →
      (p.kind = 0x41 → ∀ residue, exec (.collData port ⟨p, residue⟩) s = .next (s.collReceive k x c p residue)) ∧
      (p.kind = 0x52 → ∀ w : State × Coll, w = s.flushColl k { c with ready := (leNat ((p.body.drop 4).take 1), c.plan.rankOf p.src) :: c.ready } →
        exec (.collReady port p) s = .next (w.1.collTry k w.2)) ∧
      (p.kind = 0x53 → x.isVote = false → exec (.collAbort port p) s = .next ((s.peerLost (k / 256) (k % 256) 3 p.src).settle))) ∧
    (p.kind = 0x52 → s.collOf (leNat (p.body.take 4)) = none → (∀ v ∈ s.votes, v.collId ≠ leNat (p.body.take 4)) →
      exec (.collReady port p) s
        = .next { s with earlyReady := (leNat (p.body.take 4), leNat ((p.body.drop 4).take 1), p.src) :: s.earlyReady }) ∧
    (p.kind = 0x50 → ∀ q, s.sends.find? (fun q => q.seq == leNat (p.body.take 8) && q.dst == p.src) = some q →
      (p.igen = s.gen 2 q.region → exec (.delivered port p) s = .next { s with sends := s.sends.filter fun r => r.seq != q.seq }) ∧
      (p.igen ≠ s.gen 2 q.region → exec (.delivered port p) s = .next (s.bump .errStaleCnt (regionDie q.region) 0 1))) ∧
    (p.kind = 0x51 → ∀ w d i, w = leNat (p.body.take 8) → d = sigDie w → i = sigIdx w → cleatExists d i = true → s.dieDown d = false →
      s.pathDown (portDie port) d false = false → bit (s.reg .cltCfg (cleatKey d i)).toNat 31 = false →
      ∃ u : State, exec (.cleatOp port p) s = .next (u.settle.ack p) ∧ u.cleatMoved s d i ∧
        (u.cleat d i).toNat = (if sigDec w then (s.cleat d i).toNat - sigAmount w else min ((s.cleat d i).toNat + sigAmount w) 0xFFFFFFFF)) ∧
    (∀ q, s.sends.find? (fun r => r.seq == q.seq) = some q → q.at' + cycOfMs (s.dv 0x5003 0) ≤ s.cycle →
      ∀ u : State, u = { s with sends := s.sends.filter fun r => r.seq != q.seq } →
        (q.kind = 0x51 → exec (.sendTimeout q.seq) s
          = .next ((u.bump .cltUndelCnt (regionDie q.region) 0 1).reportSuspect q.dst (s.peer q.dst).pgen 1)) ∧
        (∀ x, q.kind ≠ 0x51 → s.item q.region q.slot = some x → x.engine = 7 → (x.stage = .running ∨ x.stage = .finished) →
          ∃ v : State, v = (u.peerLost q.region q.slot 2 q.dst).settle ∧
            exec (.sendTimeout q.seq) s = .next (v.reportSuspect q.dst (v.peer q.dst).pgen 1)))

/-! ### Watchdogs, recovery, fences, error rings (14) -/

/-- A progress Telltale that expires ends its item with WATCHDOG, its record held, and begins the recovery of the smallest domain
that holds its units, whose generation advances. A Cleat wait that expires ends its item with WATCHDOG. A stalled credit retrains
its port, and a second one within a second takes it DOWN. Each limit of an item or a port is the one in force when its wait began
(14 R498). A memory request that expires is recorded, the line of a write marked. Die-to-die link errors are recorded (14 R462, R467 to R470). -/
def Obligations.WatchdogsEndWhatIsStuck : Prop :=
  ∀ s : State, s.wf = true →
    (∀ (region slot : Nat) (x : Item) (d : Dom), region < 16 → slot < 256 → s.item region slot = some x → s.frozen ⟨2, region⟩ = false →
      s.progressWatched region slot x = true → s.progressFrom x + cycOfMs (s.limitFor 0x2090 (s.progressFrom x)) ≤ s.cycle →
      d = smallestDom region (s.unitsOf region slot x) → s.dispose d = .begin →
      ∃ (t : State) (r : Recovery) (z : Item) (rec : Nat), exec (.wdProgressExpiry region slot) s = .next t ∧
        (t.fid (domFid d)).active = some r ∧ r.dom = d ∧ r.step = 3 ∧ t.gen d.level d.index = (s.gen d.level d.index + 1) % 65536 ∧
        t.item region slot = some z ∧ z.stage = .recordWaiting ∧ z.waiting = some (x.compRing, rec, true) ∧ recStatus rec = 0x09) ∧
    (∀ (region slot : Nat) (x : Item) (f : Nat), s.item region slot = some x → s.cleatWatched region slot x = some f →
      s.frozen ⟨2, region⟩ = false → f + cycOfMs (s.limitFor 0x2091 f) ≤ s.cycle →
      ∃ u : State, u.recorded s (regionDie region) 8 1 ∧ u = { s with err := u.err, regs := u.regs, out := u.out } ∧
        exec (.wdCleatExpiry region slot) s = .next (((u.mcBump 0x40A4 1 1).stopItem region slot x 0x09 false).settle)) ∧
    (∀ port vc, port < 18 → s.portUp port = true →
      (s.creditStalled port vc = false → exec (.wdCreditExpiry port vc) s = .next s) ∧
      (s.creditStalled port vc = true → recentExpiry (tget dExp s.creditExp port) s.cycle = false →
        ∃ u : State, exec (.wdCreditExpiry port vc) s = .next (u.linkRetrain port true) ∧
        u.recorded s (portDie port) 8 1 ∧ tget dExp u.creditExp port = some s.cycle ∧ (u.port port).kept = (s.port port).kept ∧
        u = { s with err := u.err, regs := u.regs, out := u.out, mc := u.mc, creditExp := u.creditExp, ports := u.ports } ∧
        (u.linkRetrain port true).portStat port = s.portStat port) ∧
      (s.creditStalled port vc = true → recentExpiry (tget dExp s.creditExp port) s.cycle = true →
        ∃ t : State, exec (.wdCreditExpiry port vc) s = .next t ∧ t.portState port = 0)) ∧
    (∀ stack line write, stack < 16 →
      (recentExpiry (tget dExp s.hbmExp stack) s.cycle = false → ∃ t : State, exec (.wdHbmExpiry stack line write) s = .next t ∧
        t.recorded s (stackDie stack) 8 1 ∧ tget dExp t.hbmExp stack = some s.cycle ∧
        (write = true → t.mem.marked (holderLine stack line) = true) ∧ (write = false → t.mem = s.mem) ∧ t.mem.bytes = s.mem.bytes ∧
        t = { s with err := t.err, regs := t.regs, out := t.out, mc := t.mc, mem := t.mem, hbmExp := t.hbmExp }) ∧
      (recentExpiry (tget dExp s.hbmExp stack) s.cycle = true → s.dispose ⟨3, stackDie stack⟩ = .begin →
        ∃ (t : State) (r : Recovery), exec (.wdHbmExpiry stack line write) s = .next t ∧ (t.fid 4).active = some r ∧
          r.dom = ⟨3, stackDie stack⟩)) ∧
    (∀ port line write, 16 ≤ port → port < 18 → ∃ t : State, exec (.wdHbmExpiry port line write) s = .next t ∧ t.recorded s 4 8 1 ∧
      (write = true → t.mem.marked (holderLine port line) = true) ∧ t.mem.bytes = s.mem.bytes) ∧
    (∀ die edge, die ≤ 4 → edge ≤ 2 →
      (∃ t : State, exec (.dieToDieLinkError die edge 3) s = .next t ∧ t.recorded s die 5 3) ∧
      (∀ kind, kind = 1 ∨ kind = 2 → (s.errDie die).correctedNow 5 (s.lay.now / 2 ^ 32) < 16 →
        ∃ t : State, exec (.dieToDieLinkError die edge kind) s = .next t ∧ t.recorded s die 5 0 ∧
          t = { s with err := t.err, regs := t.regs, out := t.out }))

/-- The SRAM sweep: one that is late is counted; a corrected word is recorded; an uncorrectable word of a buffer is recorded, its line poisoned
where the buffer is memory, a fetch block queued at it where it is a unit's local buffer, and is a fault of its owner; one of control
state recovers its owner. The management controller's restart ends its sessions and its firmware update; with a bad image it resets the package. ERR_CLEAR clears the overflow report alone. A
capture is acknowledged by its bit. A power-off is asked for on its pin (14 R458, R459, R463, R479, R495, R496). -/
def Obligations.SweepsClearsAndAcknowledgements : Prop :=
  ∀ s : State, s.wf = true →
    (∀ ev : SramEvent, ev.late = true → ev.die ≤ 4 →
      ∃ t : State, exec (.sramSweep ev) s = .next t ∧ t = { s with mc := t.mc } ∧
        t.mcv 0x40A7 ev.die = min (s.mcv 0x40A7 ev.die + 1) 0xFFFFFFFF) ∧
    (∀ ev : SramEvent, ev.late = false → ev.array < 7 →
      (ev.uncorrectable = false → (s.errDie (domDie (sramDom ev))).correctedNow 3 (s.lay.now / 2 ^ 32) < 16 →
        ∃ t : State, exec (.sramSweep ev) s = .next t ∧ t.recorded s (domDie (sramDom ev)) 3 0 ∧
          t = { s with err := t.err, regs := t.regs, out := t.out }) ∧
      (ev.uncorrectable = true → ev.array ≠ 6 → ∃ v : State, v.recorded s (domDie (sramDom ev)) 3 1 ∧
        v = { s with err := v.err, regs := v.regs, out := v.out } ∧
        ∀ w : State, (∀ l, sramLine ev = some l → w = { v with mem := v.mem.setPoison l true }) →
          (sramLine ev = none → w = (if ev.array = 0 then v.poisonQueued (sramDom ev).index else v)) →
          exec (.sramSweep ev) s
            = .next ((if (sramDom ev).level < 3 then w.noteFault (sramDom ev).level (sramDom ev).index else w).settle)) ∧
      (ev.uncorrectable = true → ev.array = 6 → s.dispose (sramDom ev) = .begin →
        ∃ (t : State) (r : Recovery), exec (.sramSweep ev) s = .next t ∧ (t.fid (domFid (sramDom ev))).active = some r ∧
          r.dom = sramDom ev)) ∧
    (∃ t : State, exec (.mcTelltaleExpiry true) s = .next t ∧ t.sessions = [] ∧ t.ownerSession = 0 ∧
      t.progress 0x7030 = (s.progress 0x7030).abort ∧
      t = { s with sessions := [], ownerSession := 0, mc := t.mc, err := t.err, regs := t.regs, out := t.out, prog := t.prog }) ∧
    (s.dispose ⟨4, 0⟩ = .begin → ∃ (t : State) (r : Recovery), exec (.mcTelltaleExpiry false) s = .next t ∧
      (t.fid 4).active = some r ∧ r.dom = ⟨4, 0⟩) ∧
    (∀ ini die value,
      (bit value 31 = true → ∃ t : State, exec (.errClear ini die value) s = .next t ∧ t = { s with err := t.err } ∧
        t.errDie die = { s.errDie die with overflow := false, lostSev := 0, firstLost := 0 } ∧ ∀ d, d ≠ die → t.errDie d = s.errDie d) ∧
      (bit value 31 = false → exec (.errClear ini die value) s = .next s)) ∧
    (∀ ini area mask, area < 5 → ∃ t : State, exec (.snarlAck ini area mask) s = .next t ∧ t = { s with snarl := t.snarl, mem := t.mem } ∧
      ∀ k < 17, t.snarlIn area k = (s.snarlIn area k).map fun x => if bit mask k then { x with acked := true } else x) ∧
    (∀ ini, exec (.powerOffRequest ini) s = .next { s with power := { s.power with offReq := true } })

/-- A reset that software asks for begins the domain's recovery: its generation advances and its Fid runs it. When its requests are
drained the domain is reset, its SRAM zero; when that is finished the recovery ends and its Fid is free; then the oldest queued
recovery starts. A level-4 request is a reset of the package, a level-5 request a cold boot (14 R472, R473, R476, R487).
FENCE_SET fences the units its mask names, those of a domain in recovery once that is over; FENCE_CLEAR lifts a fence and forgets
the unit's faults (14 R493, R494, R500). -/
def Obligations.RecoveriesRunTheirStepsAndFencesAct : Prop :=
  (∀ s : State, s.wf = true →
    (∀ ini level index, s.boot.power = true → s.boot.boardLow = false →
      (level < 4 → index < levelCount level → s.frozen ⟨level, index⟩ = false → s.dispose ⟨level, index⟩ = .begin →
        ∃ (t : State) (r : Recovery), exec (.resetRequest ini level index) s = .next t ∧
          (t.fid (domFid ⟨level, index⟩)).active = some r ∧ r.dom = ⟨level, index⟩ ∧ r.step = 3 ∧
          t.gen level index = (s.gen level index + 1) % 65536) ∧
      (level < 4 → levelCount level ≤ index ∨ s.frozen ⟨level, index⟩ = true → exec (.resetRequest ini level index) s = .next s) ∧
      (s.boot.bitter = false → ((s.fid 4).active.any fun r => r.dom.level == 4) = false →
        exec (.resetRequest ini 4 index) s = .next (s.notCounted.requestReset ⟨4, 0⟩)) ∧
      exec (.resetRequest ini 5 index) s = .next (s.notCounted.coldStart s.boot.straps)) ∧
    (∀ (fid : Nat) (r : Recovery), (s.fid fid).active = some r → r.step = 3 → r.dom.level < 4 →
      ∃ t : State, exec (.fidDrainDone fid) s = .next t ∧ (t.fid fid).active = some { r with step := 4, drained := true } ∧
        (r.dom.level ≠ 0 → ∀ p, sramOf r.dom p = true → t.mem.byteAt p = 0#8 ∧ t.mem.poisonAt (p / 64) = false) ∧
        (r.dom.level = 0 → t.mem = s.mem ∧ t.cleats = s.cleats)) ∧
    (∀ (fid : Nat) (bad : List Nat) (r : Recovery), (s.fid fid).active = some r → 4 ≤ r.step → r.dom.level < 3 →
      exec (.fidRecoveryDone fid bad) s = .next (s.endRecovery fid r) ∧ (s.unfenceDue = [] → ((s.endRecovery fid r).fid fid).active = none)) ∧
    (∀ (fid : Nat) (bad : List Nat) (r : Recovery), (s.fid fid).active = some r → 4 ≤ r.step → r.dom.level = 3 →
      (∀ k ∈ bad, 16 ≤ k ∨ stackDie k ≠ r.dom.index) → (∀ k < 4, (s.progress (progTrain (4 * r.dom.index + k))).state ≠ 1) →
      exec (.fidRecoveryDone fid bad) s = .next (s.endRecovery fid r)) ∧
    (∀ (fid : Nat) (r : Recovery) (rest : List Recovery), (s.fid fid).active = none → (s.fid fid).queue = r :: rest → fid = domFid r.dom →
      ((List.range 5).any fun f => (s.fid f).active.any fun a => domWithin r.dom a.dom) = false →
      ∃ (t : State) (q : Recovery), exec (.fidQueuedStart fid) s = .next t ∧ (t.fid fid).queue = rest ∧ (t.fid fid).active = some q ∧
        q.dom = r.dom ∧ q.step = 3)) ∧
  (∀ (s : State) (ini sub : Nat), s.wf = true →
    (∀ mask, ∃ u : State, exec (.fenceSet ini sub mask) s = .next u.settle ∧
      (∀ k ∈ maskUnits sub mask, s.frozen ⟨0, k⟩ = false → u.unitFenced k = true) ∧
      (∀ k ∈ maskUnits sub mask, s.frozen ⟨0, k⟩ = true → s.unitFenced k = false → (0, k) ∈ u.fenceDue) ∧
      (∀ k, k ∉ maskUnits sub mask → u.unitFenced k = s.unitFenced k) ∧ u.mem = s.mem ∧ u.items = s.items) ∧
    (∀ i, i < 64 → 64 * sub + i < 512 → s.unitFenced (64 * sub + i) = true →
      (s.frozen ⟨0, 64 * sub + i⟩ = false → ∃ u : State, exec (.fenceClear ini sub (2 ^ i)) s = .next u.settle ∧
        u.unitFenced (64 * sub + i) = false ∧ ∀ f ∈ u.faults, f.1 ≠ 0 ∨ f.2.1 ≠ 64 * sub + i) ∧
      (s.frozen ⟨0, 64 * sub + i⟩ = true → s.unfenceDue = [] → exec (.fenceClear ini sub (2 ^ i)) s
        = .next ({ s with unfenceDue := [64 * sub + i] }).settle)))

/-! ### Start-up, firmware, keys, debug, the context record (15) -/

/-- A cold boot leaves what fuses, the boot flash and the waiting commands hold, and starts stage 0: with the strap or after three
attempts in Bitter-end mode, else with one attempt more. A stage that ends without a reason gives way to the next, the last to
READY, where the attempts return to 0; a slot that fails verification gives way to the other once; another reason, or a stage that
overruns its limit, fails the start (15 R506 to R511). -/
def Obligations.StartsGoThroughTheirStages : Prop :=
  ∀ s : State, s.wf = true →
    (∀ straps, ∃ t : State, exec (.coldBoot straps) s = .next t ∧ t.boot.stage = 0 ∧ t.boot.straps = straps % 2 ^ 32 ∧ t.boot.power = true ∧
      t.boot.rollback = s.boot.rollback ∧ t.boot.ownerDigest = s.boot.ownerDigest ∧ t.boot.flash = s.boot.flash ∧ t.items = [] ∧
      t.mem.bytes = [] ∧ t.cleats = [] ∧ t.steps = [] ∧ t.sessions = [] ∧
      (bit straps 9 = true → t.boot.bitter = true ∧ t.boot.cause = 2) ∧
      (∀ r first, s.boot.current = some (r, first) → r.seq + 3 < 2 ^ 32 → bit straps 9 = false →
        (3 ≤ r.attempts → t.boot.bitter = true ∧ t.boot.cause = 1) ∧
        (r.attempts < 3 → t.boot.bitter = false ∧ t.boot.record.attempts = r.attempts + 1))) ∧
    (s.starting = true →
      (s.stageOver = true → s.boot.stage < 6 → ∃ t : State, exec (.bootStageDone 0) s = .next t ∧ t.boot.stage = s.boot.stage + 1 ∧
        t.boot.stageCyc = s.cycle ∧ t.boot.slot = s.boot.slot ∧ t.items = s.items) ∧
      (s.boot.stage = 6 → (s.fid 4).active = none → s.boot.record.seq + 1 < 2 ^ 32 →
        ∃ t : State, exec (.bootStageDone 0) s = .next t ∧ t.boot.stage = 7 ∧
          t.boot.warm = false ∧ t.boot.record.attempts = 0 ∧ t.boot.record.active = s.boot.slot ∧
          ∀ p < 18, t.portState p = (if s.portEnabled p then 1 else s.portState p)) ∧
      (s.stageOver = false → exec (.bootStageDone 0) s = .next s) ∧
      (∀ reason, reason ≠ 0 → reason ≤ 4 ∧ s.strapBoot = 0 ∧ s.boot.second = false → exec (.bootStageDone reason) s
        = .next { s with boot := { s.boot with slot := 1 - s.boot.slot, second := true, stage := 0, stageCyc := s.cycle } }) ∧
      (∀ reason, reason ≠ 0 → 4 < reason ∨ s.strapBoot ≠ 0 ∨ s.boot.second = true → exec (.bootStageDone reason) s
        = .next (s.startFails reason)) ∧
      (s.boot.stageCyc + cycOfMs (stageLimit s.boot.stage * 1000) ≤ s.cycle → exec .bootStageTimeout s = .next (s.startFails 5)) ∧
      (∀ bad : List Dom, s.boot.stage = 4 → (s.progress 0x7040).state = 1 →
        ((∀ d ∈ bad, d.level < 3 ∧ d.index < levelCount d.level) → s.frozenDoms = [] → ∃ t : State, exec (.selfTestDone bad) s = .next t ∧
          (t.progress 0x7040).state = 2 ∧ (∀ d ∈ bad, ∀ u ∈ domUnits d.level d.index, t.unitFenced u = true) ∧
          (∀ u, (∀ d ∈ bad, u ∉ domUnits d.level d.index) → t.unitFenced u = s.unitFenced u)) ∧
        ((∃ d ∈ bad, 3 ≤ d.level) → exec (.selfTestDone bad) s = .next ((s.endProgress 0x7040 3 0x30).startFails 0x30))))

/-- FW_DATA writes its 256 bytes at FW_OFFSET of the slot that is not ACTIVE, which is then not VERIFIED; FW_COMMIT starts its
verification, which ends VERIFIED or with the reason of the first image refused. ACTIVE_SLOT and BOOT_RECORD_CLEAR change the
boot-attempt record. ROLLBACK_COMMIT raises the counters to the running images' versions in READY alone; OWNER_DIGEST is fused once
(15 R504, R505, R511 to R513). -/
def Obligations.FirmwareRecordAndFusesChange : Prop :=
  ∀ (s : State) (ini : Nat), s.wf = true →
    (∀ data : List Byte, data.length = 256 →
      ((s.progress 0x7030).busy = false → s.dv 0x8050 0 < slotSize → ∃ t : State, exec (.fwData ini data) s = .next t ∧
        t = { s with boot := t.boot, prog := t.prog, image := t.image } ∧ t.boot.spare = s.boot.spare ∧
        (∀ i < 256, t.boot.slotByte s.boot.spare (s.dv 0x8050 0 + i) = data.getD i 0#8) ∧
        (t.boot.info s.boot.spare).verified = false ∧ t.dv 0x8050 0 = s.dv 0x8050 0 + 256) ∧
      ((s.progress 0x7030).busy = true ∨ slotSize ≤ s.dv 0x8050 0 → exec (.fwData ini data) s = .next s)) ∧
    ((s.progress 0x7030).busy = false → ∃ t : State, exec (.fwCommit ini) s = .next t ∧ t = { s with prog := t.prog } ∧
      (t.progress 0x7030).state = 1 ∧ (t.progress 0x7030).total = min (s.boot.bundleBytes s.boot.spare) slotSize) ∧
    ((s.progress 0x7030).busy = true → exec (.fwCommit ini) s = .next s) ∧
    ((s.progress 0x7030).state = 1 → ∃ t : State, exec .fwVerifyDone s = .next t ∧ t = { s with boot := t.boot, prog := t.prog } ∧
      (t.boot.info s.boot.spare).verified = (s.boot.slotReason s.boot.spare == 0) ∧
      (t.progress 0x7030).state = (if s.boot.slotReason s.boot.spare = 0 then 2 else 3) ∧
      (s.boot.slotReason s.boot.spare ≠ 0 → (t.progress 0x7030).lastError = s.boot.slotReason s.boot.spare)) ∧
    (s.boot.record.seq + 1 < 2 ^ 32 →
      (∀ v ≤ 1, ∃ t : State, exec (.activeSlot ini v) s = .next t ∧ t = { s with boot := t.boot } ∧ t.boot.record.active = v ∧
        t.boot.record.attempts = s.boot.record.attempts) ∧
      (∃ t : State, exec (.bootRecordClear ini) s = .next t ∧ t = { s with boot := t.boot } ∧ t.boot.record.attempts = 0 ∧
        t.boot.record.failed = [0, 0, 0] ∧ t.boot.record.active = s.boot.record.active)) ∧
    (s.boot.stage = 7 → s.held = false → ∃ t : State, exec (.rollbackCommit ini) s = .next t ∧ t = { s with boot := t.boot } ∧
      ∀ k < 4, t.boot.rollback.getD k 0 = max (s.boot.rollback.getD k 0) (min 64 (s.boot.imageSvn s.boot.slot k))) ∧
    (s.boot.stage ≠ 7 ∨ s.held = true → exec (.rollbackCommit ini) s = .next s) ∧
    (∀ data : List Byte, data.length = 32 →
      (s.boot.ownerDigest = none → exec (.ownerDigest ini data) s = .next { s with boot := { s.boot with ownerDigest := some data } }) ∧
      (∀ d, s.boot.ownerDigest = some d → exec (.ownerDigest ini data) s = .next s))

/-- KEY_SLOT and FM_KEY take a key and advance its VER. A nonce asks for an attestation report, which then stands at ATTEST_REPORT with
its signature. DEBUG_ENABLE with a good token and no debug level asks for a package warm reset, else it does nothing. A context save or restore
starts with every step slot FREE; a save ends with the record in memory, or FAILED where CTX_LEN is too short; a restore of an area that is not
there or is poisoned, or one that ends with a step slot open (log entry 109), fails and changes nothing else (15 R515, R516, R518, R520, R521). -/
def Obligations.KeysReportsTokensAndContexts : Prop :=
  ∀ (s : State) (ini : Nat), s.wf = true →
    (∀ (data : List Byte) (ver : Nat), data.length = 32 →
      (∀ sub < 8, ver = (match tget dN s.keys sub with | some k => k.ver + 1 | none => 1) % 2 ^ 32 →
        ∃ t : State, exec (.keySlot ini sub data) s = .next t ∧ t = { s with keys := t.keys } ∧ tget dN t.keys sub = some ⟨data, ver⟩ ∧
          ∀ k, k ≠ sub → tget dN t.keys k = tget dN s.keys k) ∧
      (ver = (match tget dN s.keys 8 with | some k => k.ver + 1 | none => 1) % 2 ^ 32 →
        ∃ t : State, exec (.fmKey ini data) s = .next t ∧ t = { s with keys := t.keys } ∧ tget dN t.keys 8 = some ⟨data, ver⟩) ∧
      exec (.attestNonce ini data) s = .next { s with boot := { s.boot with nonce := some data, nonceCyc := s.cycle } }) ∧
    (∀ n, s.boot.nonce = some n → ∃ t : State, exec .attestReportReady s = .next t ∧ t.boot.nonce = none ∧
      t.boot.report.take 256 = s.reportBody n ∧ t.boot.report.length = 3565 ∧ t = { s with boot := t.boot, freeCtr := s.freeCtr + 1 }) ∧
    (∀ (sub : Nat) (data : List Byte), sub < 14 → data.length = 256 → ∃ t : State, exec (.debugToken ini sub data) s = .next t ∧
      t = { s with boot := t.boot } ∧ tget (fun _ => []) t.boot.token sub = data ∧
      ∀ k, k ≠ sub → tget (fun _ => []) t.boot.token k = tget (fun _ => []) s.boot.token k) ∧
    (s.boot.debug ≠ 0 ∨ s.tokenGood = false → exec (.debugEnable ini) s = .next s) ∧
    (s.boot.debug = 0 → s.tokenGood = true → exec (.debugEnable ini) s
      = .next (({ s with boot := { s.boot with debugNext := (s.boot.tokenBytes.getD 40 0#8).toNat } }).resetRequest 4 0)) ∧
    (s.allFree = true → (s.progress 0x7020).busy = false → ∃ t : State, exec (.ctxSave ini) s = .next t ∧
      t = { s with boot := { s.boot with ctxAddr := s.dv 0x20A0 0, ctxLen := s.dv 0x20A0 1 }, prog := t.prog } ∧
      (t.progress 0x7020).state = 1 ∧ (t.progress 0x7020).total = s.ctxLength) ∧
    (s.allFree = true → (s.progress 0x7021).busy = false → ∃ t : State, exec (.ctxRestore ini) s = .next t ∧
      t = { s with boot := { s.boot with ctxAddr := s.dv 0x20A0 0, ctxLen := s.dv 0x20A0 1 }, prog := t.prog } ∧
      (t.progress 0x7021).state = 1 ∧ (t.progress 0x7021).total = s.rd (s.dv 0x20A0 0 + 8) 8) ∧
    (s.allFree = false → exec (.ctxSave ini) s = .next s ∧ exec (.ctxRestore ini) s = .next s) ∧
    ((s.progress 0x7020).state = 1 →
      (s.ctxLength ≤ s.boot.ctxLen → s.mapped s.boot.ctxAddr s.ctxLength = true → s.boot.ctxAddr + s.ctxLength ≤ 2 ^ 41 →
        ∃ t : State, exec .ctxSaveDone s = .next t ∧ t = { s with mem := t.mem, prog := t.prog, regs := t.regs } ∧ (t.progress 0x7020).state = 2 ∧
          ((∀ i < s.ctxRecord.length, (s.place (s.boot.ctxAddr + i)).isSome = true) → s.boot.ctxAddr + s.ctxRecord.length ≤ 2 ^ 41 →
            t.rdBytes s.boot.ctxAddr s.ctxRecord.length = s.ctxRecord)) ∧
      (s.boot.ctxLen < s.ctxLength → ∃ t : State, exec .ctxSaveDone s = .next t ∧ t = { s with prog := t.prog } ∧
        (t.progress 0x7020).state = 3 ∧ (t.progress 0x7020).lastError = 0x44)) ∧
    (∀ n, (s.progress 0x7021).state = 1 → n = s.rd (s.boot.ctxAddr + 8) 8 →
      (s.allFree = false → exec .ctxRestoreDone s = .next (s.endProgress 0x7021 3 8)) ∧
      (s.allFree = true → s.boot.ctxLen < n ∨ s.mapped s.boot.ctxAddr n = false ∨ s.poisonedIn s.boot.ctxAddr n = true →
        ∃ t : State, exec .ctxRestoreDone s = .next t ∧ t = { s with prog := t.prog } ∧ (t.progress 0x7021).state = 3 ∧
          (t.progress 0x7021).lastError = 9) ∧
      (∀ sec, s.allFree = true → n ≤ s.boot.ctxLen → s.mapped s.boot.ctxAddr n = true → s.boot.ctxAddr + n ≤ 2 ^ 41 → s.poisonedIn s.boot.ctxAddr n = false →
        sec = ctxTable (s.rdBytes s.boot.ctxAddr n) → ctxGood (s.rdBytes s.boot.ctxAddr n) s.boot.ctxLen = true →
        ctxSec sec 2 = none → ctxSec sec 5 = none → ∃ t : State, exec .ctxRestoreDone s = .next t ∧ (t.progress 0x7021).state = 2 ∧
          (∀ l, ctxSec sec 6 = some l → t.lastOpen = leNat (l.take 8)) ∧ t.trk = s.trk))

/-! ### Power, temperatures, ageing, pins and the sideband (16; 17) -/

/-- One interval of the governor: above the fast-trip value every region goes to point 0, counted, until 100 µs have passed; else no
region stands above its cap. While the dies are held only the rails are measured. A critical temperature of 100 ms asks for the
power-off; a stack's reading is taken, its refresh rate doubled above 85 °C (16 R526 to R528, R533 to R535). -/
def Obligations.TheGovernorCapsAndTrips : Prop :=
  ∀ s : State, s.wf = true → s.boot.power = true → s.boot.boardLow = false →
    (∀ m : PowerSample, s.boot.bitter = false → ∃ t : State, exec (.governorTick m) s = .next t ∧
      (∀ n < 13, t.power.railMv.getD n 0 = m.railMv.getD n 0 % 65536 ∧ t.power.railCurrent.getD n 0 = m.railCurrent.getD n 0 % 65536) ∧
      (s.fastTrip * 1000 < t.railsMw 0 ∨ t.railTrip = true → t.power.tripCyc = some s.cycle ∧ t.power.ballast = 0 ∧
        t.countedAt s .pwrTripCnt 4 0 ∧ ∀ r < 16, (t.rpwr r).point = 0) ∧
      (t.railsMw 0 ≤ s.fastTrip * 1000 → t.railTrip = false → s.power.tripCyc = none →
        t.power.tripCyc = none ∧ ∀ r < 16, (t.rpwr r).point ≤ t.capOf r) ∧
      t.mem = s.mem ∧ t.items = s.items ∧ t.cleats = s.cleats) ∧
    (∀ m : PowerSample, s.boot.bitter = true → exec (.governorTick m) s = .next (s.measureRails m)) ∧
    (∀ c, s.power.tripCyc = some c → c + cycOfUs 100 ≤ s.cycle →
      exec .fastTripEnd s = .next { s with power := { s.power with tripCyc := none } }) ∧
    exec .thermalTrip s = .next { s with power := { s.power with tripPin := true } } ∧
    (∀ k c, s.boot.bitter = false → (s.spwr k).critCyc = some c → c + cycOfMs 100 ≤ s.cycle →
      ∃ t : State, exec (.critTempTimeout true k) s = .next t ∧ t.power.offReq = true ∧ t.recorded s 4 12 3) ∧
    (∀ r, s.boot.bitter = false → 10000 ≤ (s.rpwr r).crit →
      ∃ t : State, exec (.critTempTimeout false r) s = .next t ∧ t.power.offReq = true ∧ t.recorded s 4 12 3) ∧
    (∀ temps, s.boot.bitter = false → ∃ t : State, exec (.hbmTempSample temps) s = .next t ∧
      (∀ k < 16, ∀ d, goodAt temps k = some d → (t.spwr k).temp = d ∧ (t.spwr k).refresh = decide (1360 < d) ∧
        (d ≤ 1680 → (t.spwr k).critCyc = none)) ∧ t.mem = s.mem ∧ t.items = s.items)

/-- A ramp entry whose AT has passed starts alone, its TARGET the ramp in progress, or, its Cleat below the threshold, is HELD and
counted; a write of an entry is refused while its ramp is in progress. The power class is at most the strapped one, and the floor
never stands above its limit (16 R525, R530, R531). -/
def Obligations.RampsStartOrAreHeld : Prop :=
  ∀ (s : State) (ini e : Nat), s.wf = true → e < 16 →
    (s.held = false → (List.range 16).filter (fun k => s.rampDue k && s.rampHeldMet k) = [e] →
      ∃ t : State, exec (.rampAtReached e) s = .next t ∧ t.power.active = some e ∧
        (∀ o, s.power.active = some o → o < 16 → (t.reg .pwrRamp 4 (8 * o + 5)).getLsbD 4 = true) ∧
        t = { s with power := t.power, regs := t.regs, err := t.err, out := t.out }) ∧
    (s.held = false → s.rampDue e = true → s.rampHeldMet e = false → bit (s.rampFlags e) 2 = false →
      ∃ t : State, exec (.rampAtReached e) s = .next t ∧ (t.reg .pwrRamp 4 (8 * e + 5)).getLsbD 2 = true ∧
        t.countedAt s .pwrHeldCnt 4 0) ∧
    (∀ v, s.rngOk .rampEntry v = true →
      (s.power.active = some e → exec (.rampEntryWrite ini e v) s = .next (s.refuse ini 4 (0x20100 + 0x20 * e))) ∧
      (s.power.active ≠ some e → ∃ t : State, exec (.rampEntryWrite ini e v) s = .next t ∧
        (∀ i < 8, i ≠ 5 → t.reg .pwrRamp 4 (8 * e + i) = BitVec.ofNat 32 (fld (rampClean v) (4 * i) 4)) ∧
        t.mem = s.mem ∧ t.cleats = s.cleats ∧ t.items = s.items)) ∧
    (∀ v < 8, ∃ t : State, exec (.powerClass ini v) s = .next t ∧ t.powerClass = min v s.strapClass ∧
      t.power.floor = min s.power.floor (t.pLimit * 100) ∧ t = { s with power := t.power, regs := t.regs, image := t.image })

/-- An ageing sampling stores every monitor's delay and degradation and adds a sample to every unit's sums. Pieces of an ageing
state are kept until all 25 are there, and then restore it when they are of this part. A rail out of range is recorded, alerts and
asks for the power-off. PWR_GOOD falling and BRD_RST_N low reset everything but what fuses and the boot flash hold; BRD_RST_N
rising is then a cold boot. The sideband answers while the management controller runs (16 R536, R540; 17 R550, R557 to R559). -/
def Obligations.AgeingRailsResetsAndTheSideband : Prop :=
  ∀ s : State, s.wf = true →
    (∀ delays, s.held = false → ∃ u : State, exec (.ageSample delays) s = .next u.settle ∧
      (∀ m < 2048, u.monitor m = (degradation (delays.getD m 0 % 65536)
        (freshDelay m (s.volt (unitRegion (m / 4)) (s.rpwr (unitRegion (m / 4))).point)), delays.getD m 0 % 65536)) ∧
      (∀ k < 512, (u.age k).count = min 65535 ((s.age k).count + 1)) ∧ u.mem = s.mem ∧ u.cleats = s.cleats) ∧
    (∀ (ini sub : Nat) (data : List Byte) (tab : Sparse (List Byte)) (l : List Byte), sub < 25 →
      tab = tset (fun _ => []) s.power.ageIn sub (fitBytes (agePieceLen sub) data) →
      l = (List.range 25).flatMap (fun k => tget (fun _ => []) tab k) →
      (l.length ≠ 6160 → exec (.ageState ini sub data) s = .next { s with power := { s.power with ageIn := tab } }) ∧
      (l.length = 6160 → Config.ageSerial l ≠ Config.serial → exec (.ageState ini sub data) s = .next s) ∧
      (l.length = 6160 → Config.ageSerial l = Config.serial → ∃ t : State, exec (.ageState ini sub data) s = .next t ∧
        t.power.ageHours = leNat (l.take 4) ∧ t.power.ageIn = [] ∧ t = { s with power := t.power } ∧
        ∀ u < 512, (t.age u).s1 = leNat ((l.drop (16 + 12 * u)).take 4) ∧ (t.age u).count = leNat ((l.drop (26 + 12 * u)).take 2))) ∧
    (∀ rail < 13, s.boot.power = true → s.boot.boardLow = false → s.starting = false ∨ s.boot.warm = true →
      ∃ t : State, exec (.railRangeFault rail) s = .next t ∧ t.power.offReq = true ∧ bit t.power.alert 3 = true ∧ t.recorded s 4 12 3) ∧
    (∃ t : State, exec .pwrGoodFall s = .next t ∧ t.boot.power = false ∧ t.power.offReq = false ∧ t.power.tripPin = false ∧
      t.boot.rollback = s.boot.rollback ∧ t.boot.flash = s.boot.flash ∧ t.items = [] ∧ t.mem.bytes = []) ∧
    (s.boot.power = true → s.boot.boardLow = false → ∃ t : State, exec .brdRstNLow s = .next t ∧ t.boot.boardLow = true ∧
      t.power.offReq = s.power.offReq ∧ t.boot.rollback = s.boot.rollback ∧ t.boot.flash = s.boot.flash ∧ t.items = [] ∧ t.mem.bytes = []) ∧
    (∀ straps, s.boot.power = true → s.boot.boardLow = true → exec (.brdRstNRise straps) s = exec (.coldBoot straps) s) ∧
    (s.mcUp = true →
      (∀ a < 128, exec (.i3cDynamicAddress a) s = .next { s with power := { s.power with i3cAddr := some a } }) ∧
      (∀ off len, off < 256 → exec (.i3cRead off len) s
        = .next { s with out := .i3c ((List.range len).map fun i => s.sidebandByte (off + i)) :: s.out }) ∧
      (∀ b : Byte, (∃ t : State, exec (.i3cWrite 0x14 [b]) s = .next t ∧ t = { s with power := { s.power with alert := t.power.alert } } ∧
          ∀ k < 6, bit t.power.alert k = (bit s.power.alert k && !b.getLsbD k)) ∧
        exec (.i3cWrite 0x18 [b]) s = .next { s with power := { s.power with alertMask := b.toNat % 64 } })) ∧
    (s.mcUp = false → ∀ off len data a, exec (.i3cRead off len) s = .next s ∧ exec (.i3cWrite off data) s = .next s ∧
      exec (.i3cDynamicAddress a) s = .next s)
end

