-- ==== Sys2Proof/Laws/Agrex.lean ====
section
/-! SUPPORT. Lengths of digests and tags (02 R42, R45). -/

namespace Sys2Proof.Machine

theorem leBytes_length (n v : Nat) : (leBytes n v).length = n := by
  induction n generalizing v with
  | zero => rfl
  | succ n ih => simp [leBytes, ih]

/-- A digest is 32 bytes. -/
theorem sha3_length (m : List Byte) : (sha3 m).length = 32 := by
  simp [sha3, sponge, keccakSqueeze, tabulate, List.length_flatten, leBytes_length, Function.comp_def]

/-- A tag is 16 bytes. -/
theorem agTag_length (k m : List Byte) : (agTag k m).length = 16 := by simp [agTag, sha3_length]

end Sys2Proof.Machine
end

