-- ==== Sys2Proof/Laws/Tables.lean ====
section
/-! SUPPORT. The laws of the sparse tables: reading after writing, and the canonical form kept by every write. -/

namespace Sys2Proof.Machine

variable {α : Type} {d : Nat → α}



/-! ### Reading after writing -/

theorem tget_tput_same (m : Sparse α) (k : Nat) (v : α) : tget d (tput m k v) k = v := by
  induction m with
  | nil => simp [tput, tget]
  | cons e m ih =>
    obtain ⟨j, w⟩ := e
    simp only [tput]
    split
    · next h => simp [tget, h]
    · split
      · simp [tget]
      · next h1 h2 => simp [tget, h1, h2, ih]

theorem tget_tput_ne (m : Sparse α) {k i : Nat} (v : α) (h : i ≠ k) : tget d (tput m k v) i = tget d m i := by
  induction m with
  | nil => simp [tput, tget, h]
  | cons e m ih =>
    obtain ⟨j, w⟩ := e
    simp only [tput]
    split
    · next hk => subst hk; simp [tget, h]
    · split
      · next h1 h2 =>
        simp only [tget, h, if_false]
        split
        · next hik =>
          have : i ≠ j := by omega
          have : i < j := by omega
          simp [*]
        · rfl
      · simp only [tget, ih]

variable [DecidableEq α]

/-- A tail is canonical above a lower bound too. -/
theorem twfFrom_mono {m : Sparse α} {a b : Nat} (h : twfFrom d (some b) m = true) (hab : a ≤ b) :
    twfFrom d (some a) m = true := by
  cases m with
  | nil => rfl
  | cons e m =>
    obtain ⟨k, v⟩ := e
    simp only [twfFrom, Bool.and_eq_true, decide_eq_true_eq] at h ⊢
    exact ⟨⟨by omega, h.1.2⟩, h.2⟩

theorem twf_of_twfFrom {m : Sparse α} {a : Nat} (h : twfFrom d (some a) m = true) : twf d m = true := by
  cases m with
  | nil => rfl
  | cons e m =>
    obtain ⟨k, v⟩ := e
    simp only [twf, twfFrom, Bool.and_eq_true, decide_eq_true_eq] at h ⊢
    exact ⟨⟨trivial, h.1.2⟩, h.2⟩

/-- A key at or below a bound of a canonical table reads as its default. -/
theorem tget_below {m : Sparse α} {b k : Nat} (h : twfFrom d (some b) m = true) (hk : k ≤ b) : tget d m k = d k := by
  cases m with
  | nil => rfl
  | cons e m =>
    obtain ⟨j, v⟩ := e
    simp only [twfFrom, Bool.and_eq_true, decide_eq_true_eq] at h
    have h1 : k ≠ j := by omega
    have h2 : k < j := by omega
    simp [tget, h1, h2]

theorem tget_tdel_same {m : Sparse α} {lo : Option Nat} (hm : twfFrom d lo m = true) (k : Nat) :
    tget d (tdel m k) k = d k := by
  induction m generalizing lo with
  | nil => rfl
  | cons e m ih =>
    obtain ⟨j, w⟩ := e
    simp only [twfFrom, Bool.and_eq_true] at hm
    simp only [tdel]
    split
    · next h => subst h; exact tget_below hm.2 (Nat.le_refl _)
    · split
      · next h1 h2 => simp [tget, h1, h2]
      · next h1 h2 => simp [tget, h1, h2, ih hm.2]

theorem tget_tdel_ne {m : Sparse α} {lo : Option Nat} (hm : twfFrom d lo m = true) {k i : Nat} (h : i ≠ k) :
    tget d (tdel m k) i = tget d m i := by
  induction m generalizing lo with
  | nil => rfl
  | cons e m ih =>
    obtain ⟨j, w⟩ := e
    simp only [twfFrom, Bool.and_eq_true] at hm
    simp only [tdel]
    split
    · next hk =>
      subst hk
      simp only [tget, h, if_false]
      split
      · next hlt => exact tget_below hm.2 (by omega)
      · rfl
    · split
      · rfl
      · simp only [tget, ih hm.2]

/-- The value just written. -/
theorem tget_tset_same {m : Sparse α} (hm : twf d m = true) (k : Nat) (v : α) : tget d (tset d m k v) k = v := by
  unfold tset
  split
  · next h => rw [tget_tdel_same hm, h]
  · exact tget_tput_same m k v

/-- A write leaves every other key alone. -/
theorem tget_tset_ne {m : Sparse α} (hm : twf d m = true) {k i : Nat} (v : α) (h : i ≠ k) :
    tget d (tset d m k v) i = tget d m i := by
  unfold tset
  split
  · exact tget_tdel_ne hm h
  · exact tget_tput_ne m v h

/-! ### Every write keeps the canonical form -/

theorem twfFrom_tdel {m : Sparse α} {lo : Option Nat} (hm : twfFrom d lo m = true) (k : Nat) :
    twfFrom d lo (tdel m k) = true := by
  induction m generalizing lo with
  | nil => rfl
  | cons e m ih =>
    obtain ⟨j, w⟩ := e
    have hc := hm
    simp only [twfFrom, Bool.and_eq_true] at hm
    simp only [tdel]
    split
    · cases lo with
      | none => exact twf_of_twfFrom hm.2
      | some b =>
        simp only [decide_eq_true_eq] at hm
        exact twfFrom_mono hm.2 (by omega)
    · split
      · exact hc
      · simp only [twfFrom, Bool.and_eq_true]
        exact ⟨hm.1, ih hm.2⟩

theorem twfFrom_tput {m : Sparse α} {lo : Option Nat} (hm : twfFrom d lo m = true) (k : Nat) (v : α) (hv : v ≠ d k)
    (hlo : ∀ b, lo = some b → b < k) : twfFrom d lo (tput m k v) = true := by
  induction m generalizing lo with
  | nil =>
    cases lo with
    | none => simp [tput, twfFrom, hv]
    | some b => simp [tput, twfFrom, hv, hlo b rfl]
  | cons e m ih =>
    obtain ⟨j, w⟩ := e
    have hc := hm
    simp only [twfFrom, Bool.and_eq_true] at hm
    simp only [tput]
    split
    · next h =>
      subst h
      simp only [twfFrom, Bool.and_eq_true]
      exact ⟨⟨hm.1.1, by simpa using hv⟩, hm.2⟩
    · split
      · next h1 h2 =>
        have h3 : w ≠ d j := by simpa using hm.1.2
        have h4 : k < j := by omega
        cases lo with
        | none => simp [twfFrom, hv, h3, h4, hm.2]
        | some b => simp [twfFrom, hv, h3, h4, hm.2, hlo b rfl]
      · next h1 h2 =>
        simp only [twfFrom, Bool.and_eq_true]
        refine ⟨hm.1, ih hm.2 ?_⟩
        intro b hb
        cases hb
        omega

/-- A write keeps the canonical form. -/
theorem twf_tset {m : Sparse α} (hm : twf d m = true) (k : Nat) (v : α) : twf d (tset d m k v) = true := by
  unfold tset
  split
  · exact twfFrom_tdel hm k
  · next h => exact twfFrom_tput hm k v h (by simp)

theorem twfFrom_tkeep {m : Sparse α} {lo : Option Nat} (hm : twfFrom d lo m = true) (p : Nat → Bool) :
    twfFrom d lo (tkeep p m) = true := by
  induction m generalizing lo with
  | nil => rfl
  | cons e m ih =>
    obtain ⟨j, w⟩ := e
    simp only [twfFrom, Bool.and_eq_true] at hm
    unfold tkeep at ih ⊢
    simp only [List.filter]
    split
    · simp only [twfFrom, Bool.and_eq_true]
      exact ⟨hm.1, ih hm.2⟩
    · have h := ih hm.2
      cases lo with
      | none => exact twf_of_twfFrom h
      | some b =>
        simp only [decide_eq_true_eq] at hm
        exact twfFrom_mono h (by omega)

/-- Dropping entries keeps the canonical form. -/
theorem twf_tkeep {m : Sparse α} (hm : twf d m = true) (p : Nat → Bool) : twf d (tkeep p m) = true :=
  twfFrom_tkeep hm p

end Sys2Proof.Machine
end

