-- ==== Sys2Proof/Laws/Memory.lean ====
section
/-! SUPPORT. The laws of memory: reading after writing, what a write leaves alone, and the canonical form kept by every
operation on memory. -/

namespace Sys2Proof.Machine

theorem Mem.wf_iff (m : Mem) : m.wf = true ↔ twf dB m.bytes = true ∧ twf dF m.poison = true ∧ twf dF m.trained = true ∧
    twf dF m.selfRef = true ∧ twf dLines m.pinLines = true ∧ twf dF m.pinDone = true ∧ twf d0 m.scrubPos = true ∧ twf dCe m.ceSec = true := by
  simp only [Mem.wf, Bool.and_eq_true]; tauto

/-! ### One byte, one marking -/

@[simp] theorem Mem.setByte_poison (m : Mem) (p : Nat) (b : Byte) : (m.setByte p b).poison = m.poison := rfl
@[simp] theorem Mem.setByte_markDue (m : Mem) (p : Nat) (b : Byte) : (m.setByte p b).markDue = m.markDue := rfl
@[simp] theorem Mem.setPoison_bytes (m : Mem) (l : Nat) (b : Bool) : (m.setPoison l b).bytes = m.bytes := rfl
@[simp] theorem Mem.setPoison_markDue (m : Mem) (l : Nat) (b : Bool) : (m.setPoison l b).markDue = m.markDue := rfl

theorem Mem.setByte_wf {m : Mem} (h : m.wf = true) (p : Nat) (b : Byte) : (m.setByte p b).wf = true := by
  rw [Mem.wf_iff] at h ⊢
  exact ⟨twf_tset h.1 p b, h.2⟩

theorem Mem.setPoison_wf {m : Mem} (h : m.wf = true) (l : Nat) (b : Bool) : (m.setPoison l b).wf = true := by
  rw [Mem.wf_iff] at h ⊢
  exact ⟨h.1, twf_tset h.2.1 l b, h.2.2⟩

/-- The byte written is read. -/
theorem Mem.byteAt_setByte_same {m : Mem} (h : m.wf = true) (p : Nat) (b : Byte) : (m.setByte p b).byteAt p = b :=
  tget_tset_same ((Mem.wf_iff m).mp h).1 p b

/-- A write of a byte leaves every other byte alone. -/
theorem Mem.byteAt_setByte_ne {m : Mem} (h : m.wf = true) {p q : Nat} (b : Byte) (hq : q ≠ p) :
    (m.setByte p b).byteAt q = m.byteAt q :=
  tget_tset_ne ((Mem.wf_iff m).mp h).1 b hq

theorem Mem.poisonAt_setPoison_same {m : Mem} (h : m.wf = true) (l : Nat) (b : Bool) : (m.setPoison l b).poisonAt l = b :=
  tget_tset_same ((Mem.wf_iff m).mp h).2.1 l b

theorem Mem.poisonAt_setPoison_ne {m : Mem} (h : m.wf = true) {l k : Nat} (b : Bool) (hk : k ≠ l) :
    (m.setPoison l b).poisonAt k = m.poisonAt k :=
  tget_tset_ne ((Mem.wf_iff m).mp h).2.1 b hk

@[simp] theorem Mem.byteAt_setPoison (m : Mem) (l p : Nat) (b : Bool) : (m.setPoison l b).byteAt p = m.byteAt p := rfl

/-! ### A run of bytes -/

theorem Mem.setBytes_wf {m : Mem} (h : m.wf = true) (p : Nat) (bs : List Byte) : (m.setBytes p bs).wf = true := by
  induction bs generalizing m p with
  | nil => exact h
  | cons b bs ih => exact ih (Mem.setByte_wf h p b) (p + 1)

theorem Mem.setBytes_poison (m : Mem) (p : Nat) (bs : List Byte) : (m.setBytes p bs).poison = m.poison := by
  induction bs generalizing m p with
  | nil => rfl
  | cons b bs ih => exact ih (m.setByte p b) (p + 1)

theorem Mem.setBytes_markDue (m : Mem) (p : Nat) (bs : List Byte) : (m.setBytes p bs).markDue = m.markDue := by
  induction bs generalizing m p with
  | nil => rfl
  | cons b bs ih => exact ih (m.setByte p b) (p + 1)

/-- A write of a run leaves every byte outside the run alone. -/
theorem Mem.byteAt_setBytes_outside {m : Mem} (h : m.wf = true) (p : Nat) (bs : List Byte) {q : Nat}
    (hq : q < p ∨ p + bs.length ≤ q) : (m.setBytes p bs).byteAt q = m.byteAt q := by
  induction bs generalizing m p with
  | nil => rfl
  | cons b bs ih =>
    simp only [List.length_cons] at hq
    rw [Mem.setBytes, ih (Mem.setByte_wf h p b) (p + 1) (by omega), Mem.byteAt_setByte_ne h b (by omega)]

/-- The bytes of the run are read back. -/
theorem Mem.byteAt_setBytes {m : Mem} (h : m.wf = true) (p : Nat) (bs : List Byte) {i : Nat} (hi : i < bs.length) :
    (m.setBytes p bs).byteAt (p + i) = bs.getD i 0#8 := by
  induction bs generalizing m p i with
  | nil => simp at hi
  | cons b bs ih =>
    rw [Mem.setBytes]
    cases i with
    | zero =>
      rw [Mem.byteAt_setBytes_outside (Mem.setByte_wf h p b) (p + 1) bs (by omega)]
      exact Mem.byteAt_setByte_same h p b
    | succ i =>
      have := ih (Mem.setByte_wf h p b) (p + 1) (i := i) (by simpa using hi)
      rw [show p + (i + 1) = p + 1 + i by omega, this]
      rfl

/-! ### A line, and the state's own write -/

theorem Mem.writeLine_wf {m : Mem} (h : m.wf = true) (p : Nat) (bs : List Byte) (bad : Bool) : (m.writeLine p bs bad).wf = true := by
  have := Mem.setPoison_wf (Mem.setBytes_wf h p bs) (p / 64) (bad || (bs.length != 64 && m.marked (p / 64)))
  rw [Mem.wf_iff] at this ⊢
  exact this

/-- What a write of one line does to bytes. -/
theorem Mem.byteAt_writeLine {m : Mem} (p : Nat) (bs : List Byte) (bad : Bool) (q : Nat) :
    (m.writeLine p bs bad).byteAt q = (m.setBytes p bs).byteAt q := rfl

/-- A write of one line leaves the marking of every other line alone. -/
theorem Mem.poisonAt_writeLine_ne {m : Mem} (h : m.wf = true) (p : Nat) (bs : List Byte) (bad : Bool) {l : Nat}
    (hl : l ≠ p / 64) : (m.writeLine p bs bad).poisonAt l = m.poisonAt l := by
  have := Mem.poisonAt_setPoison_ne (Mem.setBytes_wf h p bs) (bad || (bs.length != 64 && m.marked (p / 64))) hl
  simp only [Mem.poisonAt, Mem.setBytes_poison] at this ⊢
  exact this

/-- A write of the whole line gives it the marking of its data. -/
theorem Mem.marked_writeLine_whole {m : Mem} (h : m.wf = true) (p : Nat) (bs : List Byte) (bad : Bool) (hb : bs.length = 64) :
    (m.writeLine p bs bad).marked (p / 64) = bad := by
  have := Mem.poisonAt_setPoison_same (Mem.setBytes_wf h p bs) (p / 64) (bad || (bs.length != 64 && m.marked (p / 64)))
  simp only [Mem.marked, Mem.writeLine, Mem.poisonAt] at this ⊢
  rw [this]
  simp [hb]

/-- Every write of the state keeps the canonical form of memory. -/
theorem State.wrLines_mem_wf {s : State} (h : s.mem.wf = true) (fuel a : Nat) (bs : List Byte) (bad : Bool) :
    (s.wrLines fuel a bs bad).mem.wf = true := by
  induction fuel generalizing s a bs with
  | zero => exact h
  | succ n ih =>
    simp only [State.wrLines]
    split
    · exact h
    · apply ih
      split
      · exact h
      · split
        · exact Mem.writeLine_wf h _ _ _
        · exact h

theorem State.wr_mem_wf {s : State} (h : s.mem.wf = true) (a : Nat) (bs : List Byte) (bad : Bool) :
    (s.wr a bs bad).mem.wf = true :=
  State.wrLines_mem_wf h _ a bs bad

/-- Right after reset memory lists nothing, in the canonical form. -/
theorem State.reset_mem_wf : State.reset.mem.wf = true := by decide

end Sys2Proof.Machine
end

