-- ==== Sys2Proof/Laws/State.lean ====
section
/-! SUPPORT. What each update of one field of the state leaves as it was: one lemma per field. The value
written is abstracted first, so that the kernel compares no other field than the one named. -/

namespace Sys2Proof.Machine

set_option Elab.async false

@[simp] theorem State.setRegK_pending (s : State) (k : Nat) (v : Word) : (s.setRegK k v).pending = s.pending :=
  (fun x => (rfl : ({ s with regs := x } : State).pending = s.pending)) _
@[simp] theorem State.setRegK_cycle (s : State) (k : Nat) (v : Word) : (s.setRegK k v).cycle = s.cycle :=
  (fun x => (rfl : ({ s with regs := x } : State).cycle = s.cycle)) _
@[simp] theorem State.setRegK_mem (s : State) (k : Nat) (v : Word) : (s.setRegK k v).mem = s.mem :=
  (fun x => (rfl : ({ s with regs := x } : State).mem = s.mem)) _
@[simp] theorem State.setRegK_mc (s : State) (k : Nat) (v : Word) : (s.setRegK k v).mc = s.mc :=
  (fun x => (rfl : ({ s with regs := x } : State).mc = s.mc)) _
@[simp] theorem State.setRegK_image (s : State) (k : Nat) (v : Word) : (s.setRegK k v).image = s.image :=
  (fun x => (rfl : ({ s with regs := x } : State).image = s.image)) _
@[simp] theorem State.setRegK_err (s : State) (k : Nat) (v : Word) : (s.setRegK k v).err = s.err :=
  (fun x => (rfl : ({ s with regs := x } : State).err = s.err)) _
@[simp] theorem State.setRegK_out (s : State) (k : Nat) (v : Word) : (s.setRegK k v).out = s.out :=
  (fun x => (rfl : ({ s with regs := x } : State).out = s.out)) _
@[simp] theorem State.setRegK_cleats (s : State) (k : Nat) (v : Word) : (s.setRegK k v).cleats = s.cleats :=
  (fun x => (rfl : ({ s with regs := x } : State).cleats = s.cleats)) _
@[simp] theorem State.setRegK_items (s : State) (k : Nat) (v : Word) : (s.setRegK k v).items = s.items :=
  (fun x => (rfl : ({ s with regs := x } : State).items = s.items)) _
@[simp] theorem State.setRegK_steps (s : State) (k : Nat) (v : Word) : (s.setRegK k v).steps = s.steps :=
  (fun x => (rfl : ({ s with regs := x } : State).steps = s.steps)) _
@[simp] theorem State.setRegK_trk (s : State) (k : Nat) (v : Word) : (s.setRegK k v).trk = s.trk :=
  (fun x => (rfl : ({ s with regs := x } : State).trk = s.trk)) _
@[simp] theorem State.setRegK_prog (s : State) (k : Nat) (v : Word) : (s.setRegK k v).prog = s.prog :=
  (fun x => (rfl : ({ s with regs := x } : State).prog = s.prog)) _
@[simp] theorem State.setRegK_lay (s : State) (k : Nat) (v : Word) : (s.setRegK k v).lay = s.lay :=
  (fun x => (rfl : ({ s with regs := x } : State).lay = s.lay)) _
@[simp] theorem State.setRegK_boot (s : State) (k : Nat) (v : Word) : (s.setRegK k v).boot = s.boot :=
  (fun x => (rfl : ({ s with regs := x } : State).boot = s.boot)) _
@[simp] theorem State.setRegK_power (s : State) (k : Nat) (v : Word) : (s.setRegK k v).power = s.power :=
  (fun x => (rfl : ({ s with regs := x } : State).power = s.power)) _
@[simp] theorem State.setRegK_sessions (s : State) (k : Nat) (v : Word) : (s.setRegK k v).sessions = s.sessions :=
  (fun x => (rfl : ({ s with regs := x } : State).sessions = s.sessions)) _
@[simp] theorem State.setRegK_gens (s : State) (k : Nat) (v : Word) : (s.setRegK k v).gens = s.gens :=
  (fun x => (rfl : ({ s with regs := x } : State).gens = s.gens)) _
@[simp] theorem State.setRegK_ports (s : State) (k : Nat) (v : Word) : (s.setRegK k v).ports = s.ports :=
  (fun x => (rfl : ({ s with regs := x } : State).ports = s.ports)) _
@[simp] theorem State.setRegK_colls (s : State) (k : Nat) (v : Word) : (s.setRegK k v).colls = s.colls :=
  (fun x => (rfl : ({ s with regs := x } : State).colls = s.colls)) _
@[simp] theorem State.setRegK_sends (s : State) (k : Nat) (v : Word) : (s.setRegK k v).sends = s.sends :=
  (fun x => (rfl : ({ s with regs := x } : State).sends = s.sends)) _
@[simp] theorem State.setRegK_spills (s : State) (k : Nat) (v : Word) : (s.setRegK k v).spills = s.spills :=
  (fun x => (rfl : ({ s with regs := x } : State).spills = s.spills)) _
@[simp] theorem State.setRegK_heldOps (s : State) (k : Nat) (v : Word) : (s.setRegK k v).heldOps = s.heldOps :=
  (fun x => (rfl : ({ s with regs := x } : State).heldOps = s.heldOps)) _
@[simp] theorem State.setRegK_exhSeen (s : State) (k : Nat) (v : Word) : (s.setRegK k v).exhSeen = s.exhSeen :=
  (fun x => (rfl : ({ s with regs := x } : State).exhSeen = s.exhSeen)) _
@[simp] theorem State.setRegK_wdPast (s : State) (k : Nat) (v : Word) : (s.setRegK k v).wdPast = s.wdPast :=
  (fun x => (rfl : ({ s with regs := x } : State).wdPast = s.wdPast)) _
@[simp] theorem State.setRegK_freeCtr (s : State) (k : Nat) (v : Word) : (s.setRegK k v).freeCtr = s.freeCtr :=
  (fun x => (rfl : ({ s with regs := x } : State).freeCtr = s.freeCtr)) _

@[simp] theorem State.setReg_pending (s : State) (r : Reg) (i e : Nat) (v : Word) : (s.setReg r i e v).pending = s.pending :=
  (fun x => (rfl : ({ s with regs := x } : State).pending = s.pending)) _
@[simp] theorem State.setReg_cycle (s : State) (r : Reg) (i e : Nat) (v : Word) : (s.setReg r i e v).cycle = s.cycle :=
  (fun x => (rfl : ({ s with regs := x } : State).cycle = s.cycle)) _
@[simp] theorem State.setReg_mem (s : State) (r : Reg) (i e : Nat) (v : Word) : (s.setReg r i e v).mem = s.mem :=
  (fun x => (rfl : ({ s with regs := x } : State).mem = s.mem)) _
@[simp] theorem State.setReg_mc (s : State) (r : Reg) (i e : Nat) (v : Word) : (s.setReg r i e v).mc = s.mc :=
  (fun x => (rfl : ({ s with regs := x } : State).mc = s.mc)) _
@[simp] theorem State.setReg_image (s : State) (r : Reg) (i e : Nat) (v : Word) : (s.setReg r i e v).image = s.image :=
  (fun x => (rfl : ({ s with regs := x } : State).image = s.image)) _
@[simp] theorem State.setReg_err (s : State) (r : Reg) (i e : Nat) (v : Word) : (s.setReg r i e v).err = s.err :=
  (fun x => (rfl : ({ s with regs := x } : State).err = s.err)) _
@[simp] theorem State.setReg_out (s : State) (r : Reg) (i e : Nat) (v : Word) : (s.setReg r i e v).out = s.out :=
  (fun x => (rfl : ({ s with regs := x } : State).out = s.out)) _
@[simp] theorem State.setReg_cleats (s : State) (r : Reg) (i e : Nat) (v : Word) : (s.setReg r i e v).cleats = s.cleats :=
  (fun x => (rfl : ({ s with regs := x } : State).cleats = s.cleats)) _
@[simp] theorem State.setReg_items (s : State) (r : Reg) (i e : Nat) (v : Word) : (s.setReg r i e v).items = s.items :=
  (fun x => (rfl : ({ s with regs := x } : State).items = s.items)) _
@[simp] theorem State.setReg_steps (s : State) (r : Reg) (i e : Nat) (v : Word) : (s.setReg r i e v).steps = s.steps :=
  (fun x => (rfl : ({ s with regs := x } : State).steps = s.steps)) _
@[simp] theorem State.setReg_trk (s : State) (r : Reg) (i e : Nat) (v : Word) : (s.setReg r i e v).trk = s.trk :=
  (fun x => (rfl : ({ s with regs := x } : State).trk = s.trk)) _
@[simp] theorem State.setReg_prog (s : State) (r : Reg) (i e : Nat) (v : Word) : (s.setReg r i e v).prog = s.prog :=
  (fun x => (rfl : ({ s with regs := x } : State).prog = s.prog)) _
@[simp] theorem State.setReg_lay (s : State) (r : Reg) (i e : Nat) (v : Word) : (s.setReg r i e v).lay = s.lay :=
  (fun x => (rfl : ({ s with regs := x } : State).lay = s.lay)) _
@[simp] theorem State.setReg_boot (s : State) (r : Reg) (i e : Nat) (v : Word) : (s.setReg r i e v).boot = s.boot :=
  (fun x => (rfl : ({ s with regs := x } : State).boot = s.boot)) _
@[simp] theorem State.setReg_power (s : State) (r : Reg) (i e : Nat) (v : Word) : (s.setReg r i e v).power = s.power :=
  (fun x => (rfl : ({ s with regs := x } : State).power = s.power)) _
@[simp] theorem State.setReg_sessions (s : State) (r : Reg) (i e : Nat) (v : Word) : (s.setReg r i e v).sessions = s.sessions :=
  (fun x => (rfl : ({ s with regs := x } : State).sessions = s.sessions)) _
@[simp] theorem State.setReg_gens (s : State) (r : Reg) (i e : Nat) (v : Word) : (s.setReg r i e v).gens = s.gens :=
  (fun x => (rfl : ({ s with regs := x } : State).gens = s.gens)) _
@[simp] theorem State.setReg_ports (s : State) (r : Reg) (i e : Nat) (v : Word) : (s.setReg r i e v).ports = s.ports :=
  (fun x => (rfl : ({ s with regs := x } : State).ports = s.ports)) _
@[simp] theorem State.setReg_colls (s : State) (r : Reg) (i e : Nat) (v : Word) : (s.setReg r i e v).colls = s.colls :=
  (fun x => (rfl : ({ s with regs := x } : State).colls = s.colls)) _
@[simp] theorem State.setReg_sends (s : State) (r : Reg) (i e : Nat) (v : Word) : (s.setReg r i e v).sends = s.sends :=
  (fun x => (rfl : ({ s with regs := x } : State).sends = s.sends)) _
@[simp] theorem State.setReg_spills (s : State) (r : Reg) (i e : Nat) (v : Word) : (s.setReg r i e v).spills = s.spills :=
  (fun x => (rfl : ({ s with regs := x } : State).spills = s.spills)) _
@[simp] theorem State.setReg_heldOps (s : State) (r : Reg) (i e : Nat) (v : Word) : (s.setReg r i e v).heldOps = s.heldOps :=
  (fun x => (rfl : ({ s with regs := x } : State).heldOps = s.heldOps)) _
@[simp] theorem State.setReg_exhSeen (s : State) (r : Reg) (i e : Nat) (v : Word) : (s.setReg r i e v).exhSeen = s.exhSeen :=
  (fun x => (rfl : ({ s with regs := x } : State).exhSeen = s.exhSeen)) _
@[simp] theorem State.setReg_wdPast (s : State) (r : Reg) (i e : Nat) (v : Word) : (s.setReg r i e v).wdPast = s.wdPast :=
  (fun x => (rfl : ({ s with regs := x } : State).wdPast = s.wdPast)) _
@[simp] theorem State.setReg_freeCtr (s : State) (r : Reg) (i e : Nat) (v : Word) : (s.setReg r i e v).freeCtr = s.freeCtr :=
  (fun x => (rfl : ({ s with regs := x } : State).freeCtr = s.freeCtr)) _

@[simp] theorem State.bump_pending (s : State) (r : Reg) (i e n : Nat) : (s.bump r i e n).pending = s.pending :=
  (fun x => (rfl : ({ s with regs := x } : State).pending = s.pending)) _
@[simp] theorem State.bump_cycle (s : State) (r : Reg) (i e n : Nat) : (s.bump r i e n).cycle = s.cycle :=
  (fun x => (rfl : ({ s with regs := x } : State).cycle = s.cycle)) _
@[simp] theorem State.bump_mem (s : State) (r : Reg) (i e n : Nat) : (s.bump r i e n).mem = s.mem :=
  (fun x => (rfl : ({ s with regs := x } : State).mem = s.mem)) _
@[simp] theorem State.bump_mc (s : State) (r : Reg) (i e n : Nat) : (s.bump r i e n).mc = s.mc :=
  (fun x => (rfl : ({ s with regs := x } : State).mc = s.mc)) _
@[simp] theorem State.bump_image (s : State) (r : Reg) (i e n : Nat) : (s.bump r i e n).image = s.image :=
  (fun x => (rfl : ({ s with regs := x } : State).image = s.image)) _
@[simp] theorem State.bump_err (s : State) (r : Reg) (i e n : Nat) : (s.bump r i e n).err = s.err :=
  (fun x => (rfl : ({ s with regs := x } : State).err = s.err)) _
@[simp] theorem State.bump_out (s : State) (r : Reg) (i e n : Nat) : (s.bump r i e n).out = s.out :=
  (fun x => (rfl : ({ s with regs := x } : State).out = s.out)) _
@[simp] theorem State.bump_cleats (s : State) (r : Reg) (i e n : Nat) : (s.bump r i e n).cleats = s.cleats :=
  (fun x => (rfl : ({ s with regs := x } : State).cleats = s.cleats)) _
@[simp] theorem State.bump_items (s : State) (r : Reg) (i e n : Nat) : (s.bump r i e n).items = s.items :=
  (fun x => (rfl : ({ s with regs := x } : State).items = s.items)) _
@[simp] theorem State.bump_steps (s : State) (r : Reg) (i e n : Nat) : (s.bump r i e n).steps = s.steps :=
  (fun x => (rfl : ({ s with regs := x } : State).steps = s.steps)) _
@[simp] theorem State.bump_trk (s : State) (r : Reg) (i e n : Nat) : (s.bump r i e n).trk = s.trk :=
  (fun x => (rfl : ({ s with regs := x } : State).trk = s.trk)) _
@[simp] theorem State.bump_prog (s : State) (r : Reg) (i e n : Nat) : (s.bump r i e n).prog = s.prog :=
  (fun x => (rfl : ({ s with regs := x } : State).prog = s.prog)) _
@[simp] theorem State.bump_lay (s : State) (r : Reg) (i e n : Nat) : (s.bump r i e n).lay = s.lay :=
  (fun x => (rfl : ({ s with regs := x } : State).lay = s.lay)) _
@[simp] theorem State.bump_boot (s : State) (r : Reg) (i e n : Nat) : (s.bump r i e n).boot = s.boot :=
  (fun x => (rfl : ({ s with regs := x } : State).boot = s.boot)) _
@[simp] theorem State.bump_power (s : State) (r : Reg) (i e n : Nat) : (s.bump r i e n).power = s.power :=
  (fun x => (rfl : ({ s with regs := x } : State).power = s.power)) _
@[simp] theorem State.bump_sessions (s : State) (r : Reg) (i e n : Nat) : (s.bump r i e n).sessions = s.sessions :=
  (fun x => (rfl : ({ s with regs := x } : State).sessions = s.sessions)) _
@[simp] theorem State.bump_gens (s : State) (r : Reg) (i e n : Nat) : (s.bump r i e n).gens = s.gens :=
  (fun x => (rfl : ({ s with regs := x } : State).gens = s.gens)) _
@[simp] theorem State.bump_ports (s : State) (r : Reg) (i e n : Nat) : (s.bump r i e n).ports = s.ports :=
  (fun x => (rfl : ({ s with regs := x } : State).ports = s.ports)) _
@[simp] theorem State.bump_colls (s : State) (r : Reg) (i e n : Nat) : (s.bump r i e n).colls = s.colls :=
  (fun x => (rfl : ({ s with regs := x } : State).colls = s.colls)) _
@[simp] theorem State.bump_sends (s : State) (r : Reg) (i e n : Nat) : (s.bump r i e n).sends = s.sends :=
  (fun x => (rfl : ({ s with regs := x } : State).sends = s.sends)) _
@[simp] theorem State.bump_spills (s : State) (r : Reg) (i e n : Nat) : (s.bump r i e n).spills = s.spills :=
  (fun x => (rfl : ({ s with regs := x } : State).spills = s.spills)) _
@[simp] theorem State.bump_heldOps (s : State) (r : Reg) (i e n : Nat) : (s.bump r i e n).heldOps = s.heldOps :=
  (fun x => (rfl : ({ s with regs := x } : State).heldOps = s.heldOps)) _
@[simp] theorem State.bump_exhSeen (s : State) (r : Reg) (i e n : Nat) : (s.bump r i e n).exhSeen = s.exhSeen :=
  (fun x => (rfl : ({ s with regs := x } : State).exhSeen = s.exhSeen)) _
@[simp] theorem State.bump_wdPast (s : State) (r : Reg) (i e n : Nat) : (s.bump r i e n).wdPast = s.wdPast :=
  (fun x => (rfl : ({ s with regs := x } : State).wdPast = s.wdPast)) _
@[simp] theorem State.bump_freeCtr (s : State) (r : Reg) (i e n : Nat) : (s.bump r i e n).freeCtr = s.freeCtr :=
  (fun x => (rfl : ({ s with regs := x } : State).freeCtr = s.freeCtr)) _

@[simp] theorem State.flag_pending (s : State) (r : Reg) (i e m : Nat) : (s.flag r i e m).pending = s.pending :=
  (fun x => (rfl : ({ s with regs := x } : State).pending = s.pending)) _
@[simp] theorem State.flag_cycle (s : State) (r : Reg) (i e m : Nat) : (s.flag r i e m).cycle = s.cycle :=
  (fun x => (rfl : ({ s with regs := x } : State).cycle = s.cycle)) _
@[simp] theorem State.flag_mem (s : State) (r : Reg) (i e m : Nat) : (s.flag r i e m).mem = s.mem :=
  (fun x => (rfl : ({ s with regs := x } : State).mem = s.mem)) _
@[simp] theorem State.flag_mc (s : State) (r : Reg) (i e m : Nat) : (s.flag r i e m).mc = s.mc :=
  (fun x => (rfl : ({ s with regs := x } : State).mc = s.mc)) _
@[simp] theorem State.flag_image (s : State) (r : Reg) (i e m : Nat) : (s.flag r i e m).image = s.image :=
  (fun x => (rfl : ({ s with regs := x } : State).image = s.image)) _
@[simp] theorem State.flag_err (s : State) (r : Reg) (i e m : Nat) : (s.flag r i e m).err = s.err :=
  (fun x => (rfl : ({ s with regs := x } : State).err = s.err)) _
@[simp] theorem State.flag_out (s : State) (r : Reg) (i e m : Nat) : (s.flag r i e m).out = s.out :=
  (fun x => (rfl : ({ s with regs := x } : State).out = s.out)) _
@[simp] theorem State.flag_cleats (s : State) (r : Reg) (i e m : Nat) : (s.flag r i e m).cleats = s.cleats :=
  (fun x => (rfl : ({ s with regs := x } : State).cleats = s.cleats)) _
@[simp] theorem State.flag_items (s : State) (r : Reg) (i e m : Nat) : (s.flag r i e m).items = s.items :=
  (fun x => (rfl : ({ s with regs := x } : State).items = s.items)) _
@[simp] theorem State.flag_steps (s : State) (r : Reg) (i e m : Nat) : (s.flag r i e m).steps = s.steps :=
  (fun x => (rfl : ({ s with regs := x } : State).steps = s.steps)) _
@[simp] theorem State.flag_trk (s : State) (r : Reg) (i e m : Nat) : (s.flag r i e m).trk = s.trk :=
  (fun x => (rfl : ({ s with regs := x } : State).trk = s.trk)) _
@[simp] theorem State.flag_prog (s : State) (r : Reg) (i e m : Nat) : (s.flag r i e m).prog = s.prog :=
  (fun x => (rfl : ({ s with regs := x } : State).prog = s.prog)) _
@[simp] theorem State.flag_lay (s : State) (r : Reg) (i e m : Nat) : (s.flag r i e m).lay = s.lay :=
  (fun x => (rfl : ({ s with regs := x } : State).lay = s.lay)) _
@[simp] theorem State.flag_boot (s : State) (r : Reg) (i e m : Nat) : (s.flag r i e m).boot = s.boot :=
  (fun x => (rfl : ({ s with regs := x } : State).boot = s.boot)) _
@[simp] theorem State.flag_power (s : State) (r : Reg) (i e m : Nat) : (s.flag r i e m).power = s.power :=
  (fun x => (rfl : ({ s with regs := x } : State).power = s.power)) _
@[simp] theorem State.flag_sessions (s : State) (r : Reg) (i e m : Nat) : (s.flag r i e m).sessions = s.sessions :=
  (fun x => (rfl : ({ s with regs := x } : State).sessions = s.sessions)) _
@[simp] theorem State.flag_gens (s : State) (r : Reg) (i e m : Nat) : (s.flag r i e m).gens = s.gens :=
  (fun x => (rfl : ({ s with regs := x } : State).gens = s.gens)) _
@[simp] theorem State.flag_ports (s : State) (r : Reg) (i e m : Nat) : (s.flag r i e m).ports = s.ports :=
  (fun x => (rfl : ({ s with regs := x } : State).ports = s.ports)) _
@[simp] theorem State.flag_colls (s : State) (r : Reg) (i e m : Nat) : (s.flag r i e m).colls = s.colls :=
  (fun x => (rfl : ({ s with regs := x } : State).colls = s.colls)) _
@[simp] theorem State.flag_sends (s : State) (r : Reg) (i e m : Nat) : (s.flag r i e m).sends = s.sends :=
  (fun x => (rfl : ({ s with regs := x } : State).sends = s.sends)) _
@[simp] theorem State.flag_spills (s : State) (r : Reg) (i e m : Nat) : (s.flag r i e m).spills = s.spills :=
  (fun x => (rfl : ({ s with regs := x } : State).spills = s.spills)) _
@[simp] theorem State.flag_heldOps (s : State) (r : Reg) (i e m : Nat) : (s.flag r i e m).heldOps = s.heldOps :=
  (fun x => (rfl : ({ s with regs := x } : State).heldOps = s.heldOps)) _
@[simp] theorem State.flag_exhSeen (s : State) (r : Reg) (i e m : Nat) : (s.flag r i e m).exhSeen = s.exhSeen :=
  (fun x => (rfl : ({ s with regs := x } : State).exhSeen = s.exhSeen)) _
@[simp] theorem State.flag_wdPast (s : State) (r : Reg) (i e m : Nat) : (s.flag r i e m).wdPast = s.wdPast :=
  (fun x => (rfl : ({ s with regs := x } : State).wdPast = s.wdPast)) _
@[simp] theorem State.flag_freeCtr (s : State) (r : Reg) (i e m : Nat) : (s.flag r i e m).freeCtr = s.freeCtr :=
  (fun x => (rfl : ({ s with regs := x } : State).freeCtr = s.freeCtr)) _

@[simp] theorem State.setDv_pending (s : State) (i j v : Nat) : (s.setDv i j v).pending = s.pending :=
  (fun x => (rfl : ({ s with image := x } : State).pending = s.pending)) _
@[simp] theorem State.setDv_cycle (s : State) (i j v : Nat) : (s.setDv i j v).cycle = s.cycle :=
  (fun x => (rfl : ({ s with image := x } : State).cycle = s.cycle)) _
@[simp] theorem State.setDv_regs (s : State) (i j v : Nat) : (s.setDv i j v).regs = s.regs :=
  (fun x => (rfl : ({ s with image := x } : State).regs = s.regs)) _
@[simp] theorem State.setDv_mem (s : State) (i j v : Nat) : (s.setDv i j v).mem = s.mem :=
  (fun x => (rfl : ({ s with image := x } : State).mem = s.mem)) _
@[simp] theorem State.setDv_mc (s : State) (i j v : Nat) : (s.setDv i j v).mc = s.mc :=
  (fun x => (rfl : ({ s with image := x } : State).mc = s.mc)) _
@[simp] theorem State.setDv_err (s : State) (i j v : Nat) : (s.setDv i j v).err = s.err :=
  (fun x => (rfl : ({ s with image := x } : State).err = s.err)) _
@[simp] theorem State.setDv_out (s : State) (i j v : Nat) : (s.setDv i j v).out = s.out :=
  (fun x => (rfl : ({ s with image := x } : State).out = s.out)) _
@[simp] theorem State.setDv_cleats (s : State) (i j v : Nat) : (s.setDv i j v).cleats = s.cleats :=
  (fun x => (rfl : ({ s with image := x } : State).cleats = s.cleats)) _
@[simp] theorem State.setDv_items (s : State) (i j v : Nat) : (s.setDv i j v).items = s.items :=
  (fun x => (rfl : ({ s with image := x } : State).items = s.items)) _
@[simp] theorem State.setDv_steps (s : State) (i j v : Nat) : (s.setDv i j v).steps = s.steps :=
  (fun x => (rfl : ({ s with image := x } : State).steps = s.steps)) _
@[simp] theorem State.setDv_trk (s : State) (i j v : Nat) : (s.setDv i j v).trk = s.trk :=
  (fun x => (rfl : ({ s with image := x } : State).trk = s.trk)) _
@[simp] theorem State.setDv_prog (s : State) (i j v : Nat) : (s.setDv i j v).prog = s.prog :=
  (fun x => (rfl : ({ s with image := x } : State).prog = s.prog)) _
@[simp] theorem State.setDv_lay (s : State) (i j v : Nat) : (s.setDv i j v).lay = s.lay :=
  (fun x => (rfl : ({ s with image := x } : State).lay = s.lay)) _
@[simp] theorem State.setDv_boot (s : State) (i j v : Nat) : (s.setDv i j v).boot = s.boot :=
  (fun x => (rfl : ({ s with image := x } : State).boot = s.boot)) _
@[simp] theorem State.setDv_power (s : State) (i j v : Nat) : (s.setDv i j v).power = s.power :=
  (fun x => (rfl : ({ s with image := x } : State).power = s.power)) _
@[simp] theorem State.setDv_sessions (s : State) (i j v : Nat) : (s.setDv i j v).sessions = s.sessions :=
  (fun x => (rfl : ({ s with image := x } : State).sessions = s.sessions)) _
@[simp] theorem State.setDv_gens (s : State) (i j v : Nat) : (s.setDv i j v).gens = s.gens :=
  (fun x => (rfl : ({ s with image := x } : State).gens = s.gens)) _
@[simp] theorem State.setDv_ports (s : State) (i j v : Nat) : (s.setDv i j v).ports = s.ports :=
  (fun x => (rfl : ({ s with image := x } : State).ports = s.ports)) _
@[simp] theorem State.setDv_colls (s : State) (i j v : Nat) : (s.setDv i j v).colls = s.colls :=
  (fun x => (rfl : ({ s with image := x } : State).colls = s.colls)) _
@[simp] theorem State.setDv_sends (s : State) (i j v : Nat) : (s.setDv i j v).sends = s.sends :=
  (fun x => (rfl : ({ s with image := x } : State).sends = s.sends)) _
@[simp] theorem State.setDv_spills (s : State) (i j v : Nat) : (s.setDv i j v).spills = s.spills :=
  (fun x => (rfl : ({ s with image := x } : State).spills = s.spills)) _
@[simp] theorem State.setDv_heldOps (s : State) (i j v : Nat) : (s.setDv i j v).heldOps = s.heldOps :=
  (fun x => (rfl : ({ s with image := x } : State).heldOps = s.heldOps)) _
@[simp] theorem State.setDv_exhSeen (s : State) (i j v : Nat) : (s.setDv i j v).exhSeen = s.exhSeen :=
  (fun x => (rfl : ({ s with image := x } : State).exhSeen = s.exhSeen)) _
@[simp] theorem State.setDv_wdPast (s : State) (i j v : Nat) : (s.setDv i j v).wdPast = s.wdPast :=
  (fun x => (rfl : ({ s with image := x } : State).wdPast = s.wdPast)) _
@[simp] theorem State.setDv_freeCtr (s : State) (i j v : Nat) : (s.setDv i j v).freeCtr = s.freeCtr :=
  (fun x => (rfl : ({ s with image := x } : State).freeCtr = s.freeCtr)) _

@[simp] theorem State.setMc_pending (s : State) (i j v : Nat) : (s.setMc i j v).pending = s.pending :=
  (fun x => (rfl : ({ s with mc := x } : State).pending = s.pending)) _
@[simp] theorem State.setMc_cycle (s : State) (i j v : Nat) : (s.setMc i j v).cycle = s.cycle :=
  (fun x => (rfl : ({ s with mc := x } : State).cycle = s.cycle)) _
@[simp] theorem State.setMc_regs (s : State) (i j v : Nat) : (s.setMc i j v).regs = s.regs :=
  (fun x => (rfl : ({ s with mc := x } : State).regs = s.regs)) _
@[simp] theorem State.setMc_mem (s : State) (i j v : Nat) : (s.setMc i j v).mem = s.mem :=
  (fun x => (rfl : ({ s with mc := x } : State).mem = s.mem)) _
@[simp] theorem State.setMc_image (s : State) (i j v : Nat) : (s.setMc i j v).image = s.image :=
  (fun x => (rfl : ({ s with mc := x } : State).image = s.image)) _
@[simp] theorem State.setMc_err (s : State) (i j v : Nat) : (s.setMc i j v).err = s.err :=
  (fun x => (rfl : ({ s with mc := x } : State).err = s.err)) _
@[simp] theorem State.setMc_out (s : State) (i j v : Nat) : (s.setMc i j v).out = s.out :=
  (fun x => (rfl : ({ s with mc := x } : State).out = s.out)) _
@[simp] theorem State.setMc_cleats (s : State) (i j v : Nat) : (s.setMc i j v).cleats = s.cleats :=
  (fun x => (rfl : ({ s with mc := x } : State).cleats = s.cleats)) _
@[simp] theorem State.setMc_items (s : State) (i j v : Nat) : (s.setMc i j v).items = s.items :=
  (fun x => (rfl : ({ s with mc := x } : State).items = s.items)) _
@[simp] theorem State.setMc_steps (s : State) (i j v : Nat) : (s.setMc i j v).steps = s.steps :=
  (fun x => (rfl : ({ s with mc := x } : State).steps = s.steps)) _
@[simp] theorem State.setMc_trk (s : State) (i j v : Nat) : (s.setMc i j v).trk = s.trk :=
  (fun x => (rfl : ({ s with mc := x } : State).trk = s.trk)) _
@[simp] theorem State.setMc_prog (s : State) (i j v : Nat) : (s.setMc i j v).prog = s.prog :=
  (fun x => (rfl : ({ s with mc := x } : State).prog = s.prog)) _
@[simp] theorem State.setMc_lay (s : State) (i j v : Nat) : (s.setMc i j v).lay = s.lay :=
  (fun x => (rfl : ({ s with mc := x } : State).lay = s.lay)) _
@[simp] theorem State.setMc_boot (s : State) (i j v : Nat) : (s.setMc i j v).boot = s.boot :=
  (fun x => (rfl : ({ s with mc := x } : State).boot = s.boot)) _
@[simp] theorem State.setMc_power (s : State) (i j v : Nat) : (s.setMc i j v).power = s.power :=
  (fun x => (rfl : ({ s with mc := x } : State).power = s.power)) _
@[simp] theorem State.setMc_sessions (s : State) (i j v : Nat) : (s.setMc i j v).sessions = s.sessions :=
  (fun x => (rfl : ({ s with mc := x } : State).sessions = s.sessions)) _
@[simp] theorem State.setMc_gens (s : State) (i j v : Nat) : (s.setMc i j v).gens = s.gens :=
  (fun x => (rfl : ({ s with mc := x } : State).gens = s.gens)) _
@[simp] theorem State.setMc_ports (s : State) (i j v : Nat) : (s.setMc i j v).ports = s.ports :=
  (fun x => (rfl : ({ s with mc := x } : State).ports = s.ports)) _
@[simp] theorem State.setMc_colls (s : State) (i j v : Nat) : (s.setMc i j v).colls = s.colls :=
  (fun x => (rfl : ({ s with mc := x } : State).colls = s.colls)) _
@[simp] theorem State.setMc_sends (s : State) (i j v : Nat) : (s.setMc i j v).sends = s.sends :=
  (fun x => (rfl : ({ s with mc := x } : State).sends = s.sends)) _
@[simp] theorem State.setMc_spills (s : State) (i j v : Nat) : (s.setMc i j v).spills = s.spills :=
  (fun x => (rfl : ({ s with mc := x } : State).spills = s.spills)) _
@[simp] theorem State.setMc_heldOps (s : State) (i j v : Nat) : (s.setMc i j v).heldOps = s.heldOps :=
  (fun x => (rfl : ({ s with mc := x } : State).heldOps = s.heldOps)) _
@[simp] theorem State.setMc_exhSeen (s : State) (i j v : Nat) : (s.setMc i j v).exhSeen = s.exhSeen :=
  (fun x => (rfl : ({ s with mc := x } : State).exhSeen = s.exhSeen)) _
@[simp] theorem State.setMc_wdPast (s : State) (i j v : Nat) : (s.setMc i j v).wdPast = s.wdPast :=
  (fun x => (rfl : ({ s with mc := x } : State).wdPast = s.wdPast)) _
@[simp] theorem State.setMc_freeCtr (s : State) (i j v : Nat) : (s.setMc i j v).freeCtr = s.freeCtr :=
  (fun x => (rfl : ({ s with mc := x } : State).freeCtr = s.freeCtr)) _

@[simp] theorem State.mcBump_pending (s : State) (i j n : Nat) : (s.mcBump i j n).pending = s.pending :=
  (fun x => (rfl : ({ s with mc := x } : State).pending = s.pending)) _
@[simp] theorem State.mcBump_cycle (s : State) (i j n : Nat) : (s.mcBump i j n).cycle = s.cycle :=
  (fun x => (rfl : ({ s with mc := x } : State).cycle = s.cycle)) _
@[simp] theorem State.mcBump_regs (s : State) (i j n : Nat) : (s.mcBump i j n).regs = s.regs :=
  (fun x => (rfl : ({ s with mc := x } : State).regs = s.regs)) _
@[simp] theorem State.mcBump_mem (s : State) (i j n : Nat) : (s.mcBump i j n).mem = s.mem :=
  (fun x => (rfl : ({ s with mc := x } : State).mem = s.mem)) _
@[simp] theorem State.mcBump_image (s : State) (i j n : Nat) : (s.mcBump i j n).image = s.image :=
  (fun x => (rfl : ({ s with mc := x } : State).image = s.image)) _
@[simp] theorem State.mcBump_err (s : State) (i j n : Nat) : (s.mcBump i j n).err = s.err :=
  (fun x => (rfl : ({ s with mc := x } : State).err = s.err)) _
@[simp] theorem State.mcBump_out (s : State) (i j n : Nat) : (s.mcBump i j n).out = s.out :=
  (fun x => (rfl : ({ s with mc := x } : State).out = s.out)) _
@[simp] theorem State.mcBump_cleats (s : State) (i j n : Nat) : (s.mcBump i j n).cleats = s.cleats :=
  (fun x => (rfl : ({ s with mc := x } : State).cleats = s.cleats)) _
@[simp] theorem State.mcBump_items (s : State) (i j n : Nat) : (s.mcBump i j n).items = s.items :=
  (fun x => (rfl : ({ s with mc := x } : State).items = s.items)) _
@[simp] theorem State.mcBump_steps (s : State) (i j n : Nat) : (s.mcBump i j n).steps = s.steps :=
  (fun x => (rfl : ({ s with mc := x } : State).steps = s.steps)) _
@[simp] theorem State.mcBump_trk (s : State) (i j n : Nat) : (s.mcBump i j n).trk = s.trk :=
  (fun x => (rfl : ({ s with mc := x } : State).trk = s.trk)) _
@[simp] theorem State.mcBump_prog (s : State) (i j n : Nat) : (s.mcBump i j n).prog = s.prog :=
  (fun x => (rfl : ({ s with mc := x } : State).prog = s.prog)) _
@[simp] theorem State.mcBump_lay (s : State) (i j n : Nat) : (s.mcBump i j n).lay = s.lay :=
  (fun x => (rfl : ({ s with mc := x } : State).lay = s.lay)) _
@[simp] theorem State.mcBump_boot (s : State) (i j n : Nat) : (s.mcBump i j n).boot = s.boot :=
  (fun x => (rfl : ({ s with mc := x } : State).boot = s.boot)) _
@[simp] theorem State.mcBump_power (s : State) (i j n : Nat) : (s.mcBump i j n).power = s.power :=
  (fun x => (rfl : ({ s with mc := x } : State).power = s.power)) _
@[simp] theorem State.mcBump_sessions (s : State) (i j n : Nat) : (s.mcBump i j n).sessions = s.sessions :=
  (fun x => (rfl : ({ s with mc := x } : State).sessions = s.sessions)) _
@[simp] theorem State.mcBump_gens (s : State) (i j n : Nat) : (s.mcBump i j n).gens = s.gens :=
  (fun x => (rfl : ({ s with mc := x } : State).gens = s.gens)) _
@[simp] theorem State.mcBump_ports (s : State) (i j n : Nat) : (s.mcBump i j n).ports = s.ports :=
  (fun x => (rfl : ({ s with mc := x } : State).ports = s.ports)) _
@[simp] theorem State.mcBump_colls (s : State) (i j n : Nat) : (s.mcBump i j n).colls = s.colls :=
  (fun x => (rfl : ({ s with mc := x } : State).colls = s.colls)) _
@[simp] theorem State.mcBump_sends (s : State) (i j n : Nat) : (s.mcBump i j n).sends = s.sends :=
  (fun x => (rfl : ({ s with mc := x } : State).sends = s.sends)) _
@[simp] theorem State.mcBump_spills (s : State) (i j n : Nat) : (s.mcBump i j n).spills = s.spills :=
  (fun x => (rfl : ({ s with mc := x } : State).spills = s.spills)) _
@[simp] theorem State.mcBump_heldOps (s : State) (i j n : Nat) : (s.mcBump i j n).heldOps = s.heldOps :=
  (fun x => (rfl : ({ s with mc := x } : State).heldOps = s.heldOps)) _
@[simp] theorem State.mcBump_exhSeen (s : State) (i j n : Nat) : (s.mcBump i j n).exhSeen = s.exhSeen :=
  (fun x => (rfl : ({ s with mc := x } : State).exhSeen = s.exhSeen)) _
@[simp] theorem State.mcBump_wdPast (s : State) (i j n : Nat) : (s.mcBump i j n).wdPast = s.wdPast :=
  (fun x => (rfl : ({ s with mc := x } : State).wdPast = s.wdPast)) _
@[simp] theorem State.mcBump_freeCtr (s : State) (i j n : Nat) : (s.mcBump i j n).freeCtr = s.freeCtr :=
  (fun x => (rfl : ({ s with mc := x } : State).freeCtr = s.freeCtr)) _

@[simp] theorem State.emit_pending (s : State) (o : Out) : (s.emit o).pending = s.pending :=
  (fun x => (rfl : ({ s with out := x } : State).pending = s.pending)) _
@[simp] theorem State.emit_cycle (s : State) (o : Out) : (s.emit o).cycle = s.cycle :=
  (fun x => (rfl : ({ s with out := x } : State).cycle = s.cycle)) _
@[simp] theorem State.emit_regs (s : State) (o : Out) : (s.emit o).regs = s.regs :=
  (fun x => (rfl : ({ s with out := x } : State).regs = s.regs)) _
@[simp] theorem State.emit_mem (s : State) (o : Out) : (s.emit o).mem = s.mem :=
  (fun x => (rfl : ({ s with out := x } : State).mem = s.mem)) _
@[simp] theorem State.emit_mc (s : State) (o : Out) : (s.emit o).mc = s.mc :=
  (fun x => (rfl : ({ s with out := x } : State).mc = s.mc)) _
@[simp] theorem State.emit_image (s : State) (o : Out) : (s.emit o).image = s.image :=
  (fun x => (rfl : ({ s with out := x } : State).image = s.image)) _
@[simp] theorem State.emit_err (s : State) (o : Out) : (s.emit o).err = s.err :=
  (fun x => (rfl : ({ s with out := x } : State).err = s.err)) _
@[simp] theorem State.emit_cleats (s : State) (o : Out) : (s.emit o).cleats = s.cleats :=
  (fun x => (rfl : ({ s with out := x } : State).cleats = s.cleats)) _
@[simp] theorem State.emit_items (s : State) (o : Out) : (s.emit o).items = s.items :=
  (fun x => (rfl : ({ s with out := x } : State).items = s.items)) _
@[simp] theorem State.emit_steps (s : State) (o : Out) : (s.emit o).steps = s.steps :=
  (fun x => (rfl : ({ s with out := x } : State).steps = s.steps)) _
@[simp] theorem State.emit_trk (s : State) (o : Out) : (s.emit o).trk = s.trk :=
  (fun x => (rfl : ({ s with out := x } : State).trk = s.trk)) _
@[simp] theorem State.emit_prog (s : State) (o : Out) : (s.emit o).prog = s.prog :=
  (fun x => (rfl : ({ s with out := x } : State).prog = s.prog)) _
@[simp] theorem State.emit_lay (s : State) (o : Out) : (s.emit o).lay = s.lay :=
  (fun x => (rfl : ({ s with out := x } : State).lay = s.lay)) _
@[simp] theorem State.emit_boot (s : State) (o : Out) : (s.emit o).boot = s.boot :=
  (fun x => (rfl : ({ s with out := x } : State).boot = s.boot)) _
@[simp] theorem State.emit_power (s : State) (o : Out) : (s.emit o).power = s.power :=
  (fun x => (rfl : ({ s with out := x } : State).power = s.power)) _
@[simp] theorem State.emit_sessions (s : State) (o : Out) : (s.emit o).sessions = s.sessions :=
  (fun x => (rfl : ({ s with out := x } : State).sessions = s.sessions)) _
@[simp] theorem State.emit_gens (s : State) (o : Out) : (s.emit o).gens = s.gens :=
  (fun x => (rfl : ({ s with out := x } : State).gens = s.gens)) _
@[simp] theorem State.emit_ports (s : State) (o : Out) : (s.emit o).ports = s.ports :=
  (fun x => (rfl : ({ s with out := x } : State).ports = s.ports)) _
@[simp] theorem State.emit_colls (s : State) (o : Out) : (s.emit o).colls = s.colls :=
  (fun x => (rfl : ({ s with out := x } : State).colls = s.colls)) _
@[simp] theorem State.emit_sends (s : State) (o : Out) : (s.emit o).sends = s.sends :=
  (fun x => (rfl : ({ s with out := x } : State).sends = s.sends)) _
@[simp] theorem State.emit_spills (s : State) (o : Out) : (s.emit o).spills = s.spills :=
  (fun x => (rfl : ({ s with out := x } : State).spills = s.spills)) _
@[simp] theorem State.emit_heldOps (s : State) (o : Out) : (s.emit o).heldOps = s.heldOps :=
  (fun x => (rfl : ({ s with out := x } : State).heldOps = s.heldOps)) _
@[simp] theorem State.emit_exhSeen (s : State) (o : Out) : (s.emit o).exhSeen = s.exhSeen :=
  (fun x => (rfl : ({ s with out := x } : State).exhSeen = s.exhSeen)) _
@[simp] theorem State.emit_wdPast (s : State) (o : Out) : (s.emit o).wdPast = s.wdPast :=
  (fun x => (rfl : ({ s with out := x } : State).wdPast = s.wdPast)) _
@[simp] theorem State.emit_freeCtr (s : State) (o : Out) : (s.emit o).freeCtr = s.freeCtr :=
  (fun x => (rfl : ({ s with out := x } : State).freeCtr = s.freeCtr)) _

@[simp] theorem State.bumpGen_pending (s : State) (l i : Nat) : (s.bumpGen l i).pending = s.pending :=
  (fun x => (rfl : ({ s with gens := x } : State).pending = s.pending)) _
@[simp] theorem State.bumpGen_cycle (s : State) (l i : Nat) : (s.bumpGen l i).cycle = s.cycle :=
  (fun x => (rfl : ({ s with gens := x } : State).cycle = s.cycle)) _
@[simp] theorem State.bumpGen_regs (s : State) (l i : Nat) : (s.bumpGen l i).regs = s.regs :=
  (fun x => (rfl : ({ s with gens := x } : State).regs = s.regs)) _
@[simp] theorem State.bumpGen_mem (s : State) (l i : Nat) : (s.bumpGen l i).mem = s.mem :=
  (fun x => (rfl : ({ s with gens := x } : State).mem = s.mem)) _
@[simp] theorem State.bumpGen_mc (s : State) (l i : Nat) : (s.bumpGen l i).mc = s.mc :=
  (fun x => (rfl : ({ s with gens := x } : State).mc = s.mc)) _
@[simp] theorem State.bumpGen_image (s : State) (l i : Nat) : (s.bumpGen l i).image = s.image :=
  (fun x => (rfl : ({ s with gens := x } : State).image = s.image)) _
@[simp] theorem State.bumpGen_err (s : State) (l i : Nat) : (s.bumpGen l i).err = s.err :=
  (fun x => (rfl : ({ s with gens := x } : State).err = s.err)) _
@[simp] theorem State.bumpGen_out (s : State) (l i : Nat) : (s.bumpGen l i).out = s.out :=
  (fun x => (rfl : ({ s with gens := x } : State).out = s.out)) _
@[simp] theorem State.bumpGen_cleats (s : State) (l i : Nat) : (s.bumpGen l i).cleats = s.cleats :=
  (fun x => (rfl : ({ s with gens := x } : State).cleats = s.cleats)) _
@[simp] theorem State.bumpGen_items (s : State) (l i : Nat) : (s.bumpGen l i).items = s.items :=
  (fun x => (rfl : ({ s with gens := x } : State).items = s.items)) _
@[simp] theorem State.bumpGen_steps (s : State) (l i : Nat) : (s.bumpGen l i).steps = s.steps :=
  (fun x => (rfl : ({ s with gens := x } : State).steps = s.steps)) _
@[simp] theorem State.bumpGen_trk (s : State) (l i : Nat) : (s.bumpGen l i).trk = s.trk :=
  (fun x => (rfl : ({ s with gens := x } : State).trk = s.trk)) _
@[simp] theorem State.bumpGen_prog (s : State) (l i : Nat) : (s.bumpGen l i).prog = s.prog :=
  (fun x => (rfl : ({ s with gens := x } : State).prog = s.prog)) _
@[simp] theorem State.bumpGen_lay (s : State) (l i : Nat) : (s.bumpGen l i).lay = s.lay :=
  (fun x => (rfl : ({ s with gens := x } : State).lay = s.lay)) _
@[simp] theorem State.bumpGen_boot (s : State) (l i : Nat) : (s.bumpGen l i).boot = s.boot :=
  (fun x => (rfl : ({ s with gens := x } : State).boot = s.boot)) _
@[simp] theorem State.bumpGen_power (s : State) (l i : Nat) : (s.bumpGen l i).power = s.power :=
  (fun x => (rfl : ({ s with gens := x } : State).power = s.power)) _
@[simp] theorem State.bumpGen_sessions (s : State) (l i : Nat) : (s.bumpGen l i).sessions = s.sessions :=
  (fun x => (rfl : ({ s with gens := x } : State).sessions = s.sessions)) _
@[simp] theorem State.bumpGen_ports (s : State) (l i : Nat) : (s.bumpGen l i).ports = s.ports :=
  (fun x => (rfl : ({ s with gens := x } : State).ports = s.ports)) _
@[simp] theorem State.bumpGen_colls (s : State) (l i : Nat) : (s.bumpGen l i).colls = s.colls :=
  (fun x => (rfl : ({ s with gens := x } : State).colls = s.colls)) _
@[simp] theorem State.bumpGen_sends (s : State) (l i : Nat) : (s.bumpGen l i).sends = s.sends :=
  (fun x => (rfl : ({ s with gens := x } : State).sends = s.sends)) _
@[simp] theorem State.bumpGen_spills (s : State) (l i : Nat) : (s.bumpGen l i).spills = s.spills :=
  (fun x => (rfl : ({ s with gens := x } : State).spills = s.spills)) _
@[simp] theorem State.bumpGen_heldOps (s : State) (l i : Nat) : (s.bumpGen l i).heldOps = s.heldOps :=
  (fun x => (rfl : ({ s with gens := x } : State).heldOps = s.heldOps)) _
@[simp] theorem State.bumpGen_exhSeen (s : State) (l i : Nat) : (s.bumpGen l i).exhSeen = s.exhSeen :=
  (fun x => (rfl : ({ s with gens := x } : State).exhSeen = s.exhSeen)) _
@[simp] theorem State.bumpGen_wdPast (s : State) (l i : Nat) : (s.bumpGen l i).wdPast = s.wdPast :=
  (fun x => (rfl : ({ s with gens := x } : State).wdPast = s.wdPast)) _
@[simp] theorem State.bumpGen_freeCtr (s : State) (l i : Nat) : (s.bumpGen l i).freeCtr = s.freeCtr :=
  (fun x => (rfl : ({ s with gens := x } : State).freeCtr = s.freeCtr)) _

@[simp] theorem State.setErrDie_pending (s : State) (d : Nat) (x : ErrDie) : (s.setErrDie d x).pending = s.pending :=
  (fun x => (rfl : ({ s with err := x } : State).pending = s.pending)) _
@[simp] theorem State.setErrDie_cycle (s : State) (d : Nat) (x : ErrDie) : (s.setErrDie d x).cycle = s.cycle :=
  (fun x => (rfl : ({ s with err := x } : State).cycle = s.cycle)) _
@[simp] theorem State.setErrDie_regs (s : State) (d : Nat) (x : ErrDie) : (s.setErrDie d x).regs = s.regs :=
  (fun x => (rfl : ({ s with err := x } : State).regs = s.regs)) _
@[simp] theorem State.setErrDie_mem (s : State) (d : Nat) (x : ErrDie) : (s.setErrDie d x).mem = s.mem :=
  (fun x => (rfl : ({ s with err := x } : State).mem = s.mem)) _
@[simp] theorem State.setErrDie_mc (s : State) (d : Nat) (x : ErrDie) : (s.setErrDie d x).mc = s.mc :=
  (fun x => (rfl : ({ s with err := x } : State).mc = s.mc)) _
@[simp] theorem State.setErrDie_image (s : State) (d : Nat) (x : ErrDie) : (s.setErrDie d x).image = s.image :=
  (fun x => (rfl : ({ s with err := x } : State).image = s.image)) _
@[simp] theorem State.setErrDie_out (s : State) (d : Nat) (x : ErrDie) : (s.setErrDie d x).out = s.out :=
  (fun x => (rfl : ({ s with err := x } : State).out = s.out)) _
@[simp] theorem State.setErrDie_cleats (s : State) (d : Nat) (x : ErrDie) : (s.setErrDie d x).cleats = s.cleats :=
  (fun x => (rfl : ({ s with err := x } : State).cleats = s.cleats)) _
@[simp] theorem State.setErrDie_items (s : State) (d : Nat) (x : ErrDie) : (s.setErrDie d x).items = s.items :=
  (fun x => (rfl : ({ s with err := x } : State).items = s.items)) _
@[simp] theorem State.setErrDie_steps (s : State) (d : Nat) (x : ErrDie) : (s.setErrDie d x).steps = s.steps :=
  (fun x => (rfl : ({ s with err := x } : State).steps = s.steps)) _
@[simp] theorem State.setErrDie_trk (s : State) (d : Nat) (x : ErrDie) : (s.setErrDie d x).trk = s.trk :=
  (fun x => (rfl : ({ s with err := x } : State).trk = s.trk)) _
@[simp] theorem State.setErrDie_prog (s : State) (d : Nat) (x : ErrDie) : (s.setErrDie d x).prog = s.prog :=
  (fun x => (rfl : ({ s with err := x } : State).prog = s.prog)) _
@[simp] theorem State.setErrDie_lay (s : State) (d : Nat) (x : ErrDie) : (s.setErrDie d x).lay = s.lay :=
  (fun x => (rfl : ({ s with err := x } : State).lay = s.lay)) _
@[simp] theorem State.setErrDie_boot (s : State) (d : Nat) (x : ErrDie) : (s.setErrDie d x).boot = s.boot :=
  (fun x => (rfl : ({ s with err := x } : State).boot = s.boot)) _
@[simp] theorem State.setErrDie_power (s : State) (d : Nat) (x : ErrDie) : (s.setErrDie d x).power = s.power :=
  (fun x => (rfl : ({ s with err := x } : State).power = s.power)) _
@[simp] theorem State.setErrDie_sessions (s : State) (d : Nat) (x : ErrDie) : (s.setErrDie d x).sessions = s.sessions :=
  (fun x => (rfl : ({ s with err := x } : State).sessions = s.sessions)) _
@[simp] theorem State.setErrDie_gens (s : State) (d : Nat) (x : ErrDie) : (s.setErrDie d x).gens = s.gens :=
  (fun x => (rfl : ({ s with err := x } : State).gens = s.gens)) _
@[simp] theorem State.setErrDie_ports (s : State) (d : Nat) (x : ErrDie) : (s.setErrDie d x).ports = s.ports :=
  (fun x => (rfl : ({ s with err := x } : State).ports = s.ports)) _
@[simp] theorem State.setErrDie_colls (s : State) (d : Nat) (x : ErrDie) : (s.setErrDie d x).colls = s.colls :=
  (fun x => (rfl : ({ s with err := x } : State).colls = s.colls)) _
@[simp] theorem State.setErrDie_sends (s : State) (d : Nat) (x : ErrDie) : (s.setErrDie d x).sends = s.sends :=
  (fun x => (rfl : ({ s with err := x } : State).sends = s.sends)) _
@[simp] theorem State.setErrDie_spills (s : State) (d : Nat) (x : ErrDie) : (s.setErrDie d x).spills = s.spills :=
  (fun x => (rfl : ({ s with err := x } : State).spills = s.spills)) _
@[simp] theorem State.setErrDie_heldOps (s : State) (d : Nat) (x : ErrDie) : (s.setErrDie d x).heldOps = s.heldOps :=
  (fun x => (rfl : ({ s with err := x } : State).heldOps = s.heldOps)) _
@[simp] theorem State.setErrDie_exhSeen (s : State) (d : Nat) (x : ErrDie) : (s.setErrDie d x).exhSeen = s.exhSeen :=
  (fun x => (rfl : ({ s with err := x } : State).exhSeen = s.exhSeen)) _
@[simp] theorem State.setErrDie_wdPast (s : State) (d : Nat) (x : ErrDie) : (s.setErrDie d x).wdPast = s.wdPast :=
  (fun x => (rfl : ({ s with err := x } : State).wdPast = s.wdPast)) _
@[simp] theorem State.setErrDie_freeCtr (s : State) (d : Nat) (x : ErrDie) : (s.setErrDie d x).freeCtr = s.freeCtr :=
  (fun x => (rfl : ({ s with err := x } : State).freeCtr = s.freeCtr)) _

@[simp] theorem State.setFid_pending (s : State) (f : Nat) (x : Fid) : (s.setFid f x).pending = s.pending :=
  (fun x => (rfl : ({ s with fids := x } : State).pending = s.pending)) _
@[simp] theorem State.setFid_cycle (s : State) (f : Nat) (x : Fid) : (s.setFid f x).cycle = s.cycle :=
  (fun x => (rfl : ({ s with fids := x } : State).cycle = s.cycle)) _
@[simp] theorem State.setFid_regs (s : State) (f : Nat) (x : Fid) : (s.setFid f x).regs = s.regs :=
  (fun x => (rfl : ({ s with fids := x } : State).regs = s.regs)) _
@[simp] theorem State.setFid_mem (s : State) (f : Nat) (x : Fid) : (s.setFid f x).mem = s.mem :=
  (fun x => (rfl : ({ s with fids := x } : State).mem = s.mem)) _
@[simp] theorem State.setFid_mc (s : State) (f : Nat) (x : Fid) : (s.setFid f x).mc = s.mc :=
  (fun x => (rfl : ({ s with fids := x } : State).mc = s.mc)) _
@[simp] theorem State.setFid_image (s : State) (f : Nat) (x : Fid) : (s.setFid f x).image = s.image :=
  (fun x => (rfl : ({ s with fids := x } : State).image = s.image)) _
@[simp] theorem State.setFid_err (s : State) (f : Nat) (x : Fid) : (s.setFid f x).err = s.err :=
  (fun x => (rfl : ({ s with fids := x } : State).err = s.err)) _
@[simp] theorem State.setFid_out (s : State) (f : Nat) (x : Fid) : (s.setFid f x).out = s.out :=
  (fun x => (rfl : ({ s with fids := x } : State).out = s.out)) _
@[simp] theorem State.setFid_cleats (s : State) (f : Nat) (x : Fid) : (s.setFid f x).cleats = s.cleats :=
  (fun x => (rfl : ({ s with fids := x } : State).cleats = s.cleats)) _
@[simp] theorem State.setFid_items (s : State) (f : Nat) (x : Fid) : (s.setFid f x).items = s.items :=
  (fun x => (rfl : ({ s with fids := x } : State).items = s.items)) _
@[simp] theorem State.setFid_steps (s : State) (f : Nat) (x : Fid) : (s.setFid f x).steps = s.steps :=
  (fun x => (rfl : ({ s with fids := x } : State).steps = s.steps)) _
@[simp] theorem State.setFid_trk (s : State) (f : Nat) (x : Fid) : (s.setFid f x).trk = s.trk :=
  (fun x => (rfl : ({ s with fids := x } : State).trk = s.trk)) _
@[simp] theorem State.setFid_prog (s : State) (f : Nat) (x : Fid) : (s.setFid f x).prog = s.prog :=
  (fun x => (rfl : ({ s with fids := x } : State).prog = s.prog)) _
@[simp] theorem State.setFid_lay (s : State) (f : Nat) (x : Fid) : (s.setFid f x).lay = s.lay :=
  (fun x => (rfl : ({ s with fids := x } : State).lay = s.lay)) _
@[simp] theorem State.setFid_boot (s : State) (f : Nat) (x : Fid) : (s.setFid f x).boot = s.boot :=
  (fun x => (rfl : ({ s with fids := x } : State).boot = s.boot)) _
@[simp] theorem State.setFid_power (s : State) (f : Nat) (x : Fid) : (s.setFid f x).power = s.power :=
  (fun x => (rfl : ({ s with fids := x } : State).power = s.power)) _
@[simp] theorem State.setFid_sessions (s : State) (f : Nat) (x : Fid) : (s.setFid f x).sessions = s.sessions :=
  (fun x => (rfl : ({ s with fids := x } : State).sessions = s.sessions)) _
@[simp] theorem State.setFid_gens (s : State) (f : Nat) (x : Fid) : (s.setFid f x).gens = s.gens :=
  (fun x => (rfl : ({ s with fids := x } : State).gens = s.gens)) _
@[simp] theorem State.setFid_ports (s : State) (f : Nat) (x : Fid) : (s.setFid f x).ports = s.ports :=
  (fun x => (rfl : ({ s with fids := x } : State).ports = s.ports)) _
@[simp] theorem State.setFid_colls (s : State) (f : Nat) (x : Fid) : (s.setFid f x).colls = s.colls :=
  (fun x => (rfl : ({ s with fids := x } : State).colls = s.colls)) _
@[simp] theorem State.setFid_sends (s : State) (f : Nat) (x : Fid) : (s.setFid f x).sends = s.sends :=
  (fun x => (rfl : ({ s with fids := x } : State).sends = s.sends)) _
@[simp] theorem State.setFid_spills (s : State) (f : Nat) (x : Fid) : (s.setFid f x).spills = s.spills :=
  (fun x => (rfl : ({ s with fids := x } : State).spills = s.spills)) _
@[simp] theorem State.setFid_heldOps (s : State) (f : Nat) (x : Fid) : (s.setFid f x).heldOps = s.heldOps :=
  (fun x => (rfl : ({ s with fids := x } : State).heldOps = s.heldOps)) _
@[simp] theorem State.setFid_exhSeen (s : State) (f : Nat) (x : Fid) : (s.setFid f x).exhSeen = s.exhSeen :=
  (fun x => (rfl : ({ s with fids := x } : State).exhSeen = s.exhSeen)) _
@[simp] theorem State.setFid_wdPast (s : State) (f : Nat) (x : Fid) : (s.setFid f x).wdPast = s.wdPast :=
  (fun x => (rfl : ({ s with fids := x } : State).wdPast = s.wdPast)) _
@[simp] theorem State.setFid_freeCtr (s : State) (f : Nat) (x : Fid) : (s.setFid f x).freeCtr = s.freeCtr :=
  (fun x => (rfl : ({ s with fids := x } : State).freeCtr = s.freeCtr)) _

@[simp] theorem State.setSnarl_pending (s : State) (a k : Nat) (x : Option Snarl) : (s.setSnarl a k x).pending = s.pending :=
  (fun x => (rfl : ({ s with snarl := x } : State).pending = s.pending)) _
@[simp] theorem State.setSnarl_cycle (s : State) (a k : Nat) (x : Option Snarl) : (s.setSnarl a k x).cycle = s.cycle :=
  (fun x => (rfl : ({ s with snarl := x } : State).cycle = s.cycle)) _
@[simp] theorem State.setSnarl_regs (s : State) (a k : Nat) (x : Option Snarl) : (s.setSnarl a k x).regs = s.regs :=
  (fun x => (rfl : ({ s with snarl := x } : State).regs = s.regs)) _
@[simp] theorem State.setSnarl_mem (s : State) (a k : Nat) (x : Option Snarl) : (s.setSnarl a k x).mem = s.mem :=
  (fun x => (rfl : ({ s with snarl := x } : State).mem = s.mem)) _
@[simp] theorem State.setSnarl_mc (s : State) (a k : Nat) (x : Option Snarl) : (s.setSnarl a k x).mc = s.mc :=
  (fun x => (rfl : ({ s with snarl := x } : State).mc = s.mc)) _
@[simp] theorem State.setSnarl_image (s : State) (a k : Nat) (x : Option Snarl) : (s.setSnarl a k x).image = s.image :=
  (fun x => (rfl : ({ s with snarl := x } : State).image = s.image)) _
@[simp] theorem State.setSnarl_err (s : State) (a k : Nat) (x : Option Snarl) : (s.setSnarl a k x).err = s.err :=
  (fun x => (rfl : ({ s with snarl := x } : State).err = s.err)) _
@[simp] theorem State.setSnarl_out (s : State) (a k : Nat) (x : Option Snarl) : (s.setSnarl a k x).out = s.out :=
  (fun x => (rfl : ({ s with snarl := x } : State).out = s.out)) _
@[simp] theorem State.setSnarl_cleats (s : State) (a k : Nat) (x : Option Snarl) : (s.setSnarl a k x).cleats = s.cleats :=
  (fun x => (rfl : ({ s with snarl := x } : State).cleats = s.cleats)) _
@[simp] theorem State.setSnarl_items (s : State) (a k : Nat) (x : Option Snarl) : (s.setSnarl a k x).items = s.items :=
  (fun x => (rfl : ({ s with snarl := x } : State).items = s.items)) _
@[simp] theorem State.setSnarl_steps (s : State) (a k : Nat) (x : Option Snarl) : (s.setSnarl a k x).steps = s.steps :=
  (fun x => (rfl : ({ s with snarl := x } : State).steps = s.steps)) _
@[simp] theorem State.setSnarl_trk (s : State) (a k : Nat) (x : Option Snarl) : (s.setSnarl a k x).trk = s.trk :=
  (fun x => (rfl : ({ s with snarl := x } : State).trk = s.trk)) _
@[simp] theorem State.setSnarl_prog (s : State) (a k : Nat) (x : Option Snarl) : (s.setSnarl a k x).prog = s.prog :=
  (fun x => (rfl : ({ s with snarl := x } : State).prog = s.prog)) _
@[simp] theorem State.setSnarl_lay (s : State) (a k : Nat) (x : Option Snarl) : (s.setSnarl a k x).lay = s.lay :=
  (fun x => (rfl : ({ s with snarl := x } : State).lay = s.lay)) _
@[simp] theorem State.setSnarl_boot (s : State) (a k : Nat) (x : Option Snarl) : (s.setSnarl a k x).boot = s.boot :=
  (fun x => (rfl : ({ s with snarl := x } : State).boot = s.boot)) _
@[simp] theorem State.setSnarl_power (s : State) (a k : Nat) (x : Option Snarl) : (s.setSnarl a k x).power = s.power :=
  (fun x => (rfl : ({ s with snarl := x } : State).power = s.power)) _
@[simp] theorem State.setSnarl_sessions (s : State) (a k : Nat) (x : Option Snarl) : (s.setSnarl a k x).sessions = s.sessions :=
  (fun x => (rfl : ({ s with snarl := x } : State).sessions = s.sessions)) _
@[simp] theorem State.setSnarl_gens (s : State) (a k : Nat) (x : Option Snarl) : (s.setSnarl a k x).gens = s.gens :=
  (fun x => (rfl : ({ s with snarl := x } : State).gens = s.gens)) _
@[simp] theorem State.setSnarl_ports (s : State) (a k : Nat) (x : Option Snarl) : (s.setSnarl a k x).ports = s.ports :=
  (fun x => (rfl : ({ s with snarl := x } : State).ports = s.ports)) _
@[simp] theorem State.setSnarl_colls (s : State) (a k : Nat) (x : Option Snarl) : (s.setSnarl a k x).colls = s.colls :=
  (fun x => (rfl : ({ s with snarl := x } : State).colls = s.colls)) _
@[simp] theorem State.setSnarl_sends (s : State) (a k : Nat) (x : Option Snarl) : (s.setSnarl a k x).sends = s.sends :=
  (fun x => (rfl : ({ s with snarl := x } : State).sends = s.sends)) _
@[simp] theorem State.setSnarl_spills (s : State) (a k : Nat) (x : Option Snarl) : (s.setSnarl a k x).spills = s.spills :=
  (fun x => (rfl : ({ s with snarl := x } : State).spills = s.spills)) _
@[simp] theorem State.setSnarl_heldOps (s : State) (a k : Nat) (x : Option Snarl) : (s.setSnarl a k x).heldOps = s.heldOps :=
  (fun x => (rfl : ({ s with snarl := x } : State).heldOps = s.heldOps)) _
@[simp] theorem State.setSnarl_exhSeen (s : State) (a k : Nat) (x : Option Snarl) : (s.setSnarl a k x).exhSeen = s.exhSeen :=
  (fun x => (rfl : ({ s with snarl := x } : State).exhSeen = s.exhSeen)) _
@[simp] theorem State.setSnarl_wdPast (s : State) (a k : Nat) (x : Option Snarl) : (s.setSnarl a k x).wdPast = s.wdPast :=
  (fun x => (rfl : ({ s with snarl := x } : State).wdPast = s.wdPast)) _
@[simp] theorem State.setSnarl_freeCtr (s : State) (a k : Nat) (x : Option Snarl) : (s.setSnarl a k x).freeCtr = s.freeCtr :=
  (fun x => (rfl : ({ s with snarl := x } : State).freeCtr = s.freeCtr)) _

@[simp] theorem State.putCleat_pending (s : State) (d i : Nat) (v : Word) : (s.putCleat d i v).pending = s.pending :=
  (fun x => (rfl : ({ s with cleats := x } : State).pending = s.pending)) _
@[simp] theorem State.putCleat_cycle (s : State) (d i : Nat) (v : Word) : (s.putCleat d i v).cycle = s.cycle :=
  (fun x => (rfl : ({ s with cleats := x } : State).cycle = s.cycle)) _
@[simp] theorem State.putCleat_regs (s : State) (d i : Nat) (v : Word) : (s.putCleat d i v).regs = s.regs :=
  (fun x => (rfl : ({ s with cleats := x } : State).regs = s.regs)) _
@[simp] theorem State.putCleat_mem (s : State) (d i : Nat) (v : Word) : (s.putCleat d i v).mem = s.mem :=
  (fun x => (rfl : ({ s with cleats := x } : State).mem = s.mem)) _
@[simp] theorem State.putCleat_mc (s : State) (d i : Nat) (v : Word) : (s.putCleat d i v).mc = s.mc :=
  (fun x => (rfl : ({ s with cleats := x } : State).mc = s.mc)) _
@[simp] theorem State.putCleat_image (s : State) (d i : Nat) (v : Word) : (s.putCleat d i v).image = s.image :=
  (fun x => (rfl : ({ s with cleats := x } : State).image = s.image)) _
@[simp] theorem State.putCleat_err (s : State) (d i : Nat) (v : Word) : (s.putCleat d i v).err = s.err :=
  (fun x => (rfl : ({ s with cleats := x } : State).err = s.err)) _
@[simp] theorem State.putCleat_out (s : State) (d i : Nat) (v : Word) : (s.putCleat d i v).out = s.out :=
  (fun x => (rfl : ({ s with cleats := x } : State).out = s.out)) _
@[simp] theorem State.putCleat_items (s : State) (d i : Nat) (v : Word) : (s.putCleat d i v).items = s.items :=
  (fun x => (rfl : ({ s with cleats := x } : State).items = s.items)) _
@[simp] theorem State.putCleat_steps (s : State) (d i : Nat) (v : Word) : (s.putCleat d i v).steps = s.steps :=
  (fun x => (rfl : ({ s with cleats := x } : State).steps = s.steps)) _
@[simp] theorem State.putCleat_trk (s : State) (d i : Nat) (v : Word) : (s.putCleat d i v).trk = s.trk :=
  (fun x => (rfl : ({ s with cleats := x } : State).trk = s.trk)) _
@[simp] theorem State.putCleat_prog (s : State) (d i : Nat) (v : Word) : (s.putCleat d i v).prog = s.prog :=
  (fun x => (rfl : ({ s with cleats := x } : State).prog = s.prog)) _
@[simp] theorem State.putCleat_lay (s : State) (d i : Nat) (v : Word) : (s.putCleat d i v).lay = s.lay :=
  (fun x => (rfl : ({ s with cleats := x } : State).lay = s.lay)) _
@[simp] theorem State.putCleat_boot (s : State) (d i : Nat) (v : Word) : (s.putCleat d i v).boot = s.boot :=
  (fun x => (rfl : ({ s with cleats := x } : State).boot = s.boot)) _
@[simp] theorem State.putCleat_power (s : State) (d i : Nat) (v : Word) : (s.putCleat d i v).power = s.power :=
  (fun x => (rfl : ({ s with cleats := x } : State).power = s.power)) _
@[simp] theorem State.putCleat_sessions (s : State) (d i : Nat) (v : Word) : (s.putCleat d i v).sessions = s.sessions :=
  (fun x => (rfl : ({ s with cleats := x } : State).sessions = s.sessions)) _
@[simp] theorem State.putCleat_gens (s : State) (d i : Nat) (v : Word) : (s.putCleat d i v).gens = s.gens :=
  (fun x => (rfl : ({ s with cleats := x } : State).gens = s.gens)) _
@[simp] theorem State.putCleat_ports (s : State) (d i : Nat) (v : Word) : (s.putCleat d i v).ports = s.ports :=
  (fun x => (rfl : ({ s with cleats := x } : State).ports = s.ports)) _
@[simp] theorem State.putCleat_colls (s : State) (d i : Nat) (v : Word) : (s.putCleat d i v).colls = s.colls :=
  (fun x => (rfl : ({ s with cleats := x } : State).colls = s.colls)) _
@[simp] theorem State.putCleat_sends (s : State) (d i : Nat) (v : Word) : (s.putCleat d i v).sends = s.sends :=
  (fun x => (rfl : ({ s with cleats := x } : State).sends = s.sends)) _
@[simp] theorem State.putCleat_spills (s : State) (d i : Nat) (v : Word) : (s.putCleat d i v).spills = s.spills :=
  (fun x => (rfl : ({ s with cleats := x } : State).spills = s.spills)) _
@[simp] theorem State.putCleat_heldOps (s : State) (d i : Nat) (v : Word) : (s.putCleat d i v).heldOps = s.heldOps :=
  (fun x => (rfl : ({ s with cleats := x } : State).heldOps = s.heldOps)) _
@[simp] theorem State.putCleat_exhSeen (s : State) (d i : Nat) (v : Word) : (s.putCleat d i v).exhSeen = s.exhSeen :=
  (fun x => (rfl : ({ s with cleats := x } : State).exhSeen = s.exhSeen)) _
@[simp] theorem State.putCleat_wdPast (s : State) (d i : Nat) (v : Word) : (s.putCleat d i v).wdPast = s.wdPast :=
  (fun x => (rfl : ({ s with cleats := x } : State).wdPast = s.wdPast)) _
@[simp] theorem State.putCleat_freeCtr (s : State) (d i : Nat) (v : Word) : (s.putCleat d i v).freeCtr = s.freeCtr :=
  (fun x => (rfl : ({ s with cleats := x } : State).freeCtr = s.freeCtr)) _

@[simp] theorem State.setItem_pending (s : State) (r k : Nat) (x : Option Item) : (s.setItem r k x).pending = s.pending :=
  (fun x => (rfl : ({ s with items := x } : State).pending = s.pending)) _
@[simp] theorem State.setItem_cycle (s : State) (r k : Nat) (x : Option Item) : (s.setItem r k x).cycle = s.cycle :=
  (fun x => (rfl : ({ s with items := x } : State).cycle = s.cycle)) _
@[simp] theorem State.setItem_regs (s : State) (r k : Nat) (x : Option Item) : (s.setItem r k x).regs = s.regs :=
  (fun x => (rfl : ({ s with items := x } : State).regs = s.regs)) _
@[simp] theorem State.setItem_mem (s : State) (r k : Nat) (x : Option Item) : (s.setItem r k x).mem = s.mem :=
  (fun x => (rfl : ({ s with items := x } : State).mem = s.mem)) _
@[simp] theorem State.setItem_mc (s : State) (r k : Nat) (x : Option Item) : (s.setItem r k x).mc = s.mc :=
  (fun x => (rfl : ({ s with items := x } : State).mc = s.mc)) _
@[simp] theorem State.setItem_image (s : State) (r k : Nat) (x : Option Item) : (s.setItem r k x).image = s.image :=
  (fun x => (rfl : ({ s with items := x } : State).image = s.image)) _
@[simp] theorem State.setItem_err (s : State) (r k : Nat) (x : Option Item) : (s.setItem r k x).err = s.err :=
  (fun x => (rfl : ({ s with items := x } : State).err = s.err)) _
@[simp] theorem State.setItem_out (s : State) (r k : Nat) (x : Option Item) : (s.setItem r k x).out = s.out :=
  (fun x => (rfl : ({ s with items := x } : State).out = s.out)) _
@[simp] theorem State.setItem_cleats (s : State) (r k : Nat) (x : Option Item) : (s.setItem r k x).cleats = s.cleats :=
  (fun x => (rfl : ({ s with items := x } : State).cleats = s.cleats)) _
@[simp] theorem State.setItem_steps (s : State) (r k : Nat) (x : Option Item) : (s.setItem r k x).steps = s.steps :=
  (fun x => (rfl : ({ s with items := x } : State).steps = s.steps)) _
@[simp] theorem State.setItem_trk (s : State) (r k : Nat) (x : Option Item) : (s.setItem r k x).trk = s.trk :=
  (fun x => (rfl : ({ s with items := x } : State).trk = s.trk)) _
@[simp] theorem State.setItem_prog (s : State) (r k : Nat) (x : Option Item) : (s.setItem r k x).prog = s.prog :=
  (fun x => (rfl : ({ s with items := x } : State).prog = s.prog)) _
@[simp] theorem State.setItem_lay (s : State) (r k : Nat) (x : Option Item) : (s.setItem r k x).lay = s.lay :=
  (fun x => (rfl : ({ s with items := x } : State).lay = s.lay)) _
@[simp] theorem State.setItem_boot (s : State) (r k : Nat) (x : Option Item) : (s.setItem r k x).boot = s.boot :=
  (fun x => (rfl : ({ s with items := x } : State).boot = s.boot)) _
@[simp] theorem State.setItem_power (s : State) (r k : Nat) (x : Option Item) : (s.setItem r k x).power = s.power :=
  (fun x => (rfl : ({ s with items := x } : State).power = s.power)) _
@[simp] theorem State.setItem_sessions (s : State) (r k : Nat) (x : Option Item) : (s.setItem r k x).sessions = s.sessions :=
  (fun x => (rfl : ({ s with items := x } : State).sessions = s.sessions)) _
@[simp] theorem State.setItem_gens (s : State) (r k : Nat) (x : Option Item) : (s.setItem r k x).gens = s.gens :=
  (fun x => (rfl : ({ s with items := x } : State).gens = s.gens)) _
@[simp] theorem State.setItem_ports (s : State) (r k : Nat) (x : Option Item) : (s.setItem r k x).ports = s.ports :=
  (fun x => (rfl : ({ s with items := x } : State).ports = s.ports)) _
@[simp] theorem State.setItem_colls (s : State) (r k : Nat) (x : Option Item) : (s.setItem r k x).colls = s.colls :=
  (fun x => (rfl : ({ s with items := x } : State).colls = s.colls)) _
@[simp] theorem State.setItem_sends (s : State) (r k : Nat) (x : Option Item) : (s.setItem r k x).sends = s.sends :=
  (fun x => (rfl : ({ s with items := x } : State).sends = s.sends)) _
@[simp] theorem State.setItem_spills (s : State) (r k : Nat) (x : Option Item) : (s.setItem r k x).spills = s.spills :=
  (fun x => (rfl : ({ s with items := x } : State).spills = s.spills)) _
@[simp] theorem State.setItem_heldOps (s : State) (r k : Nat) (x : Option Item) : (s.setItem r k x).heldOps = s.heldOps :=
  (fun x => (rfl : ({ s with items := x } : State).heldOps = s.heldOps)) _
@[simp] theorem State.setItem_exhSeen (s : State) (r k : Nat) (x : Option Item) : (s.setItem r k x).exhSeen = s.exhSeen :=
  (fun x => (rfl : ({ s with items := x } : State).exhSeen = s.exhSeen)) _
@[simp] theorem State.setItem_wdPast (s : State) (r k : Nat) (x : Option Item) : (s.setItem r k x).wdPast = s.wdPast :=
  (fun x => (rfl : ({ s with items := x } : State).wdPast = s.wdPast)) _
@[simp] theorem State.setItem_freeCtr (s : State) (r k : Nat) (x : Option Item) : (s.setItem r k x).freeCtr = s.freeCtr :=
  (fun x => (rfl : ({ s with items := x } : State).freeCtr = s.freeCtr)) _

@[simp] theorem State.setGuard_pending (s : State) (i d : Nat) (g : Option Guard) : (s.setGuard i d g).pending = s.pending :=
  (fun x => (rfl : ({ s with guards := x } : State).pending = s.pending)) _
@[simp] theorem State.setGuard_cycle (s : State) (i d : Nat) (g : Option Guard) : (s.setGuard i d g).cycle = s.cycle :=
  (fun x => (rfl : ({ s with guards := x } : State).cycle = s.cycle)) _
@[simp] theorem State.setGuard_regs (s : State) (i d : Nat) (g : Option Guard) : (s.setGuard i d g).regs = s.regs :=
  (fun x => (rfl : ({ s with guards := x } : State).regs = s.regs)) _
@[simp] theorem State.setGuard_mem (s : State) (i d : Nat) (g : Option Guard) : (s.setGuard i d g).mem = s.mem :=
  (fun x => (rfl : ({ s with guards := x } : State).mem = s.mem)) _
@[simp] theorem State.setGuard_mc (s : State) (i d : Nat) (g : Option Guard) : (s.setGuard i d g).mc = s.mc :=
  (fun x => (rfl : ({ s with guards := x } : State).mc = s.mc)) _
@[simp] theorem State.setGuard_image (s : State) (i d : Nat) (g : Option Guard) : (s.setGuard i d g).image = s.image :=
  (fun x => (rfl : ({ s with guards := x } : State).image = s.image)) _
@[simp] theorem State.setGuard_err (s : State) (i d : Nat) (g : Option Guard) : (s.setGuard i d g).err = s.err :=
  (fun x => (rfl : ({ s with guards := x } : State).err = s.err)) _
@[simp] theorem State.setGuard_out (s : State) (i d : Nat) (g : Option Guard) : (s.setGuard i d g).out = s.out :=
  (fun x => (rfl : ({ s with guards := x } : State).out = s.out)) _
@[simp] theorem State.setGuard_cleats (s : State) (i d : Nat) (g : Option Guard) : (s.setGuard i d g).cleats = s.cleats :=
  (fun x => (rfl : ({ s with guards := x } : State).cleats = s.cleats)) _
@[simp] theorem State.setGuard_items (s : State) (i d : Nat) (g : Option Guard) : (s.setGuard i d g).items = s.items :=
  (fun x => (rfl : ({ s with guards := x } : State).items = s.items)) _
@[simp] theorem State.setGuard_steps (s : State) (i d : Nat) (g : Option Guard) : (s.setGuard i d g).steps = s.steps :=
  (fun x => (rfl : ({ s with guards := x } : State).steps = s.steps)) _
@[simp] theorem State.setGuard_trk (s : State) (i d : Nat) (g : Option Guard) : (s.setGuard i d g).trk = s.trk :=
  (fun x => (rfl : ({ s with guards := x } : State).trk = s.trk)) _
@[simp] theorem State.setGuard_prog (s : State) (i d : Nat) (g : Option Guard) : (s.setGuard i d g).prog = s.prog :=
  (fun x => (rfl : ({ s with guards := x } : State).prog = s.prog)) _
@[simp] theorem State.setGuard_lay (s : State) (i d : Nat) (g : Option Guard) : (s.setGuard i d g).lay = s.lay :=
  (fun x => (rfl : ({ s with guards := x } : State).lay = s.lay)) _
@[simp] theorem State.setGuard_boot (s : State) (i d : Nat) (g : Option Guard) : (s.setGuard i d g).boot = s.boot :=
  (fun x => (rfl : ({ s with guards := x } : State).boot = s.boot)) _
@[simp] theorem State.setGuard_power (s : State) (i d : Nat) (g : Option Guard) : (s.setGuard i d g).power = s.power :=
  (fun x => (rfl : ({ s with guards := x } : State).power = s.power)) _
@[simp] theorem State.setGuard_sessions (s : State) (i d : Nat) (g : Option Guard) : (s.setGuard i d g).sessions = s.sessions :=
  (fun x => (rfl : ({ s with guards := x } : State).sessions = s.sessions)) _
@[simp] theorem State.setGuard_gens (s : State) (i d : Nat) (g : Option Guard) : (s.setGuard i d g).gens = s.gens :=
  (fun x => (rfl : ({ s with guards := x } : State).gens = s.gens)) _
@[simp] theorem State.setGuard_ports (s : State) (i d : Nat) (g : Option Guard) : (s.setGuard i d g).ports = s.ports :=
  (fun x => (rfl : ({ s with guards := x } : State).ports = s.ports)) _
@[simp] theorem State.setGuard_colls (s : State) (i d : Nat) (g : Option Guard) : (s.setGuard i d g).colls = s.colls :=
  (fun x => (rfl : ({ s with guards := x } : State).colls = s.colls)) _
@[simp] theorem State.setGuard_sends (s : State) (i d : Nat) (g : Option Guard) : (s.setGuard i d g).sends = s.sends :=
  (fun x => (rfl : ({ s with guards := x } : State).sends = s.sends)) _
@[simp] theorem State.setGuard_spills (s : State) (i d : Nat) (g : Option Guard) : (s.setGuard i d g).spills = s.spills :=
  (fun x => (rfl : ({ s with guards := x } : State).spills = s.spills)) _
@[simp] theorem State.setGuard_heldOps (s : State) (i d : Nat) (g : Option Guard) : (s.setGuard i d g).heldOps = s.heldOps :=
  (fun x => (rfl : ({ s with guards := x } : State).heldOps = s.heldOps)) _
@[simp] theorem State.setGuard_exhSeen (s : State) (i d : Nat) (g : Option Guard) : (s.setGuard i d g).exhSeen = s.exhSeen :=
  (fun x => (rfl : ({ s with guards := x } : State).exhSeen = s.exhSeen)) _
@[simp] theorem State.setGuard_wdPast (s : State) (i d : Nat) (g : Option Guard) : (s.setGuard i d g).wdPast = s.wdPast :=
  (fun x => (rfl : ({ s with guards := x } : State).wdPast = s.wdPast)) _
@[simp] theorem State.setGuard_freeCtr (s : State) (i d : Nat) (g : Option Guard) : (s.setGuard i d g).freeCtr = s.freeCtr :=
  (fun x => (rfl : ({ s with guards := x } : State).freeCtr = s.freeCtr)) _

@[simp] theorem State.setMbx_pending (s : State) (i d : Nat) (b : MbxBank) : (s.setMbx i d b).pending = s.pending :=
  (fun x => (rfl : ({ s with mbx := x } : State).pending = s.pending)) _
@[simp] theorem State.setMbx_cycle (s : State) (i d : Nat) (b : MbxBank) : (s.setMbx i d b).cycle = s.cycle :=
  (fun x => (rfl : ({ s with mbx := x } : State).cycle = s.cycle)) _
@[simp] theorem State.setMbx_regs (s : State) (i d : Nat) (b : MbxBank) : (s.setMbx i d b).regs = s.regs :=
  (fun x => (rfl : ({ s with mbx := x } : State).regs = s.regs)) _
@[simp] theorem State.setMbx_mem (s : State) (i d : Nat) (b : MbxBank) : (s.setMbx i d b).mem = s.mem :=
  (fun x => (rfl : ({ s with mbx := x } : State).mem = s.mem)) _
@[simp] theorem State.setMbx_mc (s : State) (i d : Nat) (b : MbxBank) : (s.setMbx i d b).mc = s.mc :=
  (fun x => (rfl : ({ s with mbx := x } : State).mc = s.mc)) _
@[simp] theorem State.setMbx_image (s : State) (i d : Nat) (b : MbxBank) : (s.setMbx i d b).image = s.image :=
  (fun x => (rfl : ({ s with mbx := x } : State).image = s.image)) _
@[simp] theorem State.setMbx_err (s : State) (i d : Nat) (b : MbxBank) : (s.setMbx i d b).err = s.err :=
  (fun x => (rfl : ({ s with mbx := x } : State).err = s.err)) _
@[simp] theorem State.setMbx_out (s : State) (i d : Nat) (b : MbxBank) : (s.setMbx i d b).out = s.out :=
  (fun x => (rfl : ({ s with mbx := x } : State).out = s.out)) _
@[simp] theorem State.setMbx_cleats (s : State) (i d : Nat) (b : MbxBank) : (s.setMbx i d b).cleats = s.cleats :=
  (fun x => (rfl : ({ s with mbx := x } : State).cleats = s.cleats)) _
@[simp] theorem State.setMbx_items (s : State) (i d : Nat) (b : MbxBank) : (s.setMbx i d b).items = s.items :=
  (fun x => (rfl : ({ s with mbx := x } : State).items = s.items)) _
@[simp] theorem State.setMbx_steps (s : State) (i d : Nat) (b : MbxBank) : (s.setMbx i d b).steps = s.steps :=
  (fun x => (rfl : ({ s with mbx := x } : State).steps = s.steps)) _
@[simp] theorem State.setMbx_trk (s : State) (i d : Nat) (b : MbxBank) : (s.setMbx i d b).trk = s.trk :=
  (fun x => (rfl : ({ s with mbx := x } : State).trk = s.trk)) _
@[simp] theorem State.setMbx_prog (s : State) (i d : Nat) (b : MbxBank) : (s.setMbx i d b).prog = s.prog :=
  (fun x => (rfl : ({ s with mbx := x } : State).prog = s.prog)) _
@[simp] theorem State.setMbx_lay (s : State) (i d : Nat) (b : MbxBank) : (s.setMbx i d b).lay = s.lay :=
  (fun x => (rfl : ({ s with mbx := x } : State).lay = s.lay)) _
@[simp] theorem State.setMbx_boot (s : State) (i d : Nat) (b : MbxBank) : (s.setMbx i d b).boot = s.boot :=
  (fun x => (rfl : ({ s with mbx := x } : State).boot = s.boot)) _
@[simp] theorem State.setMbx_power (s : State) (i d : Nat) (b : MbxBank) : (s.setMbx i d b).power = s.power :=
  (fun x => (rfl : ({ s with mbx := x } : State).power = s.power)) _
@[simp] theorem State.setMbx_sessions (s : State) (i d : Nat) (b : MbxBank) : (s.setMbx i d b).sessions = s.sessions :=
  (fun x => (rfl : ({ s with mbx := x } : State).sessions = s.sessions)) _
@[simp] theorem State.setMbx_gens (s : State) (i d : Nat) (b : MbxBank) : (s.setMbx i d b).gens = s.gens :=
  (fun x => (rfl : ({ s with mbx := x } : State).gens = s.gens)) _
@[simp] theorem State.setMbx_ports (s : State) (i d : Nat) (b : MbxBank) : (s.setMbx i d b).ports = s.ports :=
  (fun x => (rfl : ({ s with mbx := x } : State).ports = s.ports)) _
@[simp] theorem State.setMbx_colls (s : State) (i d : Nat) (b : MbxBank) : (s.setMbx i d b).colls = s.colls :=
  (fun x => (rfl : ({ s with mbx := x } : State).colls = s.colls)) _
@[simp] theorem State.setMbx_sends (s : State) (i d : Nat) (b : MbxBank) : (s.setMbx i d b).sends = s.sends :=
  (fun x => (rfl : ({ s with mbx := x } : State).sends = s.sends)) _
@[simp] theorem State.setMbx_spills (s : State) (i d : Nat) (b : MbxBank) : (s.setMbx i d b).spills = s.spills :=
  (fun x => (rfl : ({ s with mbx := x } : State).spills = s.spills)) _
@[simp] theorem State.setMbx_heldOps (s : State) (i d : Nat) (b : MbxBank) : (s.setMbx i d b).heldOps = s.heldOps :=
  (fun x => (rfl : ({ s with mbx := x } : State).heldOps = s.heldOps)) _
@[simp] theorem State.setMbx_exhSeen (s : State) (i d : Nat) (b : MbxBank) : (s.setMbx i d b).exhSeen = s.exhSeen :=
  (fun x => (rfl : ({ s with mbx := x } : State).exhSeen = s.exhSeen)) _
@[simp] theorem State.setMbx_wdPast (s : State) (i d : Nat) (b : MbxBank) : (s.setMbx i d b).wdPast = s.wdPast :=
  (fun x => (rfl : ({ s with mbx := x } : State).wdPast = s.wdPast)) _
@[simp] theorem State.setMbx_freeCtr (s : State) (i d : Nat) (b : MbxBank) : (s.setMbx i d b).freeCtr = s.freeCtr :=
  (fun x => (rfl : ({ s with mbx := x } : State).freeCtr = s.freeCtr)) _

@[simp] theorem State.setDic_pending (s : State) (i : Nat) (b : DicBank) : (s.setDic i b).pending = s.pending :=
  (fun x => (rfl : ({ s with dic := x } : State).pending = s.pending)) _
@[simp] theorem State.setDic_cycle (s : State) (i : Nat) (b : DicBank) : (s.setDic i b).cycle = s.cycle :=
  (fun x => (rfl : ({ s with dic := x } : State).cycle = s.cycle)) _
@[simp] theorem State.setDic_regs (s : State) (i : Nat) (b : DicBank) : (s.setDic i b).regs = s.regs :=
  (fun x => (rfl : ({ s with dic := x } : State).regs = s.regs)) _
@[simp] theorem State.setDic_mem (s : State) (i : Nat) (b : DicBank) : (s.setDic i b).mem = s.mem :=
  (fun x => (rfl : ({ s with dic := x } : State).mem = s.mem)) _
@[simp] theorem State.setDic_mc (s : State) (i : Nat) (b : DicBank) : (s.setDic i b).mc = s.mc :=
  (fun x => (rfl : ({ s with dic := x } : State).mc = s.mc)) _
@[simp] theorem State.setDic_image (s : State) (i : Nat) (b : DicBank) : (s.setDic i b).image = s.image :=
  (fun x => (rfl : ({ s with dic := x } : State).image = s.image)) _
@[simp] theorem State.setDic_err (s : State) (i : Nat) (b : DicBank) : (s.setDic i b).err = s.err :=
  (fun x => (rfl : ({ s with dic := x } : State).err = s.err)) _
@[simp] theorem State.setDic_out (s : State) (i : Nat) (b : DicBank) : (s.setDic i b).out = s.out :=
  (fun x => (rfl : ({ s with dic := x } : State).out = s.out)) _
@[simp] theorem State.setDic_cleats (s : State) (i : Nat) (b : DicBank) : (s.setDic i b).cleats = s.cleats :=
  (fun x => (rfl : ({ s with dic := x } : State).cleats = s.cleats)) _
@[simp] theorem State.setDic_items (s : State) (i : Nat) (b : DicBank) : (s.setDic i b).items = s.items :=
  (fun x => (rfl : ({ s with dic := x } : State).items = s.items)) _
@[simp] theorem State.setDic_steps (s : State) (i : Nat) (b : DicBank) : (s.setDic i b).steps = s.steps :=
  (fun x => (rfl : ({ s with dic := x } : State).steps = s.steps)) _
@[simp] theorem State.setDic_trk (s : State) (i : Nat) (b : DicBank) : (s.setDic i b).trk = s.trk :=
  (fun x => (rfl : ({ s with dic := x } : State).trk = s.trk)) _
@[simp] theorem State.setDic_prog (s : State) (i : Nat) (b : DicBank) : (s.setDic i b).prog = s.prog :=
  (fun x => (rfl : ({ s with dic := x } : State).prog = s.prog)) _
@[simp] theorem State.setDic_lay (s : State) (i : Nat) (b : DicBank) : (s.setDic i b).lay = s.lay :=
  (fun x => (rfl : ({ s with dic := x } : State).lay = s.lay)) _
@[simp] theorem State.setDic_boot (s : State) (i : Nat) (b : DicBank) : (s.setDic i b).boot = s.boot :=
  (fun x => (rfl : ({ s with dic := x } : State).boot = s.boot)) _
@[simp] theorem State.setDic_power (s : State) (i : Nat) (b : DicBank) : (s.setDic i b).power = s.power :=
  (fun x => (rfl : ({ s with dic := x } : State).power = s.power)) _
@[simp] theorem State.setDic_sessions (s : State) (i : Nat) (b : DicBank) : (s.setDic i b).sessions = s.sessions :=
  (fun x => (rfl : ({ s with dic := x } : State).sessions = s.sessions)) _
@[simp] theorem State.setDic_gens (s : State) (i : Nat) (b : DicBank) : (s.setDic i b).gens = s.gens :=
  (fun x => (rfl : ({ s with dic := x } : State).gens = s.gens)) _
@[simp] theorem State.setDic_ports (s : State) (i : Nat) (b : DicBank) : (s.setDic i b).ports = s.ports :=
  (fun x => (rfl : ({ s with dic := x } : State).ports = s.ports)) _
@[simp] theorem State.setDic_colls (s : State) (i : Nat) (b : DicBank) : (s.setDic i b).colls = s.colls :=
  (fun x => (rfl : ({ s with dic := x } : State).colls = s.colls)) _
@[simp] theorem State.setDic_sends (s : State) (i : Nat) (b : DicBank) : (s.setDic i b).sends = s.sends :=
  (fun x => (rfl : ({ s with dic := x } : State).sends = s.sends)) _
@[simp] theorem State.setDic_spills (s : State) (i : Nat) (b : DicBank) : (s.setDic i b).spills = s.spills :=
  (fun x => (rfl : ({ s with dic := x } : State).spills = s.spills)) _
@[simp] theorem State.setDic_heldOps (s : State) (i : Nat) (b : DicBank) : (s.setDic i b).heldOps = s.heldOps :=
  (fun x => (rfl : ({ s with dic := x } : State).heldOps = s.heldOps)) _
@[simp] theorem State.setDic_exhSeen (s : State) (i : Nat) (b : DicBank) : (s.setDic i b).exhSeen = s.exhSeen :=
  (fun x => (rfl : ({ s with dic := x } : State).exhSeen = s.exhSeen)) _
@[simp] theorem State.setDic_wdPast (s : State) (i : Nat) (b : DicBank) : (s.setDic i b).wdPast = s.wdPast :=
  (fun x => (rfl : ({ s with dic := x } : State).wdPast = s.wdPast)) _
@[simp] theorem State.setDic_freeCtr (s : State) (i : Nat) (b : DicBank) : (s.setDic i b).freeCtr = s.freeCtr :=
  (fun x => (rfl : ({ s with dic := x } : State).freeCtr = s.freeCtr)) _

@[simp] theorem State.setObs_pending (s : State) (i j v : Nat) : (s.setObs i j v).pending = s.pending :=
  (fun x => (rfl : ({ s with observed := x } : State).pending = s.pending)) _
@[simp] theorem State.setObs_cycle (s : State) (i j v : Nat) : (s.setObs i j v).cycle = s.cycle :=
  (fun x => (rfl : ({ s with observed := x } : State).cycle = s.cycle)) _
@[simp] theorem State.setObs_regs (s : State) (i j v : Nat) : (s.setObs i j v).regs = s.regs :=
  (fun x => (rfl : ({ s with observed := x } : State).regs = s.regs)) _
@[simp] theorem State.setObs_mem (s : State) (i j v : Nat) : (s.setObs i j v).mem = s.mem :=
  (fun x => (rfl : ({ s with observed := x } : State).mem = s.mem)) _
@[simp] theorem State.setObs_mc (s : State) (i j v : Nat) : (s.setObs i j v).mc = s.mc :=
  (fun x => (rfl : ({ s with observed := x } : State).mc = s.mc)) _
@[simp] theorem State.setObs_image (s : State) (i j v : Nat) : (s.setObs i j v).image = s.image :=
  (fun x => (rfl : ({ s with observed := x } : State).image = s.image)) _
@[simp] theorem State.setObs_err (s : State) (i j v : Nat) : (s.setObs i j v).err = s.err :=
  (fun x => (rfl : ({ s with observed := x } : State).err = s.err)) _
@[simp] theorem State.setObs_out (s : State) (i j v : Nat) : (s.setObs i j v).out = s.out :=
  (fun x => (rfl : ({ s with observed := x } : State).out = s.out)) _
@[simp] theorem State.setObs_cleats (s : State) (i j v : Nat) : (s.setObs i j v).cleats = s.cleats :=
  (fun x => (rfl : ({ s with observed := x } : State).cleats = s.cleats)) _
@[simp] theorem State.setObs_items (s : State) (i j v : Nat) : (s.setObs i j v).items = s.items :=
  (fun x => (rfl : ({ s with observed := x } : State).items = s.items)) _
@[simp] theorem State.setObs_steps (s : State) (i j v : Nat) : (s.setObs i j v).steps = s.steps :=
  (fun x => (rfl : ({ s with observed := x } : State).steps = s.steps)) _
@[simp] theorem State.setObs_trk (s : State) (i j v : Nat) : (s.setObs i j v).trk = s.trk :=
  (fun x => (rfl : ({ s with observed := x } : State).trk = s.trk)) _
@[simp] theorem State.setObs_prog (s : State) (i j v : Nat) : (s.setObs i j v).prog = s.prog :=
  (fun x => (rfl : ({ s with observed := x } : State).prog = s.prog)) _
@[simp] theorem State.setObs_lay (s : State) (i j v : Nat) : (s.setObs i j v).lay = s.lay :=
  (fun x => (rfl : ({ s with observed := x } : State).lay = s.lay)) _
@[simp] theorem State.setObs_boot (s : State) (i j v : Nat) : (s.setObs i j v).boot = s.boot :=
  (fun x => (rfl : ({ s with observed := x } : State).boot = s.boot)) _
@[simp] theorem State.setObs_power (s : State) (i j v : Nat) : (s.setObs i j v).power = s.power :=
  (fun x => (rfl : ({ s with observed := x } : State).power = s.power)) _
@[simp] theorem State.setObs_sessions (s : State) (i j v : Nat) : (s.setObs i j v).sessions = s.sessions :=
  (fun x => (rfl : ({ s with observed := x } : State).sessions = s.sessions)) _
@[simp] theorem State.setObs_gens (s : State) (i j v : Nat) : (s.setObs i j v).gens = s.gens :=
  (fun x => (rfl : ({ s with observed := x } : State).gens = s.gens)) _
@[simp] theorem State.setObs_ports (s : State) (i j v : Nat) : (s.setObs i j v).ports = s.ports :=
  (fun x => (rfl : ({ s with observed := x } : State).ports = s.ports)) _
@[simp] theorem State.setObs_colls (s : State) (i j v : Nat) : (s.setObs i j v).colls = s.colls :=
  (fun x => (rfl : ({ s with observed := x } : State).colls = s.colls)) _
@[simp] theorem State.setObs_sends (s : State) (i j v : Nat) : (s.setObs i j v).sends = s.sends :=
  (fun x => (rfl : ({ s with observed := x } : State).sends = s.sends)) _
@[simp] theorem State.setObs_spills (s : State) (i j v : Nat) : (s.setObs i j v).spills = s.spills :=
  (fun x => (rfl : ({ s with observed := x } : State).spills = s.spills)) _
@[simp] theorem State.setObs_heldOps (s : State) (i j v : Nat) : (s.setObs i j v).heldOps = s.heldOps :=
  (fun x => (rfl : ({ s with observed := x } : State).heldOps = s.heldOps)) _
@[simp] theorem State.setObs_exhSeen (s : State) (i j v : Nat) : (s.setObs i j v).exhSeen = s.exhSeen :=
  (fun x => (rfl : ({ s with observed := x } : State).exhSeen = s.exhSeen)) _
@[simp] theorem State.setObs_wdPast (s : State) (i j v : Nat) : (s.setObs i j v).wdPast = s.wdPast :=
  (fun x => (rfl : ({ s with observed := x } : State).wdPast = s.wdPast)) _
@[simp] theorem State.setObs_freeCtr (s : State) (i j v : Nat) : (s.setObs i j v).freeCtr = s.freeCtr :=
  (fun x => (rfl : ({ s with observed := x } : State).freeCtr = s.freeCtr)) _

@[simp] theorem State.setProgress_pending (s : State) (i : Nat) (p : Progress) : (s.setProgress i p).pending = s.pending :=
  (fun x => (rfl : ({ s with prog := x } : State).pending = s.pending)) _
@[simp] theorem State.setProgress_cycle (s : State) (i : Nat) (p : Progress) : (s.setProgress i p).cycle = s.cycle :=
  (fun x => (rfl : ({ s with prog := x } : State).cycle = s.cycle)) _
@[simp] theorem State.setProgress_regs (s : State) (i : Nat) (p : Progress) : (s.setProgress i p).regs = s.regs :=
  (fun x => (rfl : ({ s with prog := x } : State).regs = s.regs)) _
@[simp] theorem State.setProgress_mem (s : State) (i : Nat) (p : Progress) : (s.setProgress i p).mem = s.mem :=
  (fun x => (rfl : ({ s with prog := x } : State).mem = s.mem)) _
@[simp] theorem State.setProgress_mc (s : State) (i : Nat) (p : Progress) : (s.setProgress i p).mc = s.mc :=
  (fun x => (rfl : ({ s with prog := x } : State).mc = s.mc)) _
@[simp] theorem State.setProgress_image (s : State) (i : Nat) (p : Progress) : (s.setProgress i p).image = s.image :=
  (fun x => (rfl : ({ s with prog := x } : State).image = s.image)) _
@[simp] theorem State.setProgress_err (s : State) (i : Nat) (p : Progress) : (s.setProgress i p).err = s.err :=
  (fun x => (rfl : ({ s with prog := x } : State).err = s.err)) _
@[simp] theorem State.setProgress_out (s : State) (i : Nat) (p : Progress) : (s.setProgress i p).out = s.out :=
  (fun x => (rfl : ({ s with prog := x } : State).out = s.out)) _
@[simp] theorem State.setProgress_cleats (s : State) (i : Nat) (p : Progress) : (s.setProgress i p).cleats = s.cleats :=
  (fun x => (rfl : ({ s with prog := x } : State).cleats = s.cleats)) _
@[simp] theorem State.setProgress_items (s : State) (i : Nat) (p : Progress) : (s.setProgress i p).items = s.items :=
  (fun x => (rfl : ({ s with prog := x } : State).items = s.items)) _
@[simp] theorem State.setProgress_steps (s : State) (i : Nat) (p : Progress) : (s.setProgress i p).steps = s.steps :=
  (fun x => (rfl : ({ s with prog := x } : State).steps = s.steps)) _
@[simp] theorem State.setProgress_trk (s : State) (i : Nat) (p : Progress) : (s.setProgress i p).trk = s.trk :=
  (fun x => (rfl : ({ s with prog := x } : State).trk = s.trk)) _
@[simp] theorem State.setProgress_lay (s : State) (i : Nat) (p : Progress) : (s.setProgress i p).lay = s.lay :=
  (fun x => (rfl : ({ s with prog := x } : State).lay = s.lay)) _
@[simp] theorem State.setProgress_boot (s : State) (i : Nat) (p : Progress) : (s.setProgress i p).boot = s.boot :=
  (fun x => (rfl : ({ s with prog := x } : State).boot = s.boot)) _
@[simp] theorem State.setProgress_power (s : State) (i : Nat) (p : Progress) : (s.setProgress i p).power = s.power :=
  (fun x => (rfl : ({ s with prog := x } : State).power = s.power)) _
@[simp] theorem State.setProgress_sessions (s : State) (i : Nat) (p : Progress) : (s.setProgress i p).sessions = s.sessions :=
  (fun x => (rfl : ({ s with prog := x } : State).sessions = s.sessions)) _
@[simp] theorem State.setProgress_gens (s : State) (i : Nat) (p : Progress) : (s.setProgress i p).gens = s.gens :=
  (fun x => (rfl : ({ s with prog := x } : State).gens = s.gens)) _
@[simp] theorem State.setProgress_ports (s : State) (i : Nat) (p : Progress) : (s.setProgress i p).ports = s.ports :=
  (fun x => (rfl : ({ s with prog := x } : State).ports = s.ports)) _
@[simp] theorem State.setProgress_colls (s : State) (i : Nat) (p : Progress) : (s.setProgress i p).colls = s.colls :=
  (fun x => (rfl : ({ s with prog := x } : State).colls = s.colls)) _
@[simp] theorem State.setProgress_sends (s : State) (i : Nat) (p : Progress) : (s.setProgress i p).sends = s.sends :=
  (fun x => (rfl : ({ s with prog := x } : State).sends = s.sends)) _
@[simp] theorem State.setProgress_spills (s : State) (i : Nat) (p : Progress) : (s.setProgress i p).spills = s.spills :=
  (fun x => (rfl : ({ s with prog := x } : State).spills = s.spills)) _
@[simp] theorem State.setProgress_heldOps (s : State) (i : Nat) (p : Progress) : (s.setProgress i p).heldOps = s.heldOps :=
  (fun x => (rfl : ({ s with prog := x } : State).heldOps = s.heldOps)) _
@[simp] theorem State.setProgress_exhSeen (s : State) (i : Nat) (p : Progress) : (s.setProgress i p).exhSeen = s.exhSeen :=
  (fun x => (rfl : ({ s with prog := x } : State).exhSeen = s.exhSeen)) _
@[simp] theorem State.setProgress_wdPast (s : State) (i : Nat) (p : Progress) : (s.setProgress i p).wdPast = s.wdPast :=
  (fun x => (rfl : ({ s with prog := x } : State).wdPast = s.wdPast)) _
@[simp] theorem State.setProgress_freeCtr (s : State) (i : Nat) (p : Progress) : (s.setProgress i p).freeCtr = s.freeCtr :=
  (fun x => (rfl : ({ s with prog := x } : State).freeCtr = s.freeCtr)) _

@[simp] theorem State.setStep_pending (s : State) (k : Nat) (x : StepSlot) : (s.setStep k x).pending = s.pending :=
  (fun x => (rfl : ({ s with steps := x } : State).pending = s.pending)) _
@[simp] theorem State.setStep_cycle (s : State) (k : Nat) (x : StepSlot) : (s.setStep k x).cycle = s.cycle :=
  (fun x => (rfl : ({ s with steps := x } : State).cycle = s.cycle)) _
@[simp] theorem State.setStep_regs (s : State) (k : Nat) (x : StepSlot) : (s.setStep k x).regs = s.regs :=
  (fun x => (rfl : ({ s with steps := x } : State).regs = s.regs)) _
@[simp] theorem State.setStep_mem (s : State) (k : Nat) (x : StepSlot) : (s.setStep k x).mem = s.mem :=
  (fun x => (rfl : ({ s with steps := x } : State).mem = s.mem)) _
@[simp] theorem State.setStep_mc (s : State) (k : Nat) (x : StepSlot) : (s.setStep k x).mc = s.mc :=
  (fun x => (rfl : ({ s with steps := x } : State).mc = s.mc)) _
@[simp] theorem State.setStep_image (s : State) (k : Nat) (x : StepSlot) : (s.setStep k x).image = s.image :=
  (fun x => (rfl : ({ s with steps := x } : State).image = s.image)) _
@[simp] theorem State.setStep_err (s : State) (k : Nat) (x : StepSlot) : (s.setStep k x).err = s.err :=
  (fun x => (rfl : ({ s with steps := x } : State).err = s.err)) _
@[simp] theorem State.setStep_out (s : State) (k : Nat) (x : StepSlot) : (s.setStep k x).out = s.out :=
  (fun x => (rfl : ({ s with steps := x } : State).out = s.out)) _
@[simp] theorem State.setStep_cleats (s : State) (k : Nat) (x : StepSlot) : (s.setStep k x).cleats = s.cleats :=
  (fun x => (rfl : ({ s with steps := x } : State).cleats = s.cleats)) _
@[simp] theorem State.setStep_items (s : State) (k : Nat) (x : StepSlot) : (s.setStep k x).items = s.items :=
  (fun x => (rfl : ({ s with steps := x } : State).items = s.items)) _
@[simp] theorem State.setStep_trk (s : State) (k : Nat) (x : StepSlot) : (s.setStep k x).trk = s.trk :=
  (fun x => (rfl : ({ s with steps := x } : State).trk = s.trk)) _
@[simp] theorem State.setStep_prog (s : State) (k : Nat) (x : StepSlot) : (s.setStep k x).prog = s.prog :=
  (fun x => (rfl : ({ s with steps := x } : State).prog = s.prog)) _
@[simp] theorem State.setStep_lay (s : State) (k : Nat) (x : StepSlot) : (s.setStep k x).lay = s.lay :=
  (fun x => (rfl : ({ s with steps := x } : State).lay = s.lay)) _
@[simp] theorem State.setStep_boot (s : State) (k : Nat) (x : StepSlot) : (s.setStep k x).boot = s.boot :=
  (fun x => (rfl : ({ s with steps := x } : State).boot = s.boot)) _
@[simp] theorem State.setStep_power (s : State) (k : Nat) (x : StepSlot) : (s.setStep k x).power = s.power :=
  (fun x => (rfl : ({ s with steps := x } : State).power = s.power)) _
@[simp] theorem State.setStep_sessions (s : State) (k : Nat) (x : StepSlot) : (s.setStep k x).sessions = s.sessions :=
  (fun x => (rfl : ({ s with steps := x } : State).sessions = s.sessions)) _
@[simp] theorem State.setStep_gens (s : State) (k : Nat) (x : StepSlot) : (s.setStep k x).gens = s.gens :=
  (fun x => (rfl : ({ s with steps := x } : State).gens = s.gens)) _
@[simp] theorem State.setStep_ports (s : State) (k : Nat) (x : StepSlot) : (s.setStep k x).ports = s.ports :=
  (fun x => (rfl : ({ s with steps := x } : State).ports = s.ports)) _
@[simp] theorem State.setStep_colls (s : State) (k : Nat) (x : StepSlot) : (s.setStep k x).colls = s.colls :=
  (fun x => (rfl : ({ s with steps := x } : State).colls = s.colls)) _
@[simp] theorem State.setStep_sends (s : State) (k : Nat) (x : StepSlot) : (s.setStep k x).sends = s.sends :=
  (fun x => (rfl : ({ s with steps := x } : State).sends = s.sends)) _
@[simp] theorem State.setStep_spills (s : State) (k : Nat) (x : StepSlot) : (s.setStep k x).spills = s.spills :=
  (fun x => (rfl : ({ s with steps := x } : State).spills = s.spills)) _
@[simp] theorem State.setStep_heldOps (s : State) (k : Nat) (x : StepSlot) : (s.setStep k x).heldOps = s.heldOps :=
  (fun x => (rfl : ({ s with steps := x } : State).heldOps = s.heldOps)) _
@[simp] theorem State.setStep_exhSeen (s : State) (k : Nat) (x : StepSlot) : (s.setStep k x).exhSeen = s.exhSeen :=
  (fun x => (rfl : ({ s with steps := x } : State).exhSeen = s.exhSeen)) _
@[simp] theorem State.setStep_wdPast (s : State) (k : Nat) (x : StepSlot) : (s.setStep k x).wdPast = s.wdPast :=
  (fun x => (rfl : ({ s with steps := x } : State).wdPast = s.wdPast)) _
@[simp] theorem State.setStep_freeCtr (s : State) (k : Nat) (x : StepSlot) : (s.setStep k x).freeCtr = s.freeCtr :=
  (fun x => (rfl : ({ s with steps := x } : State).freeCtr = s.freeCtr)) _

@[simp] theorem State.setTracker_pending (s : State) (t : Nat) (x : Tracker) : (s.setTracker t x).pending = s.pending :=
  (fun x => (rfl : ({ s with trk := x } : State).pending = s.pending)) _
@[simp] theorem State.setTracker_cycle (s : State) (t : Nat) (x : Tracker) : (s.setTracker t x).cycle = s.cycle :=
  (fun x => (rfl : ({ s with trk := x } : State).cycle = s.cycle)) _
@[simp] theorem State.setTracker_regs (s : State) (t : Nat) (x : Tracker) : (s.setTracker t x).regs = s.regs :=
  (fun x => (rfl : ({ s with trk := x } : State).regs = s.regs)) _
@[simp] theorem State.setTracker_mem (s : State) (t : Nat) (x : Tracker) : (s.setTracker t x).mem = s.mem :=
  (fun x => (rfl : ({ s with trk := x } : State).mem = s.mem)) _
@[simp] theorem State.setTracker_mc (s : State) (t : Nat) (x : Tracker) : (s.setTracker t x).mc = s.mc :=
  (fun x => (rfl : ({ s with trk := x } : State).mc = s.mc)) _
@[simp] theorem State.setTracker_image (s : State) (t : Nat) (x : Tracker) : (s.setTracker t x).image = s.image :=
  (fun x => (rfl : ({ s with trk := x } : State).image = s.image)) _
@[simp] theorem State.setTracker_err (s : State) (t : Nat) (x : Tracker) : (s.setTracker t x).err = s.err :=
  (fun x => (rfl : ({ s with trk := x } : State).err = s.err)) _
@[simp] theorem State.setTracker_out (s : State) (t : Nat) (x : Tracker) : (s.setTracker t x).out = s.out :=
  (fun x => (rfl : ({ s with trk := x } : State).out = s.out)) _
@[simp] theorem State.setTracker_cleats (s : State) (t : Nat) (x : Tracker) : (s.setTracker t x).cleats = s.cleats :=
  (fun x => (rfl : ({ s with trk := x } : State).cleats = s.cleats)) _
@[simp] theorem State.setTracker_items (s : State) (t : Nat) (x : Tracker) : (s.setTracker t x).items = s.items :=
  (fun x => (rfl : ({ s with trk := x } : State).items = s.items)) _
@[simp] theorem State.setTracker_steps (s : State) (t : Nat) (x : Tracker) : (s.setTracker t x).steps = s.steps :=
  (fun x => (rfl : ({ s with trk := x } : State).steps = s.steps)) _
@[simp] theorem State.setTracker_prog (s : State) (t : Nat) (x : Tracker) : (s.setTracker t x).prog = s.prog :=
  (fun x => (rfl : ({ s with trk := x } : State).prog = s.prog)) _
@[simp] theorem State.setTracker_lay (s : State) (t : Nat) (x : Tracker) : (s.setTracker t x).lay = s.lay :=
  (fun x => (rfl : ({ s with trk := x } : State).lay = s.lay)) _
@[simp] theorem State.setTracker_boot (s : State) (t : Nat) (x : Tracker) : (s.setTracker t x).boot = s.boot :=
  (fun x => (rfl : ({ s with trk := x } : State).boot = s.boot)) _
@[simp] theorem State.setTracker_power (s : State) (t : Nat) (x : Tracker) : (s.setTracker t x).power = s.power :=
  (fun x => (rfl : ({ s with trk := x } : State).power = s.power)) _
@[simp] theorem State.setTracker_sessions (s : State) (t : Nat) (x : Tracker) : (s.setTracker t x).sessions = s.sessions :=
  (fun x => (rfl : ({ s with trk := x } : State).sessions = s.sessions)) _
@[simp] theorem State.setTracker_gens (s : State) (t : Nat) (x : Tracker) : (s.setTracker t x).gens = s.gens :=
  (fun x => (rfl : ({ s with trk := x } : State).gens = s.gens)) _
@[simp] theorem State.setTracker_ports (s : State) (t : Nat) (x : Tracker) : (s.setTracker t x).ports = s.ports :=
  (fun x => (rfl : ({ s with trk := x } : State).ports = s.ports)) _
@[simp] theorem State.setTracker_colls (s : State) (t : Nat) (x : Tracker) : (s.setTracker t x).colls = s.colls :=
  (fun x => (rfl : ({ s with trk := x } : State).colls = s.colls)) _
@[simp] theorem State.setTracker_sends (s : State) (t : Nat) (x : Tracker) : (s.setTracker t x).sends = s.sends :=
  (fun x => (rfl : ({ s with trk := x } : State).sends = s.sends)) _
@[simp] theorem State.setTracker_spills (s : State) (t : Nat) (x : Tracker) : (s.setTracker t x).spills = s.spills :=
  (fun x => (rfl : ({ s with trk := x } : State).spills = s.spills)) _
@[simp] theorem State.setTracker_heldOps (s : State) (t : Nat) (x : Tracker) : (s.setTracker t x).heldOps = s.heldOps :=
  (fun x => (rfl : ({ s with trk := x } : State).heldOps = s.heldOps)) _
@[simp] theorem State.setTracker_exhSeen (s : State) (t : Nat) (x : Tracker) : (s.setTracker t x).exhSeen = s.exhSeen :=
  (fun x => (rfl : ({ s with trk := x } : State).exhSeen = s.exhSeen)) _
@[simp] theorem State.setTracker_wdPast (s : State) (t : Nat) (x : Tracker) : (s.setTracker t x).wdPast = s.wdPast :=
  (fun x => (rfl : ({ s with trk := x } : State).wdPast = s.wdPast)) _
@[simp] theorem State.setTracker_freeCtr (s : State) (t : Nat) (x : Tracker) : (s.setTracker t x).freeCtr = s.freeCtr :=
  (fun x => (rfl : ({ s with trk := x } : State).freeCtr = s.freeCtr)) _

@[simp] theorem State.setPort_pending (s : State) (p : Nat) (x : Port) : (s.setPort p x).pending = s.pending :=
  (fun x => (rfl : ({ s with ports := x } : State).pending = s.pending)) _
@[simp] theorem State.setPort_cycle (s : State) (p : Nat) (x : Port) : (s.setPort p x).cycle = s.cycle :=
  (fun x => (rfl : ({ s with ports := x } : State).cycle = s.cycle)) _
@[simp] theorem State.setPort_regs (s : State) (p : Nat) (x : Port) : (s.setPort p x).regs = s.regs :=
  (fun x => (rfl : ({ s with ports := x } : State).regs = s.regs)) _
@[simp] theorem State.setPort_mem (s : State) (p : Nat) (x : Port) : (s.setPort p x).mem = s.mem :=
  (fun x => (rfl : ({ s with ports := x } : State).mem = s.mem)) _
@[simp] theorem State.setPort_mc (s : State) (p : Nat) (x : Port) : (s.setPort p x).mc = s.mc :=
  (fun x => (rfl : ({ s with ports := x } : State).mc = s.mc)) _
@[simp] theorem State.setPort_image (s : State) (p : Nat) (x : Port) : (s.setPort p x).image = s.image :=
  (fun x => (rfl : ({ s with ports := x } : State).image = s.image)) _
@[simp] theorem State.setPort_err (s : State) (p : Nat) (x : Port) : (s.setPort p x).err = s.err :=
  (fun x => (rfl : ({ s with ports := x } : State).err = s.err)) _
@[simp] theorem State.setPort_out (s : State) (p : Nat) (x : Port) : (s.setPort p x).out = s.out :=
  (fun x => (rfl : ({ s with ports := x } : State).out = s.out)) _
@[simp] theorem State.setPort_cleats (s : State) (p : Nat) (x : Port) : (s.setPort p x).cleats = s.cleats :=
  (fun x => (rfl : ({ s with ports := x } : State).cleats = s.cleats)) _
@[simp] theorem State.setPort_items (s : State) (p : Nat) (x : Port) : (s.setPort p x).items = s.items :=
  (fun x => (rfl : ({ s with ports := x } : State).items = s.items)) _
@[simp] theorem State.setPort_steps (s : State) (p : Nat) (x : Port) : (s.setPort p x).steps = s.steps :=
  (fun x => (rfl : ({ s with ports := x } : State).steps = s.steps)) _
@[simp] theorem State.setPort_trk (s : State) (p : Nat) (x : Port) : (s.setPort p x).trk = s.trk :=
  (fun x => (rfl : ({ s with ports := x } : State).trk = s.trk)) _
@[simp] theorem State.setPort_prog (s : State) (p : Nat) (x : Port) : (s.setPort p x).prog = s.prog :=
  (fun x => (rfl : ({ s with ports := x } : State).prog = s.prog)) _
@[simp] theorem State.setPort_lay (s : State) (p : Nat) (x : Port) : (s.setPort p x).lay = s.lay :=
  (fun x => (rfl : ({ s with ports := x } : State).lay = s.lay)) _
@[simp] theorem State.setPort_boot (s : State) (p : Nat) (x : Port) : (s.setPort p x).boot = s.boot :=
  (fun x => (rfl : ({ s with ports := x } : State).boot = s.boot)) _
@[simp] theorem State.setPort_power (s : State) (p : Nat) (x : Port) : (s.setPort p x).power = s.power :=
  (fun x => (rfl : ({ s with ports := x } : State).power = s.power)) _
@[simp] theorem State.setPort_sessions (s : State) (p : Nat) (x : Port) : (s.setPort p x).sessions = s.sessions :=
  (fun x => (rfl : ({ s with ports := x } : State).sessions = s.sessions)) _
@[simp] theorem State.setPort_gens (s : State) (p : Nat) (x : Port) : (s.setPort p x).gens = s.gens :=
  (fun x => (rfl : ({ s with ports := x } : State).gens = s.gens)) _
@[simp] theorem State.setPort_colls (s : State) (p : Nat) (x : Port) : (s.setPort p x).colls = s.colls :=
  (fun x => (rfl : ({ s with ports := x } : State).colls = s.colls)) _
@[simp] theorem State.setPort_sends (s : State) (p : Nat) (x : Port) : (s.setPort p x).sends = s.sends :=
  (fun x => (rfl : ({ s with ports := x } : State).sends = s.sends)) _
@[simp] theorem State.setPort_spills (s : State) (p : Nat) (x : Port) : (s.setPort p x).spills = s.spills :=
  (fun x => (rfl : ({ s with ports := x } : State).spills = s.spills)) _
@[simp] theorem State.setPort_heldOps (s : State) (p : Nat) (x : Port) : (s.setPort p x).heldOps = s.heldOps :=
  (fun x => (rfl : ({ s with ports := x } : State).heldOps = s.heldOps)) _
@[simp] theorem State.setPort_exhSeen (s : State) (p : Nat) (x : Port) : (s.setPort p x).exhSeen = s.exhSeen :=
  (fun x => (rfl : ({ s with ports := x } : State).exhSeen = s.exhSeen)) _
@[simp] theorem State.setPort_wdPast (s : State) (p : Nat) (x : Port) : (s.setPort p x).wdPast = s.wdPast :=
  (fun x => (rfl : ({ s with ports := x } : State).wdPast = s.wdPast)) _
@[simp] theorem State.setPort_freeCtr (s : State) (p : Nat) (x : Port) : (s.setPort p x).freeCtr = s.freeCtr :=
  (fun x => (rfl : ({ s with ports := x } : State).freeCtr = s.freeCtr)) _

@[simp] theorem State.setColl_pending (s : State) (k : Nat) (c : Option Coll) : (s.setColl k c).pending = s.pending :=
  (fun x => (rfl : ({ s with colls := x } : State).pending = s.pending)) _
@[simp] theorem State.setColl_cycle (s : State) (k : Nat) (c : Option Coll) : (s.setColl k c).cycle = s.cycle :=
  (fun x => (rfl : ({ s with colls := x } : State).cycle = s.cycle)) _
@[simp] theorem State.setColl_regs (s : State) (k : Nat) (c : Option Coll) : (s.setColl k c).regs = s.regs :=
  (fun x => (rfl : ({ s with colls := x } : State).regs = s.regs)) _
@[simp] theorem State.setColl_mem (s : State) (k : Nat) (c : Option Coll) : (s.setColl k c).mem = s.mem :=
  (fun x => (rfl : ({ s with colls := x } : State).mem = s.mem)) _
@[simp] theorem State.setColl_mc (s : State) (k : Nat) (c : Option Coll) : (s.setColl k c).mc = s.mc :=
  (fun x => (rfl : ({ s with colls := x } : State).mc = s.mc)) _
@[simp] theorem State.setColl_image (s : State) (k : Nat) (c : Option Coll) : (s.setColl k c).image = s.image :=
  (fun x => (rfl : ({ s with colls := x } : State).image = s.image)) _
@[simp] theorem State.setColl_err (s : State) (k : Nat) (c : Option Coll) : (s.setColl k c).err = s.err :=
  (fun x => (rfl : ({ s with colls := x } : State).err = s.err)) _
@[simp] theorem State.setColl_out (s : State) (k : Nat) (c : Option Coll) : (s.setColl k c).out = s.out :=
  (fun x => (rfl : ({ s with colls := x } : State).out = s.out)) _
@[simp] theorem State.setColl_cleats (s : State) (k : Nat) (c : Option Coll) : (s.setColl k c).cleats = s.cleats :=
  (fun x => (rfl : ({ s with colls := x } : State).cleats = s.cleats)) _
@[simp] theorem State.setColl_items (s : State) (k : Nat) (c : Option Coll) : (s.setColl k c).items = s.items :=
  (fun x => (rfl : ({ s with colls := x } : State).items = s.items)) _
@[simp] theorem State.setColl_steps (s : State) (k : Nat) (c : Option Coll) : (s.setColl k c).steps = s.steps :=
  (fun x => (rfl : ({ s with colls := x } : State).steps = s.steps)) _
@[simp] theorem State.setColl_trk (s : State) (k : Nat) (c : Option Coll) : (s.setColl k c).trk = s.trk :=
  (fun x => (rfl : ({ s with colls := x } : State).trk = s.trk)) _
@[simp] theorem State.setColl_prog (s : State) (k : Nat) (c : Option Coll) : (s.setColl k c).prog = s.prog :=
  (fun x => (rfl : ({ s with colls := x } : State).prog = s.prog)) _
@[simp] theorem State.setColl_lay (s : State) (k : Nat) (c : Option Coll) : (s.setColl k c).lay = s.lay :=
  (fun x => (rfl : ({ s with colls := x } : State).lay = s.lay)) _
@[simp] theorem State.setColl_boot (s : State) (k : Nat) (c : Option Coll) : (s.setColl k c).boot = s.boot :=
  (fun x => (rfl : ({ s with colls := x } : State).boot = s.boot)) _
@[simp] theorem State.setColl_power (s : State) (k : Nat) (c : Option Coll) : (s.setColl k c).power = s.power :=
  (fun x => (rfl : ({ s with colls := x } : State).power = s.power)) _
@[simp] theorem State.setColl_sessions (s : State) (k : Nat) (c : Option Coll) : (s.setColl k c).sessions = s.sessions :=
  (fun x => (rfl : ({ s with colls := x } : State).sessions = s.sessions)) _
@[simp] theorem State.setColl_gens (s : State) (k : Nat) (c : Option Coll) : (s.setColl k c).gens = s.gens :=
  (fun x => (rfl : ({ s with colls := x } : State).gens = s.gens)) _
@[simp] theorem State.setColl_ports (s : State) (k : Nat) (c : Option Coll) : (s.setColl k c).ports = s.ports :=
  (fun x => (rfl : ({ s with colls := x } : State).ports = s.ports)) _
@[simp] theorem State.setColl_sends (s : State) (k : Nat) (c : Option Coll) : (s.setColl k c).sends = s.sends :=
  (fun x => (rfl : ({ s with colls := x } : State).sends = s.sends)) _
@[simp] theorem State.setColl_spills (s : State) (k : Nat) (c : Option Coll) : (s.setColl k c).spills = s.spills :=
  (fun x => (rfl : ({ s with colls := x } : State).spills = s.spills)) _
@[simp] theorem State.setColl_heldOps (s : State) (k : Nat) (c : Option Coll) : (s.setColl k c).heldOps = s.heldOps :=
  (fun x => (rfl : ({ s with colls := x } : State).heldOps = s.heldOps)) _
@[simp] theorem State.setColl_exhSeen (s : State) (k : Nat) (c : Option Coll) : (s.setColl k c).exhSeen = s.exhSeen :=
  (fun x => (rfl : ({ s with colls := x } : State).exhSeen = s.exhSeen)) _
@[simp] theorem State.setColl_wdPast (s : State) (k : Nat) (c : Option Coll) : (s.setColl k c).wdPast = s.wdPast :=
  (fun x => (rfl : ({ s with colls := x } : State).wdPast = s.wdPast)) _
@[simp] theorem State.setColl_freeCtr (s : State) (k : Nat) (c : Option Coll) : (s.setColl k c).freeCtr = s.freeCtr :=
  (fun x => (rfl : ({ s with colls := x } : State).freeCtr = s.freeCtr)) _

@[simp] theorem State.setSpill_pending (s : State) (c : Nat) (l : List SpillTok) : (s.setSpill c l).pending = s.pending :=
  (fun x => (rfl : ({ s with spills := x } : State).pending = s.pending)) _
@[simp] theorem State.setSpill_cycle (s : State) (c : Nat) (l : List SpillTok) : (s.setSpill c l).cycle = s.cycle :=
  (fun x => (rfl : ({ s with spills := x } : State).cycle = s.cycle)) _
@[simp] theorem State.setSpill_regs (s : State) (c : Nat) (l : List SpillTok) : (s.setSpill c l).regs = s.regs :=
  (fun x => (rfl : ({ s with spills := x } : State).regs = s.regs)) _
@[simp] theorem State.setSpill_mem (s : State) (c : Nat) (l : List SpillTok) : (s.setSpill c l).mem = s.mem :=
  (fun x => (rfl : ({ s with spills := x } : State).mem = s.mem)) _
@[simp] theorem State.setSpill_mc (s : State) (c : Nat) (l : List SpillTok) : (s.setSpill c l).mc = s.mc :=
  (fun x => (rfl : ({ s with spills := x } : State).mc = s.mc)) _
@[simp] theorem State.setSpill_image (s : State) (c : Nat) (l : List SpillTok) : (s.setSpill c l).image = s.image :=
  (fun x => (rfl : ({ s with spills := x } : State).image = s.image)) _
@[simp] theorem State.setSpill_err (s : State) (c : Nat) (l : List SpillTok) : (s.setSpill c l).err = s.err :=
  (fun x => (rfl : ({ s with spills := x } : State).err = s.err)) _
@[simp] theorem State.setSpill_out (s : State) (c : Nat) (l : List SpillTok) : (s.setSpill c l).out = s.out :=
  (fun x => (rfl : ({ s with spills := x } : State).out = s.out)) _
@[simp] theorem State.setSpill_cleats (s : State) (c : Nat) (l : List SpillTok) : (s.setSpill c l).cleats = s.cleats :=
  (fun x => (rfl : ({ s with spills := x } : State).cleats = s.cleats)) _
@[simp] theorem State.setSpill_items (s : State) (c : Nat) (l : List SpillTok) : (s.setSpill c l).items = s.items :=
  (fun x => (rfl : ({ s with spills := x } : State).items = s.items)) _
@[simp] theorem State.setSpill_steps (s : State) (c : Nat) (l : List SpillTok) : (s.setSpill c l).steps = s.steps :=
  (fun x => (rfl : ({ s with spills := x } : State).steps = s.steps)) _
@[simp] theorem State.setSpill_trk (s : State) (c : Nat) (l : List SpillTok) : (s.setSpill c l).trk = s.trk :=
  (fun x => (rfl : ({ s with spills := x } : State).trk = s.trk)) _
@[simp] theorem State.setSpill_prog (s : State) (c : Nat) (l : List SpillTok) : (s.setSpill c l).prog = s.prog :=
  (fun x => (rfl : ({ s with spills := x } : State).prog = s.prog)) _
@[simp] theorem State.setSpill_lay (s : State) (c : Nat) (l : List SpillTok) : (s.setSpill c l).lay = s.lay :=
  (fun x => (rfl : ({ s with spills := x } : State).lay = s.lay)) _
@[simp] theorem State.setSpill_boot (s : State) (c : Nat) (l : List SpillTok) : (s.setSpill c l).boot = s.boot :=
  (fun x => (rfl : ({ s with spills := x } : State).boot = s.boot)) _
@[simp] theorem State.setSpill_power (s : State) (c : Nat) (l : List SpillTok) : (s.setSpill c l).power = s.power :=
  (fun x => (rfl : ({ s with spills := x } : State).power = s.power)) _
@[simp] theorem State.setSpill_sessions (s : State) (c : Nat) (l : List SpillTok) : (s.setSpill c l).sessions = s.sessions :=
  (fun x => (rfl : ({ s with spills := x } : State).sessions = s.sessions)) _
@[simp] theorem State.setSpill_gens (s : State) (c : Nat) (l : List SpillTok) : (s.setSpill c l).gens = s.gens :=
  (fun x => (rfl : ({ s with spills := x } : State).gens = s.gens)) _
@[simp] theorem State.setSpill_ports (s : State) (c : Nat) (l : List SpillTok) : (s.setSpill c l).ports = s.ports :=
  (fun x => (rfl : ({ s with spills := x } : State).ports = s.ports)) _
@[simp] theorem State.setSpill_colls (s : State) (c : Nat) (l : List SpillTok) : (s.setSpill c l).colls = s.colls :=
  (fun x => (rfl : ({ s with spills := x } : State).colls = s.colls)) _
@[simp] theorem State.setSpill_sends (s : State) (c : Nat) (l : List SpillTok) : (s.setSpill c l).sends = s.sends :=
  (fun x => (rfl : ({ s with spills := x } : State).sends = s.sends)) _
@[simp] theorem State.setSpill_heldOps (s : State) (c : Nat) (l : List SpillTok) : (s.setSpill c l).heldOps = s.heldOps :=
  (fun x => (rfl : ({ s with spills := x } : State).heldOps = s.heldOps)) _
@[simp] theorem State.setSpill_exhSeen (s : State) (c : Nat) (l : List SpillTok) : (s.setSpill c l).exhSeen = s.exhSeen :=
  (fun x => (rfl : ({ s with spills := x } : State).exhSeen = s.exhSeen)) _
@[simp] theorem State.setSpill_wdPast (s : State) (c : Nat) (l : List SpillTok) : (s.setSpill c l).wdPast = s.wdPast :=
  (fun x => (rfl : ({ s with spills := x } : State).wdPast = s.wdPast)) _
@[simp] theorem State.setSpill_freeCtr (s : State) (c : Nat) (l : List SpillTok) : (s.setSpill c l).freeCtr = s.freeCtr :=
  (fun x => (rfl : ({ s with spills := x } : State).freeCtr = s.freeCtr)) _

@[simp] theorem State.setLayer_pending (s : State) (l : Nat) (x : LayerRec) : (s.setLayer l x).pending = s.pending :=
  (fun x => (rfl : ({ s with layers := x } : State).pending = s.pending)) _
@[simp] theorem State.setLayer_cycle (s : State) (l : Nat) (x : LayerRec) : (s.setLayer l x).cycle = s.cycle :=
  (fun x => (rfl : ({ s with layers := x } : State).cycle = s.cycle)) _
@[simp] theorem State.setLayer_regs (s : State) (l : Nat) (x : LayerRec) : (s.setLayer l x).regs = s.regs :=
  (fun x => (rfl : ({ s with layers := x } : State).regs = s.regs)) _
@[simp] theorem State.setLayer_mem (s : State) (l : Nat) (x : LayerRec) : (s.setLayer l x).mem = s.mem :=
  (fun x => (rfl : ({ s with layers := x } : State).mem = s.mem)) _
@[simp] theorem State.setLayer_mc (s : State) (l : Nat) (x : LayerRec) : (s.setLayer l x).mc = s.mc :=
  (fun x => (rfl : ({ s with layers := x } : State).mc = s.mc)) _
@[simp] theorem State.setLayer_image (s : State) (l : Nat) (x : LayerRec) : (s.setLayer l x).image = s.image :=
  (fun x => (rfl : ({ s with layers := x } : State).image = s.image)) _
@[simp] theorem State.setLayer_err (s : State) (l : Nat) (x : LayerRec) : (s.setLayer l x).err = s.err :=
  (fun x => (rfl : ({ s with layers := x } : State).err = s.err)) _
@[simp] theorem State.setLayer_out (s : State) (l : Nat) (x : LayerRec) : (s.setLayer l x).out = s.out :=
  (fun x => (rfl : ({ s with layers := x } : State).out = s.out)) _
@[simp] theorem State.setLayer_cleats (s : State) (l : Nat) (x : LayerRec) : (s.setLayer l x).cleats = s.cleats :=
  (fun x => (rfl : ({ s with layers := x } : State).cleats = s.cleats)) _
@[simp] theorem State.setLayer_items (s : State) (l : Nat) (x : LayerRec) : (s.setLayer l x).items = s.items :=
  (fun x => (rfl : ({ s with layers := x } : State).items = s.items)) _
@[simp] theorem State.setLayer_steps (s : State) (l : Nat) (x : LayerRec) : (s.setLayer l x).steps = s.steps :=
  (fun x => (rfl : ({ s with layers := x } : State).steps = s.steps)) _
@[simp] theorem State.setLayer_trk (s : State) (l : Nat) (x : LayerRec) : (s.setLayer l x).trk = s.trk :=
  (fun x => (rfl : ({ s with layers := x } : State).trk = s.trk)) _
@[simp] theorem State.setLayer_prog (s : State) (l : Nat) (x : LayerRec) : (s.setLayer l x).prog = s.prog :=
  (fun x => (rfl : ({ s with layers := x } : State).prog = s.prog)) _
@[simp] theorem State.setLayer_lay (s : State) (l : Nat) (x : LayerRec) : (s.setLayer l x).lay = s.lay :=
  (fun x => (rfl : ({ s with layers := x } : State).lay = s.lay)) _
@[simp] theorem State.setLayer_boot (s : State) (l : Nat) (x : LayerRec) : (s.setLayer l x).boot = s.boot :=
  (fun x => (rfl : ({ s with layers := x } : State).boot = s.boot)) _
@[simp] theorem State.setLayer_power (s : State) (l : Nat) (x : LayerRec) : (s.setLayer l x).power = s.power :=
  (fun x => (rfl : ({ s with layers := x } : State).power = s.power)) _
@[simp] theorem State.setLayer_sessions (s : State) (l : Nat) (x : LayerRec) : (s.setLayer l x).sessions = s.sessions :=
  (fun x => (rfl : ({ s with layers := x } : State).sessions = s.sessions)) _
@[simp] theorem State.setLayer_gens (s : State) (l : Nat) (x : LayerRec) : (s.setLayer l x).gens = s.gens :=
  (fun x => (rfl : ({ s with layers := x } : State).gens = s.gens)) _
@[simp] theorem State.setLayer_ports (s : State) (l : Nat) (x : LayerRec) : (s.setLayer l x).ports = s.ports :=
  (fun x => (rfl : ({ s with layers := x } : State).ports = s.ports)) _
@[simp] theorem State.setLayer_colls (s : State) (l : Nat) (x : LayerRec) : (s.setLayer l x).colls = s.colls :=
  (fun x => (rfl : ({ s with layers := x } : State).colls = s.colls)) _
@[simp] theorem State.setLayer_sends (s : State) (l : Nat) (x : LayerRec) : (s.setLayer l x).sends = s.sends :=
  (fun x => (rfl : ({ s with layers := x } : State).sends = s.sends)) _
@[simp] theorem State.setLayer_spills (s : State) (l : Nat) (x : LayerRec) : (s.setLayer l x).spills = s.spills :=
  (fun x => (rfl : ({ s with layers := x } : State).spills = s.spills)) _
@[simp] theorem State.setLayer_heldOps (s : State) (l : Nat) (x : LayerRec) : (s.setLayer l x).heldOps = s.heldOps :=
  (fun x => (rfl : ({ s with layers := x } : State).heldOps = s.heldOps)) _
@[simp] theorem State.setLayer_exhSeen (s : State) (l : Nat) (x : LayerRec) : (s.setLayer l x).exhSeen = s.exhSeen :=
  (fun x => (rfl : ({ s with layers := x } : State).exhSeen = s.exhSeen)) _
@[simp] theorem State.setLayer_wdPast (s : State) (l : Nat) (x : LayerRec) : (s.setLayer l x).wdPast = s.wdPast :=
  (fun x => (rfl : ({ s with layers := x } : State).wdPast = s.wdPast)) _
@[simp] theorem State.setLayer_freeCtr (s : State) (l : Nat) (x : LayerRec) : (s.setLayer l x).freeCtr = s.freeCtr :=
  (fun x => (rfl : ({ s with layers := x } : State).freeCtr = s.freeCtr)) _

@[simp] theorem State.putSession_pending (s : State) (x : Session) : (s.putSession x).pending = s.pending :=
  (fun x => (rfl : ({ s with sessions := x } : State).pending = s.pending)) _
@[simp] theorem State.putSession_cycle (s : State) (x : Session) : (s.putSession x).cycle = s.cycle :=
  (fun x => (rfl : ({ s with sessions := x } : State).cycle = s.cycle)) _
@[simp] theorem State.putSession_regs (s : State) (x : Session) : (s.putSession x).regs = s.regs :=
  (fun x => (rfl : ({ s with sessions := x } : State).regs = s.regs)) _
@[simp] theorem State.putSession_mem (s : State) (x : Session) : (s.putSession x).mem = s.mem :=
  (fun x => (rfl : ({ s with sessions := x } : State).mem = s.mem)) _
@[simp] theorem State.putSession_mc (s : State) (x : Session) : (s.putSession x).mc = s.mc :=
  (fun x => (rfl : ({ s with sessions := x } : State).mc = s.mc)) _
@[simp] theorem State.putSession_image (s : State) (x : Session) : (s.putSession x).image = s.image :=
  (fun x => (rfl : ({ s with sessions := x } : State).image = s.image)) _
@[simp] theorem State.putSession_err (s : State) (x : Session) : (s.putSession x).err = s.err :=
  (fun x => (rfl : ({ s with sessions := x } : State).err = s.err)) _
@[simp] theorem State.putSession_out (s : State) (x : Session) : (s.putSession x).out = s.out :=
  (fun x => (rfl : ({ s with sessions := x } : State).out = s.out)) _
@[simp] theorem State.putSession_cleats (s : State) (x : Session) : (s.putSession x).cleats = s.cleats :=
  (fun x => (rfl : ({ s with sessions := x } : State).cleats = s.cleats)) _
@[simp] theorem State.putSession_items (s : State) (x : Session) : (s.putSession x).items = s.items :=
  (fun x => (rfl : ({ s with sessions := x } : State).items = s.items)) _
@[simp] theorem State.putSession_steps (s : State) (x : Session) : (s.putSession x).steps = s.steps :=
  (fun x => (rfl : ({ s with sessions := x } : State).steps = s.steps)) _
@[simp] theorem State.putSession_trk (s : State) (x : Session) : (s.putSession x).trk = s.trk :=
  (fun x => (rfl : ({ s with sessions := x } : State).trk = s.trk)) _
@[simp] theorem State.putSession_prog (s : State) (x : Session) : (s.putSession x).prog = s.prog :=
  (fun x => (rfl : ({ s with sessions := x } : State).prog = s.prog)) _
@[simp] theorem State.putSession_lay (s : State) (x : Session) : (s.putSession x).lay = s.lay :=
  (fun x => (rfl : ({ s with sessions := x } : State).lay = s.lay)) _
@[simp] theorem State.putSession_boot (s : State) (x : Session) : (s.putSession x).boot = s.boot :=
  (fun x => (rfl : ({ s with sessions := x } : State).boot = s.boot)) _
@[simp] theorem State.putSession_power (s : State) (x : Session) : (s.putSession x).power = s.power :=
  (fun x => (rfl : ({ s with sessions := x } : State).power = s.power)) _
@[simp] theorem State.putSession_gens (s : State) (x : Session) : (s.putSession x).gens = s.gens :=
  (fun x => (rfl : ({ s with sessions := x } : State).gens = s.gens)) _
@[simp] theorem State.putSession_ports (s : State) (x : Session) : (s.putSession x).ports = s.ports :=
  (fun x => (rfl : ({ s with sessions := x } : State).ports = s.ports)) _
@[simp] theorem State.putSession_colls (s : State) (x : Session) : (s.putSession x).colls = s.colls :=
  (fun x => (rfl : ({ s with sessions := x } : State).colls = s.colls)) _
@[simp] theorem State.putSession_sends (s : State) (x : Session) : (s.putSession x).sends = s.sends :=
  (fun x => (rfl : ({ s with sessions := x } : State).sends = s.sends)) _
@[simp] theorem State.putSession_spills (s : State) (x : Session) : (s.putSession x).spills = s.spills :=
  (fun x => (rfl : ({ s with sessions := x } : State).spills = s.spills)) _
@[simp] theorem State.putSession_heldOps (s : State) (x : Session) : (s.putSession x).heldOps = s.heldOps :=
  (fun x => (rfl : ({ s with sessions := x } : State).heldOps = s.heldOps)) _
@[simp] theorem State.putSession_exhSeen (s : State) (x : Session) : (s.putSession x).exhSeen = s.exhSeen :=
  (fun x => (rfl : ({ s with sessions := x } : State).exhSeen = s.exhSeen)) _
@[simp] theorem State.putSession_wdPast (s : State) (x : Session) : (s.putSession x).wdPast = s.wdPast :=
  (fun x => (rfl : ({ s with sessions := x } : State).wdPast = s.wdPast)) _
@[simp] theorem State.putSession_freeCtr (s : State) (x : Session) : (s.putSession x).freeCtr = s.freeCtr :=
  (fun x => (rfl : ({ s with sessions := x } : State).freeCtr = s.freeCtr)) _

end Sys2Proof.Machine
end

