-- ==== Sys2Proof/Laws/Ops.lean ====
section
/-! SUPPORT. What each shared write of the state does, said once: the value written is read, every other place reads as before, and
the canonical form is kept. -/

namespace Sys2Proof.Machine

set_option Elab.async false

/-! ### The canonical form, table by table -/

theorem State.wf_regs {s : State} (h : s.wf = true) : twf regReset s.regs = true := by
  simp only [State.wf, State.wfRegs, State.wfRas, State.wfWork, Bool.and_eq_true] at h; tauto
theorem State.with_regs_wf {s : State} (h : s.wf = true) {x : Sparse Word} (hx : twf regReset x = true) :
    ({ s with regs := x } : State).wf = true := by
  simp only [State.wf, State.wfRegs, State.wfRas, State.wfWork, Bool.and_eq_true] at h ⊢; tauto
theorem State.wf_image {s : State} (h : s.wf = true) : twf dictDefault s.image = true := by
  simp only [State.wf, State.wfRegs, State.wfRas, State.wfWork, Bool.and_eq_true] at h; tauto
theorem State.with_image_wf {s : State} (h : s.wf = true) {x : Sparse Nat} (hx : twf dictDefault x = true) :
    ({ s with image := x } : State).wf = true := by
  simp only [State.wf, State.wfRegs, State.wfRas, State.wfWork, Bool.and_eq_true] at h ⊢; tauto
theorem State.wf_mc {s : State} (h : s.wf = true) : twf dictDefault s.mc = true := by
  simp only [State.wf, State.wfRegs, State.wfRas, State.wfWork, Bool.and_eq_true] at h; tauto
theorem State.with_mc_wf {s : State} (h : s.wf = true) {x : Sparse Nat} (hx : twf dictDefault x = true) :
    ({ s with mc := x } : State).wf = true := by
  simp only [State.wf, State.wfRegs, State.wfRas, State.wfWork, Bool.and_eq_true] at h ⊢; tauto
theorem State.wf_cleats {s : State} (h : s.wf = true) : twf dW s.cleats = true := by
  simp only [State.wf, State.wfRegs, State.wfRas, State.wfWork, Bool.and_eq_true] at h; tauto
theorem State.with_cleats_wf {s : State} (h : s.wf = true) {x : Sparse Word} (hx : twf dW x = true) :
    ({ s with cleats := x } : State).wf = true := by
  simp only [State.wf, State.wfRegs, State.wfRas, State.wfWork, Bool.and_eq_true] at h ⊢; tauto
theorem State.wf_items {s : State} (h : s.wf = true) : twf dItem s.items = true := by
  simp only [State.wf, State.wfRegs, State.wfRas, State.wfWork, Bool.and_eq_true] at h; tauto
theorem State.with_items_wf {s : State} (h : s.wf = true) {x : Sparse (Option Item)} (hx : twf dItem x = true) :
    ({ s with items := x } : State).wf = true := by
  simp only [State.wf, State.wfRegs, State.wfRas, State.wfWork, Bool.and_eq_true] at h ⊢; tauto
theorem State.wf_steps {s : State} (h : s.wf = true) : twf dStep s.steps = true := by
  simp only [State.wf, State.wfRegs, State.wfRas, State.wfWork, Bool.and_eq_true] at h; tauto
theorem State.with_steps_wf {s : State} (h : s.wf = true) {x : Sparse StepSlot} (hx : twf dStep x = true) :
    ({ s with steps := x } : State).wf = true := by
  simp only [State.wf, State.wfRegs, State.wfRas, State.wfWork, Bool.and_eq_true] at h ⊢; tauto
theorem State.wf_trk {s : State} (h : s.wf = true) : twf dTrk s.trk = true := by
  simp only [State.wf, State.wfRegs, State.wfRas, State.wfWork, Bool.and_eq_true] at h; tauto
theorem State.with_trk_wf {s : State} (h : s.wf = true) {x : Sparse Tracker} (hx : twf dTrk x = true) :
    ({ s with trk := x } : State).wf = true := by
  simp only [State.wf, State.wfRegs, State.wfRas, State.wfWork, Bool.and_eq_true] at h ⊢; tauto
theorem State.wf_ports {s : State} (h : s.wf = true) : twf dPort s.ports = true := by
  simp only [State.wf, State.wfRegs, State.wfRas, State.wfWork, Bool.and_eq_true] at h; tauto
theorem State.with_ports_wf {s : State} (h : s.wf = true) {x : Sparse Port} (hx : twf dPort x = true) :
    ({ s with ports := x } : State).wf = true := by
  simp only [State.wf, State.wfRegs, State.wfRas, State.wfWork, Bool.and_eq_true] at h ⊢; tauto
theorem State.wf_prog {s : State} (h : s.wf = true) : twf dProg s.prog = true := by
  simp only [State.wf, State.wfRegs, State.wfRas, State.wfWork, Bool.and_eq_true] at h; tauto
theorem State.with_prog_wf {s : State} (h : s.wf = true) {x : Sparse Progress} (hx : twf dProg x = true) :
    ({ s with prog := x } : State).wf = true := by
  simp only [State.wf, State.wfRegs, State.wfRas, State.wfWork, Bool.and_eq_true] at h ⊢; tauto
theorem State.wf_err {s : State} (h : s.wf = true) : twf dErr s.err = true := by
  simp only [State.wf, State.wfRegs, State.wfRas, State.wfWork, Bool.and_eq_true] at h; tauto
theorem State.with_err_wf {s : State} (h : s.wf = true) {x : Sparse ErrDie} (hx : twf dErr x = true) :
    ({ s with err := x } : State).wf = true := by
  simp only [State.wf, State.wfRegs, State.wfRas, State.wfWork, Bool.and_eq_true] at h ⊢; tauto
theorem State.wf_fids {s : State} (h : s.wf = true) : twf dFid s.fids = true := by
  simp only [State.wf, State.wfRegs, State.wfRas, State.wfWork, Bool.and_eq_true] at h; tauto
theorem State.with_fids_wf {s : State} (h : s.wf = true) {x : Sparse Fid} (hx : twf dFid x = true) :
    ({ s with fids := x } : State).wf = true := by
  simp only [State.wf, State.wfRegs, State.wfRas, State.wfWork, Bool.and_eq_true] at h ⊢; tauto
theorem State.wf_dic {s : State} (h : s.wf = true) : twf dDic s.dic = true := by
  simp only [State.wf, State.wfRegs, State.wfRas, State.wfWork, Bool.and_eq_true] at h; tauto
theorem State.with_dic_wf {s : State} (h : s.wf = true) {x : Sparse DicBank} (hx : twf dDic x = true) :
    ({ s with dic := x } : State).wf = true := by
  simp only [State.wf, State.wfRegs, State.wfRas, State.wfWork, Bool.and_eq_true] at h ⊢; tauto
theorem State.wf_mbx {s : State} (h : s.wf = true) : twf dMbx s.mbx = true := by
  simp only [State.wf, State.wfRegs, State.wfRas, State.wfWork, Bool.and_eq_true] at h; tauto
theorem State.with_mbx_wf {s : State} (h : s.wf = true) {x : Sparse MbxBank} (hx : twf dMbx x = true) :
    ({ s with mbx := x } : State).wf = true := by
  simp only [State.wf, State.wfRegs, State.wfRas, State.wfWork, Bool.and_eq_true] at h ⊢; tauto
theorem State.wf_guards {s : State} (h : s.wf = true) : twf dGuard s.guards = true := by
  simp only [State.wf, State.wfRegs, State.wfRas, State.wfWork, Bool.and_eq_true] at h; tauto
theorem State.with_guards_wf {s : State} (h : s.wf = true) {x : Sparse (Option Guard)} (hx : twf dGuard x = true) :
    ({ s with guards := x } : State).wf = true := by
  simp only [State.wf, State.wfRegs, State.wfRas, State.wfWork, Bool.and_eq_true] at h ⊢; tauto
theorem State.wf_spills {s : State} (h : s.wf = true) : twf dSpill s.spills = true := by
  simp only [State.wf, State.wfRegs, State.wfRas, State.wfWork, Bool.and_eq_true] at h; tauto
theorem State.with_spills_wf {s : State} (h : s.wf = true) {x : Sparse (List SpillTok)} (hx : twf dSpill x = true) :
    ({ s with spills := x } : State).wf = true := by
  simp only [State.wf, State.wfRegs, State.wfRas, State.wfWork, Bool.and_eq_true] at h ⊢; tauto
theorem State.wf_colls {s : State} (h : s.wf = true) : twf dColl s.colls = true := by
  simp only [State.wf, State.wfRegs, State.wfRas, State.wfWork, Bool.and_eq_true] at h; tauto
theorem State.with_colls_wf {s : State} (h : s.wf = true) {x : Sparse (Option Coll)} (hx : twf dColl x = true) :
    ({ s with colls := x } : State).wf = true := by
  simp only [State.wf, State.wfRegs, State.wfRas, State.wfWork, Bool.and_eq_true] at h ⊢; tauto
theorem State.wf_mem {s : State} (h : s.wf = true) : s.mem.wf = true := by
  simp only [State.wf, Bool.and_eq_true] at h; tauto
theorem State.with_mem_wf {s : State} (h : s.wf = true) {x : Mem} (hx : x.wf = true) :
    ({ s with mem := x } : State).wf = true := by
  simp only [State.wf, State.wfRegs, State.wfRas, State.wfWork, Bool.and_eq_true] at h ⊢; tauto

/-! ### The writes -/

theorem State.setRegK_wf {s : State} (h : s.wf = true) (k : Nat) (v : Word) : (s.setRegK k v).wf = true :=
  State.with_regs_wf h (twf_tset (State.wf_regs h) _ _)
@[simp] theorem State.regK_setRegK_same {s : State} (h : s.wf = true) (k : Nat) (v : Word) : (s.setRegK k v).regK k = v :=
  tget_tset_same (State.wf_regs h) _ _
theorem State.regK_setRegK_ne {s : State} (h : s.wf = true) (k : Nat) (v : Word) (j : Nat) (hk : j ≠ k) :
    (s.setRegK k v).regK j = s.regK j :=
  tget_tset_ne (State.wf_regs h) _ hk
theorem State.setReg_wf {s : State} (h : s.wf = true) (r : Reg) (i e : Nat) (v : Word) : (s.setReg r i e v).wf = true :=
  State.with_regs_wf h (twf_tset (State.wf_regs h) _ _)
@[simp] theorem State.reg_setReg_same {s : State} (h : s.wf = true) (r : Reg) (i e : Nat) (v : Word) : (s.setReg r i e v).reg r i e = v :=
  tget_tset_same (State.wf_regs h) _ _
theorem State.reg_setReg_ne {s : State} (h : s.wf = true) (r : Reg) (i e : Nat) (v : Word) (q : Reg) (j f : Nat) (hk : regKey q j f ≠ regKey r i e) :
    (s.setReg r i e v).reg q j f = s.reg q j f :=
  tget_tset_ne (State.wf_regs h) _ hk
theorem State.setDv_wf {s : State} (h : s.wf = true) (i k v : Nat) : (s.setDv i k v).wf = true :=
  State.with_image_wf h (twf_tset (State.wf_image h) _ _)
@[simp] theorem State.dv_setDv_same {s : State} (h : s.wf = true) (i k v : Nat) : (s.setDv i k v).dv i k = v :=
  tget_tset_same (State.wf_image h) _ _
theorem State.dv_setDv_ne {s : State} (h : s.wf = true) (i k v : Nat) (j l : Nat) (hk : dkey j l ≠ dkey i k) :
    (s.setDv i k v).dv j l = s.dv j l :=
  tget_tset_ne (State.wf_image h) _ hk
theorem State.setMc_wf {s : State} (h : s.wf = true) (i k v : Nat) : (s.setMc i k v).wf = true :=
  State.with_mc_wf h (twf_tset (State.wf_mc h) _ _)
@[simp] theorem State.mcv_setMc_same {s : State} (h : s.wf = true) (i k v : Nat) : (s.setMc i k v).mcv i k = v :=
  tget_tset_same (State.wf_mc h) _ _
theorem State.mcv_setMc_ne {s : State} (h : s.wf = true) (i k v : Nat) (j l : Nat) (hk : dkey j l ≠ dkey i k) :
    (s.setMc i k v).mcv j l = s.mcv j l :=
  tget_tset_ne (State.wf_mc h) _ hk
theorem State.putCleat_wf {s : State} (h : s.wf = true) (d i : Nat) (v : Word) : (s.putCleat d i v).wf = true :=
  State.with_cleats_wf h (twf_tset (State.wf_cleats h) _ _)
@[simp] theorem State.cleat_putCleat_same {s : State} (h : s.wf = true) (d i : Nat) (v : Word) : (s.putCleat d i v).cleat d i = v :=
  tget_tset_same (State.wf_cleats h) _ _
theorem State.cleat_putCleat_ne {s : State} (h : s.wf = true) (d i : Nat) (v : Word) (e j : Nat) (hk : cleatKey e j ≠ cleatKey d i) :
    (s.putCleat d i v).cleat e j = s.cleat e j :=
  tget_tset_ne (State.wf_cleats h) _ hk
theorem State.setItem_wf {s : State} (h : s.wf = true) (r k : Nat) (v : Option Item) : (s.setItem r k v).wf = true :=
  State.with_items_wf h (twf_tset (State.wf_items h) _ _)
@[simp] theorem State.item_setItem_same {s : State} (h : s.wf = true) (r k : Nat) (v : Option Item) : (s.setItem r k v).item r k = v :=
  tget_tset_same (State.wf_items h) _ _
theorem State.item_setItem_ne {s : State} (h : s.wf = true) (r k : Nat) (v : Option Item) (q j : Nat) (hk : itemKey q j ≠ itemKey r k) :
    (s.setItem r k v).item q j = s.item q j :=
  tget_tset_ne (State.wf_items h) _ hk
theorem State.setStep_wf {s : State} (h : s.wf = true) (k : Nat) (v : StepSlot) : (s.setStep k v).wf = true :=
  State.with_steps_wf h (twf_tset (State.wf_steps h) _ _)
@[simp] theorem State.step_setStep_same {s : State} (h : s.wf = true) (k : Nat) (v : StepSlot) : (s.setStep k v).step k = v :=
  tget_tset_same (State.wf_steps h) _ _
theorem State.step_setStep_ne {s : State} (h : s.wf = true) (k : Nat) (v : StepSlot) (j : Nat) (hk : j ≠ k) :
    (s.setStep k v).step j = s.step j :=
  tget_tset_ne (State.wf_steps h) _ hk
theorem State.setTracker_wf {s : State} (h : s.wf = true) (k : Nat) (v : Tracker) : (s.setTracker k v).wf = true :=
  State.with_trk_wf h (twf_tset (State.wf_trk h) _ _)
@[simp] theorem State.tracker_setTracker_same {s : State} (h : s.wf = true) (k : Nat) (v : Tracker) : (s.setTracker k v).tracker k = v :=
  tget_tset_same (State.wf_trk h) _ _
theorem State.tracker_setTracker_ne {s : State} (h : s.wf = true) (k : Nat) (v : Tracker) (j : Nat) (hk : j ≠ k) :
    (s.setTracker k v).tracker j = s.tracker j :=
  tget_tset_ne (State.wf_trk h) _ hk
theorem State.setPort_wf {s : State} (h : s.wf = true) (k : Nat) (v : Port) : (s.setPort k v).wf = true :=
  State.with_ports_wf h (twf_tset (State.wf_ports h) _ _)
@[simp] theorem State.port_setPort_same {s : State} (h : s.wf = true) (k : Nat) (v : Port) : (s.setPort k v).port k = v :=
  tget_tset_same (State.wf_ports h) _ _
theorem State.port_setPort_ne {s : State} (h : s.wf = true) (k : Nat) (v : Port) (j : Nat) (hk : j ≠ k) :
    (s.setPort k v).port j = s.port j :=
  tget_tset_ne (State.wf_ports h) _ hk
theorem State.setProgress_wf {s : State} (h : s.wf = true) (k : Nat) (v : Progress) : (s.setProgress k v).wf = true :=
  State.with_prog_wf h (twf_tset (State.wf_prog h) _ _)
@[simp] theorem State.progress_setProgress_same {s : State} (h : s.wf = true) (k : Nat) (v : Progress) : (s.setProgress k v).progress k = v :=
  tget_tset_same (State.wf_prog h) _ _
theorem State.progress_setProgress_ne {s : State} (h : s.wf = true) (k : Nat) (v : Progress) (j : Nat) (hk : j ≠ k) :
    (s.setProgress k v).progress j = s.progress j :=
  tget_tset_ne (State.wf_prog h) _ hk
theorem State.setErrDie_wf {s : State} (h : s.wf = true) (k : Nat) (v : ErrDie) : (s.setErrDie k v).wf = true :=
  State.with_err_wf h (twf_tset (State.wf_err h) _ _)
@[simp] theorem State.errDie_setErrDie_same {s : State} (h : s.wf = true) (k : Nat) (v : ErrDie) : (s.setErrDie k v).errDie k = v :=
  tget_tset_same (State.wf_err h) _ _
theorem State.errDie_setErrDie_ne {s : State} (h : s.wf = true) (k : Nat) (v : ErrDie) (j : Nat) (hk : j ≠ k) :
    (s.setErrDie k v).errDie j = s.errDie j :=
  tget_tset_ne (State.wf_err h) _ hk
theorem State.setFid_wf {s : State} (h : s.wf = true) (k : Nat) (v : Fid) : (s.setFid k v).wf = true :=
  State.with_fids_wf h (twf_tset (State.wf_fids h) _ _)
@[simp] theorem State.fid_setFid_same {s : State} (h : s.wf = true) (k : Nat) (v : Fid) : (s.setFid k v).fid k = v :=
  tget_tset_same (State.wf_fids h) _ _
theorem State.fid_setFid_ne {s : State} (h : s.wf = true) (k : Nat) (v : Fid) (j : Nat) (hk : j ≠ k) :
    (s.setFid k v).fid j = s.fid j :=
  tget_tset_ne (State.wf_fids h) _ hk
theorem State.setDic_wf {s : State} (h : s.wf = true) (k : Nat) (v : DicBank) : (s.setDic k v).wf = true :=
  State.with_dic_wf h (twf_tset (State.wf_dic h) _ _)
@[simp] theorem State.dicBank_setDic_same {s : State} (h : s.wf = true) (k : Nat) (v : DicBank) : (s.setDic k v).dicBank k = v :=
  tget_tset_same (State.wf_dic h) _ _
theorem State.dicBank_setDic_ne {s : State} (h : s.wf = true) (k : Nat) (v : DicBank) (j : Nat) (hk : j % 64 ≠ k % 64) :
    (s.setDic k v).dicBank j = s.dicBank j :=
  tget_tset_ne (State.wf_dic h) _ hk
theorem State.setMbx_wf {s : State} (h : s.wf = true) (i d : Nat) (v : MbxBank) : (s.setMbx i d v).wf = true :=
  State.with_mbx_wf h (twf_tset (State.wf_mbx h) _ _)
@[simp] theorem State.mbxBank_setMbx_same {s : State} (h : s.wf = true) (i d : Nat) (v : MbxBank) : (s.setMbx i d v).mbxBank i d = v :=
  tget_tset_same (State.wf_mbx h) _ _
theorem State.mbxBank_setMbx_ne {s : State} (h : s.wf = true) (i d : Nat) (v : MbxBank) (j e : Nat) (hk : mbxKey j e ≠ mbxKey i d) :
    (s.setMbx i d v).mbxBank j e = s.mbxBank j e :=
  tget_tset_ne (State.wf_mbx h) _ hk
theorem State.setGuard_wf {s : State} (h : s.wf = true) (i d : Nat) (v : Option Guard) : (s.setGuard i d v).wf = true :=
  State.with_guards_wf h (twf_tset (State.wf_guards h) _ _)
@[simp] theorem State.guardOf_setGuard_same {s : State} (h : s.wf = true) (i d : Nat) (v : Option Guard) : (s.setGuard i d v).guardOf i d = v :=
  tget_tset_same (State.wf_guards h) _ _
theorem State.guardOf_setGuard_ne {s : State} (h : s.wf = true) (i d : Nat) (v : Option Guard) (j e : Nat) (hk : guardKey j e ≠ guardKey i d) :
    (s.setGuard i d v).guardOf j e = s.guardOf j e :=
  tget_tset_ne (State.wf_guards h) _ hk
theorem State.setSpill_wf {s : State} (h : s.wf = true) (k : Nat) (v : List SpillTok) : (s.setSpill k v).wf = true :=
  State.with_spills_wf h (twf_tset (State.wf_spills h) _ _)
@[simp] theorem State.spillOf_setSpill_same {s : State} (h : s.wf = true) (k : Nat) (v : List SpillTok) : (s.setSpill k v).spillOf k = v :=
  tget_tset_same (State.wf_spills h) _ _
theorem State.spillOf_setSpill_ne {s : State} (h : s.wf = true) (k : Nat) (v : List SpillTok) (j : Nat) (hk : j ≠ k) :
    (s.setSpill k v).spillOf j = s.spillOf j :=
  tget_tset_ne (State.wf_spills h) _ hk
theorem State.setColl_wf {s : State} (h : s.wf = true) (k : Nat) (v : Option Coll) : (s.setColl k v).wf = true :=
  State.with_colls_wf h (twf_tset (State.wf_colls h) _ _)

/-! ### Counters and events over them -/

theorem State.bump_wf {s : State} (h : s.wf = true) (r : Reg) (i e n : Nat) : (s.bump r i e n).wf = true := State.setReg_wf h r i e _
theorem State.flag_wf {s : State} (h : s.wf = true) (r : Reg) (i e m : Nat) : (s.flag r i e m).wf = true := State.setReg_wf h r i e _
theorem State.mcBump_wf {s : State} (h : s.wf = true) (i k n : Nat) : (s.mcBump i k n).wf = true := State.setMc_wf h i k _

/-- An event bit set stands, and no bit goes. -/
theorem State.flag_reg {s : State} (h : s.wf = true) (r : Reg) (i e m : Nat) :
    (s.flag r i e m).reg r i e = s.reg r i e ||| BitVec.ofNat 32 m := State.reg_setReg_same h r i e _

/-- A counter of the management controller takes n more, stopping at its end. -/
theorem State.mcBump_mcv {s : State} (h : s.wf = true) (i k n : Nat) : (s.mcBump i k n).mcv i k = sat32 (s.mcv i k + n) :=
  State.mcv_setMc_same h i k _

theorem State.wrLines_wf {s : State} (h : s.wf = true) (fuel a : Nat) (bs : List Byte) (bad : Bool) :
    (s.wrLines fuel a bs bad).wf = true := by
  induction fuel generalizing s a bs with
  | zero => exact h
  | succ n ih =>
    simp only [State.wrLines]
    split
    · exact h
    · apply ih
      split
      · exact State.bump_wf h _ _ _ _
      · split
        · exact State.with_mem_wf h (Mem.writeLine_wf (State.wf_mem h) _ _ _)
        · exact h

/-- A write of bytes at a device address keeps the canonical form of the whole state. -/
theorem State.wr_wf {s : State} (h : s.wf = true) (a : Nat) (bs : List Byte) (bad : Bool) : (s.wr a bs bad).wf = true :=
  State.wrLines_wf h _ a bs bad

/-- Right after reset the state is in its canonical form. -/
theorem State.reset_wf : State.reset.wf = true := by decide

/-! ### A Cleat's next value (03 R103) -/

theorem CleatOp.value_lt (op : CleatOp) (v : Nat) (h : v < 2 ^ 32) : op.value v < 2 ^ 32 := by
  cases op <;> simp only [CleatOp.value] <;> omega

/-- An operation that raises no event gives the exact value. -/
theorem CleatOp.value_exact_signal (n v : Nat) (h : (CleatOp.signal n).event v = 0) : (CleatOp.signal n).value v = v + n := by
  simp only [CleatOp.event] at h
  split at h
  · simp at h
  · simp only [CleatOp.value]; omega

theorem CleatOp.value_exact_decrement (n v : Nat) (h : (CleatOp.decrement n).event v = 0) :
    (CleatOp.decrement n).value v + n = v := by
  simp only [CleatOp.event] at h
  split at h
  · simp at h
  · simp only [CleatOp.value]; omega

end Sys2Proof.Machine
end

