-- ==== Sys2Proof/Laws/Link.lean ====
section
/-! SUPPORT. The laws of the fabric link: its tables are the code's generator and the CRC's polynomial, and sending changes nothing but
ports, counters and what goes out (13 R411 to R417). -/

namespace Sys2Proof.Machine

/-! ### The tables -/

/-- The generator of RS(224,200), constant term first (13 R411). -/
def fabGen : List Byte := (List.range 24).foldl (fun p i => gpMul p [gfExp i, 1#8]) [1#8]

set_option maxRecDepth 100000 in
/-- The taps of the division are the generator's coefficients times each power of α. -/
theorem fabTaps_eq : fabTaps = (List.range 8).map fun i => leNat (gpScale (gfExp i) (fabGen.take 24)) := by decide

/-- One bit of CRC-32C, reflected: the polynomial 0x1EDC6F41 from its other end. -/
def crcBit (c : Nat) : Nat := if c % 2 == 1 then (c / 2) ^^^ 0x82F63B78 else c / 2

/-- The taps of a byte's step are the eight bit steps of each single bit. -/
theorem crcTaps_eq : crcTaps = (List.range 8).map fun i => (crcBit ∘ crcBit ∘ crcBit ∘ crcBit ∘ crcBit ∘ crcBit ∘ crcBit ∘ crcBit) (2 ^ i) := by
  decide

/-! ### Virtual channels -/

@[simp] theorem vcs_get_set_same (v : Vcs) (c x : Nat) : (v.set c x).get c = x := by
  simp only [Vcs.get, Vcs.set]; split <;> (try split) <;> simp_all

/-! ### What sending changes -/

/-- `t` is `s` but for the ports, what goes out, and registers: the counters of the fabric. -/
abbrev sentFrom (t s : State) : Prop := ∃ ports out regs, t = { s with ports := ports, out := out, regs := regs }

theorem sentFrom.refl (s : State) : sentFrom s s := ⟨_, _, _, rfl⟩
theorem sentFrom.trans {u t s : State} (h : sentFrom u t) (k : sentFrom t s) : sentFrom u s := by
  obtain ⟨_, _, _, rfl⟩ := h; obtain ⟨_, _, _, rfl⟩ := k; exact ⟨_, _, _, rfl⟩

/-- What each part of a fold sends, the fold sends. -/
theorem sentFrom.foldl {α : Type} {f : State → α → State} (hf : ∀ s a, sentFrom (f s a) s) (l : List α) (s : State) :
    sentFrom (l.foldl f s) s := by
  induction l generalizing s with
  | nil => exact .refl s
  | cons a l ih => exact (ih (f s a)).trans (hf s a)

theorem State.setPort_sent (s : State) (p : Nat) (x : Port) : sentFrom (s.setPort p x) s := ⟨_, _, _, rfl⟩
theorem State.emit_sent (s : State) (o : Out) : sentFrom (s.emit o) s := ⟨_, _, _, rfl⟩
theorem State.setReg_sent (s : State) (r : Reg) (i e : Nat) (v : Word) : sentFrom (s.setReg r i e v) s := ⟨_, _, _, rfl⟩
theorem State.bump_sent (s : State) (r : Reg) (i e n : Nat) : sentFrom (s.bump r i e n) s := State.setReg_sent ..
theorem State.flag_sent (s : State) (r : Reg) (i e m : Nat) : sentFrom (s.flag r i e m) s := State.setReg_sent ..

/-- A frame that goes out changes its port and is emitted. -/
theorem State.frameOut_sent (s : State) (p seq : Nat) (nak retrain : Bool) (cells : List (Packet × Nat)) :
    sentFrom (s.frameOut p seq nak retrain cells) s := (State.emit_sent ..).trans (State.setPort_sent ..)

theorem State.newFrame_sent (s : State) (p : Nat) (nak retrain : Bool) (cells : List (Packet × Nat)) :
    sentFrom (s.newFrame p nak retrain cells) s := (State.frameOut_sent ..).trans (State.setPort_sent ..)

theorem State.pump_sent (s : State) (p : Nat) : sentFrom (s.pump p) s := by
  rw [State.pump]
  split
  · exact .refl s
  · exact (sentFrom.foldl (fun _ _ => State.emit_sent ..) _ _).trans
      ((sentFrom.foldl (fun _ _ => State.newFrame_sent ..) _ _).trans (State.setPort_sent ..))

/-- A packet handed to a port changes ports and what goes out. -/
theorem State.portSend_sent (s : State) (p : Nat) (q : Packet) : sentFrom (s.portSend p q) s :=
  (State.pump_sent ..).trans (State.setPort_sent ..)

/-- A packet sent on its route changes ports, what goes out, or, where it has none, ROUTE_DROPS. -/
theorem State.sendFrom_sent (s : State) (die : Nat) (p : Packet) : sentFrom (s.sendFrom die p) s := by
  rw [State.sendFrom]
  split
  · exact (State.flag_sent ..).trans (State.bump_sent ..)
  · exact State.portSend_sent ..

theorem State.sendPacket_sent (s : State) (p : Packet) : sentFrom (s.sendPacket p) s := State.sendFrom_sent ..

theorem State.resend_sent (s : State) (p : Nat) (ask : Bool) : sentFrom (s.resend p ask) s :=
  (sentFrom.foldl (fun _ _ => State.frameOut_sent ..) _ _).trans ((State.flag_sent ..).trans (State.bump_sent ..))

theorem State.linkRetrain_sent (s : State) (p : Nat) (ask : Bool) : sentFrom (s.linkRetrain p ask) s := by
  rw [State.linkRetrain]
  cases (s.port p).kept.isEmpty <;> cases ask
  · exact (State.resend_sent ..).trans (State.setPort_sent ..)
  · exact (State.resend_sent ..).trans (State.setPort_sent ..)
  · exact State.setPort_sent ..
  · exact (State.newFrame_sent ..).trans (State.setPort_sent ..)

/-- A replay, or the retrain that it forces, changes ports, what goes out and the replay counters. -/
theorem State.replay_sent (s : State) (p : Nat) : sentFrom (s.replay p) s := by
  rw [State.replay]
  split
  · exact State.linkRetrain_sent ..
  · exact (State.resend_sent ..).trans (State.setPort_sent ..)

end Sys2Proof.Machine
end

