-- ==== Sys2Proof/WellFormed.lean ====
section
/-! DEFINITION. Which commands can be sent: every flat index, die, port, slot and initiator within the ranges of 00 R3 to R5
and 02 R31, R55. -/

namespace Sys2Proof

def iniOk (i : Nat) : Bool := decide (i ≤ 32)
def coreOk (i : Nat) : Bool := decide (i < 32)
def srcOk (i : Nat) : Bool := decide (i < 256)
def dieOk (d : Nat) : Bool := decide (d ≤ 4)
def regionOk (r : Nat) : Bool := decide (r < 16)
def clusterOk (c : Nat) : Bool := decide (c < 128)
def slotOk (k : Nat) : Bool := decide (k < 256)
def stepSlotOk (k : Nat) : Bool := decide (k < 16)
def stackOk (k : Nat) : Bool := decide (k < 16)
def portOk (p : Nat) : Bool := decide (p < 18)
def rootOk (p : Nat) : Bool := decide (p < 2)
def railOk (r : Nat) : Bool := decide (r < 13)
def ringOk (r : Nat) : Bool := decide (r < 8)
def trackerOk (t : Nat) : Bool := decide (t < 16384)
def widthOk (w : Nat) : Bool := w == 1 || w == 2 || w == 4 || w == 8

/-- A packet of at most 32 cells, its header and its last 16 bytes among them (13 R415). -/
def pktOk (p : Packet) : Bool := decide (p.body.length ≤ 2016)
/-- A frame of 8 codewords of 224 symbols (13 R411, R412). -/
def frameOk (f : Frame) : Bool := f.words.length == 8 && f.words.all fun w => w.length == 224
/-- Seeds of 31 bits for 8 port lanes, and credits of 32 bits (13 R411, R412). -/
def upOk (w : Seeds) (c : Vcs) : Bool :=
  w.rx.length == 8 && w.tx.length == 8 && (w.rx ++ w.tx).all (fun x => decide (x < 2 ^ 31))
    && [c.vc0, c.vc1, c.vc2].all fun x => decide (x < 2 ^ 32)

/-- The command is one that can be sent. -/
def Instr.wf : Instr → Bool
  | .agxOpen _ => true
  | .agxClose _ => true
  | .agxClaim _ => true
  | .agxRelease _ => true
  | .agxKeepalive _ => true
  | .agxRead _ => true
  | .agxReadMulti _ => true
  | .agxWrite _ => true
  | .agxGuardedWrite _ => true
  | .agxSessionLapse _ => true
  | .dicRead ini _ _ => iniOk ini
  | .dicWrite ini _ _ => iniOk ini
  | .dicGuardedWrite ini _ _ => iniOk ini
  | .dicReservedOp ini => iniOk ini
  | .dicCmdDone ini => iniOk ini
  | .registerWrite ini _ width _ => iniOk ini && widthOk width
  | .rcRegisterRead ini _ width => iniOk ini && widthOk width
  | .guardWrite ini _ width _ => iniOk ini && widthOk width
  | .gwFieldWrite ini _ width _ => iniOk ini && widthOk width
  | .guardTimeout ini die => iniOk ini && dieOk die
  | .bitAliasWrite ini _ _ => iniOk ini
  | .bitAliasRead ini _ => iniOk ini
  | .mbxCaptureLong128 ini die _ => iniOk ini && dieOk die
  | .mbxCaptureLay ini die _ => iniOk ini && dieOk die
  | .mbxCaptureSnarl ini die _ => iniOk ini && dieOk die
  | .mbxCaptureWide ini die _ => iniOk ini && dieOk die
  | .mbxCaptureDone ini die => iniOk ini && dieOk die
  | .wrkSqTailWrite ini region _ => iniOk ini && regionOk region
  | .descriptorAdmit region => regionOk region
  | .layGateOpen region slot => regionOk region && slotOk slot
  | .fetchBlockArrive region slot _ _ _ _ _ => regionOk region && slotOk slot
  | .itemComplete region slot => regionOk region && slotOk slot
  | .wrkCqHeadWrite ini region ring _ => iniOk ini && regionOk region && ringOk ring
  | .cleatSignal src die _ _ => srcOk src && dieOk die
  | .cleatDecrement src die _ _ => srcOk src && dieOk die
  | .cleatSet ini die _ _ => iniOk ini && dieOk die
  | .cleatArm core die _ _ => coreOk core && dieOk die
  | .twineMatmul region slot _ => regionOk region && slotOk slot
  | .hawserMatmul region slot _ => regionOk region && slotOk slot
  | .segMatmul region slot => regionOk region && slotOk slot
  | .reblock region slot => regionOk region && slotOk slot
  | .mask region slot => regionOk region && slotOk slot
  | .dropout region slot => regionOk region && slotOk slot
  | .fillUniform region slot => regionOk region && slotOk slot
  | .fillNormal4 region slot => regionOk region && slotOk slot
  | .packSparse region slot => regionOk region && slotOk slot
  | .route region slot => regionOk region && slotOk slot
  | .gateRoute region slot => regionOk region && slotOk slot
  | .attend region slot => regionOk region && slotOk slot
  | .merge region slot => regionOk region && slotOk slot
  | .publish region slot => regionOk region && slotOk slot
  | .pteWrite region slot => regionOk region && slotOk slot
  | .passA region slot => regionOk region && slotOk slot
  | .passB region slot => regionOk region && slotOk slot
  | .passC region slot => regionOk region && slotOk slot
  | .passCDelayed region slot => regionOk region && slotOk slot
  | .seed region slot => regionOk region && slotOk slot
  | .nmBatch region slot => regionOk region && slotOk slot
  | .nmOperation _ => true
  | .send region slot => regionOk region && slotOk slot
  | .allreduce region slot => regionOk region && slotOk slot
  | .reduceScatter region slot => regionOk region && slotOk slot
  | .allgather region slot => regionOk region && slotOk slot
  | .sumL128 region slot => regionOk region && slotOk slot
  | .maxF32 region slot => regionOk region && slotOk slot
  | .vote region slot => regionOk region && slotOk slot
  | .copy region slot => regionOk region && slotOk slot
  | .scalesFromMx region slot => regionOk region && slotOk slot
  | .scalesToMx region slot => regionOk region && slotOk slot
  | .gatherRows region slot => regionOk region && slotOk slot
  | .gatherSlots region slot => regionOk region && slotOk slot
  | .snarlCopy region slot => regionOk region && slotOk slot
  | .scaleLineMerge _ => true
  | .stepOpen ini slot => iniOk ini && stepSlotOk slot
  | .stepReopen ini slot => iniOk ini && stepSlotOk slot
  | .stepAbandon ini slot => iniOk ini && stepSlotOk slot
  | .stepFree ini slot => iniOk ini && stepSlotOk slot
  | .stepCmdReserved ini slot _ => iniOk ini && stepSlotOk slot
  | .splTrkCfgWrite ini tracker _ => iniOk ini && trackerOk tracker
  | .prepassPassDone region slot => regionOk region && slotOk slot
  | .voteResult _ _ _ _ => true
  | .voteDoubtTimeout slot => stepSlotOk slot
  | .voteQuery port pkt => portOk port && pktOk pkt
  | .voteQueryAnswer port pkt => portOk port && pktOk pkt
  | .voteQueryTimeout slot => stepSlotOk slot
  | .recordPin _ => true
  | .recordRelease _ => true
  | .recordAppend _ => true
  | .recordPublish _ => true
  | .spillDrain cluster => clusterOk cluster
  | .pageWaitTimeout region slot => regionOk region && slotOk slot
  | .pinWaitTimeout region slot => regionOk region && slotOk slot
  | .ateRingTailWrite ini die _ => iniOk ini && dieOk die
  | .memRead _ stack _ _ => stackOk stack
  | .memWrite stack _ _ _ => stackOk stack
  | .memPartialWrite stack _ _ _ _ => stackOk stack
  | .scrubRead stack _ => stackOk stack
  | .hbmTrainingDone stack _ _ => stackOk stack
  | .mapLock ini => iniOk ini
  | .farRead _ _ _ => true
  | .farWrite _ _ _ => true
  | .farLinkDown root => rootOk root
  | .farLinkRetrain root _ _ => rootOk root
  | .farEvent root _ _ => rootOk root
  | .drainStart ini => iniOk ini
  | .drainAtReached => true
  | .drainComplete => true
  | .portEnable ini _ => iniOk ini
  | .portRetrain ini _ => iniOk ini
  | .linkUp port _ seeds credit _ => portOk port && upOk seeds credit
  | .portTrainTimeout port => portOk port
  | .laneFail port _ => portOk port
  | .frameReceive port f => portOk port && frameOk f
  | .packetForward port pkt => portOk port && pktOk pkt
  | .hello port pkt => portOk port && pktOk pkt
  | .membership port pkt => portOk port && pktOk pkt
  | .epochReply port pkt => portOk port && pktOk pkt
  | .routeSet port pkt => portOk port && pktOk pkt
  | .suspectReport port pkt => portOk port && pktOk pkt
  | .laySync port _ _ _ _ => portOk port
  | .put port pkt => portOk port && pktOk pkt
  | .collData port fr => portOk port && pktOk fr.pkt
  | .delivered port pkt => portOk port && pktOk pkt
  | .cleatOp port pkt => portOk port && pktOk pkt
  | .collReady port pkt => portOk port && pktOk pkt
  | .collAbort port pkt => portOk port && pktOk pkt
  | .sendTimeout _ => true
  | .neighbourSilent port => portOk port
  | .layPpsEdge _ => true
  | .laySetSeconds ini _ => iniOk ini
  | .layPpsLoss => true
  | .layRefLoss => true
  | .laySyncTick => true
  | .wdProgressExpiry region slot => regionOk region && slotOk slot
  | .wdCleatExpiry region slot => regionOk region && slotOk slot
  | .wdCreditExpiry port _ => portOk port
  | .wdHbmExpiry holder _ _ => decide (holder < 18)
  | .poisonMarkWrite stack => stackOk stack
  | .sramSweep ev => dieOk ev.die
  | .resetRequest ini _ _ => iniOk ini
  | .fidQueuedStart fid => dieOk fid
  | .fidDrainDone fid => dieOk fid
  | .fidRecoveryDone fid _ => dieOk fid
  | .fenceSet ini _ _ => iniOk ini
  | .fenceClear ini _ _ => iniOk ini
  | .snarlAck ini _ _ => iniOk ini
  | .errClear ini die _ => iniOk ini && dieOk die
  | .mcTelltaleExpiry _ => true
  | .powerOffRequest ini => iniOk ini
  | .coldBoot _ => true
  | .bootStageDone _ => true
  | .bootStageTimeout => true
  | .selfTestDone _ => true
  | .fwData ini _ => iniOk ini
  | .fwCommit ini => iniOk ini
  | .fwVerifyDone => true
  | .activeSlot ini _ => iniOk ini
  | .bootRecordClear ini => iniOk ini
  | .rollbackCommit ini => iniOk ini
  | .ownerDigest ini _ => iniOk ini
  | .keySlot ini _ _ => iniOk ini
  | .fmKey ini _ => iniOk ini
  | .attestNonce ini _ => iniOk ini
  | .attestReportReady => true
  | .debugToken ini _ _ => iniOk ini
  | .debugEnable ini => iniOk ini
  | .ctxSave ini => iniOk ini
  | .ctxSaveDone => true
  | .ctxRestore ini => iniOk ini
  | .ctxRestoreDone => true
  | .governorTick _ => true
  | .fastTripEnd => true
  | .rampAtReached entry => stepSlotOk entry
  | .rampEntryWrite ini entry _ => iniOk ini && stepSlotOk entry
  | .powerClass ini _ => iniOk ini
  | .critTempTimeout _ _ => true
  | .thermalTrip => true
  | .hbmTempSample _ => true
  | .ageSample _ => true
  | .ageState ini _ _ => iniOk ini
  | .railRangeFault rail => railOk rail
  | .pwrGoodFall => true
  | .brdRstNLow => true
  | .brdRstNRise _ => true
  | .i3cDynamicAddress _ => true
  | .i3cRead _ _ => true
  | .i3cWrite _ _ => true
  | .dieToDieLinkError die _ _ => dieOk die
  | .layRefReturn => true

end Sys2Proof
end

