-- ==== Sys2Proof/Laws/PerInstr.lean ====
section
/-! SUPPORT. What holds of each command as syntax: a well-formed command names an initiator of 02 R55. -/

namespace Sys2Proof.Laws.Wf

set_option Elab.async false

/-- The initiator a command names (02 R55): a core, or 32 for the management controller; none where it names none. -/
def sender : Instr → Option Nat
  | .agxOpen _ => none
  | .agxClose _ => none
  | .agxClaim _ => none
  | .agxRelease _ => none
  | .agxKeepalive _ => none
  | .agxRead _ => none
  | .agxReadMulti _ => none
  | .agxWrite _ => none
  | .agxGuardedWrite _ => none
  | .agxSessionLapse _ => none
  | .dicRead ini _ _ => some ini
  | .dicWrite ini _ _ => some ini
  | .dicGuardedWrite ini _ _ => some ini
  | .dicReservedOp ini => some ini
  | .dicCmdDone ini => some ini
  | .registerWrite ini _ _ _ => some ini
  | .rcRegisterRead ini _ _ => some ini
  | .guardWrite ini _ _ _ => some ini
  | .gwFieldWrite ini _ _ _ => some ini
  | .guardTimeout ini _ => some ini
  | .bitAliasWrite ini _ _ => some ini
  | .bitAliasRead ini _ => some ini
  | .mbxCaptureLong128 ini _ _ => some ini
  | .mbxCaptureLay ini _ _ => some ini
  | .mbxCaptureSnarl ini _ _ => some ini
  | .mbxCaptureWide ini _ _ => some ini
  | .mbxCaptureDone ini _ => some ini
  | .wrkSqTailWrite ini _ _ => some ini
  | .descriptorAdmit _ => none
  | .layGateOpen _ _ => none
  | .fetchBlockArrive _ _ _ _ _ _ _ => none
  | .itemComplete _ _ => none
  | .wrkCqHeadWrite ini _ _ _ => some ini
  | .cleatSignal _ _ _ _ => none
  | .cleatDecrement _ _ _ _ => none
  | .cleatSet ini _ _ _ => some ini
  | .cleatArm core _ _ _ => some core
  | .twineMatmul _ _ _ => none
  | .hawserMatmul _ _ _ => none
  | .segMatmul _ _ => none
  | .reblock _ _ => none
  | .mask _ _ => none
  | .dropout _ _ => none
  | .fillUniform _ _ => none
  | .fillNormal4 _ _ => none
  | .packSparse _ _ => none
  | .route _ _ => none
  | .gateRoute _ _ => none
  | .attend _ _ => none
  | .merge _ _ => none
  | .publish _ _ => none
  | .pteWrite _ _ => none
  | .passA _ _ => none
  | .passB _ _ => none
  | .passC _ _ => none
  | .passCDelayed _ _ => none
  | .seed _ _ => none
  | .nmBatch _ _ => none
  | .nmOperation _ => none
  | .send _ _ => none
  | .allreduce _ _ => none
  | .reduceScatter _ _ => none
  | .allgather _ _ => none
  | .sumL128 _ _ => none
  | .maxF32 _ _ => none
  | .vote _ _ => none
  | .copy _ _ => none
  | .scalesFromMx _ _ => none
  | .scalesToMx _ _ => none
  | .gatherRows _ _ => none
  | .gatherSlots _ _ => none
  | .snarlCopy _ _ => none
  | .scaleLineMerge _ => none
  | .stepOpen ini _ => some ini
  | .stepReopen ini _ => some ini
  | .stepAbandon ini _ => some ini
  | .stepFree ini _ => some ini
  | .stepCmdReserved ini _ _ => some ini
  | .splTrkCfgWrite ini _ _ => some ini
  | .prepassPassDone _ _ => none
  | .voteResult _ _ _ _ => none
  | .voteDoubtTimeout _ => none
  | .voteQuery _ _ => none
  | .voteQueryAnswer _ _ => none
  | .voteQueryTimeout _ => none
  | .recordPin _ => none
  | .recordRelease _ => none
  | .recordAppend _ => none
  | .recordPublish _ => none
  | .spillDrain _ => none
  | .pageWaitTimeout _ _ => none
  | .pinWaitTimeout _ _ => none
  | .ateRingTailWrite ini _ _ => some ini
  | .memRead _ _ _ _ => none
  | .memWrite _ _ _ _ => none
  | .memPartialWrite _ _ _ _ _ => none
  | .scrubRead _ _ => none
  | .hbmTrainingDone _ _ _ => none
  | .mapLock ini => some ini
  | .farRead _ _ _ => none
  | .farWrite _ _ _ => none
  | .farLinkDown _ => none
  | .farLinkRetrain _ _ _ => none
  | .farEvent _ _ _ => none
  | .drainStart ini => some ini
  | .drainAtReached => none
  | .drainComplete => none
  | .portEnable ini _ => some ini
  | .portRetrain ini _ => some ini
  | .linkUp _ _ _ _ _ => none
  | .portTrainTimeout _ => none
  | .laneFail _ _ => none
  | .frameReceive _ _ => none
  | .packetForward _ _ => none
  | .hello _ _ => none
  | .membership _ _ => none
  | .epochReply _ _ => none
  | .routeSet _ _ => none
  | .suspectReport _ _ => none
  | .laySync _ _ _ _ _ => none
  | .put _ _ => none
  | .collData _ _ => none
  | .delivered _ _ => none
  | .cleatOp _ _ => none
  | .collReady _ _ => none
  | .collAbort _ _ => none
  | .sendTimeout _ => none
  | .neighbourSilent _ => none
  | .layPpsEdge _ => none
  | .laySetSeconds ini _ => some ini
  | .layPpsLoss => none
  | .layRefLoss => none
  | .laySyncTick => none
  | .wdProgressExpiry _ _ => none
  | .wdCleatExpiry _ _ => none
  | .wdCreditExpiry _ _ => none
  | .wdHbmExpiry _ _ _ => none
  | .poisonMarkWrite _ => none
  | .sramSweep _ => none
  | .resetRequest ini _ _ => some ini
  | .fidQueuedStart _ => none
  | .fidDrainDone _ => none
  | .fidRecoveryDone _ _ => none
  | .fenceSet ini _ _ => some ini
  | .fenceClear ini _ _ => some ini
  | .snarlAck ini _ _ => some ini
  | .errClear ini _ _ => some ini
  | .mcTelltaleExpiry _ => none
  | .powerOffRequest ini => some ini
  | .coldBoot _ => none
  | .bootStageDone _ => none
  | .bootStageTimeout => none
  | .selfTestDone _ => none
  | .fwData ini _ => some ini
  | .fwCommit ini => some ini
  | .fwVerifyDone => none
  | .activeSlot ini _ => some ini
  | .bootRecordClear ini => some ini
  | .rollbackCommit ini => some ini
  | .ownerDigest ini _ => some ini
  | .keySlot ini _ _ => some ini
  | .fmKey ini _ => some ini
  | .attestNonce ini _ => some ini
  | .attestReportReady => none
  | .debugToken ini _ _ => some ini
  | .debugEnable ini => some ini
  | .ctxSave ini => some ini
  | .ctxSaveDone => none
  | .ctxRestore ini => some ini
  | .ctxRestoreDone => none
  | .governorTick _ => none
  | .fastTripEnd => none
  | .rampAtReached _ => none
  | .rampEntryWrite ini _ _ => some ini
  | .powerClass ini _ => some ini
  | .critTempTimeout _ _ => none
  | .thermalTrip => none
  | .hbmTempSample _ => none
  | .ageSample _ => none
  | .ageState ini _ _ => some ini
  | .railRangeFault _ => none
  | .pwrGoodFall => none
  | .brdRstNLow => none
  | .brdRstNRise _ => none
  | .i3cDynamicAddress _ => none
  | .i3cRead _ _ => none
  | .i3cWrite _ _ => none
  | .dieToDieLinkError _ _ _ => none
  | .layRefReturn => none

/-- A well-formed command that names an initiator names one of 0 to 32. -/
def Statement (i : Instr) : Prop := i.wf = true → ∀ n, sender i = some n → n ≤ 32

theorem agxOpen (dg : Datagram) : Statement (.agxOpen dg) := fun _ _ e => nomatch e
theorem agxClose (dg : Datagram) : Statement (.agxClose dg) := fun _ _ e => nomatch e
theorem agxClaim (dg : Datagram) : Statement (.agxClaim dg) := fun _ _ e => nomatch e
theorem agxRelease (dg : Datagram) : Statement (.agxRelease dg) := fun _ _ e => nomatch e
theorem agxKeepalive (dg : Datagram) : Statement (.agxKeepalive dg) := fun _ _ e => nomatch e
theorem agxRead (dg : Datagram) : Statement (.agxRead dg) := fun _ _ e => nomatch e
theorem agxReadMulti (dg : Datagram) : Statement (.agxReadMulti dg) := fun _ _ e => nomatch e
theorem agxWrite (dg : Datagram) : Statement (.agxWrite dg) := fun _ _ e => nomatch e
theorem agxGuardedWrite (dg : Datagram) : Statement (.agxGuardedWrite dg) := fun _ _ e => nomatch e
theorem agxSessionLapse (session : Nat) : Statement (.agxSessionLapse session) := fun _ _ e => nomatch e
theorem dicRead (ini index sub : Nat) : Statement (.dicRead ini index sub) := by
  intro h n e; cases e; simp [Instr.wf, iniOk] at h; omega
theorem dicWrite (ini index sub : Nat) : Statement (.dicWrite ini index sub) := by
  intro h n e; cases e; simp [Instr.wf, iniOk] at h; omega
theorem dicGuardedWrite (ini index sub : Nat) : Statement (.dicGuardedWrite ini index sub) := by
  intro h n e; cases e; simp [Instr.wf, iniOk] at h; omega
theorem dicReservedOp (ini : Nat) : Statement (.dicReservedOp ini) := by
  intro h n e; cases e; simp [Instr.wf, iniOk] at h; omega
theorem dicCmdDone (ini : Nat) : Statement (.dicCmdDone ini) := by
  intro h n e; cases e; simp [Instr.wf, iniOk] at h; omega
theorem registerWrite (ini addr width value : Nat) : Statement (.registerWrite ini addr width value) := by
  intro h n e; cases e; simp [Instr.wf, iniOk] at h; omega
theorem rcRegisterRead (ini addr width : Nat) : Statement (.rcRegisterRead ini addr width) := by
  intro h n e; cases e; simp [Instr.wf, iniOk] at h; omega
theorem guardWrite (ini addr width value : Nat) : Statement (.guardWrite ini addr width value) := by
  intro h n e; cases e; simp [Instr.wf, iniOk] at h; omega
theorem gwFieldWrite (ini addr width value : Nat) : Statement (.gwFieldWrite ini addr width value) := by
  intro h n e; cases e; simp [Instr.wf, iniOk] at h; omega
theorem guardTimeout (ini die : Nat) : Statement (.guardTimeout ini die) := by
  intro h n e; cases e; simp [Instr.wf, iniOk] at h; omega
theorem bitAliasWrite (ini addr value : Nat) : Statement (.bitAliasWrite ini addr value) := by
  intro h n e; cases e; simp [Instr.wf, iniOk] at h; omega
theorem bitAliasRead (ini addr : Nat) : Statement (.bitAliasRead ini addr) := by
  intro h n e; cases e; simp [Instr.wf, iniOk] at h; omega
theorem mbxCaptureLong128 (ini die index : Nat) : Statement (.mbxCaptureLong128 ini die index) := by
  intro h n e; cases e; simp [Instr.wf, iniOk] at h; omega
theorem mbxCaptureLay (ini die index : Nat) : Statement (.mbxCaptureLay ini die index) := by
  intro h n e; cases e; simp [Instr.wf, iniOk] at h; omega
theorem mbxCaptureSnarl (ini die index : Nat) : Statement (.mbxCaptureSnarl ini die index) := by
  intro h n e; cases e; simp [Instr.wf, iniOk] at h; omega
theorem mbxCaptureWide (ini die index : Nat) : Statement (.mbxCaptureWide ini die index) := by
  intro h n e; cases e; simp [Instr.wf, iniOk] at h; omega
theorem mbxCaptureDone (ini die : Nat) : Statement (.mbxCaptureDone ini die) := by
  intro h n e; cases e; simp [Instr.wf, iniOk] at h; omega
theorem wrkSqTailWrite (ini region value : Nat) : Statement (.wrkSqTailWrite ini region value) := by
  intro h n e; cases e; simp [Instr.wf, iniOk] at h; omega
theorem descriptorAdmit (region : Nat) : Statement (.descriptorAdmit region) := fun _ _ e => nomatch e
theorem layGateOpen (region slot : Nat) : Statement (.layGateOpen region slot) := fun _ _ e => nomatch e
theorem fetchBlockArrive (region slot stream entry block gen : Nat) (poisoned : Bool) : Statement (.fetchBlockArrive region slot stream entry block gen poisoned) := fun _ _ e => nomatch e
theorem itemComplete (region slot : Nat) : Statement (.itemComplete region slot) := fun _ _ e => nomatch e
theorem wrkCqHeadWrite (ini region ring value : Nat) : Statement (.wrkCqHeadWrite ini region ring value) := by
  intro h n e; cases e; simp [Instr.wf, iniOk] at h; omega
theorem cleatSignal (src die index amount : Nat) : Statement (.cleatSignal src die index amount) := fun _ _ e => nomatch e
theorem cleatDecrement (src die index amount : Nat) : Statement (.cleatDecrement src die index amount) := fun _ _ e => nomatch e
theorem cleatSet (ini die index value : Nat) : Statement (.cleatSet ini die index value) := by
  intro h n e; cases e; simp [Instr.wf, iniOk] at h; omega
theorem cleatArm (core die index value : Nat) : Statement (.cleatArm core die index value) := by
  intro h n e; cases e; simp [Instr.wf, coreOk] at h; omega
theorem twineMatmul (region slot : Nat) (residue : List Nat) : Statement (.twineMatmul region slot residue) := fun _ _ e => nomatch e
theorem hawserMatmul (region slot : Nat) (residue : List Nat) : Statement (.hawserMatmul region slot residue) := fun _ _ e => nomatch e
theorem segMatmul (region slot : Nat) : Statement (.segMatmul region slot) := fun _ _ e => nomatch e
theorem reblock (region slot : Nat) : Statement (.reblock region slot) := fun _ _ e => nomatch e
theorem mask (region slot : Nat) : Statement (.mask region slot) := fun _ _ e => nomatch e
theorem dropout (region slot : Nat) : Statement (.dropout region slot) := fun _ _ e => nomatch e
theorem fillUniform (region slot : Nat) : Statement (.fillUniform region slot) := fun _ _ e => nomatch e
theorem fillNormal4 (region slot : Nat) : Statement (.fillNormal4 region slot) := fun _ _ e => nomatch e
theorem packSparse (region slot : Nat) : Statement (.packSparse region slot) := fun _ _ e => nomatch e
theorem route (region slot : Nat) : Statement (.route region slot) := fun _ _ e => nomatch e
theorem gateRoute (region slot : Nat) : Statement (.gateRoute region slot) := fun _ _ e => nomatch e
theorem attend (region slot : Nat) : Statement (.attend region slot) := fun _ _ e => nomatch e
theorem merge (region slot : Nat) : Statement (.merge region slot) := fun _ _ e => nomatch e
theorem publish (region slot : Nat) : Statement (.publish region slot) := fun _ _ e => nomatch e
theorem pteWrite (region slot : Nat) : Statement (.pteWrite region slot) := fun _ _ e => nomatch e
theorem passA (region slot : Nat) : Statement (.passA region slot) := fun _ _ e => nomatch e
theorem passB (region slot : Nat) : Statement (.passB region slot) := fun _ _ e => nomatch e
theorem passC (region slot : Nat) : Statement (.passC region slot) := fun _ _ e => nomatch e
theorem passCDelayed (region slot : Nat) : Statement (.passCDelayed region slot) := fun _ _ e => nomatch e
theorem seed (region slot : Nat) : Statement (.seed region slot) := fun _ _ e => nomatch e
theorem nmBatch (region slot : Nat) : Statement (.nmBatch region slot) := fun _ _ e => nomatch e
theorem nmOperation (op : NmOp) : Statement (.nmOperation op) := fun _ _ e => nomatch e
theorem send (region slot : Nat) : Statement (.send region slot) := fun _ _ e => nomatch e
theorem allreduce (region slot : Nat) : Statement (.allreduce region slot) := fun _ _ e => nomatch e
theorem reduceScatter (region slot : Nat) : Statement (.reduceScatter region slot) := fun _ _ e => nomatch e
theorem allgather (region slot : Nat) : Statement (.allgather region slot) := fun _ _ e => nomatch e
theorem sumL128 (region slot : Nat) : Statement (.sumL128 region slot) := fun _ _ e => nomatch e
theorem maxF32 (region slot : Nat) : Statement (.maxF32 region slot) := fun _ _ e => nomatch e
theorem vote (region slot : Nat) : Statement (.vote region slot) := fun _ _ e => nomatch e
theorem copy (region slot : Nat) : Statement (.copy region slot) := fun _ _ e => nomatch e
theorem scalesFromMx (region slot : Nat) : Statement (.scalesFromMx region slot) := fun _ _ e => nomatch e
theorem scalesToMx (region slot : Nat) : Statement (.scalesToMx region slot) := fun _ _ e => nomatch e
theorem gatherRows (region slot : Nat) : Statement (.gatherRows region slot) := fun _ _ e => nomatch e
theorem gatherSlots (region slot : Nat) : Statement (.gatherSlots region slot) := fun _ _ e => nomatch e
theorem snarlCopy (region slot : Nat) : Statement (.snarlCopy region slot) := fun _ _ e => nomatch e
theorem scaleLineMerge (m : LineMerge) : Statement (.scaleLineMerge m) := fun _ _ e => nomatch e
theorem stepOpen (ini slot : Nat) : Statement (.stepOpen ini slot) := by
  intro h n e; cases e; simp [Instr.wf, iniOk] at h; omega
theorem stepReopen (ini slot : Nat) : Statement (.stepReopen ini slot) := by
  intro h n e; cases e; simp [Instr.wf, iniOk] at h; omega
theorem stepAbandon (ini slot : Nat) : Statement (.stepAbandon ini slot) := by
  intro h n e; cases e; simp [Instr.wf, iniOk] at h; omega
theorem stepFree (ini slot : Nat) : Statement (.stepFree ini slot) := by
  intro h n e; cases e; simp [Instr.wf, iniOk] at h; omega
theorem stepCmdReserved (ini slot op : Nat) : Statement (.stepCmdReserved ini slot op) := by
  intro h n e; cases e; simp [Instr.wf, iniOk] at h; omega
theorem splTrkCfgWrite (ini tracker value : Nat) : Statement (.splTrkCfgWrite ini tracker value) := by
  intro h n e; cases e; simp [Instr.wf, iniOk] at h; omega
theorem prepassPassDone (region slot : Nat) : Statement (.prepassPassDone region slot) := fun _ _ e => nomatch e
theorem voteResult (epoch step attempt sum : Nat) : Statement (.voteResult epoch step attempt sum) := fun _ _ e => nomatch e
theorem voteDoubtTimeout (slot : Nat) : Statement (.voteDoubtTimeout slot) := fun _ _ e => nomatch e
theorem voteQuery (port : Nat) (pkt : Packet) : Statement (.voteQuery port pkt) := fun _ _ e => nomatch e
theorem voteQueryAnswer (port : Nat) (pkt : Packet) : Statement (.voteQueryAnswer port pkt) := fun _ _ e => nomatch e
theorem voteQueryTimeout (slot : Nat) : Statement (.voteQueryTimeout slot) := fun _ _ e => nomatch e
theorem recordPin (op : RecOp) : Statement (.recordPin op) := fun _ _ e => nomatch e
theorem recordRelease (op : RecOp) : Statement (.recordRelease op) := fun _ _ e => nomatch e
theorem recordAppend (op : RecOp) : Statement (.recordAppend op) := fun _ _ e => nomatch e
theorem recordPublish (op : RecOp) : Statement (.recordPublish op) := fun _ _ e => nomatch e
theorem spillDrain (cluster : Nat) : Statement (.spillDrain cluster) := fun _ _ e => nomatch e
theorem pageWaitTimeout (region slot : Nat) : Statement (.pageWaitTimeout region slot) := fun _ _ e => nomatch e
theorem pinWaitTimeout (region slot : Nat) : Statement (.pinWaitTimeout region slot) := fun _ _ e => nomatch e
theorem ateRingTailWrite (ini die value : Nat) : Statement (.ateRingTailWrite ini die value) := by
  intro h n e; cases e; simp [Instr.wf, iniOk] at h; omega
theorem memRead (core : Option Nat) (stack off : Nat) (errs : List (Nat × Nat)) : Statement (.memRead core stack off errs) := fun _ _ e => nomatch e
theorem memWrite (stack off : Nat) (data : List Byte) (poisoned : Bool) : Statement (.memWrite stack off data poisoned) := fun _ _ e => nomatch e
theorem memPartialWrite (stack off : Nat) (data : List Byte) (errs : List (Nat × Nat)) (poisoned : Bool) : Statement (.memPartialWrite stack off data errs poisoned) := fun _ _ e => nomatch e
theorem scrubRead (stack : Nat) (errs : List (Nat × Nat)) : Statement (.scrubRead stack errs) := fun _ _ e => nomatch e
theorem hbmTrainingDone (stack reason : Nat) (badPins : List (Nat × Nat)) : Statement (.hbmTrainingDone stack reason badPins) := fun _ _ e => nomatch e
theorem mapLock (ini : Nat) : Statement (.mapLock ini) := by
  intro h n e; cases e; simp [Instr.wf, iniOk] at h; omega
theorem farRead (core : Option Nat) (addr : Nat) (cxlPoison : Bool) : Statement (.farRead core addr cxlPoison) := fun _ _ e => nomatch e
theorem farWrite (addr : Nat) (data : List Byte) (poisoned : Bool) : Statement (.farWrite addr data poisoned) := fun _ _ e => nomatch e
theorem farLinkDown (root : Nat) : Statement (.farLinkDown root) := fun _ _ e => nomatch e
theorem farLinkRetrain (root lanes gts : Nat) : Statement (.farLinkRetrain root lanes gts) := fun _ _ e => nomatch e
theorem farEvent (root code off : Nat) : Statement (.farEvent root code off) := fun _ _ e => nomatch e
theorem drainStart (ini : Nat) : Statement (.drainStart ini) := by
  intro h n e; cases e; simp [Instr.wf, iniOk] at h; omega
theorem drainAtReached  : Statement (.drainAtReached) := fun _ _ e => nomatch e
theorem drainComplete  : Statement (.drainComplete) := fun _ _ e => nomatch e
theorem portEnable (ini mask : Nat) : Statement (.portEnable ini mask) := by
  intro h n e; cases e; simp [Instr.wf, iniOk] at h; omega
theorem portRetrain (ini mask : Nat) : Statement (.portRetrain ini mask) := by
  intro h n e; cases e; simp [Instr.wf, iniOk] at h; omega
theorem linkUp (port lanes : Nat) (seeds : Seeds) (credit : Vcs) (nbr : Hello) : Statement (.linkUp port lanes seeds credit nbr) := fun _ _ e => nomatch e
theorem portTrainTimeout (port : Nat) : Statement (.portTrainTimeout port) := fun _ _ e => nomatch e
theorem laneFail (port lane : Nat) : Statement (.laneFail port lane) := fun _ _ e => nomatch e
theorem frameReceive (port : Nat) (f : Frame) : Statement (.frameReceive port f) := fun _ _ e => nomatch e
theorem packetForward (port : Nat) (pkt : Packet) : Statement (.packetForward port pkt) := fun _ _ e => nomatch e
theorem hello (port : Nat) (pkt : Packet) : Statement (.hello port pkt) := fun _ _ e => nomatch e
theorem membership (port : Nat) (pkt : Packet) : Statement (.membership port pkt) := fun _ _ e => nomatch e
theorem epochReply (port : Nat) (pkt : Packet) : Statement (.epochReply port pkt) := fun _ _ e => nomatch e
theorem routeSet (port : Nat) (pkt : Packet) : Statement (.routeSet port pkt) := fun _ _ e => nomatch e
theorem suspectReport (port : Nat) (pkt : Packet) : Statement (.suspectReport port pkt) := fun _ _ e => nomatch e
theorem laySync (port : Nat) (t1 t2 t3 t4 : Nat) : Statement (.laySync port t1 t2 t3 t4) := fun _ _ e => nomatch e
theorem put (port : Nat) (pkt : Packet) : Statement (.put port pkt) := fun _ _ e => nomatch e
theorem collData (port : Nat) (fr : CollFrame) : Statement (.collData port fr) := fun _ _ e => nomatch e
theorem delivered (port : Nat) (pkt : Packet) : Statement (.delivered port pkt) := fun _ _ e => nomatch e
theorem cleatOp (port : Nat) (pkt : Packet) : Statement (.cleatOp port pkt) := fun _ _ e => nomatch e
theorem collReady (port : Nat) (pkt : Packet) : Statement (.collReady port pkt) := fun _ _ e => nomatch e
theorem collAbort (port : Nat) (pkt : Packet) : Statement (.collAbort port pkt) := fun _ _ e => nomatch e
theorem sendTimeout (seq : Nat) : Statement (.sendTimeout seq) := fun _ _ e => nomatch e
theorem neighbourSilent (port : Nat) : Statement (.neighbourSilent port) := fun _ _ e => nomatch e
theorem layPpsEdge (phaseNs : Int) : Statement (.layPpsEdge phaseNs) := fun _ _ e => nomatch e
theorem laySetSeconds (ini seconds : Nat) : Statement (.laySetSeconds ini seconds) := by
  intro h n e; cases e; simp [Instr.wf, iniOk] at h; omega
theorem layPpsLoss  : Statement (.layPpsLoss) := fun _ _ e => nomatch e
theorem layRefLoss  : Statement (.layRefLoss) := fun _ _ e => nomatch e
theorem laySyncTick  : Statement (.laySyncTick) := fun _ _ e => nomatch e
theorem wdProgressExpiry (region slot : Nat) : Statement (.wdProgressExpiry region slot) := fun _ _ e => nomatch e
theorem wdCleatExpiry (region slot : Nat) : Statement (.wdCleatExpiry region slot) := fun _ _ e => nomatch e
theorem wdCreditExpiry (port vc : Nat) : Statement (.wdCreditExpiry port vc) := fun _ _ e => nomatch e
theorem wdHbmExpiry (stack line : Nat) (write : Bool) : Statement (.wdHbmExpiry stack line write) := fun _ _ e => nomatch e
theorem poisonMarkWrite (stack : Nat) : Statement (.poisonMarkWrite stack) := fun _ _ e => nomatch e
theorem sramSweep (ev : SramEvent) : Statement (.sramSweep ev) := fun _ _ e => nomatch e
theorem resetRequest (ini level index : Nat) : Statement (.resetRequest ini level index) := by
  intro h n e; cases e; simp [Instr.wf, iniOk] at h; omega
theorem fidQueuedStart (fid : Nat) : Statement (.fidQueuedStart fid) := fun _ _ e => nomatch e
theorem fidDrainDone (fid : Nat) : Statement (.fidDrainDone fid) := fun _ _ e => nomatch e
theorem fidRecoveryDone (fid : Nat) (badStacks : List Nat) : Statement (.fidRecoveryDone fid badStacks) := fun _ _ e => nomatch e
theorem fenceSet (ini sub mask : Nat) : Statement (.fenceSet ini sub mask) := by
  intro h n e; cases e; simp [Instr.wf, iniOk] at h; omega
theorem fenceClear (ini sub mask : Nat) : Statement (.fenceClear ini sub mask) := by
  intro h n e; cases e; simp [Instr.wf, iniOk] at h; omega
theorem snarlAck (ini area mask : Nat) : Statement (.snarlAck ini area mask) := by
  intro h n e; cases e; simp [Instr.wf, iniOk] at h; omega
theorem errClear (ini die value : Nat) : Statement (.errClear ini die value) := by
  intro h n e; cases e; simp [Instr.wf, iniOk] at h; omega
theorem mcTelltaleExpiry (imageOk : Bool) : Statement (.mcTelltaleExpiry imageOk) := fun _ _ e => nomatch e
theorem powerOffRequest (ini : Nat) : Statement (.powerOffRequest ini) := by
  intro h n e; cases e; simp [Instr.wf, iniOk] at h; omega
theorem coldBoot (straps : Nat) : Statement (.coldBoot straps) := fun _ _ e => nomatch e
theorem bootStageDone (reason : Nat) : Statement (.bootStageDone reason) := fun _ _ e => nomatch e
theorem bootStageTimeout  : Statement (.bootStageTimeout) := fun _ _ e => nomatch e
theorem selfTestDone (bad : List Dom) : Statement (.selfTestDone bad) := fun _ _ e => nomatch e
theorem fwData (ini : Nat) (data : List Byte) : Statement (.fwData ini data) := by
  intro h n e; cases e; simp [Instr.wf, iniOk] at h; omega
theorem fwCommit (ini : Nat) : Statement (.fwCommit ini) := by
  intro h n e; cases e; simp [Instr.wf, iniOk] at h; omega
theorem fwVerifyDone  : Statement (.fwVerifyDone) := fun _ _ e => nomatch e
theorem activeSlot (ini value : Nat) : Statement (.activeSlot ini value) := by
  intro h n e; cases e; simp [Instr.wf, iniOk] at h; omega
theorem bootRecordClear (ini : Nat) : Statement (.bootRecordClear ini) := by
  intro h n e; cases e; simp [Instr.wf, iniOk] at h; omega
theorem rollbackCommit (ini : Nat) : Statement (.rollbackCommit ini) := by
  intro h n e; cases e; simp [Instr.wf, iniOk] at h; omega
theorem ownerDigest (ini : Nat) (data : List Byte) : Statement (.ownerDigest ini data) := by
  intro h n e; cases e; simp [Instr.wf, iniOk] at h; omega
theorem keySlot (ini sub : Nat) (data : List Byte) : Statement (.keySlot ini sub data) := by
  intro h n e; cases e; simp [Instr.wf, iniOk] at h; omega
theorem fmKey (ini : Nat) (data : List Byte) : Statement (.fmKey ini data) := by
  intro h n e; cases e; simp [Instr.wf, iniOk] at h; omega
theorem attestNonce (ini : Nat) (data : List Byte) : Statement (.attestNonce ini data) := by
  intro h n e; cases e; simp [Instr.wf, iniOk] at h; omega
theorem attestReportReady  : Statement (.attestReportReady) := fun _ _ e => nomatch e
theorem debugToken (ini sub : Nat) (data : List Byte) : Statement (.debugToken ini sub data) := by
  intro h n e; cases e; simp [Instr.wf, iniOk] at h; omega
theorem debugEnable (ini : Nat) : Statement (.debugEnable ini) := by
  intro h n e; cases e; simp [Instr.wf, iniOk] at h; omega
theorem ctxSave (ini : Nat) : Statement (.ctxSave ini) := by
  intro h n e; cases e; simp [Instr.wf, iniOk] at h; omega
theorem ctxSaveDone  : Statement (.ctxSaveDone) := fun _ _ e => nomatch e
theorem ctxRestore (ini : Nat) : Statement (.ctxRestore ini) := by
  intro h n e; cases e; simp [Instr.wf, iniOk] at h; omega
theorem ctxRestoreDone  : Statement (.ctxRestoreDone) := fun _ _ e => nomatch e
theorem governorTick (m : PowerSample) : Statement (.governorTick m) := fun _ _ e => nomatch e
theorem fastTripEnd  : Statement (.fastTripEnd) := fun _ _ e => nomatch e
theorem rampAtReached (entry : Nat) : Statement (.rampAtReached entry) := fun _ _ e => nomatch e
theorem rampEntryWrite (ini entry value : Nat) : Statement (.rampEntryWrite ini entry value) := by
  intro h n e; cases e; simp [Instr.wf, iniOk] at h; omega
theorem powerClass (ini value : Nat) : Statement (.powerClass ini value) := by
  intro h n e; cases e; simp [Instr.wf, iniOk] at h; omega
theorem critTempTimeout (stack : Bool) (index : Nat) : Statement (.critTempTimeout stack index) := fun _ _ e => nomatch e
theorem thermalTrip  : Statement (.thermalTrip) := fun _ _ e => nomatch e
theorem hbmTempSample (temps : List (Option Int)) : Statement (.hbmTempSample temps) := fun _ _ e => nomatch e
theorem ageSample (delays : List Nat) : Statement (.ageSample delays) := fun _ _ e => nomatch e
theorem ageState (ini sub : Nat) (data : List Byte) : Statement (.ageState ini sub data) := by
  intro h n e; cases e; simp [Instr.wf, iniOk] at h; omega
theorem railRangeFault (rail : Nat) : Statement (.railRangeFault rail) := fun _ _ e => nomatch e
theorem pwrGoodFall  : Statement (.pwrGoodFall) := fun _ _ e => nomatch e
theorem brdRstNLow  : Statement (.brdRstNLow) := fun _ _ e => nomatch e
theorem brdRstNRise (straps : Nat) : Statement (.brdRstNRise straps) := fun _ _ e => nomatch e
theorem i3cDynamicAddress (addr : Nat) : Statement (.i3cDynamicAddress addr) := fun _ _ e => nomatch e
theorem i3cRead (offset len : Nat) : Statement (.i3cRead offset len) := fun _ _ e => nomatch e
theorem i3cWrite (offset : Nat) (data : List Byte) : Statement (.i3cWrite offset data) := fun _ _ e => nomatch e
theorem dieToDieLinkError (die edge kind : Nat) : Statement (.dieToDieLinkError die edge kind) := fun _ _ e => nomatch e
theorem layRefReturn  : Statement (.layRefReturn) := fun _ _ e => nomatch e

end Sys2Proof.Laws.Wf
end

