-- ==== Sys2Proof/Laws/Run.lean ====
section
/-! SUPPORT. What starting an item and running it can do, said once (01 R18; 03 R83, R101; 14 R475). -/

namespace Sys2Proof.Machine

/-! ### Registers alone -/

/-- `t` is `s` but for registers. -/
abbrev regsFrom (t s : State) : Prop := ∃ regs, t = { s with regs := regs }

theorem regsFrom.refl (s : State) : regsFrom s s := ⟨_, rfl⟩
theorem regsFrom.trans {u t s : State} (h : regsFrom u t) (k : regsFrom t s) : regsFrom u s := by
  obtain ⟨_, rfl⟩ := h; obtain ⟨_, rfl⟩ := k; exact ⟨_, rfl⟩
theorem regsFrom.foldl {α : Type} {f : State → α → State} (hf : ∀ s a, regsFrom (f s a) s) (l : List α) (s : State) :
    regsFrom (l.foldl f s) s := by
  induction l generalizing s with
  | nil => exact .refl s
  | cons a l ih => exact (ih (f s a)).trans (hf s a)

theorem State.setReg_regs (s : State) (r : Reg) (i e : Nat) (v : Word) : regsFrom (s.setReg r i e v) s := ⟨_, rfl⟩
theorem State.bump_regs (s : State) (r : Reg) (i e n : Nat) : regsFrom (s.bump r i e n) s := State.setReg_regs ..
theorem State.flag_regs (s : State) (r : Reg) (i e m : Nat) : regsFrom (s.flag r i e m) s := State.setReg_regs ..
theorem State.setEach_regs (s : State) (r : Reg) (l : List Nat) (v : Nat) : regsFrom (s.setEach r l v) s :=
  .foldl (fun _ _ => State.setReg_regs ..) l s
theorem State.bumpEach_regs (s : State) (r : Reg) (l : List Nat) (n : Nat) : regsFrom (s.bumpEach r l n) s :=
  .foldl (fun _ _ => State.bump_regs ..) l s
theorem State.flagEach_regs (s : State) (r : Reg) (l : List Nat) (m : Nat) : regsFrom (s.flagEach r l m) s :=
  .foldl (fun _ _ => State.flag_regs ..) l s
theorem State.show_regs (s : State) (st tag : Reg) (u idle : Nat) (x : Option Item) (w : Item → Nat) :
    regsFrom (s.show st tag u idle x w) s := by
  cases x with
  | some y => exact (State.setReg_regs ..).trans (State.setReg_regs ..)
  | none => exact State.setReg_regs ..

theorem regsFrom.ite {p q : State} {b : Bool} (h : regsFrom p q) : regsFrom (if b then p else q) q := by
  cases b
  · exact .refl q
  · exact h

theorem State.showUnit_regs (s : State) (x : Item) (region : Nat) (t : State) (u : Nat) : regsFrom (s.showUnit x region t u) t :=
  (State.show_regs ..).trans ((regsFrom.ite (State.show_regs ..)).trans
    ((regsFrom.ite (State.show_regs ..)).trans (regsFrom.ite (State.show_regs ..))))

/-- Showing an item writes the status and tag registers of its engines. -/
theorem State.showItem_regs (s : State) (x : Item) (region units : Nat) : regsFrom (s.showItem x region units) s := by
  have hv := regsFrom.foldl (fun t u => State.showUnit_regs s x region t u) (unitList region units) s
  rw [State.showItem]
  split
  · exact (regsFrom.foldl (fun _ _ => State.show_regs ..) _ _).trans hv
  · split
    · exact (regsFrom.foldl (fun _ _ => State.show_regs ..) _ _).trans hv
    · split
      · exact (regsFrom.foldl (fun _ _ => State.show_regs ..) _ _).trans hv
      · exact hv

/-! ### A start -/

/-- `t` is `s` but for items and registers. -/
abbrev itemsFrom (t s : State) : Prop := ∃ items regs, t = { s with items := items, regs := regs }

theorem itemsFrom.trans {u t s : State} (h : itemsFrom u t) (k : itemsFrom t s) : itemsFrom u s := by
  obtain ⟨_, _, rfl⟩ := h; obtain ⟨_, _, rfl⟩ := k; exact ⟨_, _, rfl⟩
theorem regsFrom.items {t s : State} (h : regsFrom t s) : itemsFrom t s := by obtain ⟨_, rfl⟩ := h; exact ⟨_, _, rfl⟩
theorem State.setItem_items (s : State) (region slot : Nat) (x : Option Item) : itemsFrom (s.setItem region slot x) s := ⟨_, _, rfl⟩

theorem State.countLate_regs (s : State) (region d : Nat) : regsFrom (s.countLate region d) s := by
  rw [State.countLate]
  split
  · exact (State.setReg_regs ..).trans (State.bump_regs ..)
  · exact State.bump_regs ..

theorem State.noteLate_regs (s : State) (region : Nat) (x : Item) : regsFrom (s.noteLate region x).1 s := by
  rw [State.noteLate]
  split
  · exact State.countLate_regs ..
  · exact .refl s

theorem State.noteLate_item (s : State) (region : Nat) (x : Item) : ∃ b, (s.noteLate region x).2 = { x with late := b } := by
  rw [State.noteLate]; split <;> exact ⟨_, rfl⟩

theorem fst_mk {α β : Type} (a : α) (b : β) : (a, b).1 = a := rfl

theorem State.markStart_first (s : State) (region : Nat) (x : Item) (h : ¬ x.start.isSome = true) : s.markStart region x
    = ((s.noteLate region x).1, { (s.noteLate region x).2 with start := some s.lay.now, startCyc := s.cycle }) := by
  rw [State.markStart, if_neg h]

theorem State.markStart_regs (s : State) (region : Nat) (x : Item) : regsFrom (s.markStart region x).1 s := by
  by_cases h : x.start.isSome = true
  · rw [State.markStart, if_pos h]; exact .refl s
  · have e : (s.markStart region x).1 = (s.noteLate region x).1 :=
      (congrArg Prod.fst (State.markStart_first s region x h)).trans (fst_mk _ _)
    rw [e]; exact State.noteLate_regs s region x

theorem State.markStart_item (s : State) (region : Nat) (x : Item) :
    ∃ a b c, (s.markStart region x).2 = { x with start := a, startCyc := b, late := c } := by
  rw [State.markStart]
  split
  · exact ⟨_, _, _, rfl⟩
  · obtain ⟨b, h⟩ := State.noteLate_item s region x
    exact ⟨some s.lay.now, s.cycle, b, by simp only [h]⟩

theorem State.clearTiles_regs (s : State) (x : Item) (region units : Nat) : regsFrom (s.clearTiles x region units) s := by
  rw [State.clearTiles]
  split
  · exact State.setEach_regs ..
  · split
    · exact State.setEach_regs ..
    · exact .refl s

/-- An item that begins is the item, running on its units; beside items only registers change. -/
theorem State.beginItem_spec (s : State) (region slot : Nat) (x : Item) (units : Nat) :
    itemsFrom (s.beginItem region slot x units).1 s ∧ (s.beginItem region slot x units).2.raw = x.raw ∧
      (s.beginItem region slot x units).2.stage = .running ∧ (s.beginItem region slot x units).2.units = units := by
  rw [State.beginItem]
  refine ⟨?_, ?_⟩
  · exact (State.showItem_regs ..).items.trans ((State.setItem_items ..).trans ((State.clearTiles_regs ..).trans (State.markStart_regs ..)).items)
  · obtain ⟨a, b, c, h⟩ := State.markStart_item s region { x with
      stage := .running, units := units, progCyc := s.cycle, latched := s.latchWords x region
      runahead := bits (s.reg .runahead region).toNat 6 0 }
    simp only [h, and_self]

/-- What a start can do: nothing to an item that is not ready or running, or whose memory is held; a running item goes on as it is;
a ready one is running, with its descriptor kept, and beside items only registers change. -/
theorem State.startItem_spec {s u : State} {region slot : Nat} {x y : Item} (h : s.startItem region slot x = some (u, y)) :
    s.itemHeld region x = false ∧ y.raw = x.raw ∧ y.stage = .running ∧ itemsFrom u s ∧
      (x.stage = .running ∧ u = s ∧ y = x ∨
       x.stage = .ready ∧ ∃ units, s.chooseUnits region slot x = some units ∧ s.yields region slot x units = false ∧ y.units = units) := by
  rw [State.startItem] at h
  split at h
  · cases h
  next hh =>
    refine ⟨by simpa using hh, ?_⟩
    split at h
    next hr =>
      cases h
      exact ⟨rfl, by simpa using hr, ⟨_, _, rfl⟩, .inl ⟨by simpa using hr, rfl, rfl⟩⟩
    next =>
      split at h
      · cases h
      next hs =>
        split at h
        · cases h
        next units hc =>
          split at h
          · cases h
          next hy =>
            obtain ⟨hi, hw, hg, hu⟩ := State.beginItem_spec s region slot x units
            rw [Option.some.inj h] at hi hw hg hu
            exact ⟨hw, hg, hi, .inr ⟨by simpa using hs, units, hc, by simpa using hy, hu⟩⟩

/-- An item that can start starts. -/
theorem State.canStart_starts {s : State} {region slot e op : Nat} {x : Item} (h : s.canStart region slot e op x) :
    ∃ u y, s.startItem region slot x = some (u, y) := by
  obtain ⟨_, _, _, _, hs, _, hh, units, hc, hy⟩ := h
  exact ⟨(s.beginItem region slot x units).1, (s.beginItem region slot x units).2, by rw [State.startItem, hh, hs, hc]; simp [hy]⟩

/-! ### A run -/

theorem State.chain_items (s : State) (region : Nat) (x : Item) : itemsFrom (s.chain region x) s := by
  rw [State.chain]
  split
  · exact ⟨_, _, rfl⟩
  · split <;> exact ⟨_, _, rfl⟩

/-- The end of a run changes items and registers. -/
theorem State.endRun_items (s : State) (region slot : Nat) (x : Item) (r : Result) : itemsFrom (s.endRun region slot x r) s :=
  (State.showItem_regs ..).items.trans ((State.setItem_items ..).trans (State.chain_items ..))

/-- A skew changes items and registers. -/
theorem State.skewRun_items (s : State) (region slot : Nat) (x : Item) (cause k entry : Nat) :
    itemsFrom (s.skewRun region slot x cause k entry) s := by
  have h := (State.flagEach_regs (s.bumpEach .splSkewCnt (unitList region x.units) 1) .splSts (unitList region x.units) 4).trans
    (State.bumpEach_regs s .splSkewCnt (unitList region x.units) 1)
  refine (State.showItem_regs ..).items.trans ?_
  split
  · exact (State.setItem_items ..).trans h.items
  · exact (State.setItem_items ..).trans h.items

/-- An item that starts, runs on and whose operation runs through: its run's outputs, its end, and what a fence decided on takes. -/
theorem State.runItem_ok {s u : State} {region slot e op : Nat} {x y : Item} {takes : Item → Bool} {f : State → Nat → Item → RunOut}
    {amax : Nat} {go : State → Item → State × Result} (h : s.itemStarts region slot e op x u y) (ht : takes x = true)
    (hf : f u region y = .ok amax go) : s.runItem region slot takes f = u.ranOn region slot y (go u y) := by
  obtain ⟨h1, h2, h3, h4, h5, h6, h7, h8⟩ := h
  have h9 : (!u.calm && (u.nmaRows y).any fun p => u.nmLost p.1) = false := by
    cases h8 with
    | inl h => simp [h]
    | inr h => simp only [Bool.and_eq_false_iff, List.any_eq_false]; exact .inr fun p hp => by simp [h p hp]
  unfold State.runItem State.ranOn
  simp only [h1, ht, h5, h6, h7, h9, hf]
  simp [h4]

end Sys2Proof.Machine
end

