-- ==== Sys2Proof/Tests/Slice0.lean ====
section
/-! SUPPORT. Tests: a witness state for the hypotheses of each statement (wit_), results taken from the spec (test_), and an
ill-formed command for each check of WellFormed. Two hypotheses have no closed witness, since they ask what an opaque constant of
Config answers: a debug token that verifies (KeysReportsTokensAndContexts) and an ageing state of this part's SERIAL (AgeingRailsResetsAndTheSideband). -/

open Sys2Proof Sys2Proof.Machine
namespace Sys2Proof.Tests
set_option Elab.async false

/-! ### Small states -/

/-- The machine started and READY, its memory trained. -/
def up : State := { State.reset with boot := { ({} : Boot) with stage := 7 } }
/-- A descriptor of an engine and operation, with the fields given: offset, bytes, value. -/
def desc (engine op : Nat) (fs : List (Nat × Nat × Nat)) : Nat :=
  (([(0, 2, engine * 4096 + op), (8, 2, 1), (0xA, 2, 0xFFFF), (0x7A, 2, 0xFFFF), (0x7C, 2, 0xFFFF), (0x7E, 2, 0xFFFF)]
    : List (Nat × Nat × Nat)).filter fun f => fs.all fun g => g.1 != f.1).foldl (fun n f => n + f.2.2 * 2 ^ (8 * f.1))
    ((fs.map fun f => f.2.2 * 2 ^ (8 * f.1)).sum)
/-- An item of a descriptor, at a stage. -/
def item (raw : Nat) (stage : Stage) : Item :=
  { raw := raw, count := 0, stage := stage, w0 := .off, w1 := .off, gateOpen := true, units := 0, gen := 1, start := none, startCyc := 0
    admitCyc := 0, progCyc := 0, late := false, retried := false, chained := false, prepass := 0, latched := [], fetched := [], fetchedPoison := []
    queued := [0, 0, 0, 0], runahead := 0, nmIssued := false, nmPoison := false, nmSats := 0, wrote := false, seed := 0, bwl := 0, predDone := true
    counted := 0, ofmt := 0, waiting := none, doneSeq := 0, waitCyc := none, pin := none, res := {} }
/-- The answer of a command holds. -/
def gives (i : Instr) (s : State) (p : State → Bool) : Bool := match exec i s with | .next t => p t | _ => false
/-- Two answers are one. -/
def same (a b : Host.Outcome State Fault Refusal) : Bool := match a, b with | .next t, .next u => t == u | _, _ => false

/-! ### The queue and Agrex -/

theorem wit_StepRunsTheFrontCommand : ({ up with pending := [.layPpsLoss, .mapLock 0] } : State).pending = [.layPpsLoss, .mapLock 0] := by
  decide +kernel
theorem wit_EmptyQueueIsOneCycle : up.pending = [] ∧ up.lay.back = 0 ∧ up.lay.slew = 0 := by decide +kernel
theorem wit_EverySteps : up.wf = true ∧ up.lay.state ≤ 3 ∧ up.boot.stage ≤ 7 ∧ up.pending = [] := by decide +kernel
theorem wit_fuses : ({ up.boot with ownerDigest := some [1#8] } : Boot).ownerDigest = some [1#8] := by decide +kernel

def key1 : List Byte := List.replicate 32 0x11#8
def ses (e : Nat) : Session := { id := 1, key := key1, expected := e, cached := some (0x12, 0, 0, []), lastAt := 0 }
/-- A request of session 1, rightly tagged. -/
def req (op seq : Nat) (pl : List Byte) : Datagram :=
  let g : Datagram := { port := 0, source := 9, fragment := false, magic := 0xA9E7, version := 1, opcode := op, session := 1, seq := seq
                        length := pl.length, status := 0, flags := 0, payload := pl, tag := [] }
  { g with tag := agTag key1 (dgBytes g) }
def agx (e owner job : Nat) : State := { up with sessions := [ses e], ownerSession := owner, ownerJob := job }
/-- What makes a request heard. -/
def hearing (s : State) (e : Nat) (pl : List Byte) : Bool :=
  s.mcUp && s.session 1 == some (ses e) && !s.idle (ses e) && decide (pl.length ≤ 1024)
theorem heard_of {s : State} {e op seq : Nat} {pl : List Byte} (h : hearing s e pl = true) :
    s.agHears (req op seq pl) op (ses e) := by
  simp only [hearing, Bool.and_eq_true, beq_iff_eq, Bool.not_eq_true', decide_eq_true_eq] at h
  exact ⟨h.1.1.1, by simp [dgWell, req, agTag_length, h.2], rfl, h.1.1.2, h.1.2, rfl⟩

theorem wit_AgrexRoleRequestsAnswered :
    (agx 7 1 5).agHears (req 0x05 7 []) 0x05 (ses 7) ∧ (agx 7 1 5).agHears (req 0x02 7 []) 0x02 (ses 7)
      ∧ (agx 7 0 0).agHears (req 0x03 7 (beBytes 8 0)) 0x03 (ses 7) ∧ (agx 7 0 0).agHears (req 0x03 7 (beBytes 8 1)) 0x03 (ses 7)
      ∧ (agx 7 1 5).agHears (req 0x03 7 (beBytes 8 5)) 0x03 (ses 7) ∧ (agx 7 1 5).agHears (req 0x03 7 (beBytes 8 4)) 0x03 (ses 7)
      ∧ (agx 7 2 0).agHears (req 0x03 7 (beBytes 8 (2 ^ 64 - 1))) 0x03 (ses 7) ∧ (agx 7 1 5).agHears (req 0x04 7 []) 0x04 (ses 7)
      ∧ (agx 7 1 5).ownerSession = (ses 7).id :=
  ⟨heard_of (by decide +kernel), heard_of (by decide +kernel), heard_of (by decide +kernel), heard_of (by decide +kernel),
    heard_of (by decide +kernel), heard_of (by decide +kernel), heard_of (by decide +kernel), heard_of (by decide +kernel), rfl⟩
theorem wit_AgrexDictionaryRequestsAnswered :
    (agx 7 1 5).agHears (req 0x10 7 (beBytes 4 0x20400000)) 0x10 (ses 7) ∧ (agx 7 0 0).agHears (req 0x11 7 (beBytes 1 0)) 0x11 (ses 7)
      ∧ (agx 7 0 0).agHears (req 0x11 7 (beBytes 1 33)) 0x11 (ses 7) ∧ (agx 7 0 0).agHears (req 0x12 7 []) 0x12 (ses 7)
      ∧ (agx 7 0 0).agHears (req 0x13 7 []) 0x13 (ses 7)
      ∧ (agx 7 1 5).agHears (req 0x12 7 (beBytes 8 0x2040000500040000 ++ beBytes 4 50)) 0x12 (ses 7)
      ∧ (agx 7 1 5).agHears (req 0x13 7 (beBytes 8 0x2040000500040000 ++ beBytes 4 50 ++ (beBytes 4 50).map (fun b => ~~~b))) 0x13 (ses 7)
      ∧ (agx 7 1 5).boot.bitter = false :=
  ⟨heard_of (by decide +kernel), heard_of (by decide +kernel), heard_of (by decide +kernel), heard_of (by decide +kernel),
    heard_of (by decide +kernel), heard_of (by decide +kernel), heard_of (by decide +kernel), rfl⟩
/-- READ of one entry and READ_MULTI of 1 and of 32, the latter with an answer of more than 1,024 bytes. -/
def multi (n k : Nat) : List Byte := beBytes 4 (n * 2 ^ 24) ++ (List.replicate n (beBytes 4 k)).flatten
def bitterAgx : State := { agx 7 1 5 with boot := { (agx 7 1 5).boot with bitter := true } }
theorem wit_AgrexReads :
    (agx 7 1 5).agHears (req 0x10 7 (beBytes 4 0x99990000)) 0x10 (ses 7) ∧ (agx 7 1 5).agHears (req 0x11 7 (multi 1 0x20400000)) 0x11 (ses 7)
      ∧ (agx 7 1 5).agHears (req 0x11 7 (multi 32 0x20B30000)) 0x11 (ses 7) ∧ bitterAgx.agHears (req 0x10 7 (beBytes 4 0x20400000)) 0x10 (ses 7)
      ∧ bitterAgx.agHears (req 0x12 7 (beBytes 8 0x2040000500040000 ++ beBytes 4 50)) 0x12 (ses 7)
      ∧ bitterAgx.boot.bitter = true ∧ (bitterServes 0x2040, bitterServes 0x1000) = (false, true)
      ∧ (((agx 7 1 5).dictRead 0x2040 0 true).1.status, ((agx 7 1 5).dictRead 0x9999 0 true).1.status) = (0, 0x40)
      ∧ (beNat ((multi 32 0x20B30000).take 1), (multi 32 0x20B30000).length) = (32, 4 + 4 * 32)
      ∧ 1024 < ((agx 7 1 5).readEach true (List.replicate 32 (0x20B3, 0))).1.length
      ∧ ((agx 7 1 5).readEach true [(0x2040, 0)]).1.length ≤ 1024 :=
  ⟨heard_of (by decide +kernel), heard_of (by decide +kernel), heard_of (by decide +kernel), heard_of (by decide +kernel),
    heard_of (by decide +kernel), rfl, by decide +kernel, by decide +kernel, by decide +kernel, by decide +kernel, by decide +kernel⟩
theorem wit_AgrexSessionsAndOrder :
    (agx 7 1 5).agHears (req 0x12 6 []) 0x12 (ses 7) ∧ (req 0x12 6 []).seq = ((ses 7).expected + 65535) % 65536
      ∧ (ses 7).cached = some (0x12, 0, 0, []) ∧ (agx 7 1 5).agHears (req 0x12 8 []) 0x12 (ses 7)
      ∧ (agx 0 1 5).agHears (req 0x12 65535 []) 0x12 (ses 0) ∧ (agx 7 1 5).session 2 = none :=
  ⟨heard_of (by decide +kernel), rfl, rfl, heard_of (by decide +kernel), heard_of (by decide +kernel), by decide +kernel⟩
theorem wit_wrongTag : (req 0x12 7 []).tag ≠ key1.take 16 ∧ (key1.take 16).length = 16 := by decide +kernel
/-- The key record with a client in slot 0, and an OPEN under it. -/
def key2 : List Byte := List.replicate 32 0x22#8
def keyed : State := { up with keys := [(0, some ⟨key2, 1⟩)] }
def opening (tag : List Byte) : Datagram := { req 0x01 0 (List.replicate 36 0#8) with session := 0, tag := tag }
theorem opening_bytes (t : List Byte) : dgBytes (opening t) = dgBytes (opening []) := rfl
theorem wit_AgrexOpens :
    dgWell (opening (agTag key2 (dgBytes (opening [])))) = true ∧ agTag key2 (dgBytes (opening (agTag key2 (dgBytes (opening [])))))
        = (opening (agTag key2 (dgBytes (opening [])))).tag :=
  ⟨by simp [dgWell, opening, req, agTag_length], congrArg (agTag key2) (opening_bytes _)⟩
theorem wit_AgrexOpenCases :
    keyed.mcUp = true ∧ keyed.openKey 0 = some key2 ∧ keyed.openKey 5 = none ∧ agTag key2 (dgBytes (opening [])) ≠ key1.take 16
      ∧ keyed.sessions.length < keyed.dv 0x2040 1
      ∧ ({ keyed with sessions := List.replicate 8 (ses 1) } : State).dv 0x2040 1 ≤ 8 := by decide +kernel
theorem wit_AgrexLapses : (agx 7 1 5).session 1 = some (ses 7)
    ∧ (ses 7).lastAt + cycOfMs (({ agx 7 1 5 with cycle := 10 ^ 15 } : State).dv 0x2040 0) ≤ 10 ^ 15 := by decide +kernel
/-- The boundary of 02 R46: SEQ 0 is E − 1 when E is 1, and 65,535 when E is 0. -/
theorem test_agx_seq_wraps : (0 + 65535) % 65536 = 65535 ∧ (1 + 65535) % 65536 = 0 := by decide
/-- SHA3-256 of the empty message (FIPS 202). -/
theorem test_sha3_empty : (sha3 []).take 4 = [0xa7#8, 0xff#8, 0xc6#8, 0xf8#8] := by decide +kernel

/-! ### The dictionary, its local port, registers, guards, mailbox -/

theorem wit_LocalPortCommandsBeginAndEnd :
    up.held = false ∧ (up.dicBank 3).busy = false
      ∧ ((up.intervene 3 4 none).dictRead 0x9999 0 true).1.status ≠ 0
      ∧ ((up.intervene 3 4 none).dictRead 0x2040 0 true).1.status = 0 ∧ ((dictFind 0x2040 0).map (·.ty) == some .wide) = false
      ∧ ((up.intervene 3 4 none).dictRead 0x7000 8 true).1.status = 0 ∧ (dictFind 0x7000 8).map (·.ty) = some .wide
      ∧ ((dictFind 0x2040 0).map fun d => d.ty == .blob || d.ty == .str) = some false
      ∧ ((up.setDic 3 { busy := true, pendValue := some (7, false) }).dicBank 3).busy = true
      ∧ (up.setDic 3 { busy := true, pendValue := some (7, false) }).wf = true := by decide +kernel
/-- The wide read that is allowed, a blob at both limits of a guarded write, and an entry that is not there. -/
theorem wit_LocalPortWideAndBlob :
    (dictFind 0x9999 0).isNone = true ∧ ((dictFind 0x7000 8).map fun d => (d.ty, d.broad)) = some (.wide, false)
      ∧ ((dictFind 0x8021 3).map (·.ty)) = some .blob ∧ 256 % 65536 ≤ 256 ∧ 128 < 129 % 65536 ∧ 128 % 65536 ≤ 128 := by decide +kernel
/-- 02 R39: step by step on its own entry, at the ends of its range (1,000 to 600,000). -/
theorem wit_RefusedDictionaryWriteChangesNothing :
    (dictFind 0x9999 0).isNone = true ∧ (dictFind 0x1000 0).map (·.acc) = some .ro ∧ (dictFind 0x4010 0).map (·.acc) = some .rc
      ∧ (dictFind 0x2040 0).map (fun d => d.acc == .rw && d.len == 4 && d.has 0 && !up.valueOk d 0 999 && up.valueOk d 0 1000
          && up.valueOk d 0 600000 && !up.valueOk d 0 600001) = some true
      ∧ ((dictFind 0x20B3 16).map fun d => d.has 16) = some false ∧ (dictFind 0x1F04 0).map (·.acc) = some .gw := by decide +kernel
theorem wit_DictionaryWriteTakesTheValue :
    ((dictFind 0x2040 0).map fun d => d.acc == .rw && d.len == 4 && d.has 0 && up.valueOk d 0 600000
        && (up.entryEffect 3 0x2040 0 600000 (leBytes 4 600000)).isNone && (d.apply == .live)) = some true
      ∧ leNat (leBytes 4 600000) = 600000 := by decide +kernel
/-- Cleat 3 of die 2: CLT_CFG is plain, CLT_STS is RC, CLT_SET is GW. -/
theorem wit_RegisterWritesStoreAndReadBack :
    up.held = false ∧ banked 2 0x100190 = false ∧ ((regAt 2 0x100190).map fun x => (x.1.name, x.1.gw, decide (plainWord x.1 x.2.1 x.2.2),
        up.regBusy x.1.name x.2.1 x.2.2, (BitVec.ofNat 32 x.1.rw ||| BitVec.ofNat 32 x.1.wo) != 0#32)) = some (.cltCfg, 0, true, false, true)
      ∧ regKey .cltCfg 32772 0 ≠ regKey .cltCfg 32771 0 := by decide +kernel
theorem wit_LoadsReturnValuesAndAliasesReachOneBit :
    up.wf = true ∧ banked 2 0x100198 = false ∧ ((regAt 2 0x100198).map fun x => (x.1.name, x.1.rc)) = some (.cltSts, 7)
      ∧ 0x100198 * 32 + 31 * 4 < 0x20000000 ∧ ((regAt 2 0x10018C).map fun x => bit x.1.gw 31) = some true
      ∧ ((regAt 2 0x100198).map fun x => (bit x.1.gw 0, bit x.1.rw 0, bit x.1.wo 0)) = some (false, false, false)
      ∧ ((regAt 2 0x100190).map fun x => (bit x.1.gw 31, bit x.1.rw 31, decide (plainWord x.1 x.2.1 x.2.2), up.regBusy x.1.name x.2.1 x.2.2))
        = some (false, true, true, false) := by decide +kernel
theorem wit_GuardedWriteTakesItsComplement :
    up.held = false ∧ banked 2 0x10018C = false ∧ gwAt 2 0x10018C ≠ 0 ∧ up.guardOf 7 2 = none
      ∧ (({ up with cycle := 512 } : State).setGuard 7 2 (some ⟨0x10018C, 2 ^ 32 - 1 - 9, 4, 0⟩)).guardOf 7 2
          = some ⟨0x10018C, 2 ^ 32 - 1 - 9, 4, 0⟩ ∧ 2 ^ 32 - 1 - 9 ≠ 2 ^ 32 - 1 - 8 := by decide +kernel
theorem wit_MailboxCapturesItsWords :
    up.held = false ∧ (up.mbxBank 0 4).arg.toNat < 4 ∧ domDie ⟨0, 0⟩ = 0 ∧ domDie ⟨3, 4⟩ ≠ 0 ∧ (up.setMbx 0 4 { busy := true }).mbxBank 0 4 ≠ up.mbxBank 0 4
      ∧ ((dictFind 0x7000 8).map fun d => (d.ty, d.has 8)) = some (.wide, true) := by decide +kernel

/-- 02 R68's own example: bit 5 of the register at offset 0x0000_0104. -/
theorem test_alias_address : 0x20000000 + 0x104 * 32 + 5 * 4 = 0x20002094 := by decide
/-- 02 R65, R66: the cycle at which an attempt ends is the 512th. -/
theorem test_guard_taken_at_512 :
    gives (.gwFieldWrite 7 (busAddr 2 0x10018C) 4 9) (({ up with cycle := 512 } : State).setGuard 7 2 (some ⟨0x10018C, 2 ^ 32 - 1 - 9, 4, 0⟩))
      (fun t => t.cleat 2 3 == 9#32 && (t.guardOf 7 2).isNone) = true := by decide +kernel
theorem test_guard_mismatch :
    gives (.gwFieldWrite 7 (busAddr 2 0x10018C) 4 8) (up.setGuard 7 2 (some ⟨0x10018C, 2 ^ 32 - 1 - 9, 4, 0⟩))
      (fun t => t.cleat 2 3 == 0#32 && (t.reg .mgtGuardLast 2).toNat == 2 * 2 ^ 29 + 0x10018C && t.reg .mgtGuardCnt 2 == 1#32) = true := by
  decide +kernel
/-- 03 R109: the reserved bits [27:14] of CLT_CFG keep their 0. -/
theorem test_register_store :
    gives (.registerWrite 3 (busAddr 2 0x100190) 4 0x80004002) up (fun t => t.reg .cltCfg 32771 == 0x80000002#32) = true := by decide +kernel
theorem test_alias_sets_one_bit :
    gives (.bitAliasWrite 3 (busAddr 2 (0x20000000 + 0x100190 * 32 + 31 * 4)) 0xFFFFFFFF) (up.setReg .cltCfg 32771 0 5#32)
      (fun t => t.reg .cltCfg 32771 == 0x80000005#32) = true := by decide +kernel
theorem test_rc_read_clears :
    gives (.rcRegisterRead 3 (busAddr 2 0x100198) 4) (up.setReg .cltSts 32771 0 5#32)
      (fun t => t.out.head? == some (.busData 3 5) && t.reg .cltSts 32771 == 0#32) = true := by decide +kernel
theorem test_dic_write_ends :
    gives (.dicWrite 3 0x2040 0) (up.setDic 3 { data := 50#64 }) (fun t => (t.dicBank 3).busy && (t.dicBank 3).pendStatus == 0x43
      && t.dv 0x2040 0 == 30000) = true := by decide +kernel

/-! ### Lay time -/

def pins (st : Nat) : State := { up with lay := { up.lay with state := st, setSec := none } }
theorem wit_PpsEdges : (pins 0).laySource = 0 ∧ (pins 0).lay.refLost = false ∧ (up.setReg .layCfg 4 0 0x10000000#32).laySource ≠ 0
    ∧ ({ (pins 0).lay with setSec := some 5 } : Lay).setSec = some 5 := by decide +kernel
/-- LAY_STEP_NS is 1,000: offsets of exactly it, and of one more, either way. -/
theorem wit_Offsets : up.dv 0x2081 0 = 1000 ∧ (nsOfLayInt 4295).natAbs ≤ 1000 ∧ 1000 < (nsOfLayInt 4300).natAbs
    ∧ 1000 < (nsOfLayInt (-4300)).natAbs ∧ (0 : Int) ≤ 4300 ∧ (-4300 : Int) < 0 := by decide +kernel
/-- A source FABRIC, with port 3 UP to a locked neighbour. -/
def fab : State := (((up.setReg .layCfg 4 0 0x10001F03#32).setReg .fabPortStat 0 3 (setPortStat 2 255)).setReg .fabPortNbr 0 3
    0x80000000#32).setPort 3 { up.port 3 with nbrLay := 2, nbrParent := 17 }
theorem wit_LosingTheReferenceIsHoldover :
    up.laySource = 0 ∧ up.lay.ppsCyc + 3150000000 ≤ 3150000000
      ∧ ({ up.lay with refLost := true } : Lay).refLost = true ∧ fab.laySource = 1 ∧ up.lay.syncCyc + 2100000 ≤ 2100000
      ∧ fab.layPort = some 3 ∧ (up.setReg .layCfg 4 0 0x10001F1F#32).layPort = none ∧ ({ parent := 17 } : Lay).parent = 17 := by decide +kernel
theorem test_pps_takes_set_seconds :
    gives (.layPpsEdge 0) { up with lay := { up.lay with setSec := some 5, now := 2 ^ 32 } } (fun t => t.lay.now == 5 * 2 ^ 32 && t.lay.setSec.isNone)
      = true := by decide +kernel

/-! ### Rings, admission, completion, Cleats -/

/-- Region 0's submission ring of 64 entries at 0x10000, holding one PTE_WRITE of 0x8000000000000001 to 0x20000. -/
def pteDesc (g : Nat) : Nat := desc 4 0x11 [(8, 2, g), (0x68, 8, 0x20000), (0x70, 8, 0x8000000000000001)]
def ringed (d : Nat) : State :=
  (((up.setReg .sqCfg 0 0 0x80000006#32).setReg .sqBase 0 0 0x10000#32).setReg .sqTail 0 0 1#32).wr 0x10000 (leBytes 128 d)
/-- The item its head gives. -/
def headItem (s : State) : Item := s.newItem 0 (s.rd 0x10000 128) 0
theorem wit_RingPointers :
    (1#32 - up.reg .sqHead 0).toNat ≤ up.sqSize 0 ∧ up.sqSize 0 = 64 ∧ (64#32 - up.reg .sqHead 0).toNat ≤ 64
      ∧ 64 < (65#32 - up.reg .sqHead 0).toNat ∧ ((up.reg .cqTail 0 7 - up.reg .cqHead 0 7).toNat < (1#32 - up.reg .cqHead 0 7).toNat)
      ∧ ((0#32 - up.reg .ateRingHead 3).toNat ≤ up.ateSize 3) ∧ up.ateSize 3 < (BitVec.ofNat 32 (2 ^ 32 - 1) - up.reg .ateRingHead 3).toNat := by
  decide +kernel
theorem wit_DescriptorsAreAdmitted :
    bit ((ringed (pteDesc 1)).reg .sqCfg 0).toNat 31 = true ∧ (ringed (pteDesc 1)).reg .sqHead 0 ≠ (ringed (pteDesc 1)).reg .sqTail 0
      ∧ (ringed (pteDesc 1)).frozen ⟨2, 0⟩ = false ∧ (ringed (pteDesc 1)).sqBase 0 = 0x10000 ∧ (ringed (pteDesc 1)).heldAt 0 0x10000 = false
      ∧ (ringed (pteDesc 1)).freeSlot 0 = some 0 ∧ (ringed (pteDesc 1)).poisonedIn 0x10000 128 = false
      ∧ (ringed (pteDesc 1)).mapped 0x10000 128 = true ∧ (headItem (ringed (pteDesc 1))).genField = (ringed (pteDesc 1)).gen 2 0
      ∧ ((ringed (pteDesc 1)).seeLayer (headItem (ringed (pteDesc 1)))).admitCheck 0 0 (headItem (ringed (pteDesc 1))) = none := by decide +kernel
theorem wit_DescriptorsAreRefused :
    (headItem (ringed (pteDesc 2))).genField ≠ (ringed (pteDesc 2)).gen 2 0
      ∧ ({ ringed (pteDesc 1) with mem := (ringed (pteDesc 1)).mem.setPoison (((ringed (pteDesc 1)).place 0x10000).getD 0 / 64) true } : State).poisonedIn
          0x10000 128 = true
      ∧ (((ringed (desc 4 0x12 [])).seeLayer (headItem (ringed (desc 4 0x12 [])))).admitCheck 0 0 (headItem (ringed (desc 4 0x12 [])))) = some (1, 0, 0) := by
  decide +kernel
theorem test_descriptor_admitted :
    gives (.descriptorAdmit 0) (ringed (pteDesc 1)) (fun t => (t.item 0 0).map (·.stage) == some .ready && t.reg .sqHead 0 == 1#32 && t.mem.mapLocked)
      = true := by decide +kernel
/-- 03 R88: an unknown OP is REASON 0x01. -/
theorem test_descriptor_unknown_op :
    gives (.descriptorAdmit 0) ((ringed (desc 4 0x12 [(4, 4, 0xBEEF)])).setReg .cqCfg 0 0 0x80000006#32)
      (fun t => t.rd 0 4 == 0xBEEF && t.rd 4 1 == 0x0A && (t.item 0 0).isNone && t.reg .cqTail 0 == 1#32) = true := by decide +kernel

/-! ### Items on their engines -/

/-- A stream's list at `l`: a header of coarse scale 1 and one entry of `len` bytes at `a`, with scale lines at l + 0x400, of
TAG 0, where it is scaled. -/
def strmAt (l a len fmt : Nat) (s : State) : State :=
  let s := s.wr l (leBytes 32 ((l + 0x400) + 0x3F800000 * 2 ^ 128 + 56 * 2 ^ 192) ++
    leBytes 32 (a + len * 2 ^ 64 + 2 ^ 96 + (fmt * 4096 + 1) * 2 ^ 112 + (if fmt ≤ 6 then 0 else noScale) * 2 ^ 192))
  if fmt ≤ 6 then s.wr (l + 0x400) (leBytes 8 (0xFFFF * 2 ^ 48) ++ List.replicate 56 0#8) else s
/-- A descriptor's field for the stream whose list is at `l`. -/
def strmF (k l : Nat) : Nat × Nat × Nat := (0x48 + 8 * k, 8, l + 2 * 2 ^ 48)
/-- Region 0, slot 0 holds a ready item. -/
def holds (s : State) (raw : Nat) (flags : Nat := 0) : State := s.setItem 0 0 (some (item (raw + flags * 65536) .ready))
def runKind : RunOut → Nat | .ok _ _ => 0 | .bad _ => 1 | .skew _ _ _ => 2 | .hold => 3
/-- The item of region 0, slot 0 starts, and its run ends so. -/
def runsAs (s : State) (engine op : Nat) (run : State → Nat → Item → RunOut) (kind : Nat) : Bool :=
  match s.item 0 0 with
  | some x => match s.startItem 0 0 x with
    | some (u, y) => x.engine == engine && x.op == op && x.prepass != 1 && !s.frozen ⟨2, 0⟩ && runKind (run u 0 y) == kind
        && x.stage == .ready && u.calm && !u.behind 0 0 y
    | none => false
  | none => false
/-- What `runsAs` shows is what the rows' statements assume. -/
theorem starts_of_runsAs {s : State} {e o k : Nat} {run : State → Nat → Item → RunOut} (h : runsAs s e o run k = true) :
    ∃ (x : Item) (u : State) (y : Item), s.itemStarts 0 0 e o x u y ∧ s.canStart 0 0 e o x ∧ u.calm = true ∧ runKind (run u 0 y) = k := by
  unfold runsAs at h
  split at h
  · rename_i x hx
    split at h
    · rename_i u y hs
      simp only [Bool.and_eq_true, beq_iff_eq, bne_iff_ne, ne_eq, Bool.not_eq_true'] at h
      obtain ⟨⟨⟨⟨⟨⟨⟨he, ho⟩, hp⟩, hf⟩, hk⟩, hr⟩, hc⟩, hb⟩ := h
      obtain ⟨hh, -, -, -, hw⟩ := State.startItem_spec hs
      refine ⟨x, u, y, ⟨hx, he, ho, hp, hf, hs, hb, .inl hc⟩, ?_, hc, hk⟩
      rcases hw with ⟨hw, -⟩ | ⟨-, units, hu, hy, -⟩
      · rw [hr] at hw; cases hw
      · exact ⟨hx, he, ho, hp, hr, hf, hh, units, hu, hy⟩
    · cases h
  · cases h
/-- What the row's statement of completion asks of the item of region 0, slot 0, as it starts. -/
def meets (s : State) (ok : State → Item → Bool) : Bool := match s.item 0 0 with
  | some x => match s.startItem 0 0 x with
    | some (u, y) => ok u y
    | none => false
  | none => false
/-- Its checks pass and its scale lines are in step. -/
def clean (u : State) (y : Item) (checks : List (Option Bad)) (ins : List (Strm × Bool)) : Bool := decide (u.passes y checks ins)
def sA : Nat × Nat × Nat := strmF 0 0x10000
def sB : Nat × Nat × Nat := strmF 1 0x11000
def sC : Nat × Nat × Nat := strmF 2 0x12000
def sD : Nat × Nat × Nat := strmF 3 0x13000
def aAt (len fmt : Nat) (s : State) : State := strmAt 0x10000 0x20000 len fmt s
def bAt (len fmt : Nat) (s : State) : State := strmAt 0x11000 0x21000 len fmt s
def cAt (len fmt : Nat) (s : State) : State := strmAt 0x12000 0x22000 len fmt s
def dAt (len fmt : Nat) (s : State) : State := strmAt 0x13000 0x23000 len fmt s
def m1 : List (Nat × Nat × Nat) := [(0xC, 4, 1), (0x68, 4, 1), (0x6C, 4, 1), (0x70, 3, 15)]

def twnState : State := holds (cAt 4 9 (bAt 8 2 (aAt 8 2 up))) (desc 0 1 (m1 ++ [sA, sB, sC]))
def hwsState : State := holds (cAt 4 9 (bAt 64 9 (aAt 64 9 up))) (desc 1 1 (m1 ++ [sA, sB, sC]))
def copyState : State := holds (cAt 64 10 (aAt 64 10 up)) (desc 8 1 [sA, sC])
/-- The same machine with a faulty scale line of stream A. -/
def skewed (s : State) : State := s.wr 0x10406 [0#8]
def draw1 : List (Nat × Nat × Nat) := [(0x68, 4, 1), (0x6C, 3, 0), (0x6F, 1, 0x80)]
def vecState (op : Nat) (fs : List (Nat × Nat × Nat)) : State := holds (cAt 4 9 (aAt 4 9 up)) (desc 2 op (draw1 ++ sC :: fs))
def packState : State := holds (cAt 6 2 (aAt 8 2 up)) (desc 2 0x410 [(0x68, 4, 1), (0x6C, 3, 16), (0x6F, 1, 1), sA, sC])
def rebState : State := holds (cAt 4 9 (aAt 4 9 up)) (desc 3 1 [(0xC, 4, 1), (0x68, 4, 1), (0x6C, 4, 1), (0x77, 1, 9), sA, sC])
/-- A list of two byte entries. -/
def twoAt (l a n b m : Nat) (s : State) : State :=
  s.wr l (leBytes 32 (l + 0x400 + 0x3F800000 * 2 ^ 128)
    ++ leBytes 32 (a + n * 2 ^ 64 + 2 ^ 96 + 0xA000 * 2 ^ 112 + noScale * 2 ^ 192)
    ++ leBytes 32 (b + m * 2 ^ 64 + 2 ^ 96 + 0xA001 * 2 ^ 112 + noScale * 2 ^ 192))
def rtrState (op : Nat) (more : List (Nat × Nat × Nat)) (s : State) : State :=
  holds (dAt 8 10 (twoAt 0x12000 0x22000 8 0x22100 8 s)) (desc 5 op ([(0xC, 4, 1), (0x68, 4, 1), (0x6C, 2, 1), (0x6E, 1, 1), (0x70, 4, 1),
    sA, (0x58, 8, 0x12000 + 3 * 2 ^ 48), sD] ++ more))
/-- Row 0 of one expert, variant 0, of one site. -/
def segState : State :=
  holds (cAt 4 9 (bAt 8 10 (aAt 64 9 ((up.setReg .rtrVarSites 0 0 1#32).setReg .rtrVarBase 0 0 0x30000#32))))
    (desc 1 0x10 [(0xC, 4, 1), (0x68, 4, 1), (0x6C, 4, 1), (0x70, 3, 15), sA, sB, sC])
def halState (op : Nat) : State := holds up (desc 6 op [(0x68, 6, 0x18000), (0x6E, 2, 1)])
def nmState : State := holds (aAt 32 10 up) (desc 6 0x10 [(0x68, 4, 1), sA])
/-- One line of scales of 16 blocks; MX bytes of 2^0. -/
def mxState (op : Nat) : State :=
  holds ((cAt (if op = 0x10 then 64 else 16) 10 (aAt (if op = 0x10 then 16 else 64) 10 up)).wr 0x20000
    (if op = 0x10 then List.replicate 16 127#8 else leBytes 8 (0xFFFF * 2 ^ 48))) (desc 8 op [sA, sC])
def gatherState (op : Nat) : State :=
  holds (cAt 4 9 (bAt 8 10 (aAt 4 9 up))) (desc 8 op [(0x68, 4, 1), (0x6C, 3, 1), (0x6F, 1, 1), sA, sB, sC])
def capture : Snarl := ⟨0, 0, 1, ⟨1, 0⟩, 1, 2, 0, 0, 1, 1, false, false, false, false, 64, 1, 0, 0⟩
def snarlState : State := holds ((cAt 64 10 up).setSnarl 0 1 (some capture)) (desc 8 0x30 [(0x68, 1, 0), (0x69, 1, 1), sC])
theorem wit_ArrayAndRouterItemsComplete :
    meets hwsState (fun u y => clean u y (u.hwsChecks y) [(u.strm y 0, false), (u.strm y 1, false)])
      ∧ meets segState (fun u y => clean u y (u.segChecks y) [] && u.segSkew 0 y == none)
      ∧ meets rebState (fun u y => clean u y (u.rebChecks y) [(u.strm y 0, false)])
      ∧ meets (rtrState 1 [] (aAt 4 9 up)) (fun u y => !y.gate && clean u y (u.rtrChecks y) [])
      ∧ meets (rtrState 2 [(0x74, 4, 15), sB] (bAt 64 9 (aAt 64 9 up)))
          (fun u y => y.gate && clean u y (u.rtrChecks y) [(u.strm y 0, false), (u.strm y 1, false)]) := by decide +kernel
theorem wit_HalyardItemsComplete :
    ([1, 2, 3, 4, 5].all fun op => meets (halState op) fun u y => decide (halSteady u 0 y)) = true
      ∧ meets nmState (fun u y => u.calm && clean u y [u.bytesCheck (u.strm y 0), if (u.strm y 0).byteCount < 32 * y.opnd 0x68 4 then some (9, 0, 0) else none] []) := by
  decide +kernel
theorem wit_VectorItemsComplete :
    meets (vecState 0x400 []) (fun u y => decide (drwSteady u 0 y)) ∧ meets (vecState 0x401 [sA]) (fun u y => y.drwReads && decide (drwSteady u 0 y))
      ∧ meets (vecState 0x402 []) (fun u y => decide (drwSteady u 0 y)) ∧ meets (vecState 0x403 []) (fun u y => !y.drwReads && decide (drwSteady u 0 y))
      ∧ meets packState (fun u y => clean u y (u.packChecks y) [(u.strm y 0, false)]) := by decide +kernel
theorem wit_MovementItemsComplete :
    meets copyState (fun u y => clean u y (u.copyChecks y) [])
      ∧ meets (mxState 0x10) (fun u y => clean u y (u.fromMxChecks y) [] && (u.readFetched y (u.strm y 0)).all fun b => !mxBad b)
      ∧ meets (mxState 0x11) (fun u y => clean u y (u.toMxChecks y) [] && !u.mxLinesBad y)
      ∧ meets (gatherState 0x20) (fun u y => decide (gatherSteady u 0 y)) ∧ meets (gatherState 0x21) (fun u y => decide (gatherSteady u 0 y))
      ∧ meets snarlState (fun u y => (u.snarlIn (y.opnd 0x68 1) (y.opnd 0x69 1)).any fun k =>
          clean u y [u.bytesCheck (u.strm y 2) true, if (u.strm y 2).byteCount == k.length then none else some (9, 2, 0)] []) := by decide +kernel
theorem wit_TwineItemsComplete :
    meets twnState (fun u y => clean u y (u.twnChecks y) [(u.strm y 0, false), (u.strm y 1 y.twn.bFirst, y.twn.two4)]) := by decide +kernel
theorem wit_ArrayRouterAndHalyardItemsRun :
    runsAs hwsState 1 1 (State.hwsRun []) 0 ∧ runsAs segState 1 0x10 State.segRun 0 ∧ runsAs rebState 3 1 State.rebRun 0
      ∧ runsAs (rtrState 1 [] (aAt 4 9 up)) 5 1 State.rtrRun 0 ∧ runsAs (rtrState 2 [(0x74, 4, 15), sB] (bAt 64 9 (aAt 64 9 up))) 5 2 State.rtrRun 0
      ∧ runsAs (halState 1) 6 1 State.halRun 0 ∧ runsAs (halState 2) 6 2 State.halRun 0 ∧ runsAs (halState 3) 6 3 State.halRun 0
      ∧ runsAs (halState 4) 6 4 State.halRun 0 ∧ runsAs (halState 5) 6 5 State.halRun 0 ∧ runsAs nmState 6 0x10 State.nmRun 0
      ∧ runsAs (hwsState.wr 0x1102C [0#8]) 1 1 (State.hwsRun []) 1 := by decide +kernel
theorem wit_VectorItemsRunAndDraw :
    runsAs (vecState 0x400 []) 2 0x400 State.drwRun 0 ∧ runsAs (vecState 0x401 [sA]) 2 0x401 State.drwRun 0
      ∧ runsAs (vecState 0x402 []) 2 0x402 State.drwRun 0 ∧ runsAs (vecState 0x403 []) 2 0x403 State.drwRun 0
      ∧ runsAs packState 2 0x410 State.packRun 0 := by decide +kernel
/-- The two sides of the threshold of 08 R262, at its ends. -/
theorem wit_draws : bits 0x00000000 31 16 < 65536 % 65536 + 1 ∧ (0 : Nat) % 65536 ≤ bits 0 31 16 ∧ bits 0xFFFF0000 31 16 = 65535
    ∧ (⟨1, 1, 0x80, 65536 + 7, 0⟩ : DrawOp).psrc = true ∧ (⟨1, 1, 0x80, 7, 0⟩ : DrawOp).psrc = false := by decide +kernel
theorem wit_MovementItemsRun :
    runsAs copyState 8 1 State.copyRun 0 ∧ runsAs (mxState 0x10) 8 0x10 State.fromMxRun 0 ∧ runsAs (mxState 0x11) 8 0x11 State.toMxRun 0
      ∧ runsAs (gatherState 0x20) 8 0x20 State.gatherRun 0 ∧ runsAs (gatherState 0x21) 8 0x21 State.gatherRun 0
      ∧ runsAs snarlState 8 0x30 State.snarlCopyRun 0 ∧ snarlState.dieDown 0 = false
      ∧ up.mapped 0x10400 64 = true ∧ up.mapped 0x10800 224 = true := by decide +kernel
theorem wit_TwineItemsRun :
    runsAs twnState 0 1 (State.twnRun []) 0 ∧ runsAs twnState 0 1 (State.twnRun [0]) 0 ∧ 0 < tileCount 1 1
      ∧ runsAs (skewed twnState) 0 1 (State.twnRun []) 2 ∧ (twnState.item 0 0).map (fun x => twnState.isReeve x) = some false
      ∧ twnState.itemSpills 0 0 = [] := by decide +kernel
/-- The scale line out of step restarts a REPLAYABLE item. -/
theorem wit_skewRetried : (item (desc 0 1 m1 + 4 * 65536) .ready).replayable = true ∧ (item (desc 0 1 m1) .ready).replayable = false := by
  decide +kernel
/-- The engine is busy with another item on unit 0, and free on unit 1. -/
def twoUnits : State := hwsState.setItem 0 1 (some { item (desc 1 1 [(0xC, 4, 3)]) .running with units := 3 })
theorem wit_ReadyItemsStartWhereTheirEngineIsFree :
    twoUnits.chooseUnits 0 0 (item (desc 1 1 [(0xC, 4, 2)]) .ready) = none ∧ twoUnits.chooseUnits 0 0 (item (desc 1 1 [(0xC, 4, 4)]) .ready) = some 4
      ∧ twoUnits.chooseUnits 0 0 (item (desc 1 1 []) .ready) = some 4 ∧ (item (desc 1 1 []) .ready).start = none := by decide +kernel
/-- A Hawser product on units 0 and 1, in the ring at 0x50000, with unit 1 fenced. -/
def fencedRing : State := { ((((hwsState.setItem 0 0 none).setReg .sqCfg 0 0 0x80000006#32).setReg .sqBase 0 0 0x50000#32).setReg .sqTail 0 0 1#32).wr
  0x50000 (leBytes 128 (desc 1 1 ((0xC, 4, 3) :: m1.tail ++ [sA, sB, sC]))) with fenced := [(1, true)] }
theorem wit_DescriptorsOnFencedUnits :
    (let x := fencedRing.newItem 0 (fencedRing.rd 0x50000 128) 0
     maskUsed x.engine && (fencedRing.seeLayer x).maskFenced 0 x.mask && !fencedRing.maskFrozen 0 x.mask
       && ((fencedRing.seeLayer x).admitCheck 0 0 x).isNone && x.genField == fencedRing.gen 2 0) = true := by decide +kernel
/-- An earlier ready item wants the unit. -/
def queueing : State := (hwsState.setItem 0 1 (some { item (desc 1 1 (m1 ++ [sA, sB, sC])) .ready with count := 1 })).setReg .sqHead 0 0 2#32
theorem wit_yields :
    (queueing.item 0 1).map (fun x => (queueing.itemHeld 0 x, queueing.chooseUnits 0 1 x, queueing.yields 0 1 x 1, x.stage)) = some (false, some 1, true, .ready)
      ∧ (queueing.item 0 0).map (fun x => queueing.yields 0 0 x 1) = some false := by decide +kernel
theorem wit_NearMemoryOperations :
    up.wf = true ∧ (up.stackOf 0x10008).isSome = true ∧ 0x10008 % nmBytes 1 = 0 ∧ 0x10008 % nmBytes 4 ≠ 0
      ∧ (nmResult 2 0 1 (2 ^ 130 % 2 ^ 32)).2 = false ∧ (nmResult 2 0 (2 ^ 31 - 1) 1).2 = true
      ∧ (nmState.item 0 0).map (fun x => x.stage) = some .ready := by decide +kernel
/-- The hub's Fid recovers die 1: frozen at step 3, under reset at step 4. -/
def die1 (step : Nat) (s : State) : State :=
  { s with fids := [(4, { active := some ⟨⟨3, 1⟩, step, 0, [], 1, 0, 0, 0, false, false, 0⟩, queue := [] })] }
/-- A near-memory ADD of 1 to a BF16 element of a stack, for the item of region 0, slot 0. -/
def nmOp (addr : Nat) (residue : Bool := false) : NmOp := ⟨addr, 2, 0, 1, false, 0, 0, residue⟩
theorem wit_NearMemoryHeld :
    (up.stackOf 0x10008).map stackDie = some 0 ∧ (up.stackOf 0x4008).map stackDie = some 1 ∧ (up.stackOf 0x8008).map stackDie = some 2
      ∧ (die1 3 up).heldAt 0 0x4008 = true ∧ (die1 3 up).dieReset 1 = false ∧ (die1 4 up).dieReset 1 = true
      -- die 2 lies behind die 1 for pages whose bit 12 is 0, behind die 3 for the others
      ∧ (die1 3 up).heldAt 0 0x8008 = true ∧ (die1 3 up).heldAt 0 0x9008 = false ∧ (die1 3 up).heldAt 0 0x10008 = false
      ∧ up.heldAt 0 0x10008 = false ∧ up.dieReset 0 = false := by decide +kernel
def nmRunning : State := up.setItem 0 0 (some (item (desc 0 1 []) .running))
theorem test_near_memory_lost_with_its_die :
    gives (.nmOperation (nmOp 0x4008)) (die1 4 nmRunning) (fun t => t.rd 0x4008 4 == 0 &&
      (t.item 0 0).map (fun z => z.res.statuses) == some [(7, 0)]) = true := by decide +kernel
theorem test_near_memory_residue :
    gives (.nmOperation (nmOp 0x10008 true)) up (fun t => t.rd 0x10008 4 == 1 && t.poisonedIn 0x10008 4 && (t.errDie 0).seq == 1) = true := by
  decide +kernel
/-- An item whose stream A lies on a die in recovery is held. -/
theorem wit_itemHeld :
    (hwsState.itemHeld 0 (item (desc 1 1 [strmF 0 0x4000]) .ready)) = false
      ∧ ((die1 3 hwsState).itemHeld 0 (item (desc 1 1 [strmF 0 0x4000]) .ready)) = true := by decide +kernel
/-- The row (1.0 × 2.0) summed 16 times. -/
def ones (a n c : Nat) (s : State) : State := s.wr a ((List.range n).flatMap fun _ => leBytes 4 c)
theorem test_hawser_product :
    gives (.hawserMatmul 0 0 []) (ones 0x20000 16 0x3F800000 (ones 0x21000 16 0x40000000 hwsState)) (fun t => t.rd 0x22000 4 == 0x42000000) = true := by
  decide +kernel
theorem test_copy_keeps_poison :
    gives (.copy 0 0) (copyState.wr 0x20000 (leBytes 64 (7 + 2 ^ 504)) true) (fun t => t.rd 0x22000 64 == 7 + 2 ^ 504 && t.poisoned 0x22000) = true := by
  decide +kernel
/-- 04 R161: the MX byte 127 is exponent 0, byte 96 exponent 31. -/
theorem test_scales_from_mx :
    gives (.scalesFromMx 0 0) ((mxState 0x10).wr 0x20000 [96#8]) (fun t => t.rd 0x22008 1 == 31 && t.rd 0x22009 1 == 0) = true := by decide +kernel
theorem test_unmapped_output_is_refused :
    gives (.hawserMatmul 0 0 []) (hwsState.wr 0x12020 (leBytes 6 (2 ^ 47))) (fun t =>
      ((t.item 0 0).map fun z => z.res.statuses) == some [(0x0A, 0x07020001)]) = true := by decide +kernel
/-- 11 R362: 32-bit integers stop at ±(2^31 − 1); FP32 1.0 + 2.0. -/
theorem test_nm_results : nmResult 2 0 (2 ^ 31 - 1) 1 = (2 ^ 31 - 1, true) ∧ nmResult 2 1 5 (2 ^ 32 - 1) = (5, false)
    ∧ nmResult 0 0 0x3F800000 0x40000000 = (0x40400000, false) := by decide +kernel

/-! ### Key-value records -/

/-- Sequence 0 of home die 0, one layer: its record at 0x30000, directory 0x31000, leaf 0x32000, ring 0x33000, pool 0x40000;
one KV head of 32. `len`, LAST_POS, REF, SPILL and the leaf's first entry. -/
def kv (len pos ref spill pte : Nat) : State :=
  let s := (((((up.setReg .ateSeqCfg 0 0 1#32).setReg .ateSeqBase 0 0 0x30000#32).setReg .ateLayout 0 0 0x80010101#32).setReg .atePoolBase 0 0
    0x40000#32).setReg .ateRingCfg 0 0 0x8000000A#32).setReg .ateRingBase 0 0 0x33000#32
  let s := s.wr 0x30000 (leBytes 8 (2 ^ 63 + 0x31000) ++ leBytes 4 len ++ leBytes 4 pos ++ leBytes 4 ref ++ leBytes 2 spill)
  ((s.wr 0x31000 (leBytes 8 (2 ^ 63 + 0x32000))).wr 0x32000 (leBytes 8 pte)).wr 0x33000 (leBytes 4 1)
/-- The page of slot 0 with one token at position 5. -/
def pageHere (s : State) : State :=
  ((s.wr 0x40000 (pageHeader 0 0 0 0 0x3F800000 5)).wr 0x40400 (leBytes 8 (0xFFFF * 2 ^ 48))).wr 0x404C0 (leBytes 8 (0xFFFF * 2 ^ 48))
def pteHere : Nat := 2 ^ 63 + 5
def ringed1 (s : State) : State := s.setReg .ateRingTail 0 0 1#32
/-- An ATTEND of one row over the record, whose A entry has blocks of 32. -/
def attDesc : Nat := desc 4 1 [(0xC, 4, 1), (0xA, 2, 0), (0x68, 4, 1), (0x74, 4, 0x3F800000), sA, sB, sC]
def att (s : State) : State :=
  holds ((cAt 128 9 (bAt 12 10 (aAt 16 2 s))).wr 0x1002E (leBytes 2 0x2801)) attDesc
def snap : Pin := ⟨2 ^ 63 + 0x31000, 1, 5, 0, 0, false⟩
theorem wit_KvItemsRun :
    runsAs (holds ((twoAt 0x12000 0x22000 72 0x22100 72 (bAt 144 10 (aAt 144 10 up))).wr 0x21008 (leBytes 8 (2 ^ 16)))
        (desc 4 2 [(0xC, 4, 1), (0x68, 4, 1), (0x6F, 1, 1), sA, sB, (0x58, 8, 0x12000 + 3 * 2 ^ 48)])) 4 2 State.mergeRun 0
      ∧ runsAs (holds up (pteDesc 1)) 4 0x11 State.pteRun 0
      ∧ runsAs (holds (aAt 32 10 (kv 1 5 0 0 pteHere)) (desc 4 0x10 [(0xA, 2, 0), sA])) 4 0x10 State.publishRun 0
      ∧ runsAs (att (pageHere (kv 1 5 0 0 pteHere))) 4 1 (State.attRun snap) 0 := by decide +kernel
theorem wit_attendWaits :
    ((att (kv 1 5 0 1 pteHere)).item 0 0).map (fun x => (x.engine, x.op, x.stage, x.pin.isNone, x.att.seq, x.layer)) = some (4, 1, .ready, true, 0, 0)
      ∧ ((kv 1 5 0 1 pteHere).kvRec 0 0).map (fun r => (r.valid, r.spill)) = some (true, 1) ∧ up.dieDown (kvHome 0) = false
      ∧ bit ((kv 1 5 0 0 pteHere).rd 0x32000 8) 63 = true ∧ bit ((kv 1 5 0 0 0).rd 0x32000 8) 63 = false ∧ up.mapped 0x32000 8 = true
      ∧ up.farDown 0x32000 = false := by decide +kernel
def pinOp : RecOp := ⟨0, 0, 0, 0, 0, 0, [], 0, 0, 0, 0, 0⟩
/-- REF names Cleat 3 of die 2, or nothing. -/
def refWord : Nat := 2 ^ 31 + 2 * 2 ^ 28 + 3
def recThere (s : State) : Bool :=
  s.kvRecAddr 0 0 == some 0x30000 && (s.kvRec 0 0).isSome && ((List.range 32).all fun i => (s.place (0x30000 + i)).isSome) && !s.farDown 0x30000
theorem wit_PinsTakeSnapshotsAndRelease :
    (att (kv 1 5 refWord 0 pteHere)).wf = true ∧ recThere (att (kv 1 5 refWord 0 pteHere)) = true ∧ recThere (att (kv 1 5 0 1 pteHere)) = true
      ∧ ((att (kv 1 5 0 0 pteHere)).item 0 0).map (fun x => (x.attends 0 0, x.pin.isNone)) = some (true, true)
      ∧ refEn refWord = true ∧ bits refWord 30 28 = 2 ∧ bits refWord 13 0 = 3 ∧ cleatExists 2 3 = true ∧ refEn 0 = false
      ∧ ((((att (kv 1 5 0 0 pteHere)).setItem 0 0 (some { item attDesc .running with pin := some snap })).item 0 0).map fun x => x.pin == some snap) = some true := by
  decide +kernel
def tok (index pos : Nat) : Token := ⟨0, 0, index, pos, List.replicate 64 { v := .ofInt 1 }, 0x3F800000, 0, 0, 0, 0, 0⟩
def stok (index pos : Nat) : SpillTok := ⟨0, 0, index, pos, 0x3F800000, [], [], [], [], false, 0, 0, 0⟩
def full16 (s : State) : State := s.setSpill 0 (List.replicate 16 { stok 7 7 with seq := 1 })
theorem wit_Appends :
    recThere (kv 0 0 0 0 0) = true ∧ (kv 0 0 0 0 0).spilled 0 0 = [] ∧ (kv 1 5 0 0 pteHere).wf = true
      ∧ ((kv 1 5 0 0 pteHere).kvRec 0 0).map (fun r => (r.len, r.lastPos, (kv 1 5 0 0 pteHere).pte r.dir 0)) = some (1, 5, some pteHere)
      ∧ ((tok 1 6).index, (tok 0 6).index % 128) = (1, 0) ∧ newPageCoarse 0x3F800000 ((kv 0 0 0 0 0).kvLay 0 0).headroom = some 0x3F800000
      ∧ ((kv 0 0 0 0 0).kvRec 0 0).map (fun r => ((kv 0 0 0 0 0).pteAddr r.dir 0, ringDie r 0 0)) = some (some 0x32000, 0)
      ∧ (ringed1 (kv 0 0 0 0 0)).ateReady 0 = true ∧ (kv 0 0 0 0 0).ateReady 0 = false ∧ ((full16 (kv 0 0 0 0 0)).spillOf 0).length = 16
      ∧ (full16 (kv 0 0 0 0 0)).spilled 0 0 = [] ∧ ((kv 0 0 0 0 0).spillOf 0).length < 16 := by decide +kernel
theorem wit_Drains :
    ((kv 1 5 0 1 pteHere).setSpill 0 [stok 1 6]).spillOf 0 = [stok 1 6] ∧ (stok 1 6).index % 128 ≠ 0
      ∧ (((kv 1 5 0 1 pteHere).setSpill 0 [stok 1 6]).kvRec 0 0).map (fun r => r.len == (stok 1 6).index && r.len != (stok 2 7).index) = some true
      ∧ ((kv 1 5 0 1 pteHere).setSpill 0 [stok 1 6]).wf = true := by decide +kernel
def waiting (e : Nat) (st : Stage) (s : State) : State := { s.setItem 0 0 (some { item (desc e 1 [(0xA, 2, 0)]) st with waitCyc := some 0 }) with cycle := 10 ^ 12 }
theorem wit_PageWaits :
    ((waiting 0 .finished ((kv 1 5 0 1 0).setSpill 0 [stok 1 6])).item 0 0).map (fun x =>
        ((waiting 0 .finished ((kv 1 5 0 1 0).setSpill 0 [stok 1 6])).pageWaitOver 0 x, x.stage, x.engine, x.count)) = some (true, .finished, 0, 0)
      ∧ (waiting 0 .finished ((kv 1 5 0 1 0).setSpill 0 [stok 1 6])).itemSpills 0 0 = [stok 1 6]
      ∧ ((waiting 4 .ready (kv 1 5 0 1 0)).item 0 0).map (fun x => ((waiting 4 .ready (kv 1 5 0 1 0)).pageWaitOver 0 x, x.opnd 0x6C 2, x.layer)) = some (true, 0, 0) := by
  decide +kernel
def reeve (s : State) : State :=
  ((cAt 256 9 s).wr 0x1202E (leBytes 2 0x9401)).setItem 0 0 (some (item (desc 0 1 [(0xA, 2, 0), (0xC, 4, 1), sC]) .running))
def appOp (index pos : Nat) : RecOp := ⟨0, 0, 0, index, pos, 0, List.replicate 64 0x3F800000, 0, 0, 0, 0, 0⟩
def appKind : State × Appended → Nat | (_, .placed _) => 0 | (_, .spilled _) => 1 | (_, .full) => 2 | (_, .bad) => 3
def appends (s : State) (index pos : Nat) : Option (Bool × Nat) :=
  (s.item 0 0).map fun x => (s.isReeve x, appKind ((s.reeveCoarse x).2.kvAppend (s.opToken (appOp index pos) x)))
theorem wit_RecordAppends :
    appends (reeve (pageHere (kv 1 5 0 0 pteHere))) 1 6 = some (true, 0) ∧ appends (reeve (kv 0 0 0 0 0)) 0 6 = some (true, 1)
      ∧ appends (reeve (kv 1 5 0 0 pteHere)) 1 5 = some (true, 3) ∧ appends (reeve (pageHere (kv 1 5 0 0 pteHere))) 2 9 = some (true, 3) := by
  decide +kernel
/-- The spill slot is full; and a reeve item whose first row, of sequence 0 and index 1, is spilled. -/
def reeveStuck : State :=
  (let s := reeve ((kv 1 5 0 1 pteHere).setSpill 0 [stok 1 6])
   { s.setItem 0 0 ((s.item 0 0).map fun x => { x with waitCyc := some 0, stage := .finished }) with cycle := 10 ^ 12 })
theorem wit_RecordAppendsFull : appends (full16 (reeve (kv 0 0 0 0 0))) 0 6 = some (true, 2) := by decide +kernel
theorem wit_PageWaitsOfReeve :
    (reeveStuck.item 0 0).map (fun x => (reeveStuck.isReeve x, reeveStuck.pageWaitOver 0 x, reeveStuck.itemSpills 0 x.count != [])) = some (true, true, true) := by
  decide +kernel
/-- A longer record, of the same pages. -/
def image (len : Nat) : Nat := 2 ^ 63 + 0x31000 + len * 2 ^ 64 + 9 * 2 ^ 96
def legal (s : State) (img flags expect : Nat) : Bool := match s.kvRec 0 0 with
  | some r => r.spill == 0 && (!bit flags 0 || r.len == expect)
      && !((parseRec img).dir == r.dir && (parseRec img).ref == r.ref && decide ((parseRec img).len < r.len) && refEn r.ref
        && decide (1 < (s.cleat (bits r.ref 30 28) (bits r.ref 13 0)).toNat))
  | none => false
theorem wit_Publishes :
    legal (kv 1 5 0 0 pteHere) (image 2) 1 1 = true ∧ legal (kv 1 5 0 0 pteHere) (image 2) 1 2 = false ∧ legal (kv 1 5 0 1 pteHere) (image 2) 0 0 = false
      ∧ (kv 1 5 0 0 pteHere).item 0 0 = none := by decide +kernel
/-- 10 R318: no page to pop: the token lies in the spill slot, counted. -/
theorem test_append_spills :
    ((kv 0 0 0 0 0).kvAppend (tok 0 6)).1.reg .ateExhCnt 0 = 1#32 ∧ (((kv 0 0 0 0 0).kvAppend (tok 0 6)).1.spillOf 0).length = 1 := by decide +kernel
theorem test_pte_write :
    gives (.pteWrite 0 0) (holds up (pteDesc 1)) (fun t => t.rd 0x20000 8 == 0x8000000000000001) = true := by decide +kernel

/-! ### Gates, fetch blocks, completion, Cleats, numbers -/

def timedItem : Item := { item (desc 8 1 [sA, sC, (0x10, 8, 100)] + 8 * 65536) .admitted with gateOpen := false }
def atLay (n : Nat) (s : State) : State := { s with lay := { s.lay with now := n } }
theorem wit_gates :
    timedItem.timed = true ∧ timedItem.gateOpen = false ∧ timedItem.layGate ≤ (atLay 100 up).lay.now ∧ (atLay 99 up).lay.now < timedItem.layGate := by
  decide +kernel
/-- The first fetch block of stream A. -/
def fetches (s : State) : Bool := match s.item 0 0 with
  | some x => match s.startItem 0 0 x with
    | some (u, y) => decide (y.queued.getD 0 0 < bits (u.reg .runahead 0).toNat 6 0) && (u.fetchStrm y 0).1.ents.length == 1
        && ((u.fetchStrm y 0).1.ents[0]?).any (fun e => e.fetchBlock (u.fetchStrm y 0).2 0 == some (0x20000, 64))
    | none => false
  | none => false
theorem wit_fetches :
    fetches copyState = true ∧ copyState.frozen ⟨2, 0⟩ = false ∧ (item (desc 8 1 [sA, sC]) .ready).stream 0 ≠ 0 ∧ copyState.gen 2 0 = 1 := by
  decide +kernel
/-- A full queue takes no block; a region in recovery none. -/
theorem wit_fetchesRefused :
    ({ item (desc 1 1 [sA, sB, sC]) .running with runahead := 8, queued := [8, 0, 0, 0] } : Item).queueTakes 0 = false
      ∧ ({ item (desc 8 1 [sA, sC]) .running with runahead := 8, queued := [7, 0, 0, 0] } : Item).queueTakes 0 = true
      ∧ ({ up with fids := [(0, { active := some ⟨⟨2, 0⟩, 3, 0, [], 1, 0, 0, 0, false, false, 0⟩, queue := [] })] } : State).frozen ⟨2, 0⟩ = true := by
  decide +kernel
def doneItem : Item := { item (desc 8 1 [sA, sC, (4, 4, 0xBEEF)]) .finished with res := { poison := true, statuses := [(0x03, 7)] }, start := some 5 }
def doneState : State := ((up.setReg .cqCfg 0 0 0x80000006#32).setReg .cqBase 0 0 0x50000#32).setItem 0 0 (some doneItem)
theorem wit_completes :
    (doneState.item 0 0).map (fun x => (x.stage, x.waitCyc)) = some (.finished, none) ∧ doneState.sendsLeft 0 0 = false
      ∧ doneState.frozen ⟨2, 0⟩ = false := by decide +kernel
theorem wit_CompletionWritesTheRecord :
    doneState.wf = true ∧ 16384 ≤ doneItem.watch ∧ 16 ≤ doneItem.stepSlot ∧ doneItem.res.result = none ∧ sigEn (doneItem.signal 0) = false
      ∧ sigEn (doneItem.signal 1) = false ∧ doneState.ringOn 0 doneItem.compRing = true ∧ doneState.ringFull 0 doneItem.compRing = false
      ∧ doneState.cqBase 0 0 = 0x50000 ∧ ((List.range 64).all fun i => (doneState.place (0x50000 + i)).isSome) = true
      ∧ doneState.farDown 0x50000 = false ∧ doneItem.units < 2 ^ 32 ∧ doneItem.pin.isNone = true ∧ doneState.recordHeld 0 0 = false
      ∧ doneItem.res.shares = false ∧ doneItem.res.nonfin = false := by decide +kernel
/-- 03 R115: SKEW (0x03) goes before POISONED (0x01). -/
theorem test_record_status :
    gives (.itemComplete 0 0) doneState (fun t => t.rd 0x50000 4 == 0xBEEF && t.rd 0x50010 8 == 5 && t.rd 0x50005 1 % 2 == 1 && (t.item 0 0).isNone) = true := by
  decide +kernel
def clt (v : Word) : State := { up with cleats := tset dW up.cleats (cleatKey 2 3) v }
theorem wit_Cleats :
    (clt 7#32).wf = true ∧ cleatExists 2 3 = true ∧ (clt 7#32).dieDown 2 = false ∧ bit ((clt 7#32).reg .cltCfg (cleatKey 2 3)).toNat 31 = false
      ∧ 0xFFFFFFFF < ((clt 0xFFFFFFFF#32).cleat 2 3).toNat + 1 ∧ ((clt 0xFFFFFFFE#32).cleat 2 3).toNat + 1 ≤ 0xFFFFFFFF
      ∧ ((clt 7#32).cleat 2 3).toNat < 8 ∧ 7 ≤ ((clt 7#32).cleat 2 3).toNat ∧ cleatExists 4 4095 = true ∧ cleatExists 4 4096 = false := by decide +kernel
def notice : State := (clt 7#32).setReg .cltCfg (cleatKey 2 3) 0 0xB0000009#32
theorem wit_ZeroNotices :
    notice.wf = true ∧ bit (notice.reg .cltCfg (cleatKey 2 3)).toNat 31 = true ∧ bits (notice.reg .cltCfg (cleatKey 2 3)).toNat 30 28 = 3
      ∧ bits (notice.reg .cltCfg (cleatKey 2 3)).toNat 13 0 = 9 ∧ cleatExists 3 9 = true ∧ notice.dieDown 3 = false ∧ notice.cleat 2 3 ≠ 0#32 := by
  decide +kernel
/-- An operation of region 0, on die 0, for die 2, with die 1 on its way frozen. -/
theorem wit_CleatsHeld :
    srcDie 64 = 0 ∧ (die1 3 (clt 7#32)).pathDown 0 2 false = true ∧ (clt 7#32).pathDown 0 2 false = false ∧ (die1 3 (clt 7#32)).dieDown 2 = false
      ∧ (die1 3 (clt 7#32)).dieDown 1 = true ∧ notice.pathDown 2 3 false = false ∧ ((clt 7#32).coreStore 5 2).wf = true
      ∧ (die1 3 (clt 7#32)).wf = true := by decide +kernel
theorem wit_ArmedWaits :
    ((List.replicate 64 (⟨3, 2, 3, 9⟩ : Arm)).filter fun a => a.core == 3).length = 64 ∧ (([] : List Arm).filter fun a => a.core == 3).length < 64
      ∧ cleatExists 2 3 = true ∧ (up.intervene 3 2 none).dieDown 2 = false := by decide +kernel
theorem test_cleat_saturates :
    gives (.cleatSignal 64 2 3 2) (clt 0xFFFFFFFE#32) (fun t => t.cleat 2 3 == 0xFFFFFFFF#32 && t.reg .cltSatCnt 2 == 1#32) = true := by decide +kernel
theorem test_cleat_zero_notice :
    gives (.cleatDecrement 64 2 3 9) notice (fun t => t.cleat 2 3 == 0#32 && t.cleat 3 9 == 1#32) = true := by decide +kernel

/-- FMT 4 (6 bits): 1.0 is the grid value 8 of ...; the largest lies below 2^40. -/
theorem wit_Rounding : (4 ≤ 12) ∧ (0 < 3) ∧ (15 < 16) ∧ ((grid 4).last < 2 ^ 31) ∧ (roundQ (grid 4) mRN 0 (2 ^ 40) 1).2 = true := by decide +kernel
theorem wit_Codes : ((List.range 13).all fun f => (codeVal f 1).isSome && ((codeVal f 1).getD .nan).isFinite && 1 != 2 ^ (fmtBits f - 1)) = true := by
  decide +kernel
theorem wit_TwineSum : (XV.fin 0 (-80)).isFinite = true ∧ (({ v := .ofInt 3, z := false, poison := false } : El).v).isFinite = true ∧ El.zero.v.isFinite = true := by
  decide +kernel
/-- 05 R162: 3 × 5 added to nothing. -/
theorem test_twine_sum :
    ((twineSum (.fin 0 (-80)) [{ v := .ofInt 3, z := false, poison := false }] [{ v := .ofInt 5, z := false, poison := false }]).sub (.ofInt 15)).isZero
      = true := by decide +kernel

/-! ### Fabric items, votes, steps -/

/-- Package 3, with package 5, both MEMBER. -/
def joined (s : State) : State := { s.setDv 0x5000 0 3 with peers := [(3, ⟨1, 0, 0⟩), (5, ⟨1, 0, 0⟩)], peerEpoch := 1 }
def plan2 : Plan := ⟨1, 2, 1, 2, [2, 1, 1], [3, 5]⟩
def coll0 (tree : Bool) : Coll := { id := 77, tree := tree, plan := plan2, rank := 0 }
def oneBlock (l : Nat) (s : State) : State := s.wr (l + 0x18) (leBytes 4 1)
/-- A collective item of an OP, over one block of 16 FP32 elements or `count` elements, ready in slot 0. -/
def collState (op : Nat) : State :=
  let fs := if op = 0x12 then [sC] else if op = 0x11 then [sA] else [sA, sC]
  let n := if op = 0x20 then (16, 12) else if op = 0x21 then (4, 9) else (64, 9)
  (holds (oneBlock 0x12000 (oneBlock 0x10000 (cAt n.1 n.2 (aAt n.1 n.2 (joined up)))))
    (desc 7 op ([(0x6E, 1, if op < 0x12 then 9 else 0), (0x70, 4, 77), (0x74, 4, if 0x20 ≤ op then 1 else 0)] ++ fs))).setColl 0 (some (coll0 (decide (0x20 ≤ op))))
def collRunnable (op : Nat) : Bool := match (collState op).item 0 0, tget dColl (collState op).colls (itemKey 0 0) with
  | some x, some c => match (collState op).startItem 0 0 x with
    | some (u, y) => x.engine == 7 && x.op == op && x.stage == .ready && x.prepass == 0 && (collState op).selfMember
        && !(collState op).collRuns 0 c.id && (collState op).lostPeer c == none && firstBad (u.collChecks y c) == none
        && u.firstSkew y (u.collIns y) == none
    | none => false
  | _, _ => false
theorem wit_FabricItemsRun : collRunnable 0x10 ∧ collRunnable 0x11 ∧ collRunnable 0x12 ∧ collRunnable 0x20 ∧ collRunnable 0x21 := by decide +kernel
theorem wit_fabricOutside : up.selfMember = false ∧ (((collState 0x10).item 0 0).map fun x => (x.engine, x.op)) = some (7, 0x10) := by decide +kernel
def sendState : State := holds (cAt 64 9 (aAt 64 9 (joined up))) (desc 7 1 [(0x68, 4, 5), sA, sC])
theorem wit_send : sendState.peerOk 5 = true ∧ sendState.selfMember = true
    ∧ runsAs sendState 7 1 (fun u _ y => if firstBad (u.sendChecks y) == none && u.firstSkew y [(u.strm y 0, false)] == none then .ok 0 fun s _ => (s, {}) else .bad (0, 0, 0)) 0
      = true := by decide +kernel
def runningAs (s : State) : State := s.setItem 0 0 ((s.item 0 0).map fun x => { x with stage := .running })
theorem wit_collEnds :
    ((collState 0x20).item 0 0).map (fun x => (collState 0x20).collReadyToEnd 0 x { coll0 true with down := some [(7, false)] }) = some true
      ∧ ((collState 0x20).item 0 0).map (fun x => (isTree x, (collState 0x20).collReadyToEnd 0 x (coll0 true))) = some (true, false)
      ∧ ((runningAs (collState 0x20)).item 0 0).map (fun x => (x.stage, x.prepass)) = some (.running, 0) := by decide +kernel
def slotState (st fault outst : Nat) (s : State) : State :=
  s.setStep 4 { ({} : StepSlot) with state := st, attempt := 2, num := 9, epoch := 1, fault := fault, outstanding := outst }
def voteState (st fault outst : Nat) : State :=
  (slotState st fault outst (holds (joined up) (desc 7 0x30 [(0x70, 4, 77), (0x7E, 2, 4)]))).setColl 0 (some (coll0 true))
def voteStarts (s : State) : Bool := runsAs s 7 0x30 (fun _ _ _ => .ok 0 fun s _ => (s, {})) 0 && !s.collRuns 0 77
theorem wit_VoteItems :
    voteStarts (voteState 1 0 0) = true ∧ voteStarts (voteState 1 4 0) = true ∧ voteStarts (voteState 1 0 3) = true ∧ voteStarts (voteState 0 0 0) = true
      ∧ ((voteState 1 4 0).step 4).state = 1 ∧ ((voteState 1 4 0).step 4).fault % 128 ≠ 0 ∧ ((voteState 1 0 3).step 4).outstanding ≠ 0
      ∧ ((voteState 1 0 0).item 0 0).map (·.stepSlot) = some 4 := by decide +kernel
/-- Tracker 5 held by slot 4, charged or not. -/
def trks (faulted now : Bool) (s : State) : State :=
  s.setTracker 5 { ({} : Tracker) with held := true, slot := 4, faulted := faulted, faultNow := now, hist := [1, 2], stepmax := 3, items := 2 }
theorem wit_StepCommands :
    ((List.range 8).all fun st => ((slotState st 0 0 up).step 4).state == st && (slotState st 0 0 up).wf) = true
      ∧ ((trks true true up).tracker 5).held = true ∧ ((trks false false up).tracker 5).faulted = false ∧ ((trks true true up).tracker 6).held = false
      ∧ ((slotState 3 0 0 up).step 4).gated = 0 ∧ ({ ((slotState 3 0 0 up).step 4) with gated := 1 } : StepSlot).gated ≠ 0 := by decide +kernel
theorem test_step_reopen :
    gives (.stepReopen 3 4) (trks true true (slotState 4 1 0 up)) (fun t => (t.step 4).attempt == 3 && (t.tracker 5).prepass && (t.tracker 5).producers == 2) = true := by
  decide +kernel
theorem test_step_open_refused :
    gives (.stepOpen 3 4) (slotState 1 0 0 up) (fun t => t.reg .mgtRefuseCnt 4 == 1#32 && t.reg .mgtRefuseLast 4 == 0x500400#32) = true := by decide +kernel
theorem wit_Trackers :
    ((trks true true up).intervene 3 0 none).wf = true ∧ (((trks true true up).intervene 3 0 none).tracker 5).held = true
      ∧ ((up.intervene 3 0 none).tracker 5).held = false ∧ bit ((up.intervene 3 0 none).trkCfg 5) 31 = false
      ∧ bit ((up.setReg .trkCfg 0 5 0x80000000#32).trkCfg 5) 31 = true := by decide +kernel
def passState : State := (hwsState.setItem 0 0 (some { item (desc 1 1 (m1 ++ [sA, sB, sC, (0x7C, 2, 5)])) .ready with prepass := 1 })).setTracker 5
  { ({} : Tracker) with held := true, slot := 16, prepass := true, producers := 1 }
theorem wit_prepass :
    passState.wf = true ∧ passState.frozen ⟨2, 0⟩ = false
      ∧ (passState.item 0 0).map (fun x => x.prepass == 1 && decide (x.watch < 16384) && x.stage == .ready && x.pin.isNone && x.engine == 1) = some true
      ∧ (passState.item 0 0).map (fun x => (passState.startItem 0 0 x).map fun p => runKind (p.1.dryRun 0 p.2)) = some (some 0)
      ∧ (passState.tracker 5).preDone + 1 = (passState.tracker 5).producers := by decide +kernel
theorem wit_VoteResults :
    (trks true true (slotState 2 1 0 up)).wf = true ∧ (trks true true (slotState 2 1 0 up)).votingSlot 1 9 2 = some 4 ∧ up.votingSlot 1 9 2 = none
      ∧ up.dv 0x3020 0 = (up.dv 0x3020 0) ∧ ((slotState 2 1 0 up).step 4).attempt = 2 ∧ (slotState 2 1 0 up).policy 4 0x3020 = up.dv 0x3020 0
      ∧ 0 < up.dv 0x5006 0 := by decide +kernel
def vote4 : VoteX := { slot := 4, num := 9, attempt := 2, collId := 77, plan := plan2, rank := 0, resultSlot := 0xFFFF, region := 0, item := 0, own := 0 }
def doubt (st : Nat) : State := { joined (slotState st 0 0 up) with cycle := 10 ^ 13, votes := [vote4] }
def answer (code : Nat) : Packet := ⟨0x31, 3, 5, 0, 0, 0, 9, false, voteBody 1 9 2 code 0⟩
def asked (st : Nat) : State := (doubt st).setStep 4 { (doubt st).step 4 with asked := [5] }
theorem wit_VotesInDoubtAsk :
    ((doubt 2).step 4).state = 2 ∧ ((doubt 2).step 4).voteCyc + cycOfMs ((doubt 2).dv 0x3027 0) ≤ (doubt 2).cycle
      ∧ (doubt 2).votes.find? (fun v => v.slot == 4) = some vote4 ∧ ((doubt 6).step 4).state = 6
      ∧ (answer 0).dst = (doubt 6).pkgId ∧ (answer 0).tgen = (doubt 6).pkgGen
      ∧ ([0, 1, 2].map fun c => bodyCode (answer c).body) = [0, 1, 2]
      ∧ (asked 6).votingSlot (bodyEpoch (answer 1).body) (bodyNum (answer 1).body) (bodyAttempt (answer 1).body) = some 4
      ∧ (answer 1).src ∈ ((asked 6).step 4).asked ∧ ((asked 6).step 4).asked = [(answer 2).src] ∧ ((asked 6).step 4).toAsk = [] := by decide +kernel

/-! ### Memory, the far tier, the drain -/

def poisonedLine : State := { up with mem := up.mem.setPoison (lineNo 2 0x1000) true }
theorem wit_MemoryLines :
    poisonedLine.wf = true ∧ up.dieDown (stackDie 2) = false ∧ up.erasedPins 2 (bits 0x1000 11 6) = []
      ∧ up.readLine 2 0x1000 [] = .clean ∧ poisonedLine.readLine 2 0x1000 [] = .poison
      ∧ up.readLine 2 0x1000 [(3, 7)] = .corrected (errVec [(3, 7)])
      ∧ up.readLine 2 0 [(3, 7), (9, 5), (21, 80), (40, 33), (50, 2)] = .uncorrectable
      ∧ (List.replicate 32 (7#8 : Byte)).length ≤ 64 - 0x1020 % 64 := by decide +kernel
theorem wit_StartFailsItsTraining :
    ({ State.reset with boot := { ({} : Boot) with stage := 3 } } : State).starting = true ∧ up.starting = false
      ∧ (die1 3 up).dieDown 1 = true ∧ (die1 3 up).dieDown 0 = false ∧ ((List.range 4).all fun d => !up.dieDown d) = true := by decide +kernel
theorem test_partial_write_merges :
    gives (.memPartialWrite 2 0x1020 [7#8] [] false) up (fun t => t.mem.byteAt (placeHbm 2 0x1020) == 7#8 && t.mem.byteAt (placeHbm 2 0x1021) == 0#8) = true := by
  decide +kernel
def running (p : Nat) (s : State) : State := s.setProgress p { ({} : Progress) with state := 1 }
/-- `wit_MemoryLines` shows a line that the scrub's first read finds uncorrectable. -/
theorem wit_ScrubTraining :
    bit (up.reg .memScrubCfg 2).toNat 31 = true ∧ bit ((up.setReg .memScrubCfg 2 0 0#32).reg .memScrubCfg 2).toNat 31 = false
      ∧ up.dieDown (stackDie 2) = false ∧ up.scrubAt 2 + 1 ≠ up.stackLines
      ∧ ({ up with mem := { up.mem with scrubPos := [(2, up.stackLines - 1)] } } : State).scrubAt 2 + 1 = up.stackLines
      ∧ ((running (progTrain 2) up).progress (progTrain 2)).state = 1
      ∧ tooManyPins [(3, 1), (3, 2)] = false ∧ tooManyPins [(3, 1), (3, 2), (3, 5)] = true ∧ lineHolder (lineNo 2 0) = 2 := by decide +kernel
/-- A far tier of one device of 1 GiB on root port 0, its link up or down. -/
def far (u : Bool) (s : State) : State := s.setFarPort 0 ⟨true, 2 ^ 30, u, 16, 64, 0⟩
theorem wit_FarTier :
    (far true up).wf = true ∧ ((List.range 64).all fun i => ((far true up).place (2 ^ 42 + i)).isSome) = true ∧ (far false up).farDown (2 ^ 42) = true
      ∧ (far true up).farDown (2 ^ 42) = false ∧ (far true up).poisoned (2 ^ 42) = false ∧ ((far true up).wr (2 ^ 42) [1#8] true).poisoned (2 ^ 42) = true
      ∧ (far true up).mapped (2 ^ 42) 64 = true ∧ ((far true up).farPort 0).up = true ∧ ((running progDrain (far true up)).progress progDrain).state = 1
      ∧ ((far false up).farPort 0).present = true ∧ ((far false up).farPort 0).downCyc + cycOfMs 100 ≤ cycOfMs 100
      ∧ farRateOk 4 16 = true ∧ farRateOk 4 8 = false := by decide +kernel
/-- A drain list of one line at 0x60000, from 0x20000 to 0x22000 or onto itself. -/
def drain (b time : Nat) : State :=
  (((up.wr 0x60000 (leBytes 8 0x20000 ++ leBytes 8 b ++ leBytes 8 64)).setDv 0x6030 0 0x60000).setDv 0x6030 1 1).setDv 0x6030 2 time
def copying : State := { running progDrain up with mem := { up.mem with drainList := [(0x20000, 0x22000, 64)] } }
theorem wit_Drains2 :
    (drain 0x22000 5).wf = true ∧ ((drain 0x22000 0).progress progDrain).busy = false ∧ (drain 0x22000 0).mapped ((drain 0x22000 0).dv 0x6030 0) 32 = true
      ∧ (drain 0x22000 0).drainOk [(drain 0x22000 0).drainEntry 0] = true ∧ (drain 0x20000 0).drainOk [(drain 0x20000 0).drainEntry 0] = false
      ∧ ((running progDrain up).progress progDrain).busy = true ∧ (atLay 5 (drain 0x22000 5)).dv 0x6030 2 ≤ (atLay 5 (drain 0x22000 5)).lay.now
      ∧ (copying.progress progDrain).state = 1 ∧ copying.mem.drainWaits = false ∧ copying.mem.drainList = [(0x20000, 0x22000, 64)]
      ∧ ((List.range 64).all fun i => (copying.place (0x22000 + i)).isSome) = true ∧ copying.farDown 0x22000 = false := by decide +kernel
theorem test_drain_copies :
    gives .drainComplete (copying.wr 0x20000 [9#8]) (fun t => t.rd 0x22000 1 == 9 && (t.progress progDrain).state == 2) = true := by decide +kernel

/-! ### Ports, frames, packets -/

/-- Port 5 in a state, with all eight lanes. -/
def port5 (st lanes : Nat) (s : State) : State := (s.setReg .fabPortStat 1 1 (setPortStat st lanes)).setReg .fabPortCfg 1 1 0x80000000#32
theorem wit_Ports :
    (port5 2 255 up).wf = true ∧ (port5 2 255 up).portUp 5 = true ∧ (port5 1 0 up).portState 5 = 1 ∧ (port5 1 0 up).lanesOut 5 = 0
      ∧ (port5 1 0 up).dieDown (portDie 5) = false ∧ (port5 2 255 up).portEnabled 5 = true ∧ up.portEnabled 5 = up.portEnabled 6
      ∧ ((port5 1 0 up).port 5).trainCyc + cycOfMs 100 ≤ cycOfMs 100
      ∧ (((port5 1 0 up).setPort 5 { (port5 1 0 up).port 5 with starts := 2 }).port 5).starts = 2
      ∧ bit ((port5 2 255 up).portGood 5) 7 = true ∧ (port5 3 (2 ^ 7) up).portGood 5 = 2 ^ 7 ∧ (port5 2 255 up).portGood 5 ≠ 2 ^ 7
      ∧ bit (((port5 2 255 up).setReg .fabPortNbr 1 1 0x80000007#32).reg .fabPortNbr (portDie 5) (portEl 5)).toNat 31 = true
      ∧ ((port5 2 255 up).port 5).rxCyc + cycOfMs 1 ≤ cycOfMs 1 ∧ up.liveSuspects = [] := by decide +kernel
/-- A neighbour that gives no credit back, for a packet that waits. -/
theorem wit_Retrains :
    (({ port5 2 255 up with cycle := 10 ^ 13 } : State).setPort 5 { up.port 5 with queue := [⟨0x40, 3, 5, 0, 0, 0, 9, false, []⟩] }).creditStalled 5 0 = true
      ∧ (port5 2 255 up).creditStalled 5 0 = false
      ∧ (BitVec.ofNat 8 0x0F &&& ~~~BitVec.ofNat 8 ((port5 1 0 up).lanesOut 5)).toNat = 15
      ∧ up.dv 0x5004 0 < 65536 := by decide +kernel
theorem test_last_lane_takes_the_port_down :
    gives (.laneFail 5 7) (port5 3 128 up) (fun t => t.portState 5 == 0) = true := by decide +kernel
def pkt (kind : Nat) (body : List Byte) : Packet := ⟨kind, 3, 5, 0, 0, 0, 9, false, body⟩
/-- A frame of no packet, as the neighbour sends it with its number, its scramblers at rest; or with a codeword that has 13 errors. -/
def frmWords (seq : Nat) : List (List Byte) := chunks 200 8 (frameBytes ⟨seq, 0, false, false, {}⟩ [])
def frm (seq : Nat) : Frame := ⟨(frmWords seq).map fabEncode⟩
def frmBad : Frame := ⟨List.replicate 8 (List.replicate 13 1#8 ++ List.replicate 211 0#8)⟩
theorem wit_FrameIsRead :
    (let r := (((port5 2 255 up).port 5).wordsIn ((port5 2 255 up).portLanes 5) (frm 1).words)
     (r.2.2.all fun w => w.2.isSome) && (readFrame r.2.1).any fun h => h.1.seq == 1 && !h.1.nak && !h.1.retrain) = true
      ∧ (((port5 2 255 up).port 5).rxSeq + 1) % 65536 = 1 := by decide +kernel
theorem wit_FrameIsRefused :
    (fabDecode (frmBad.words.headD [])).2 = none ∧ (readFrame (List.replicate 1600 0#8)).isNone = true
      ∧ 1 ≠ (({ rxSeq := 3 } : Port).rxSeq + 1) % 65536 ∧ (LinkHdr.mk 1 0 false false {}).nak = false ∧ up.ports = [] := by decide +kernel
def routed : State := (port5 2 255 (joined up)).setReg .fabRoute 1 4 0x94A0#32
/-- A report that package 9 is suspected, from 7, for the manager's endpoint 0x10002: passed on, or the second of its kind. -/
def report : Packet := { pkt 0x13 (suspectBody 9 1 2 1) with dst := 0x10002 }
theorem wit_Packets :
    ({ pkt 0x40 [] with dst := 8 } : Packet).dst ≠ routed.pkgId ∧ routed.pkgId ≠ 0xFFFFFFFF ∧ knownKind 0x40 = true
      ∧ routed.routePorts (portDie 5) 8 = [5, 5] ∧ routed.routePorts (portDie 5) 9 = [] ∧ routed.routePorts 0 8 = [] ∧ knownKind 2 = false
      ∧ 1 < (pkt 0x40 []).hops ∧ ({ pkt 0x40 [] with hops := 1 } : Packet).hops ≤ 1 ∧ 0x10000 ≤ report.dst ∧ report.kind = 0x13 ∧ 1 < report.hops
      ∧ (routed.filterSuspect 9 1 2 1 2).2 = some 1 ∧ ((routed.filterSuspect 9 1 2 1 2).1.filterSuspect 9 1 2 1 2).2 = none
      ∧ (pkt 0x40 []).dst = routed.pkgId ∧ ({ pkt 0x40 [] with tgen := 1 } : Packet).tgen ≠ routed.pkgGen := by decide +kernel
theorem wit_PacketsOfAnotherGeneration : ([0x10, 0x11, 0x12, 0x13, 0x31, 0x40, 0x41, 0x50, 0x51, 0x52, 0x53].all fun k => (pkt k []).dst == routed.pkgId) = true := by
  decide +kernel
/-- A message of the fabric manager, whose key fills slot 8. -/
def managed : State := { (joined up) with keys := [(8, some ⟨key1, 1⟩)] }
def fmPkt (kind : Nat) (body : List Byte) : Packet := { pkt kind (body ++ fmTag key1 body) with src := managed.fmNode }
/-- FULL, base 0, new epoch 2, one member: package 3, MEMBER. -/
def memberBody (base new flags : Nat) : List Byte := leBytes 4 base ++ leBytes 4 new ++ leBytes 1 flags ++ [0#8] ++ leBytes 2 1 ++ leBytes 2 3 ++ [1#8] ++ leBytes 2 0
theorem fm_ok (kind : Nat) (body : List Byte) : managed.fmOk (fmPkt kind body) = true := by
  have h : (fmTag key1 body).length = 16 := by simp [fmTag, sha3_length]
  have hk : tget dN managed.keys 8 = some ⟨key1, 1⟩ := rfl
  simp [State.fmOk, hk, fmPkt, pkt, h]
theorem wit_ControlPackets :
    managed.wf = true ∧ (fmPkt 0x10 (memberBody 0 2 1)).dst = managed.pkgId ∧ managed.peerEpoch < 2
      ∧ leNat ((memberBody 0 2 1).drop 4 |>.take 4) = 2 ∧ bit (leNat ((memberBody 0 2 1).drop 8 |>.take 1)) 0 = true
      ∧ leNat ((memberBody 1 2 0).take 4) = managed.peerEpoch ∧ leNat ((memberBody 0 1 1).drop 4 |>.take 4) ≤ managed.peerEpoch
      ∧ leNat ((memberBody 0 2 0).take 4) ≠ managed.peerEpoch ∧ up.fmOk (pkt 0x10 []) = false := by decide +kernel
/-- ROUTE_SET of destination 8 on. -/
theorem wit_routeSet : 0 < leNat (((leBytes 4 8 ++ leBytes 2 1 ++ leBytes 2 0 ++ leBytes 2 0x94A0).drop 4).take 2)
    ∧ leNat ((leBytes 4 8 ++ leBytes 2 1 ++ leBytes 2 0 ++ leBytes 2 0x94A0).take 4) + 0 < 65536 := by decide +kernel
def collRunning (op : Nat) : State := runningAs (collState op)
theorem wit_collPackets :
    ((collRunning 0x20).collOf 77).map (·.1) = some 0 ∧ ((tget dItem (collRunning 0x20).items 0).map fun x => (x.stage, x.isVote)) = some (.running, false)
      ∧ (pkt 0x41 (leBytes 4 77 ++ [3#8])).src ∈ plan2.members ∧ leNat ((pkt 0x41 (leBytes 4 77 ++ [3#8])).body.take 4) = 77
      ∧ up.collOf 77 = none ∧ up.votes = [] := by decide +kernel
def snd (kind : Nat) : Send := ⟨4, kind, 5, 0, 0, 0, 0⟩
def sent (kind : Nat) : State := { (runningAs sendState) with sends := [snd kind], cycle := 10 ^ 13 }
theorem wit_delivered :
    (sent 0x40).sends.find? (fun q => q.seq == leNat ((leBytes 8 4).take 8) && q.dst == 5) = some (snd 0x40) ∧ (sent 0x40).gen 2 (snd 0x40).region = 1
      ∧ (pkt 0x50 (leBytes 8 4)).igen ≠ (sent 0x40).gen 2 0 ∧ (snd 0x40).at' + cycOfMs ((sent 0x40).dv 0x5003 0) ≤ (sent 0x40).cycle
      ∧ (sent 0x51).sends.find? (fun q => q.seq == 4) = some (snd 0x51)
      ∧ ((sent 0x40).item 0 0).map (fun x => (x.engine, x.stage)) = some (7, .running) := by decide +kernel
/-- SIGNAL of Cleat 3 of die 2 by 9, and DECREMENT by it. -/
def sigWord (dec : Nat) : Nat := 2 * 2 ^ 29 + 3 + 9 * 2 ^ 32 + dec * 2 ^ 26
theorem wit_cleatOp : sigDie (sigWord 0) = 2 ∧ sigIdx (sigWord 0) = 3 ∧ sigAmount (sigWord 1) = 9 ∧ sigDec (sigWord 0) = false ∧ sigDec (sigWord 1) = true
    ∧ cleatExists 2 3 = true ∧ up.dieDown 2 = false ∧ bit (up.reg .cltCfg (cleatKey 2 3)).toNat 31 = false := by decide +kernel
theorem wit_scaledPut :
    leNat (((leBytes 8 0x20000 ++ leBytes 8 0x10400 ++ List.replicate 16 0#8).drop 8).take 8) ≠ 2 ^ 64 - 1
      ∧ (die1 3 (joined up)).pathDown (portDie 0) 2 false = true ∧ up.pathDown (portDie 0) 2 false = false := by decide +kernel
theorem wit_put : leNat (((leBytes 8 0x20000 ++ leBytes 8 (2 ^ 64 - 1) ++ List.replicate 16 0#8).drop 8).take 8) = 2 ^ 64 - 1 := by decide +kernel
theorem test_send_timeout_is_peer_lost :
    gives (.sendTimeout 4) (sent 0x40) (fun t => (t.item 0 0).isNone && t.sends.isEmpty && t.suspects.head?.map (·.id) == some 5) = true := by decide +kernel

/-! ### Watchdogs, sweeps, recoveries, fences -/

def stuck : State := { up.setItem 0 0 (some { item (desc 8 1 [sA, sC, (0xC, 4, 0)]) .running with units := 1 }) with cycle := 10 ^ 13 }
def waiting1 : State := { up.setItem 0 0 (some { item (desc 8 1 [sA, sC]) .admitted with w0 := .registered }) with cycle := 10 ^ 13 }
theorem wit_Watchdogs :
    stuck.wf = true ∧ (stuck.item 0 0).map (fun x => (stuck.progressWatched 0 0 x, decide (x.progCyc + cycOfMs (stuck.dv 0x2090 0) ≤ stuck.cycle),
        smallestDom 0 (unitList 0 x.units))) = some (true, true, ⟨0, 0⟩)
      ∧ (match stuck.dispose ⟨0, 0⟩ with | .begin => true | _ => false) = true ∧ stuck.frozen ⟨2, 0⟩ = false
      ∧ (waiting1.item 0 0).map (fun x => waiting1.cleatWatched 0 0 x) = some (some 0) ∧ 0 + cycOfMs (waiting1.dv 0x2091 0) ≤ waiting1.cycle
      ∧ smallestDom 0 (unitList 0 0) = ⟨2, 0⟩ := by decide +kernel
theorem wit_Watchdogs2 :
    (port5 2 255 up).portUp 5 = true ∧ recentExpiry (tget dExp up.creditExp 5) up.cycle = false
      ∧ recentExpiry (tget dExp ({ up with creditExp := [(5, some 7)] } : State).creditExp 5) 8 = true ∧ recentExpiry (some 0) (cycOfMs 1000) = false
      ∧ recentExpiry (tget dExp ({ up with hbmExp := [(2, some 7)] } : State).hbmExp 2) 8 = true
      ∧ (match ({ up with hbmExp := [(2, some 7)] } : State).dispose ⟨3, stackDie 2⟩ with | .begin => true | _ => false) = true
      ∧ (up.errDie 4).correctedNow 5 (up.lay.now / 2 ^ 32) < 16 := by decide +kernel
def word (array code : Nat) (ue : Bool) : SramEvent := ⟨0, array, code, 5, 0, 0, ue, false⟩
theorem test_a_late_sweep_counts : gives (.sramSweep ⟨4, 0, 0, 0, 0, 0, false, true⟩) up (fun t => t.mcv 0x40A7 4 == 1) = true := by
  decide +kernel
theorem wit_Sweeps :
    ([0, 1, 2, 3, 4, 5, 6].all fun a => decide ((up.errDie (domDie (sramDom (word a 1 false)))).correctedNow 3 0 < 16)) = true
      ∧ (sramLine (word 3 0 true)).isSome = true ∧ (sramLine (word 5 0 true)).isSome = true
      ∧ (match up.dispose (sramDom (word 6 1 true)) with | .begin => true | _ => false) = true := by decide +kernel
theorem wit_SweepArrays : sramLine (word 0 0 true) = none ∧ sramLine (word 1 0 true) = none ∧ (sramDom (word 0 0 true)).level < 3 := by decide +kernel
/-- An older limit stands for a wait that began before it changed; root ports 16 and 17 have no domain. -/
theorem wit_limits :
    ({ up with wdPast := [(0x2090, 100, 5)] } : State).limitFor 0x2090 99 = 5 ∧ ({ up with wdPast := [(0x2090, 100, 5)] } : State).limitFor 0x2090 100
      = up.dv 0x2090 0 ∧ (stuck.item 0 0).map (fun x => (stuck.progressFrom x, stuck.unitsOf 0 0 x)) = some (0, [0]) ∧ 17 < 18 := by decide +kernel
theorem wit_clears : bit (2 ^ 31) 31 = true ∧ bit 7 31 = false ∧ (snarlState.snarlIn 0 1).isSome = true := by decide +kernel
/-- Fid 0 recovers cluster 0 or unit 0, at a step. -/
def recov (d : Dom) (step : Nat) : Recovery := ⟨d, step, 0, [], 1, 0, 0, 0, false, false, 0⟩
def recovering (d : Dom) (step : Nat) (q : List Recovery := []) : State := { up with fids := [(0, { active := some (recov d step), queue := q })] }
theorem wit_Recoveries :
    up.boot.power = true ∧ up.boot.boardLow = false ∧ up.frozen ⟨0, 511⟩ = false ∧ 511 < levelCount 0 ∧ levelCount 0 ≤ 512 ∧ 3 < levelCount 3
      ∧ (match up.dispose ⟨3, 3⟩ with | .begin => true | _ => false) = true ∧ (recovering ⟨1, 0⟩ 3).frozen ⟨0, 3⟩ = true
      ∧ (((recovering ⟨1, 0⟩ 3).fid 0).active.map (·.step)) = some 3 ∧ (((recovering ⟨1, 0⟩ 4).fid 0).active.map (·.step)) = some 4
      ∧ (recovering ⟨1, 0⟩ 3).wf = true ∧ (recovering ⟨1, 0⟩ 4).unfenceDue = [] ∧ domFid ⟨1, 0⟩ = 0 := by decide +kernel
def queued : State := { up with fids := [(0, { active := none, queue := [recov ⟨1, 0⟩ 1] })] }
theorem wit_queued : queued.wf = true ∧ (queued.fid 0).active = none ∧ (queued.fid 0).queue = [recov ⟨1, 0⟩ 1]
    ∧ ((List.range 5).any fun f => (queued.fid f).active.any fun a => domWithin ⟨1, 0⟩ a.dom) = false := by decide +kernel
/-- The hub's Fid with a die at step 4, its stacks not in training, and free of a package reset. -/
theorem wit_DieRecoveries :
    (((die1 4 up).fid 4).active.map fun r => (r.step, r.dom.level, r.dom.index)) = some (4, 3, 1)
      ∧ ((List.range 4).all fun k => ((die1 4 up).progress (progTrain (4 + k))).state != 1) = true ∧ stackDie 0 ≠ 1 ∧ stackDie 4 = 1
      ∧ ((up.fid 4).active.any fun r => r.dom.level == 4) = false ∧ up.boot.bitter = false := by decide +kernel
theorem wit_Fences :
    5 ∈ maskUnits 0 32 ∧ 6 ∉ maskUnits 0 32 ∧ up.frozen ⟨0, 5⟩ = false ∧ (recovering ⟨1, 1⟩ 3).frozen ⟨0, 5⟩ = true
      ∧ (recovering ⟨1, 1⟩ 3).unitFenced 5 = false ∧ ({ up with fenced := [(5, true)] } : State).unitFenced 5 = true
      ∧ ({ recovering ⟨1, 1⟩ 3 with fenced := [(5, true)] } : State).unitFenced 5 = true ∧ 511 ∈ maskUnits 7 (2 ^ 63) ∧ maskUnits 8 1 = [] := by
  decide +kernel
theorem test_reset_advances_the_generation :
    gives (.resetRequest 3 1 0) up (fun t => t.gen 1 0 == 2 && ((t.fid 0).active.map (·.dom)) == some ⟨1, 0⟩) = true := by decide +kernel
theorem test_err_clear : gives (.errClear 3 2 (2 ^ 31)) { up with err := [(2, { overflow := true, lostSev := 2, firstLost := 5 })] }
    (fun t => !(t.errDie 2).overflow && (t.errDie 2).firstLost == 0) = true := by decide +kernel

/-! ### Start-up, firmware, keys, contexts -/

def stageAt (k : Nat) (b : Boot) : State := { State.reset with boot := { b with stage := k } }
theorem wit_Starts :
    (stageAt 0 {}).wf = true ∧ (stageAt 0 {}).starting = true ∧ (stageAt 0 {}).stageOver = true ∧ (stageAt 3 {}).stageOver = false
      ∧ (stageAt 6 {}).starting = true ∧ ((stageAt 6 {}).fid 4).active = none ∧ ((stageAt 6 {}).boot.record).seq + 1 < 2 ^ 32
      ∧ (stageAt 0 {}).strapBoot = 0 ∧ (stageAt 0 { second := true }).boot.second = true ∧ (stageAt 0 { straps := 1 }).strapBoot ≠ 0
      ∧ (stageAt 0 {}).boot.current = some (⟨0, 0, 0, [0, 0, 0], false⟩, true)
      ∧ ({ copy0 := some ⟨0, 3, 0, [0, 0, 0], false⟩ } : Boot).current = some (⟨0, 3, 0, [0, 0, 0], false⟩, true)
      ∧ bit 512 9 = true ∧ bit 0 9 = false
      ∧ (stageAt 0 {}).boot.stageCyc + cycOfMs (stageLimit 0 * 1000) ≤ cycOfMs 5000 := by decide +kernel
theorem wit_selfTest : ((running 0x7040 (stageAt 4 {})).progress 0x7040).state = 1 ∧ (running 0x7040 (stageAt 4 {})).starting = true
    ∧ (running 0x7040 (stageAt 4 {})).frozenDoms = [] ∧ 127 < levelCount 1 ∧ (⟨3, 1⟩ : Dom).level = 3 := by decide +kernel
theorem test_third_failed_start_is_bitter : gives (.coldBoot 0) (stageAt 0 { copy0 := some ⟨0, 3, 0, [0, 0, 0], false⟩ })
    (fun t => t.boot.bitter && t.boot.cause == 1) = true := by decide +kernel
theorem wit_Firmware :
    up.wf = true ∧ (up.progress 0x7030).busy = false ∧ up.dv 0x8050 0 < slotSize ∧ ((running 0x7030 up).progress 0x7030).busy = true
      ∧ slotSize ≤ (up.setDv 0x8050 0 slotSize).dv 0x8050 0 ∧ ((running 0x7030 up).progress 0x7030).state = 1 ∧ up.boot.record.seq + 1 < 2 ^ 32
      ∧ up.boot.stage = 7 ∧ up.held = false ∧ (stageAt 6 {}).boot.stage ≠ 7 ∧ up.boot.ownerDigest = none
      ∧ ({ up.boot with ownerDigest := some key1 } : Boot).ownerDigest = some key1 := by decide +kernel
theorem test_fw_data : gives (.fwData 3 (List.replicate 256 9#8)) (up.setDv 0x8050 0 256)
    (fun t => t.boot.slotByte 1 256 == 9#8 && t.boot.slotByte 1 255 == 0#8 && t.dv 0x8050 0 == 512) = true := by decide +kernel
/-- A context record of one section, 6: the last step opened, 9. -/
def ctxTail : List Byte := leBytes 2 6 ++ leBytes 2 0 ++ leBytes 4 0x38 ++ leBytes 8 9
def ctxBytes : List Byte := leBytes 4 0x4B435831 ++ leBytes 2 9 ++ leBytes 2 1 ++ leBytes 8 0x40 ++ sha3 ctxTail ++ ctxTail
theorem wit_ctxGood : ctxGood ctxBytes 64 = true ∧ ctxSec (ctxTable ctxBytes) 6 = some (leBytes 8 9) ∧ ctxSec (ctxTable ctxBytes) 2 = none
    ∧ ctxSec (ctxTable ctxBytes) 5 = none := by decide +kernel
def ctxHere : State := { (running 0x7021 up) with boot := { up.boot with ctxAddr := 0x60000, ctxLen := 64 } }.wr 0x60000 (leBytes 8 0 ++ leBytes 8 64)
theorem wit_Contexts :
    up.allFree = true ∧ (slotState 1 0 0 up).allFree = false ∧ (up.progress 0x7020).busy = false ∧ (ctxHere.progress 0x7021).state = 1
      ∧ ctxHere.rd (ctxHere.boot.ctxAddr + 8) 8 = 64 ∧ ctxHere.mapped 0x60000 64 = true ∧ ctxHere.poisonedIn 0x60000 64 = false
      ∧ ((running 0x7020 up).progress 0x7020).state = 1 ∧ 0 < up.ctxLength ∧ ({ up.boot with nonce := some key1 } : Boot).nonce = some key1 := by decide +kernel
/-- A restore that ends with a step slot open; READY with debug never asked for. -/
theorem wit_ContextsRefused :
    (slotState 1 0 0 ctxHere).allFree = false ∧ ((slotState 1 0 0 ctxHere).progress 0x7021).state = 1 ∧ up.boot.debug = 0
      ∧ ({ up.boot with debug := 1 } : Boot).debug ≠ 0 ∧ ctxHere.poisonedIn 0x60000 64 = false ∧ ctxHere.boot.ctxLen < 65 := by decide +kernel
theorem test_key_slot : gives (.keySlot 3 7 key1) up (fun t => tget dN t.keys 7 == some ⟨key1, 1⟩) = true := by decide +kernel

/-! ### Power, ageing, pins, the sideband -/

def railTripping : PowerSample := ⟨List.replicate 13 800, List.replicate 13 65535, [], []⟩
def calm : PowerSample := ⟨List.replicate 13 800, List.replicate 13 1, [], []⟩
theorem wit_Governor :
    up.wf = true ∧ up.boot.power = true ∧ up.boot.boardLow = false ∧ up.boot.bitter = false ∧ ({ up.boot with bitter := true } : Boot).bitter = true
      ∧ (up.measureRails railTripping).railTrip = true ∧ (up.measureRails calm).railTrip = false
      ∧ (up.measureRails calm).railsMw 0 ≤ up.fastTrip * 1000 ∧ up.fastTrip * 1000 < (up.measureRails railTripping).railsMw 0 ∧ up.power.tripCyc = none
      ∧ 7 + cycOfUs 100 ≤ 7 + 210000 ∧ ({ ({} : StackPwr) with critCyc := some 0 } : StackPwr).critCyc = some 0 ∧ 0 + cycOfMs 100 ≤ cycOfMs 100
      ∧ ((up.setRpwr 3 { crit := 10000 }).rpwr 3).crit = 10000 ∧ goodAt [some 1361, some 1680, some 1681, none] 0 = some 1361
      ∧ goodAt [some 1361, some 1680, some 1681, none] 2 = some 1681 ∧ goodAt [none] 0 = none := by decide +kernel
theorem test_governor_trips : gives (.governorTick railTripping) up (fun t => t.power.tripCyc == some 0 && (t.rpwr 5).point == 0 && t.reg .pwrTripCnt 4 == 1#32) = true := by
  decide +kernel
/-- Ramp entry 5 is valid, its AT is 0; its hold, where it has one, is not met. -/
def ramp (hold : Nat) (s : State) : State := ((s.setReg .pwrRamp 4 45 1#32).setReg .pwrRamp 4 42 (BitVec.ofNat 32 hold)).setReg .pwrRamp 4 43
  (BitVec.ofNat 32 (hold / 2 ^ 32))
theorem wit_Ramps :
    (ramp 0 up).wf = true ∧ (ramp 0 up).held = false ∧ (List.range 16).filter (fun k => (ramp 0 up).rampDue k && (ramp 0 up).rampHeldMet k) = [5]
      ∧ (ramp 0 up).rampDue 5 = true ∧ bit ((ramp 0 up).rampFlags 5) 2 = false
      ∧ up.rngOk .rampEntry 0 = true ∧ ({ up with power := { up.power with active := some 5 } } : State).power.active = some 5
      ∧ up.power.active ≠ some 5 ∧ ({ (ramp 0 up) with power := { up.power with active := some 7 } } : State).power.active = some 7 := by decide +kernel
theorem wit_rampHeld : (ramp (2 ^ 32 + 2 ^ 28) up).rampHeldMet 5 = false ∧ (ramp (2 ^ 32 + 2 ^ 28) up).rampDue 5 = true ∧ bit ((ramp (2 ^ 32 + 2 ^ 28) up).rampFlags 5) 2 = false := by decide +kernel
theorem test_power_class_is_clamped : gives (.powerClass 3 4) { up with boot := { up.boot with straps := 2 * 16 } } (fun t => t.powerClass == 2) = true := by
  decide +kernel
def noByte : Nat → List Byte := fun _ => []
/-- The first 24 pieces of an ageing state are there. -/
def pieces : Sparse (List Byte) := (List.range 24).map fun k => (k, List.replicate 256 1#8)
theorem wit_Ageing :
    up.held = false ∧ ((List.range 25).flatMap fun k => tget noByte (tset noByte pieces 24 (fitBytes (agePieceLen 24) [])) k).length = 6160
      ∧ ((List.range 25).flatMap fun k => tget noByte (tset noByte [] 24 (fitBytes (agePieceLen 24) [])) k).length ≠ 6160 ∧ (24 < 25) := by decide +kernel
theorem wit_Rails : up.boot.power = true ∧ up.boot.boardLow = false ∧ up.starting = false ∧ up.mcUp = true ∧ State.reset.mcUp = false
    ∧ ({ up.boot with boardLow := true } : Boot).boardLow = true := by decide +kernel
theorem test_sideband_alert_clears : gives (.i3cWrite 0x14 [5#8]) { up with power := { up.power with alert := 7 } } (fun t => t.power.alert == 2) = true := by
  decide +kernel
theorem test_pwr_good_fall : gives .pwrGoodFall (managed.wr 0x20000 [1#8]) (fun t => !t.boot.power && t.mem.bytes.isEmpty && t.peers.isEmpty) = true := by decide +kernel

/-! ### Well-formed commands: an ill-formed one for each check -/

theorem test_wf_ini : (Instr.dicReservedOp 32).wf = true ∧ (Instr.dicReservedOp 33).wf = false := by decide
theorem test_wf_core : (Instr.cleatArm 31 0 0 0).wf = true ∧ (Instr.cleatArm 32 0 0 0).wf = false := by decide
theorem test_wf_src : (Instr.cleatSignal 255 0 0 0).wf = true ∧ (Instr.cleatSignal 256 0 0 0).wf = false := by decide
theorem test_wf_die : (Instr.cleatSet 0 4 0 0).wf = true ∧ (Instr.cleatSet 0 5 0 0).wf = false := by decide
theorem test_wf_region : (Instr.descriptorAdmit 15).wf = true ∧ (Instr.descriptorAdmit 16).wf = false := by decide
theorem test_wf_cluster : (Instr.spillDrain 127).wf = true ∧ (Instr.spillDrain 128).wf = false := by decide
theorem test_wf_slot : (Instr.itemComplete 0 255).wf = true ∧ (Instr.itemComplete 0 256).wf = false := by decide
theorem test_wf_stepSlot : (Instr.stepOpen 0 15).wf = true ∧ (Instr.stepOpen 0 16).wf = false := by decide
theorem test_wf_stack : (Instr.poisonMarkWrite 15).wf = true ∧ (Instr.poisonMarkWrite 16).wf = false := by decide
theorem test_wf_port : (Instr.portTrainTimeout 17).wf = true ∧ (Instr.portTrainTimeout 18).wf = false := by decide
theorem test_wf_root : (Instr.farLinkDown 1).wf = true ∧ (Instr.farLinkDown 2).wf = false := by decide
theorem test_wf_rail : (Instr.railRangeFault 12).wf = true ∧ (Instr.railRangeFault 13).wf = false := by decide
theorem test_wf_ring : (Instr.wrkCqHeadWrite 0 0 7 0).wf = true ∧ (Instr.wrkCqHeadWrite 0 0 8 0).wf = false := by decide
theorem test_wf_tracker : (Instr.splTrkCfgWrite 0 16383 0).wf = true ∧ (Instr.splTrkCfgWrite 0 16384 0).wf = false := by decide
theorem test_wf_width : (Instr.registerWrite 0 0 8 0).wf = true ∧ (Instr.registerWrite 0 0 3 0).wf = false := by decide

end Sys2Proof.Tests
end

section
/-! Starting a ready item (01 R18, R27; 03 R83, R93, R97, R98, R113; 14 R475): the units chosen for it, what its start marks, and
where the started item stands. -/

namespace Sys2Proof.Machine

/-! ### The slot of an item -/

/-- A value that is not the default is read back, from any table. -/
theorem tget_tset_of_ne_default {α : Type} [DecidableEq α] {d : Nat → α} (m : Sparse α) {k : Nat} {v : α} (h : v ≠ d k) :
    tget d (tset d m k v) k = v := by
  rw [tset, if_neg h]
  exact tget_tput_same m k v

/-- An item just put at a slot is read there, whatever else the table holds. -/
@[simp] theorem State.item_setItem_some (s : State) (region slot : Nat) (x : Item) : (s.setItem region slot (some x)).item region slot = some x :=
  tget_tset_of_ne_default (d := dItem) s.items (Option.some_ne_none x)

theorem regsFrom.item_eq {t s : State} (h : regsFrom t s) (region slot : Nat) : t.item region slot = s.item region slot := by
  obtain ⟨_, rfl⟩ := h; rfl

theorem itemsFrom.eq_update {t s : State} (h : itemsFrom t s) : t = { s with items := t.items, regs := t.regs } := by
  obtain ⟨_, _, rfl⟩ := h; rfl

/-! ### What a start marks (03 R113; 13 R451) -/

/-- Only a TIMED item is late: LATE is kept, or set when the start lies further past the Lay gate than the bound. -/
theorem State.noteLate_late_iff (s : State) (region : Nat) (x : Item) : (s.noteLate region x).2.late = true ↔
    x.late = true ∨ (x.timed = true ∧ layOfNs (s.dv 0x2082 0) < s.lay.now - x.layGate) := by
  have late_iff : layOfNs (s.dv 0x2082 0) < s.lateness x ↔ x.timed = true ∧ layOfNs (s.dv 0x2082 0) < s.lay.now - x.layGate := by
    cases ht : x.timed <;> simp [State.lateness, ht]
  rw [State.noteLate, ← late_iff]
  split
  next h => simp [h]
  next h => simp [h]

/-- Over any pair: with `noteLate` in its place, the kernel would evaluate the lateness to see it. -/
theorem restarted_late (p : State × Item) (start : Option Nat) (cyc : Nat) :
    (p.1, { p.2 with start := start, startCyc := cyc }).2.late = p.2.late := rfl

/-- A first start's LATE is what `noteLate` finds. -/
theorem State.markStart_late {s : State} {region : Nat} {x : Item} (h : ¬ x.start.isSome = true) :
    (s.markStart region x).2.late = (s.noteLate region x).2.late :=
  (congrArg (fun p => p.2.late) (State.markStart_first s region x h)).trans (restarted_late ..)

/-- A ready item put on its units, with the Boundary words of now, before its start is marked. -/
def State.placedItem (s : State) (region : Nat) (x : Item) (units : Nat) : Item :=
  { x with stage := .running, units := units, progCyc := s.cycle
           latched := s.latchWords x region, runahead := bits (s.reg .runahead region).toNat 6 0 }

@[simp] theorem State.placedItem_late (s : State) (region : Nat) (x : Item) (units : Nat) : (s.placedItem region x units).late = x.late := rfl
@[simp] theorem State.placedItem_timed (s : State) (region : Nat) (x : Item) (units : Nat) : (s.placedItem region x units).timed = x.timed := rfl
@[simp] theorem State.placedItem_layGate (s : State) (region : Nat) (x : Item) (units : Nat) : (s.placedItem region x units).layGate = x.layGate := rfl

theorem State.beginItem_snd (s : State) (region slot : Nat) (x : Item) (units : Nat) :
    (s.beginItem region slot x units).2 = (s.markStart region (s.placedItem region x units)).2 := rfl

/-- The item that begins stands at its slot. -/
theorem State.beginItem_item (s : State) (region slot : Nat) (x : Item) (units : Nat) :
    (s.beginItem region slot x units).1.item region slot = some (s.beginItem region slot x units).2 :=
  ((State.showItem_regs ..).item_eq region slot).trans (State.item_setItem_some ..)

theorem State.beginItem_count (s : State) (region slot : Nat) (x : Item) (units : Nat) : (s.beginItem region slot x units).2.count = x.count := by
  obtain ⟨_, _, _, h⟩ := State.markStart_item s region (s.placedItem region x units)
  rw [State.beginItem_snd, h]; rfl

/-- A first start is marked with the Lay time and the cycle of now, and with its lateness. -/
theorem State.beginItem_first (s : State) (region slot : Nat) {x : Item} (units : Nat) (h : x.start = none) :
    (s.beginItem region slot x units).2.start = some s.lay.now ∧ (s.beginItem region slot x units).2.startCyc = s.cycle ∧
      ((s.beginItem region slot x units).2.late = true ↔
        x.late = true ∨ (x.timed = true ∧ layOfNs (s.dv 0x2082 0) < s.lay.now - x.layGate)) := by
  have hp : ¬ (s.placedItem region x units).start.isSome = true := by simp [State.placedItem, h]
  have hlate := State.noteLate_late_iff s region (s.placedItem region x units)
  rw [State.placedItem_late, State.placedItem_timed, State.placedItem_layGate, ← State.markStart_late hp] at hlate
  refine ⟨?_, ?_, hlate⟩
  · rw [State.beginItem_snd, State.markStart_first s region _ hp]
  · rw [State.beginItem_snd, State.markStart_first s region _ hp]

/-- A later start keeps the first one's START. -/
theorem State.beginItem_later (s : State) (region slot : Nat) {x : Item} (units : Nat) (h : x.start ≠ none) :
    (s.beginItem region slot x units).2.start = x.start := by
  have hp : (s.placedItem region x units).start.isSome = true := Option.isSome_iff_ne_none.2 h
  rw [State.beginItem_snd, State.markStart, if_pos hp]; rfl

/-! ### Whether a ready item starts (03 R93, R97, R98; 14 R475) -/

section
variable {s : State} {region slot : Nat} {x : Item}

theorem State.startItem_ready {units : Nat} (hx : x.stage = .ready) (hh : s.itemHeld region x = false)
    (hc : s.chooseUnits region slot x = some units) (hy : s.yields region slot x units = false) :
    s.startItem region slot x = some (s.beginItem region slot x units) := by
  rw [State.startItem, hh, hx, hc]
  simp [hy]

theorem State.startItem_ready_none (hx : x.stage = .ready) (h : s.chooseUnits region slot x = none ∨ s.itemHeld region x = true
      ∨ ∃ units, s.chooseUnits region slot x = some units ∧ s.yields region slot x units = true) :
    s.startItem region slot x = none := by
  obtain hc | hh | ⟨units, hc, hy⟩ := h
  · rw [State.startItem, hx, hc]; simp
  · rw [State.startItem, if_pos hh]
  · rw [State.startItem, hx, hc]; simp [hy]

/-! ### The units of an item (03 R83; 01 R27) -/

theorem State.chooseUnits_named (he : maskUsed x.engine = true) (hm : x.mask ≠ 0) : s.chooseUnits region slot x
    = if s.unitsBusy region slot x x.mask = true ∨ s.maskFenced region x.mask = true then none else some x.mask := by
  simp [State.chooseUnits, State.unitsBusy, he, hm]

theorem State.chooseUnits_lowest (he : maskUsed x.engine = true) (hm : x.mask = 0) : s.chooseUnits region slot x
    = ((List.range 32).find? fun u => !s.unitFenced (region * 32 + u) && !s.unitsBusy region slot x (2 ^ u)).map (2 ^ ·) := by
  simp [State.chooseUnits, State.unitsBusy, he, hm]

theorem unit_not_free_iff {k : Nat} : (!(!s.unitFenced (region * 32 + k) && !s.unitsBusy region slot x (2 ^ k))) = true ↔
    s.unitFenced (region * 32 + k) = true ∨ s.unitsBusy region slot x (2 ^ k) = true := by
  simp

/-- With mask 0, the unit chosen is free, and every lower one is fenced or busy. -/
theorem State.chooseUnits_lowest_some (he : maskUsed x.engine = true) (hm : x.mask = 0) {units : Nat}
    (h : s.chooseUnits region slot x = some units) : ∃ k < 32, units = 2 ^ k ∧ s.unitFenced (region * 32 + k) = false ∧
      s.unitsBusy region slot x (2 ^ k) = false ∧
      ∀ j < k, s.unitFenced (region * 32 + j) = true ∨ s.unitsBusy region slot x (2 ^ j) = true := by
  rw [State.chooseUnits_lowest he hm] at h
  obtain ⟨k, hk, rfl⟩ := Option.map_eq_some_iff.1 h
  obtain ⟨hfree, hmem, hlower⟩ := List.find?_range_eq_some.1 hk
  obtain ⟨hfenced, hbusy⟩ : s.unitFenced (region * 32 + k) = false ∧ s.unitsBusy region slot x (2 ^ k) = false := by
    simpa using hfree
  exact ⟨k, List.mem_range.1 hmem, rfl, hfenced, hbusy, fun j hj => unit_not_free_iff.1 (hlower j hj)⟩

/-- With mask 0, no unit is chosen only when each is fenced or busy. -/
theorem State.chooseUnits_lowest_none (he : maskUsed x.engine = true) (hm : x.mask = 0) (h : s.chooseUnits region slot x = none) :
    ∀ j < 32, s.unitFenced (region * 32 + j) = true ∨ s.unitsBusy region slot x (2 ^ j) = true := by
  rw [State.chooseUnits_lowest he hm] at h
  have hnone := List.find?_range_eq_none.1 (Option.map_eq_none_iff.1 h)
  exact fun j hj => unit_not_free_iff.1 (hnone j hj)

end

/-- Settles O29: a start is `beginItem` on the units chosen; with mask 0 those are the first of the 32 that is neither fenced nor busy. -/
theorem readyItemsStartWhereTheirEngineIsFree : Obligations.ReadyItemsStartWhereTheirEngineIsFree := by
  intro s region slot x hx
  refine ⟨fun units hh hc hy => ?_, State.startItem_ready_none hx, State.chooseUnits_named, fun he hm =>
    ⟨fun units => State.chooseUnits_lowest_some he hm, State.chooseUnits_lowest_none he hm⟩⟩
  obtain ⟨hframe, hraw, hstage, hunits⟩ := State.beginItem_spec s region slot x units
  exact ⟨(s.beginItem region slot x units).1, (s.beginItem region slot x units).2, State.startItem_ready hx hh hc hy, hstage, hunits, hraw,
    State.beginItem_count .., State.beginItem_first s region slot units, State.beginItem_later s region slot units,
    State.beginItem_item .., hframe.eq_update⟩

end Sys2Proof.Machine
end

section
/-! Agrex requests: what a session's request answers, in order and out of order, and how sessions open and lapse
(02 R41 to R53; 15 R511, R517). -/

namespace Sys2Proof.Machine

/-! ### A request that is heard (02 R42, R46) -/

theorem State.agReceive_heard {s : State} {dg : Datagram} {op : Nat} (hup : s.mcUp = true) (hw : dgWell dg = true) (hop : dg.opcode = op)
    (f : State → State) : s.agReceive dg op f = f s := by
  simp [State.agReceive, hup, hw, hop]

theorem State.session_id {s : State} {n : Nat} {x : Session} (h : s.session n = some x) : x.id = n := by
  simpa using List.find?_some h

section
variable {s u : State} {dg : Datagram} {op : Nat} {x : Session} {a : Answer} {f : State → Bool → Nat → Answer × State}

/-- A request heard in order answers what its effect gives; its session advances, and ends where it closes. -/
theorem State.agSession_inOrder (h : s.agHears dg op x) (hq : dg.seq = x.expected) (roleOwner close : Bool)
    (hf : (if roleOwner && !(s.ownerSession == x.id) then (({ status := agNotOwner } : Answer), s.heard x)
      else f (s.heard x) (s.ownerSession == x.id) x.id) = (a, u)) :
    s.agSession dg roleOwner f close = if close then (u.agAnswered dg x s.cycle a.status a.flags a.payload).endSession x.id
      else u.agAnswered dg x s.cycle a.status a.flags a.payload := by
  obtain ⟨-, -, -, hx, hi, ht⟩ := h
  have howner : (s.heard x).ownerSession = s.ownerSession := rfl
  simp only [State.agSession, hx, hi, hq]
  simp only [Bool.false_eq_true, if_false, ht, bne_self_eq_false, beq_self_eq_true, if_true, hx]
  rw [← State.heard, howner, hf, State.agAnswered, hq]

/-- A request of any session, or of the owner's, answers what its effect gives. -/
theorem State.agReceive_answers (h : s.agHears dg op x) (hq : dg.seq = x.expected) {roleOwner : Bool}
    (hrole : roleOwner = false ∨ s.ownerSession = x.id) (hf : f (s.heard x) (s.ownerSession == x.id) x.id = (a, u)) :
    (.next (s.agReceive dg op fun s => s.agSession dg roleOwner f false) : Host.Outcome State Fault Refusal)
      = .next (u.agAnswered dg x s.cycle a.status a.flags a.payload) := by
  obtain ⟨hup, hw, hop, -⟩ := id h
  rw [State.agReceive_heard hup hw hop, State.agSession_inOrder (a := a) (u := u) h hq, if_neg Bool.false_ne_true]
  rw [if_neg, hf]
  obtain rfl | ho := hrole
  · simp
  · simp [ho]

/-- A request of the owner's role from another session has no effect. -/
theorem State.agReceive_notOwner (h : s.agHears dg op x) (hq : dg.seq = x.expected) (ho : s.ownerSession ≠ x.id) :
    (.next (s.agReceive dg op fun s => s.agSession dg true f false) : Host.Outcome State Fault Refusal)
      = .next ((s.heard x).agAnswered dg x s.cycle agNotOwner 0 []) := by
  obtain ⟨hup, hw, hop, -⟩ := id h
  rw [State.agReceive_heard hup hw hop,
    State.agSession_inOrder (a := { status := agNotOwner }) (u := s.heard x) h hq _ _ (by simp [ho]), if_neg Bool.false_ne_true]

/-! ### KEEPALIVE, CLOSE, CLAIM, RELEASE (02 R43, R51) -/

theorem State.agClose_answers (h : s.agHears dg op x) (hq : dg.seq = x.expected) :
    (.next (s.agReceive dg op fun s => s.agSession dg false (fun s _ _ => ({ status := agOk }, s)) true) : Host.Outcome State Fault Refusal)
      = .next (((s.heard x).agAnswered dg x s.cycle agOk 0 []).endSession x.id) := by
  obtain ⟨hup, hw, hop, -⟩ := id h
  rw [State.agReceive_heard hup hw hop, State.agSession_inOrder (a := { status := agOk }) (u := s.heard x) h hq _ _ rfl, if_pos rfl]

end

section
variable {s : State} {id : Nat} {p : List Byte}

theorem be_zero_length (p : List Byte) : be p 0 p.length = beNat p := by simp [be]

theorem State.agClaim_zero (hl : p.length = 8) (hj : beNat p = 0) : s.agClaim id p = ({ status := agRange }, s) := by
  have hbe : be p 0 8 = beNat p := hl ▸ be_zero_length p
  simp [State.agClaim, hbe, hl, hj]

/-- The role is free for the session and the job. -/
abbrev State.claimable (s : State) (id job : Nat) : Prop :=
  (s.ownerSession = 0 ∨ s.ownerSession = id) ∧ (s.ownerJob = 0 ∨ s.ownerJob = job)

theorem State.agClaim_taken (hl : p.length = 8) (hj : beNat p ≠ 0) (h : s.claimable id (beNat p)) :
    s.agClaim id p = ({ status := agOk }, { s with ownerJob := beNat p, ownerSession := id }) := by
  have hbe : be p 0 8 = beNat p := hl ▸ be_zero_length p
  have h' : ((s.ownerSession == 0 || s.ownerSession == id) && (s.ownerJob == 0 || s.ownerJob == beNat p)) = true := by simpa using h
  rw [State.agClaim, hbe]
  simp only [hl, hj, h', bne_self_eq_false, beq_iff_eq, if_true, if_false, Bool.false_eq_true]

theorem State.agClaim_refused (hl : p.length = 8) (hj : beNat p ≠ 0) (h : ¬ s.claimable id (beNat p)) :
    s.agClaim id p = ({ status := agNotOwner }, s) := by
  have hbe : be p 0 8 = beNat p := hl ▸ be_zero_length p
  have h' : ¬ ((s.ownerSession == 0 || s.ownerSession == id) && (s.ownerJob == 0 || s.ownerJob == beNat p)) = true := by simpa using h
  rw [State.agClaim, hbe]
  simp only [hl, hj, h', bne_self_eq_false, beq_iff_eq, if_false, Bool.false_eq_true]

end

/-- Settles O8: each request's effect, through the one lemma on requests heard in order. -/
theorem agrexRoleRequestsAnswered : Obligations.AgrexRoleRequestsAnswered := by
  intro s dg x hq
  refine ⟨fun h => ?_, fun h => ?_, fun h hl => ⟨fun hj => ?_, fun hj => ⟨fun hc => ?_, fun hc => ?_⟩⟩, fun h ho => ?_⟩
  · exact State.agReceive_answers (a := { status := agOk }) h hq (.inl rfl) rfl
  · exact State.agClose_answers h hq
  · exact State.agReceive_answers (a := { status := agRange }) h hq (.inl rfl) (State.agClaim_zero hl hj)
  · exact State.agReceive_answers (a := { status := agOk }) h hq (.inl rfl) (State.agClaim_taken hl hj hc)
  · exact State.agReceive_answers (a := { status := agNotOwner }) h hq (.inl rfl) (State.agClaim_refused hl hj hc)
  · exact State.agReceive_answers (a := { status := agOk }) h hq (.inr ho) rfl

/-! ### READ and READ_MULTI (02 R39, R43, R44, R53; 15 R511) -/

section
variable {s v : State} {owner : Bool} {p : List Byte} {idx sub : Nat} {g : Got}

/-- What an entry's read meets first: Bitter-end mode does not serve it. -/
abbrev State.bitterBars (s : State) (idx : Nat) : Prop := s.boot.bitter = true ∧ bitterServes idx = false

theorem State.agReadOne_barred (h : s.bitterBars idx) : s.agReadOne owner idx sub = (.refused agDenied, s) := by
  simp [State.agReadOne, h.1, h.2]

theorem State.agReadOne_served (h : s.boot.bitter = false ∨ bitterServes idx = true) :
    s.agReadOne owner idx sub = s.dictRead idx sub owner := by
  obtain h | h := h <;> simp [State.agReadOne, h]

theorem State.agRead_length (hl : p.length ≠ 4) : s.agRead owner p = ({ status := agType }, s) := by
  simp [State.agRead, hl]

theorem State.agRead_ok (hl : p.length = 4) (hr : s.agReadOne owner (be p 0 2) (be p 2 1) = (g, v)) (hg : g.status = 0) :
    s.agRead owner p = ({ status := agOk, flags := if g.stale then 2 else 0
                          payload := beBytes 1 g.ty ++ [0#8] ++ beBytes 2 g.len ++ g.wire }, v) := by
  simp [State.agRead, hl, hr, hg, agOk]

theorem State.agRead_refused (hl : p.length = 4) (hr : s.agReadOne owner (be p 0 2) (be p 2 1) = (g, v)) (hg : g.status ≠ 0) :
    s.agRead owner p = ({ status := g.status }, v) := by
  simp [State.agRead, hl, hr, hg, agOk]

/-- One entry more of a READ_MULTI: its part is added to the answer. -/
def State.readPart (owner : Bool) (a : List Byte × Bool × State) (e : Nat × Nat) : List Byte × Bool × State :=
  (a.1 ++ (a.2.2.agReadOne owner e.1 e.2).1.multi, a.2.1 || (a.2.2.agReadOne owner e.1 e.2).1.stale, (a.2.2.agReadOne owner e.1 e.2).2)

theorem State.readEach_cons (s : State) (owner : Bool) (e : Nat × Nat) (l : List (Nat × Nat)) :
    s.readEach owner (e :: l) = ((s.agReadOne owner e.1 e.2).1.multi ++ ((s.agReadOne owner e.1 e.2).2.readEach owner l).1,
      (s.agReadOne owner e.1 e.2).1.stale || ((s.agReadOne owner e.1 e.2).2.readEach owner l).2.1,
      ((s.agReadOne owner e.1 e.2).2.readEach owner l).2.2) := rfl

/-- Reading entries one after another, behind what was read before. -/
theorem State.foldl_readPart (owner : Bool) (l : List (Nat × Nat)) (a : List Byte × Bool × State) :
    l.foldl (State.readPart owner) a
      = (a.1 ++ (a.2.2.readEach owner l).1, a.2.1 || (a.2.2.readEach owner l).2.1, (a.2.2.readEach owner l).2.2) := by
  induction l generalizing a with
  | nil => simp [State.readEach]
  | cons e l ih => rw [List.foldl_cons, ih, State.readEach_cons]; simp [State.readPart, Bool.or_assoc]

/-- The entries that a READ_MULTI of `n` names. -/
def multiEntries (p : List Byte) (n : Nat) : List (Nat × Nat) := (List.range n).map fun i => (be p (4 + 4 * i) 2, be p (6 + 4 * i) 1)

theorem State.agReadMulti_malformed (h : be p 0 1 = 0 ∨ 32 < be p 0 1 ∨ p.length ≠ 4 + 4 * be p 0 1) :
    s.agReadMulti owner p = ({ status := agType }, s) := by
  rw [State.agReadMulti]
  exact if_pos (by simpa [or_assoc] using h)

theorem State.agReadMulti_wellFormed (h0 : 0 < be p 0 1) (h32 : be p 0 1 ≤ 32) (hl : p.length = 4 + 4 * be p 0 1)
    {r : List Byte × Bool × State} (hr : r = s.readEach owner (multiEntries p (be p 0 1))) :
    s.agReadMulti owner p = if 1024 < r.1.length then (({ status := agLarge } : Answer), s)
      else ({ status := agOk, flags := if r.2.1 then 2 else 0, payload := r.1 }, r.2.2) := by
  have hfold : (multiEntries p (be p 0 1)).foldl (State.readPart owner) ([], false, s) = r := by
    rw [State.foldl_readPart, hr]; rfl
  rw [multiEntries, List.foldl_map] at hfold
  rw [State.agReadMulti, if_neg (by simp; omega), ← hfold]
  rfl

end

/-! ### WRITE and GUARDED_WRITE (02 R39, R43, R67) -/

section
variable {s : State} {guarded : Bool} {p : List Byte}

theorem State.agWrite_barred (h : s.bitterBars (be p 0 2)) : s.agWrite guarded p = ({ status := agDenied }, s) := by
  simp [State.agWrite, h.1, h.2]

theorem State.agWrite_length (h : s.boot.bitter = false ∨ bitterServes (be p 0 2) = true)
    (hl : p.length ≠ 8 + (if guarded then 2 * be p 4 2 else be p 4 2)) : s.agWrite guarded p = ({ status := agType }, s) := by
  rw [State.agWrite, if_neg (by obtain h | h := h <;> simp [h]), if_pos (by simpa using hl)]

/-- A request of the right length writes the value it carries, a guarded one with the complement that follows. -/
theorem State.agWrite_served (h : s.boot.bitter = false ∨ bitterServes (be p 0 2) = true)
    (hl : p.length = 8 + (if guarded then 2 * be p 4 2 else be p 4 2)) {w : State × Nat}
    (hw : s.dictWrite 32 true (be p 0 2) (be p 2 1) (some (be p 3 1)) (carried (be p 0 2) (be p 2 1) ((p.drop 8).take (be p 4 2)))
      (if guarded then some (p.drop (8 + be p 4 2) == ((p.drop 8).take (be p 4 2)).map fun b => ~~~b) else none) = w) :
    s.agWrite guarded p = ({ status := w.2 }, w.1) := by
  rw [State.agWrite, if_neg (by obtain h | h := h <;> simp [h]), if_neg (by simpa using hl), ← hw]

/-- WRITE and GUARDED_WRITE are one command over the flag. -/
theorem exec_agxWrite (g : Bool) (dg : Datagram) (s : State) : exec (if g then .agxGuardedWrite dg else .agxWrite dg) s
    = .next (s.agReceive dg (if g then 0x13 else 0x12) fun s => s.agSession dg true (fun s _ _ => s.agWrite g dg.payload) false) := by
  cases g <;> rfl

end

/-- Settles O9: each request's effect by the cases of its payload, heard in order. -/
theorem agrexDictionaryRequestsAnswered : Obligations.AgrexDictionaryRequestsAnswered := by
  intro s dg x hq
  refine ⟨fun h => ⟨fun hl => ?_, ?_⟩, fun h n hn => ⟨fun hm => ?_, fun h0 h32 hl r hr => ?_⟩, fun g h => ⟨fun ho => ?_, fun ho => ?_⟩⟩
  · exact State.agReceive_answers (a := { status := agType }) h hq (.inl rfl) (State.agRead_length hl)
  · rintro idx sub hl rfl rfl
    refine ⟨fun hb hs => ?_, fun hs g v hr => ⟨fun hg => ?_, fun hg => ?_⟩⟩
    · exact State.agReceive_answers (a := { status := agDenied }) h hq (.inl rfl)
        (State.agRead_refused hl (State.agReadOne_barred (s := s.heard x) ⟨hb, hs⟩) (by decide))
    · exact State.agReceive_answers (a := { status := agOk, flags := _, payload := _ }) h hq (.inl rfl)
        (State.agRead_ok hl ((State.agReadOne_served (s := s.heard x) hs).trans hr) hg)
    · exact State.agReceive_answers (a := { status := g.status }) h hq (.inl rfl)
        (State.agRead_refused hl ((State.agReadOne_served (s := s.heard x) hs).trans hr) hg)
  · subst hn
    exact State.agReceive_answers (a := { status := agType }) h hq (.inl rfl) (State.agReadMulti_malformed hm)
  · subst hn
    have hread := State.agReadMulti_wellFormed h0 h32 hl hr
    refine ⟨fun hle => ?_, fun hlt => ?_⟩
    · exact State.agReceive_answers (a := { status := agOk, flags := _, payload := _ }) h hq (.inl rfl)
        (hread.trans (if_neg (Nat.not_lt.2 hle)))
    · exact State.agReceive_answers (a := { status := agLarge }) h hq (.inl rfl) (hread.trans (if_pos hlt))
  · exact (exec_agxWrite g dg s).trans (State.agReceive_notOwner h hq ho)
  · refine ⟨fun hb hs => ?_, ?_⟩
    · exact (exec_agxWrite g dg s).trans (State.agReceive_answers (a := { status := agDenied }) h hq (.inr ho) (State.agWrite_barred ⟨hb, hs⟩))
    · rintro hs n rfl
      refine ⟨fun hl => ?_, ?_⟩
      · exact (exec_agxWrite g dg s).trans (State.agReceive_answers (a := { status := agType }) h hq (.inr ho) (State.agWrite_length hs hl))
      · rintro hl idx sub value rfl rfl rfl w hw
        exact (exec_agxWrite g dg s).trans (State.agReceive_answers (a := { status := w.2 }) h hq (.inr ho) (State.agWrite_served (s := s.heard x) hs hl hw))

/-! ### Requests that are not executed (02 R42, R46, R49) -/

section
variable {s : State} {dg : Datagram} {op : Nat} {x : Session} {roleOwner close : Bool} {f : State → Bool → Nat → Answer × State}

/-- An authenticated request whose SEQ is E − 1 gets the cached response again. -/
theorem State.agSession_resends (h : s.agHears dg op x) (hq : dg.seq ≠ x.expected) (hp : dg.seq = (x.expected + 65535) % 65536)
    {o st fl : Nat} {pl : List Byte} (hc : x.cached = some (o, st, fl, pl)) :
    s.agSession dg roleOwner f close = (s.heard x).reply dg x.key o x.id dg.seq st fl pl := by
  obtain ⟨-, -, -, hx, hi, ht⟩ := h
  have hq' : (dg.seq == x.expected) = false := by simpa using hq
  have hcached : (if (dg.seq == (x.expected + 65535) % 65536) = true then x.cached else none) = some (o, st, fl, pl) := by
    rw [if_pos (by simpa using hp), hc]
  simp only [State.agSession, hx, hi]
  simp only [Bool.false_eq_true, if_false, ht, bne_self_eq_false, hq', hx, hcached]
  rfl

/-- Any other authenticated request out of order gets SEQ_ERROR, and is counted. -/
theorem State.agSession_seqError (h : s.agHears dg op x) (hq : dg.seq ≠ x.expected)
    (hp : dg.seq ≠ (x.expected + 65535) % 65536 ∨ x.cached = none) : s.agSession dg roleOwner f close
      = ((s.heard x).mcBump 0x4012 1 1).reply dg x.key dg.opcode x.id ((x.expected + 65535) % 65536) agSeq 0 [] := by
  obtain ⟨-, -, -, hx, hi, ht⟩ := h
  have hq' : (dg.seq == x.expected) = false := by simpa using hq
  have hcached : (if (dg.seq == (x.expected + 65535) % 65536) = true then x.cached else none) = none := by
    obtain hp | hp := hp <;> simp [hp]
  simp only [State.agSession, hx, hi]
  simp only [Bool.false_eq_true, if_false, ht, bne_self_eq_false, hq', hx, hcached]
  rfl

theorem State.agSession_wrongTag (hx : s.session dg.session = some x) (hi : s.idle x = false) (ht : agTag x.key (dgBytes dg) ≠ dg.tag) :
    s.agSession dg roleOwner f close = s.mcBump 0x4012 0 1 := by
  simp only [State.agSession, hx, hi]
  simp [hx, ht]

theorem State.agSession_noSession (hx : s.session dg.session = none) :
    s.agSession dg roleOwner f close = s.reply dg [] dg.opcode dg.session dg.seq agNoSession 0 [] := by
  simp [State.agSession, hx]

end

/-! ### OPEN and the lapse of a session (02 R49, 15 R517) -/

section
variable {s : State} {dg : Datagram} {key : List Byte}

theorem State.agOpen_emptySlot (h : s.openKey (dg.payload.getD 0 0#8).toNat = none) : s.agOpen dg = s.mcBump 0x4012 0 1 := by
  simp only [State.agOpen, h]

theorem State.agOpen_dropped (h : s.openKey (dg.payload.getD 0 0#8).toNat = some key)
    (hbad : dg.payload.length ≠ 36 ∨ agTag key (dgBytes dg) ≠ dg.tag) : s.agOpen dg = s.mcBump 0x4012 0 1 := by
  simp only [State.agOpen, h]
  exact if_pos (by simpa using hbad)

theorem State.agOpen_full (h : s.openKey (dg.payload.getD 0 0#8).toNat = some key) (hl : dg.payload.length = 36)
    (ht : agTag key (dgBytes dg) = dg.tag) (hfull : s.dv 0x2040 1 ≤ s.sessions.length) : s.agOpen dg = s.reply dg key 1 0 dg.seq agLimit 0 [] := by
  simp only [State.agOpen, h]
  rw [if_neg (by simp [hl, ht]), if_pos hfull]

/-- The device nonce of an OPEN. -/
def State.openNonce (s : State) : List Byte := (List.range 32).map fun i => Config.freeByte s.freeCtr i

/-- The starting SEQ of an OPEN's answer. -/
def State.openSeq (s : State) : Nat := Config.freeNat s.freeCtr % 65536

/-- The session that an OPEN under `key` opens, with the client's nonce. -/
def State.opened (s : State) (key clientNonce : List Byte) : Session :=
  { id := s.nextSession, key := sha3 (key ++ clientNonce ++ s.openNonce ++ beBytes 4 s.nextSession), expected := (s.openSeq + 1) % 65536
    cached := none, lastAt := s.cycle }

theorem State.agOpen_opens (h : s.openKey (dg.payload.getD 0 0#8).toNat = some key) (hl : dg.payload.length = 36)
    (ht : agTag key (dgBytes dg) = dg.tag) (hroom : s.sessions.length < s.dv 0x2040 1) :
    s.agOpen dg = ({ s with sessions := s.sessions ++ [s.opened key (dg.payload.drop 4)], nextSession := (s.nextSession + 1) % 2 ^ 32
                            freeCtr := s.freeCtr + 1 }).reply dg (s.opened key (dg.payload.drop 4)).key 1 s.nextSession s.openSeq agOk 0 s.openNonce := by
  simp only [State.agOpen, h]
  rw [if_neg (by simp [hl, ht]), if_neg (Nat.not_le.2 hroom)]
  rfl

end

theorem State.session_endSession_same (s : State) (id : Nat) : (s.endSession id).session id = none := by
  simp [State.session, State.endSession, List.find?_eq_none]

theorem State.session_endSession_ne (s : State) {id n : Nat} (h : n ≠ id) : (s.endSession id).session n = s.session n := by
  rw [State.session, State.endSession, State.session, List.find?_filter]
  congr 1
  funext x
  have : x.id = n → x.id ≠ id := fun e => e ▸ h
  grind

theorem exec_agxSessionLapse {s : State} {id : Nat} {x : Session} (hx : s.session id = some x)
    (hi : x.lastAt + cycOfMs (s.dv 0x2040 0) ≤ s.cycle) : exec (.agxSessionLapse id) s = .next ((s.endSession id).mcBump 0x4012 2 1) := by
  have hidle : s.idle x = true := decide_eq_true hi
  show execAgxSessionLapse id s = _
  simp only [execAgxSessionLapse, hx, hidle, if_true]
  rfl

theorem exec_agxWrite_received {s : State} {dg : Datagram} (hup : s.mcUp = true) (hw : dgWell dg = true) (hop : dg.opcode = 0x12) :
    exec (.agxWrite dg) s = .next (s.agSession dg true (fun s _ _ => s.agWrite false dg.payload) false) :=
  congrArg Host.Outcome.next (State.agReceive_heard hup hw hop _)

theorem exec_agxOpen_received {s : State} {dg : Datagram} (hup : s.mcUp = true) (hw : dgWell dg = true) (hop : dg.opcode = 1) :
    exec (.agxOpen dg) s = .next (s.agOpen dg) :=
  congrArg Host.Outcome.next (State.agReceive_heard hup hw hop _)

theorem dgWell_retag {dg : Datagram} (hw : dgWell dg = true) {tag : List Byte} (hl : tag.length = 16) : dgWell { dg with tag := tag } = true := by
  simp only [dgWell, Bool.and_eq_true] at hw ⊢
  exact ⟨hw.1, by simpa using hl⟩

/-- Settles O10: requests out of order, with a wrong tag or of no session; OPEN by its cases; the lapse. -/
theorem agrexSessionsAndOrder : Obligations.AgrexSessionsAndOrder := by
  refine ⟨fun s dg x h => ?_, fun s dg hup hw hop => ?_, fun s id x hx hi => ?_⟩
  · obtain ⟨hup, hw, hop, hx, hi, ht⟩ := id h
    refine ⟨fun hq hp o st fl pl hc => ?_, fun hq hp => ?_, fun tag hl hne => ?_, fun n hn => ?_⟩
    · rw [exec_agxWrite_received hup hw hop, State.agSession_resends h hq hp hc]
    · rw [exec_agxWrite_received hup hw hop, State.agSession_seqError h hq hp]; rfl
    · rw [exec_agxWrite_received (dg := { dg with tag := tag }) hup (dgWell_retag hw hl) hop,
        State.agSession_wrongTag (dg := { dg with tag := tag }) hx hi fun e => hne (e.symm.trans ht)]
    · rw [exec_agxWrite_received (dg := { dg with session := n }) hup hw hop, State.agSession_noSession hn]; rfl
  · rw [exec_agxOpen_received hup hw hop]
    refine ⟨fun key hk hl ht => ⟨fun hfull => ?_, fun hroom => ?_⟩, fun hk => ?_, fun key hk hbad => ?_⟩
    · rw [State.agOpen_full hk hl ht hfull]; rfl
    · exact ⟨s.openSeq, Nat.mod_lt _ (by decide), s.openNonce, by simp [State.openNonce], s.opened key (dg.payload.drop 4),
        rfl, rfl, rfl, rfl, rfl, congrArg Host.Outcome.next (State.agOpen_opens hk hl ht hroom)⟩
    · rw [State.agOpen_emptySlot hk]
    · rw [State.agOpen_dropped hk hbad]
  · refine ⟨_, exec_agxSessionLapse hx hi, State.session_endSession_same s id, rfl, ?_, rfl,
      fun n hn => State.session_endSession_ne s hn, fun hwf => ?_⟩
    · show (if s.ownerSession == id then 0 else s.ownerSession) = _
      simp
    · exact State.mcBump_mcv (s := s.endSession id) hwf _ _ _

end Sys2Proof.Machine
end

section
/-! The guard slots as every access meets them, and the local dictionary port (02 R56 to R58, R65 to R67). -/

namespace Sys2Proof.Machine

/-! ### What an intervening access changes (02 R66) -/

/-- `t` is `s` but for registers and guard slots. -/
abbrev guardsFrom (t s : State) : Prop := ∃ regs guards, t = { s with regs := regs, guards := guards }

theorem guardsFrom.refl (s : State) : guardsFrom s s := ⟨_, _, rfl⟩
theorem guardsFrom.trans {u t s : State} (h : guardsFrom u t) (k : guardsFrom t s) : guardsFrom u s := by
  obtain ⟨_, _, rfl⟩ := h; obtain ⟨_, _, rfl⟩ := k; exact ⟨_, _, rfl⟩
theorem regsFrom.guards {t s : State} (h : regsFrom t s) : guardsFrom t s := by obtain ⟨_, rfl⟩ := h; exact ⟨_, _, rfl⟩
theorem State.setGuard_guards (s : State) (ini die : Nat) (g : Option Guard) : guardsFrom (s.setGuard ini die g) s := ⟨_, _, rfl⟩

theorem State.abort_regs (s : State) (ini die reason off : Nat) : regsFrom (s.abort ini die reason off) s :=
  (State.setReg_regs ..).trans ((State.setReg_regs ..).trans (State.bump_regs ..))

theorem State.expire_guards (s : State) (ini die : Nat) (due : Bool) : guardsFrom (s.expire ini die due) s := by
  rw [State.expire]
  split
  · split
    · exact (State.abort_regs ..).guards.trans (State.setGuard_guards ..)
    · exact .refl s
  · exact .refl s

theorem State.intervene_guards (s : State) (ini die : Nat) (off : Option Nat) : guardsFrom (s.intervene ini die off) s := by
  rw [State.intervene]
  split
  · split
    · exact State.expire_guards ..
    · exact (State.abort_regs ..).guards.trans ((State.setGuard_guards ..).trans (State.expire_guards ..))
  · exact State.expire_guards ..

@[simp] theorem State.intervene_dicBank (s : State) (ini die : Nat) (off : Option Nat) (j : Nat) :
    (s.intervene ini die off).dicBank j = s.dicBank j := by
  obtain ⟨_, _, h⟩ := s.intervene_guards ini die off
  rw [h]; rfl

@[simp] theorem State.intervene_cycle (s : State) (ini die : Nat) (off : Option Nat) : (s.intervene ini die off).cycle = s.cycle := by
  obtain ⟨_, _, h⟩ := s.intervene_guards ini die off
  rw [h]

/-! ### A command of the local port (02 R57) -/

section
variable {s u v : State} {ini idx sub : Nat}

theorem State.dicGo_idle (hb : (s.dicBank ini).busy = false) (f : State → DicBank → State) :
    s.dicGo ini f = f (s.intervene ini hubDie none) (s.dicBank ini) := by
  simp [State.dicGo, hb]

theorem State.dicGo_busy (hb : (s.dicBank ini).busy = true) (f : State → DicBank → State) : s.dicGo ini f = s.intervene ini hubDie none := by
  simp [State.dicGo, hb]

theorem exec_dicRead (hh : s.held = false) (hi : idx < 65536) (hs : sub < 256) : exec (.dicRead ini idx sub) s = .next (s.dicReadOp ini idx sub) := by
  show execDicRead ini idx sub s = _
  rw [execDicRead, hh, if_neg Bool.false_ne_true, Nat.mod_eq_of_lt hi, Nat.mod_eq_of_lt hs]

theorem exec_dicWrite (hh : s.held = false) (hi : idx < 65536) (hs : sub < 256) :
    exec (.dicWrite ini idx sub) s = .next (s.dicWriteOp ini idx sub false) := by
  show execDicWrite ini idx sub s = _
  rw [execDicWrite, hh, if_neg Bool.false_ne_true, Nat.mod_eq_of_lt hi, Nat.mod_eq_of_lt hs]

theorem exec_dicGuardedWrite (hh : s.held = false) (hi : idx < 65536) (hs : sub < 256) :
    exec (.dicGuardedWrite ini idx sub) s = .next (s.dicWriteOp ini idx sub true) := by
  show execDicGuardedWrite ini idx sub s = _
  rw [execDicGuardedWrite, hh, if_neg Bool.false_ne_true, Nat.mod_eq_of_lt hi, Nat.mod_eq_of_lt hs]

theorem exec_dicReservedOp (hh : s.held = false) : exec (.dicReservedOp ini) s = .next (s.dicReserved ini) := by
  show execDicReservedOp ini s = _
  rw [execDicReservedOp, hh, if_neg Bool.false_ne_true]

/-! ### OP read -/

/-- An entry that the local port does not read: a WIDE one, but for the broadcast subindex. -/
abbrev mailboxOnly (idx sub : Nat) : Prop := ∃ d, dictFind idx sub = some d ∧ d.ty = .wide ∧ ¬(d.broad = true ∧ sub = 255)

/-- OP read by its three outcomes. -/
theorem State.dicReadOp_idle (hb : (s.dicBank ini).busy = false) {g : Got} (hr : (s.intervene ini hubDie none).dictRead idx sub true = (g, v)) :
    (mailboxOnly idx sub → s.dicReadOp ini idx sub = (s.intervene ini hubDie none).dicStart ini agType 0 false none) ∧
    (¬ mailboxOnly idx sub → g.status ≠ 0 → s.dicReadOp ini idx sub = (s.intervene ini hubDie none).dicStart ini g.status 0 false none) ∧
    (¬ mailboxOnly idx sub → g.status = 0 →
      s.dicReadOp ini idx sub = v.dicStart ini agOk g.len g.stale (some (g.val, g.ty == 8 || g.ty == 9))) := by
  rw [State.dicReadOp, State.dicGo_idle hb, hr]
  have hwide : mailboxOnly idx sub ↔ ((match dictFind idx sub with | some d => d.ty == .wide | none => false)
      && !(match dictFind idx sub with | some d => d.broad && sub == 0xFF | none => false)) = true := by
    cases hd : dictFind idx sub with
    | none => simp [mailboxOnly, hd]
    | some d => cases hbr : d.broad <;> simp [mailboxOnly, hd, hbr]
  refine ⟨fun hw => ?_, fun hw hg => ?_, fun hw hg => ?_⟩
  · exact if_pos (hwide.1 hw)
  · exact (if_neg (mt hwide.2 hw)).trans (if_pos (by simpa [agOk] using hg))
  · exact (if_neg (mt hwide.2 hw)).trans (if_neg (by simpa [agOk] using hg))

/-! ### OP write and guarded write -/

theorem leNat_leBytes (n x : Nat) : leNat (leBytes n x) = x % 2 ^ (8 * n) := by
  induction n generalizing x with
  | zero => simp [leBytes, leNat, Nat.mod_one]
  | succ n ih =>
    have hpow : 2 ^ (8 * (n + 1)) = 256 * 2 ^ (8 * n) := by rw [Nat.mul_succ, Nat.pow_add, Nat.mul_comm]
    rw [leBytes, leNat, ih, hpow, Nat.mod_mul]
    simp

/-- The complement that goes with `n` bytes. -/
theorem compl_leNat_leBytes (n x : Nat) : compl (8 * n) (leNat (leBytes n x)) = 2 ^ (8 * n) - 1 - leNat (leBytes n x) := by
  rw [compl, leNat_leBytes, Nat.mod_mod]

/-- STR and BLOB values go through MGT_DIC_BUF. -/
abbrev DEntry.bytes (d : DEntry) : Prop := d.ty = .blob ∨ d.ty = .str

theorem DicBank.value_number (b : DicBank) {d : DEntry} (h : ¬ d.bytes) : b.value (some d) = leBytes d.len b.data.toNat := by
  have h' : (d.ty == .blob || d.ty == .str) = false := by simpa using h
  simp [DicBank.value, h']

theorem DicBank.value_bytes (b : DicBank) {d : DEntry} (h : d.bytes) (hn : b.data.toNat % 65536 ≤ 256) :
    b.value (some d) = leBytes (b.data.toNat % 65536) b.buf := by
  have h' : (d.ty == .blob || d.ty == .str) = true := by simpa using h
  simp only [DicBank.value, h', if_true]
  rw [Nat.min_eq_right (by omega)]

/-- How a write of the local port shows its outcome: the status, and the length where it was taken. -/
def State.dicWrote (w : State × Nat) (ini len : Nat) : State := w.1.dicStart ini w.2 (if w.2 = 0 then len else 0) false none

theorem State.dicWriteOp_plain (hb : (s.dicBank ini).busy = false) : s.dicWriteOp ini idx sub false
    = State.dicWrote ((s.intervene ini hubDie none).dictWrite ini false idx sub none ((s.dicBank ini).value (dictFind idx sub)) none) ini
      ((s.dicBank ini).value (dictFind idx sub)).length := by
  rw [State.dicWriteOp, State.dicGo_idle hb]
  simp [State.dicWrote, agOk]

theorem State.dicWriteOp_noObject (hb : (s.dicBank ini).busy = false) (hd : dictFind idx sub = none) (guarded : Bool) :
    s.dicWriteOp ini idx sub guarded = (s.intervene ini hubDie none).dicStart ini agNoObject 0 false none := by
  rw [State.dicWriteOp, State.dicGo_idle hb]
  simp [hd, State.dictWrite, agNoObject, agOk]

variable {d : DEntry}

theorem State.dicWriteOp_guardedNumber (hb : (s.dicBank ini).busy = false) (hd : dictFind idx sub = some d) (h : ¬ d.bytes)
    {data : List Byte} (hv : (s.dicBank ini).value (some d) = data) : s.dicWriteOp ini idx sub true
      = State.dicWrote ((s.intervene ini hubDie none).dictWrite ini false idx sub none data
          (some ((s.dicBank ini).guard.toNat % 2 ^ (8 * data.length) == compl (8 * data.length) (leNat data)))) ini data.length := by
  have h' : (d.ty == .blob || d.ty == .str) = false := by simpa using h
  rw [State.dicWriteOp, State.dicGo_idle hb]
  simp [hd, h', hv, State.dicWrote, agOk]

theorem State.dicWriteOp_guardedBytes (hb : (s.dicBank ini).busy = false) (hd : dictFind idx sub = some d) (h : d.bytes)
    (hn : (s.dicBank ini).data.toNat % 65536 ≤ 128) {data : List Byte} (hv : (s.dicBank ini).value (some d) = data) :
    s.dicWriteOp ini idx sub true
      = State.dicWrote ((s.intervene ini hubDie none).dictWrite ini false idx sub none data
          (some (fld (s.dicBank ini).buf 0x80 data.length == compl (8 * data.length) (leNat data)))) ini data.length := by
  have h' : (d.ty == .blob || d.ty == .str) = true := by simpa using h
  rw [State.dicWriteOp, State.dicGo_idle hb]
  simp [hd, h', hv, State.dicWrote, agOk, Nat.not_lt.2 hn]

theorem State.dicWriteOp_guardedLarge (hb : (s.dicBank ini).busy = false) (hd : dictFind idx sub = some d) (h : d.bytes)
    (hn : 128 < (s.dicBank ini).data.toNat % 65536) :
    s.dicWriteOp ini idx sub true = (s.intervene ini hubDie none).dicStart ini agLarge 0 false none := by
  have h' : (d.ty == .blob || d.ty == .str) = true := by simpa using h
  rw [State.dicWriteOp, State.dicGo_idle hb]
  simp [hd, h', hn]

/-! ### The end of a command (02 R58) -/

theorem exec_dicCmdDone_idle (hb : (s.dicBank ini).busy = false) : exec (.dicCmdDone ini) s = .next s := by
  show execDicCmdDone ini s = _
  simp [execDicCmdDone, hb]

/-- The bank with the value read at its place. -/
def DicBank.shown (b : DicBank) : DicBank :=
  match b.pendValue with
  | some (v, true) => { b with buf := v % 2 ^ 2048 }
  | some (v, false) => { b with data := BitVec.ofNat 64 v }
  | none => b

/-- The bank as a command that ends leaves it. -/
def DicBank.ended (b : DicBank) : DicBank :=
  { b.shown with done := true, busy := false, stale := b.pendStale, status := b.pendStatus, length := b.pendLength
                 pendStatus := 0, pendLength := 0, pendStale := false, pendValue := none }

theorem exec_dicCmdDone_busy (hb : (s.dicBank ini).busy = true) : exec (.dicCmdDone ini) s = .next (s.setDic ini (s.dicBank ini).ended) := by
  show execDicCmdDone ini s = _
  simp only [execDicCmdDone, hb, DicBank.ended, DicBank.shown]
  cases h : (s.dicBank ini).pendValue with
  | none => rfl
  | some w =>
    obtain ⟨v, inBuf⟩ := w
    cases inBuf <;> rfl

theorem DicBank.ended_data (b : DicBank) : b.ended.data = (match b.pendValue with
    | some (v, false) => BitVec.ofNat 64 v
    | _ => b.data) := by
  rw [DicBank.ended, DicBank.shown]
  rcases b.pendValue with _ | ⟨v, _ | _⟩ <;> rfl

theorem DicBank.ended_buf (b : DicBank) : b.ended.buf = (match b.pendValue with
    | some (v, true) => v % 2 ^ 2048
    | _ => b.buf) := by
  rw [DicBank.ended, DicBank.shown]
  rcases b.pendValue with _ | ⟨v, _ | _⟩ <;> rfl

end

/-- Settles O11: each operation by the cases of its entry while the port is idle, ignored while it is busy; and the end of a command. -/
theorem localPortCommandsBeginAndEnd : Obligations.LocalPortCommandsBeginAndEnd := by
  rintro s _ _ ini idx sub hh hi hs rfl rfl
  refine ⟨fun hb => ⟨fun g v wide hr hw => ?_, fun hd => ?_, ?_, ?_, exec_dicCmdDone_idle hb⟩, fun hb => ?_⟩
  · obtain ⟨hbar, hrefused, hread⟩ := State.dicReadOp_idle hb hr
    rw [exec_dicRead hh hi hs]
    refine ⟨fun h => ?_, fun h hg => ?_, fun h hg => ?_⟩
    · exact congrArg Host.Outcome.next (hbar (hw.1 h))
    · exact congrArg Host.Outcome.next (hrefused (mt hw.2 (by simp [h])) hg)
    · exact congrArg Host.Outcome.next (hread (mt hw.2 (by simp [h])) hg)
  · rw [exec_dicWrite hh hi hs, exec_dicGuardedWrite hh hi hs, State.dicWriteOp_noObject hb hd, State.dicWriteOp_noObject hb hd]
    exact ⟨rfl, rfl⟩
  · rintro d hd data _ rfl hdata
    have hv : (s.dicBank ini).value (some d) = data := by
      rcases hdata with ⟨h1, h2, rfl⟩ | ⟨h, hn, rfl⟩
      · exact DicBank.value_number _ (by simp [h1, h2])
      · exact DicBank.value_bytes _ h hn
    rw [exec_dicWrite hh hi hs, exec_dicGuardedWrite hh hi hs]
    refine ⟨?_, fun h1 h2 => ?_, fun h => ⟨fun hn => ?_, fun hn => ?_⟩⟩
    · rintro _ rfl
      rw [State.dicWriteOp_plain hb, hd, hv]; rfl
    · rintro _ rfl
      obtain rfl : data = leBytes d.len (s.dicBank ini).data.toNat := by rw [← hv, DicBank.value_number _ (by simp [h1, h2])]
      rw [State.dicWriteOp_guardedNumber hb hd (by simp [h1, h2]) hv, leBytes_length, compl_leNat_leBytes, leNat_leBytes]; rfl
    · rw [State.dicWriteOp_guardedLarge hb hd h hn]; rfl
    · rintro _ rfl
      obtain rfl : data = leBytes ((s.dicBank ini).data.toNat % 65536) (s.dicBank ini).buf := by
        rw [← hv, DicBank.value_bytes _ h (by omega)]
      rw [State.dicWriteOp_guardedBytes hb hd h hn hv, leBytes_length, compl_leNat_leBytes]; rfl
  · rw [exec_dicReservedOp hh, State.dicReserved, State.dicGo_idle hb]; rfl
  · refine ⟨?_, ?_, ?_, ?_, fun hwf => ⟨_, exec_dicCmdDone_busy hb, rfl, ?_⟩⟩
    · rw [exec_dicRead hh hi hs, State.dicReadOp, State.dicGo_busy hb]; rfl
    · rw [exec_dicWrite hh hi hs, State.dicWriteOp, State.dicGo_busy hb]; rfl
    · rw [exec_dicGuardedWrite hh hi hs, State.dicWriteOp, State.dicGo_busy hb]; rfl
    · rw [exec_dicReservedOp hh, State.dicReserved, State.dicGo_busy hb]; rfl
    · rw [State.dicBank_setDic_same hwf]
      exact ⟨rfl, rfl, rfl, rfl, rfl, DicBank.ended_data _, DicBank.ended_buf _, fun j hj => State.dicBank_setDic_ne hwf _ _ _ hj⟩

end Sys2Proof.Machine
end

section
/-! A dictionary write that is refused (02 R39; 15 R504): OWNER_DIGEST, once written, is denied before the checks of the value. -/

namespace Sys2Proof.Machine

/-- The row of OWNER_DIGEST. -/
def ownerDigestEntry : DEntry := ⟨0x8002, 1, 0, 1, .blob, 32, .gw, 0, .any, .live, .view, .plain⟩

theorem dictFind_ownerDigest : dictFind 0x8002 0 = some ownerDigestEntry := by decide

/-- A second write of OWNER_DIGEST is denied, whatever it carries. -/
theorem State.dictWrite_ownerDigest_denied {s : State} (h : s.boot.ownerDigest.isSome = true) (ini : Nat) (data : List Byte) (comp : Option Bool) :
    s.dictWrite ini false 0x8002 0 none data comp = (s, agDenied) := by
  simp [State.dictWrite, dictFind_ownerDigest, h]

/-- A part right after reset whose OWNER_DIGEST is written. -/
def ownedPart : State := { State.reset with boot := { State.reset.boot with ownerDigest := some (List.replicate 32 1#8) } }

/-- Refutes O12: on `ownedPart` a write of no bytes to OWNER_DIGEST answers 0x41, not the 0x42 of its wrong length. -/
theorem not_refusedDictionaryWriteChangesNothing : ¬ Obligations.RefusedDictionaryWriteChangesNothing := by
  intro h
  have hdenied : ownedPart.dictWrite 0 false 0x8002 0 none [] none = (ownedPart, 0x41) := State.dictWrite_ownerDigest_denied rfl 0 [] none
  have hlength : ownedPart.dictWrite 0 false 0x8002 0 none [] none = (ownedPart, 0x42) :=
    (((h ownedPart 0 0x8002 0 [] none).2 _ dictFind_ownerDigest).2 (by decide) (by decide)).1 (by decide)
  exact absurd (congrArg Prod.snd (hdenied.symm.trans hlength)) (by decide)

end Sys2Proof.Machine
end

section
/-! Stores in the register space: where an address lies, what a store of bits of a word changes, and what an abort of a guarded write
leaves alone (02 R59 to R62, R66, R75). -/

namespace Sys2Proof.Machine

/-! ### Addresses (02 R59, R60) -/

section
variable {die off : Nat}

theorem busAddr_bounds (hd : die ≤ 4) (ho : off < 0x40000000) : busAddr die off < 2 ^ 44 := by
  unfold busAddr; split <;> omega

theorem busPlace_busAddr (hd : die ≤ 4) (ho : off < 0x40000000) : busPlace (busAddr die off) = some (die, off) := by
  unfold busPlace busAddr
  simp only [Bool.and_eq_true, decide_eq_true_eq]
  by_cases h4 : die = 4
  · subst h4
    rw [if_pos rfl, if_pos (by omega), if_pos (by omega), Nat.add_sub_cancel_left]
  · have hdie : (0x4000000000 + die * 0x40000000 + off - 0x4000000000) / 0x40000000 = die := by omega
    have hoff : (0x4000000000 + die * 0x40000000 + off - 0x4000000000) % 0x40000000 = off := by omega
    rw [if_neg h4, if_neg (by omega), if_pos (by omega), hdie, hoff]

theorem coreAlias_busAddr (ini : Nat) (hd : die ≤ 4) (ho : off < 0x40000000) : coreAlias ini (busAddr die off) = none := by
  have := busAddr_bounds hd ho
  exact if_neg (by simp; omega)

theorem busOk_busAddr (h4 : off % 4 = 0) : busOk (busAddr die off) 4 = true := by
  unfold busOk busAddr
  split <;> simp <;> omega

end

/-! ### Stores by window (02 R59, R62, R65, R68) -/

section
variable {s : State} {ini die off v : Nat}

theorem State.busStore_word (hh : s.held = false) (hd : die ≤ 4) (ho : off < 0x40000000) (h4 : off % 4 = 0) :
    s.busStore ini (busAddr die off) 4 v = if 0x20000000 ≤ off then s.aliasWrite ini die off (v % 2 ^ 32)
      else if 0x10000000 ≤ off then (if off < 0x11000000 then s.guardWrite ini die (off - 0x10000000) 4 v else s.intervene ini die none)
      else if banked die off then s.bankStore ini die off (v % 2 ^ 32) else s.regStore ini die off 4 v := by
  simp [State.busStore, hh, coreAlias_busAddr ini hd ho, busPlace_busAddr hd ho, busOk_busAddr h4]

theorem State.busStore_register (hh : s.held = false) (hd : die ≤ 4) (ho : off < 0x10000000) (h4 : off % 4 = 0) (hb : banked die off = false) :
    s.busStore ini (busAddr die off) 4 v = s.regStore ini die off 4 v := by
  rw [State.busStore_word hh hd (by omega) h4, if_neg (by omega), if_neg (by omega), hb, if_neg Bool.false_ne_true]

theorem State.busStore_mirror (hh : s.held = false) (hd : die ≤ 4) (ho : off < 0x1000000) (h4 : off % 4 = 0) :
    s.busStore ini (busAddr die (0x10000000 + off)) 4 v = s.guardWrite ini die off 4 v := by
  rw [State.busStore_word hh hd (by omega) (by omega), if_neg (by omega), if_pos (by omega), if_pos (by omega), Nat.add_sub_cancel_left]

/-- Each bit of a register has its word in the window of 02 R68. -/
theorem aliasOf_word {b : Nat} (hb : b < 32) (h4 : off % 4 = 0) : aliasOf (0x20000000 + off * 32 + b * 4) = (off, b) := by
  unfold aliasOf
  congr 1 <;> omega

theorem State.busStore_alias {b : Nat} (hh : s.held = false) (hd : die ≤ 4) (ho : off * 32 + b * 4 < 0x20000000) :
    s.busStore ini (busAddr die (0x20000000 + off * 32 + b * 4)) 4 v = s.aliasWrite ini die (0x20000000 + off * 32 + b * 4) (v % 2 ^ 32) := by
  rw [State.busStore_word hh hd (by omega) (by omega), if_pos (by omega)]

end

/-! ### A store of bits of one word (02 R62, R75) -/

section
variable {s : State} {ini die off m v i e : Nat} {d : RegDef}

theorem State.storeCommand_none {r : Reg} (h : [Reg.sqTail, .cqHead, .ateRingTail, .trkCfg, .cltSig, .cltDec, .cltSet, .cltArm, .stepCmd,
    .laySet, .errClear, .pwrClass, .pwrRamp, .fabPortCfg].contains r = false) (w x : Nat) : s.storeCommand ini r i e w x = none := by
  unfold State.storeCommand
  split <;> simp at h ⊢

theorem normWord_of_ne {r : Reg} (h : [Reg.trkInit, .sqCfg, .cqCfg, .ateRingCfg].contains r = false) (old x : Nat) : normWord r old x = x := by
  unfold normWord
  split <;> simp at h ⊢

theorem State.idleHit_of_not_busy (hr : regAt die off = some (d, i, e)) (hb : s.regBusy d.name i e = false) : s.idleHit die off m = false := by
  simp [State.idleHit, hr, hb]

theorem State.idleHit_of_not_writable (hr : regAt die off = some (d, i, e)) (hm : d.writable e m = 0#32) : s.idleHit die off m = false := by
  simp [State.idleHit, hr, hm]

/-- A store whose bits the register does not let change changes nothing. -/
theorem State.storeBits_not_writable (hr : regAt die off = some (d, i, e)) (hm : d.writable e m = 0#32) : s.storeBits ini die off m v = s := by
  simp [State.storeBits, State.idleHit_of_not_writable hr hm, State.storeOpen, hr, hm]

/-- A store to a plain word puts the bits it may change there, and nothing else. -/
theorem State.storeBits_plain (hr : regAt die off = some (d, i, e)) (hp : plainWord d i e) (hb : s.regBusy d.name i e = false)
    (hm : d.writable e m ≠ 0#32) : s.storeBits ini die off m v
      = s.setReg d.name i e ((s.reg d.name i e &&& ~~~d.writable e m) ||| (BitVec.ofNat 32 v &&& d.writable e m)) := by
  obtain ⟨hhome, hname⟩ := hp
  have hidle := State.idleHit_of_not_busy (m := m) hr hb
  have hlay : (d.name == Reg.layCfg) = false := by simp at hname ⊢; tauto
  have hring : (d.name == Reg.ateRingCfg) = false := by simp at hname ⊢; tauto
  have hnorm := normWord_of_ne (r := d.name) (by simp at hname ⊢; tauto)
  have hcmd := State.storeCommand_none (s := s) (ini := ini) (i := i) (e := e) (r := d.name) (by simp at hname ⊢; tauto)
  have hm' : (d.writable e m == 0#32) = false := by simpa using hm
  simp only [State.storeBits, hidle, State.storeOpen, hr, hm', hcmd, hnorm, hlay, hring, hhome, List.filter_nil, List.foldl_nil,
    BitVec.ofNat_toNat, BitVec.setWidth_eq, Bool.false_eq_true, if_false]

end

/-! ### What an abort and an access of another place leave alone (02 R66) -/

section
variable {α : Type} {dflt : Nat → α} {i j k : Nat}

theorem tget_tdel_of_lt (m : Sparse α) (h : k < i) : tget dflt (tdel m k) i = tget dflt m i := by
  induction m with
  | nil => rfl
  | cons e m ih =>
    obtain ⟨a, w⟩ := e
    rw [tdel]
    split
    next ha => rw [tget, if_neg (by omega), if_neg (by omega)]
    next ha =>
      split
      next => rfl
      next => simp only [tget, ih]

/-- Under an entry just put, a deletion above it hides no more than before: keys outside the two read as they did, canonical or not. -/
theorem tget_tdel_tput (m : Sparse α) (v : α) (hjk : j < k) (hi : i < j ∨ k < i) :
    tget dflt (tdel (tput m j v) k) i = tget dflt (tput m j v) i := by
  obtain hi | hi := hi
  · induction m with
    | nil => simp [tput, tdel, tget, hjk.not_gt, hjk.ne', hi.ne, hi]
    | cons e m ih =>
      obtain ⟨a, w⟩ := e
      rw [tput]
      split
      next ha => subst ha; simp [tdel, tget, hjk.not_gt, hjk.ne', hi.ne, hi]
      next ha =>
        split
        next => simp [tdel, tget, hjk.not_gt, hjk.ne', hi.ne, hi]
        next hlt => rw [tdel, if_neg (by omega), if_neg (by omega), tget, tget, ih]
  · exact tget_tdel_of_lt _ hi

variable [DecidableEq α]

theorem tset_eq_tput (m : Sparse α) {v : α} (h : v ≠ dflt k) : tset dflt m k v = tput m k v := if_neg h

/-- Writes at two keys, the lower one not of its default, leave the keys outside the two as they read, canonical or not. -/
theorem tget_tset_tput (m : Sparse α) (v w : α) (hjk : j < k) (hi : i < j ∨ k < i) :
    tget dflt (tset dflt (tput m j v) k w) i = tget dflt m i := by
  have hput : tget dflt (tput m j v) i = tget dflt m i := tget_tput_ne m v (by omega)
  rw [tset]
  split
  · rw [tget_tdel_tput m v hjk hi, hput]
  · rw [tget_tput_ne _ w (by omega), hput]

end

theorem countUp_one_toNat (x : Word) : (countUp x 1).toNat = min (x.toNat + 1) 0xFFFFFFFF := by
  have := x.isLt
  rw [countUp, sat32, BitVec.toNat_ofNat]
  omega

section
variable {s : State} {ini die reason off : Nat}

/-- The key of a register of the management block, by its place in the block. -/
theorem regKey_mgtB {r : Reg} (hb : (regDef r).blk = .mgtB) (die : Nat) :
    regKey r die 0 = die * 2 ^ 28 + (0x10000 + (regDef r).off) / 4 := by
  simp [regKey, regPlace, hb, blkBase, offKey]

theorem regKey_mgtGuardLast (die : Nat) : regKey .mgtGuardLast die 0 = die * 2 ^ 28 + 0x4204 := regKey_mgtB (by decide) die
theorem regKey_mgtGuardInit (die : Nat) : regKey .mgtGuardInit die 0 = die * 2 ^ 28 + 0x4205 := regKey_mgtB (by decide) die
theorem regKey_mgtGuardCnt (die : Nat) : regKey .mgtGuardCnt die 0 = die * 2 ^ 28 + 0x4206 := regKey_mgtB (by decide) die

theorem regKey_memMap (k : Nat) : regKey .memMap k 0 = k / 4 * 2 ^ 28 + (0x40000 + k % 4 * 0x20000 + (regDef .memMap).off) / 4 := by
  have hb : (regDef .memMap).blk = .memB := by decide
  simp [regKey, regPlace, hb, blkBase, stackDie, offKey]

theorem regReset_mgtGuardLast : ∀ die ≤ 4, regReset (die * 2 ^ 28 + 0x4204) = 0#32 := by decide +kernel
theorem regReset_mgtGuardCnt : ∀ die ≤ 4, regReset (die * 2 ^ 28 + 0x4206) = 0#32 := by decide +kernel

/-- An abort writes the three words of its die's guard record, and leaves every other register as it reads, in any state. -/
theorem State.regK_abort (hd : die ≤ 4) (hr : reason % 8 ≠ 0) {k : Nat} (hk : k < die * 2 ^ 28 + 0x4204 ∨ die * 2 ^ 28 + 0x4206 < k) :
    (s.abort ini die reason off).regK k = s.regK k := by
  have hcnt : countUp (s.reg .mgtGuardCnt die) 1 ≠ regReset (regKey .mgtGuardCnt die 0) := by
    rw [regKey_mgtGuardCnt, regReset_mgtGuardCnt die hd]
    intro h
    have := countUp_one_toNat (s.reg .mgtGuardCnt die)
    rw [h, BitVec.toNat_zero] at this
    omega
  have hlast : BitVec.ofNat 32 (reason % 8 * 2 ^ 29 + off % 2 ^ 24) ≠ regReset (regKey .mgtGuardLast die 0) := by
    rw [regKey_mgtGuardLast, regReset_mgtGuardLast die hd]
    intro h
    have := congrArg BitVec.toNat h
    rw [BitVec.toNat_ofNat, BitVec.toNat_zero] at this
    omega
  have hlt : regKey .mgtGuardLast die 0 < regKey .mgtGuardInit die 0 := by rw [regKey_mgtGuardLast, regKey_mgtGuardInit]; omega
  have hout : k < regKey .mgtGuardLast die 0 ∨ regKey .mgtGuardInit die 0 < k := by
    rw [regKey_mgtGuardLast, regKey_mgtGuardInit]; exact hk.imp_right Nat.lt_of_succ_lt
  have hne : k ≠ regKey .mgtGuardCnt die 0 := by rw [regKey_mgtGuardCnt]; omega
  simp only [State.abort, State.bump, State.setReg, State.setRegK, State.regK]
  rw [tset_eq_tput s.regs hcnt, tset_eq_tput _ hlast, tget_tset_tput _ _ _ hlt hout, tget_tput_ne _ _ hne]

theorem State.localBytes_abort (hd : die ≤ 4) (hr : reason % 8 ≠ 0) (k : Nat) : (s.abort ini die reason off).localBytes k = s.localBytes k := by
  have hoff : (regDef .memMap).off = 8 := by decide
  rw [State.localBytes, State.localBytes, State.reg, State.reg, State.regK_abort hd hr (by rw [regKey_memMap, hoff]; omega)]

theorem State.localBytes_expire (hd : die ≤ 4) (due : Bool) (k : Nat) : (s.expire ini die due).localBytes k = s.localBytes k := by
  rw [State.expire]
  split
  · split
    · exact State.localBytes_abort hd (by decide) k
    · rfl
  · rfl

theorem State.localBytes_intervene (hd : die ≤ 4) (o : Option Nat) (k : Nat) : (s.intervene ini die o).localBytes k = s.localBytes k := by
  rw [State.intervene]
  split
  · split
    · exact State.localBytes_expire hd _ k
    · exact (State.localBytes_abort hd (by decide) k).trans (State.localBytes_expire hd _ k)
  · exact State.localBytes_expire hd _ k

end

/-! ### Whether a block runs (02 R75) -/

section
variable {s t : State}

/-- A byte of memory is where the map puts it: registers and guard slots count for LOCAL_GIB alone. -/
theorem guardsFrom.rdByte (h : guardsFrom t s) (hl : ∀ k, t.localBytes k = s.localBytes k) (a : Nat) : t.rdByte a = s.rdByte a := by
  obtain ⟨regs, guards, rfl⟩ := h
  have hplace : ({ s with regs := regs, guards := guards } : State).place a = s.place a := by
    simp only [State.place, hl]; rfl
  rw [State.rdByte, hplace]; rfl

theorem guardsFrom.isReeve (h : guardsFrom t s) (hl : ∀ k, t.localBytes k = s.localBytes k) (x : Item) : t.isReeve x = s.isReeve x := by
  simp only [State.isReeve, State.strm, State.hdr, State.listEntry, State.iw, State.ibs, State.ib, h.rdByte hl]

theorem guardsFrom.regBusy (h : guardsFrom t s) (hl : ∀ k, t.localBytes k = s.localBytes k) (r : Reg) (i e : Nat) :
    t.regBusy r i e = s.regBusy r i e := by
  have hreeve : t.isReeve = s.isReeve := funext (h.isReeve hl)
  obtain ⟨regs, guards, rfl⟩ := h
  have hate : ({ s with regs := regs, guards := guards } : State).ateBusy i = s.ateBusy i := by
    simp only [State.ateBusy, hreeve]; rfl
  unfold State.regBusy
  rw [hate]
  rfl

theorem State.regBusy_intervene {ini die : Nat} (hd : die ≤ 4) (o : Option Nat) (r : Reg) (i e : Nat) :
    (s.intervene ini die o).regBusy r i e = s.regBusy r i e :=
  (s.intervene_guards ini die o).regBusy (State.localBytes_intervene hd o) r i e

end

end Sys2Proof.Machine
end

section
/-! Guarded writes, loads, and the words that reach one bit of a register (02 R62 to R68). -/

namespace Sys2Proof.Machine

/-! ### The guard slot of a store (02 R65, R66) -/

section
variable {s : State} {ini die off v : Nat} {o : Option Nat} {g : Guard}

theorem State.intervene_unarmed (h : s.guardOf ini die = none) : s.intervene ini die o = s := by
  simp [State.intervene, State.expire, h]

/-- A slot still in its 512 cycles, met by an access of its own place, stays armed. -/
theorem State.intervene_armed (h : s.guardOf ini die = some g) (ht : s.cycle ≤ g.at' + 512) : s.intervene ini die (some g.off) = s := by
  have hlive : ¬ g.at' + 512 < s.cycle + b2n false := Nat.not_lt.2 ht
  simp [State.intervene, State.expire, h, hlive]

theorem State.expire_due (h : s.guardOf ini die = some g) (ht : g.at' + 512 ≤ s.cycle) :
    s.expire ini die true = (s.setGuard ini die none).abort ini die 1 g.off := by
  have hdue : g.at' + 512 < s.cycle + b2n true := Nat.lt_succ_of_le ht
  simp [State.expire, h, hdue]

theorem State.guardPass_plain (h0 : gwAt die off = 0) : s.guardPass ini die off 4 v = (false, s.intervene ini die (some off)) := by
  simp [State.guardPass, h0]

variable (h0 : gwAt die off ≠ 0)
include h0

/-- A store to a guarded place whose slot is armed for it: it passes with the right complement, and aborts without. -/
theorem State.guardPass_armed (h : s.guardOf ini die = some g) (hoff : g.off = off) (hw : g.width = 4) (ht : s.cycle ≤ g.at' + 512) :
    s.guardPass ini die off 4 v = if g.comp = compl 32 v then (true, s.setGuard ini die none)
      else (false, (s.setGuard ini die none).abort ini die 2 off) := by
  subst hoff
  rw [State.guardPass, State.intervene_armed h ht, if_neg (by simp [h0]), h]
  simp [hw]

theorem State.guardPass_unarmed (h : s.guardOf ini die = none) : s.guardPass ini die off 4 v = (false, s.abort ini die 5 off) := by
  rw [State.guardPass, State.intervene_unarmed h, if_neg (by simp [h0]), h]

theorem State.guardWrite_arms (hb : banked die off = false) : s.guardWrite ini die off 4 v
    = (s.intervene ini die none).setGuard ini die (some ⟨off, v % 2 ^ 32, 4, s.cycle⟩) := by
  rw [State.guardWrite, if_neg (by simp [h0, hb]), State.intervene_cycle]

end

theorem State.regStore_word (s : State) (ini die off : Nat) {v : Nat} (hv : v < 2 ^ 32) : s.regStore ini die off 4 v
    = (s.guardPass ini die off 4 v).2.storeBits ini die off (storeMask die off (s.guardPass ini die off 4 v).1) v := by
  rw [State.regStore, Nat.mod_eq_of_lt hv]; rfl

/-! ### The record of an abort (02 R66) -/

theorem State.abort_record {s : State} (hwf : s.wf = true) (ini : Nat) {die off reason : Nat} (ho : off < 2 ^ 24) (hr : reason < 8) :
    ((s.abort ini die reason off).reg .mgtGuardCnt die).toNat = min ((s.reg .mgtGuardCnt die).toNat + 1) 0xFFFFFFFF ∧
      ((s.abort ini die reason off).reg .mgtGuardLast die).toNat = reason * 2 ^ 29 + off ∧
      ((s.abort ini die reason off).reg .mgtGuardInit die).toNat = ini % 64 := by
  have hcl : regKey .mgtGuardCnt die 0 ≠ regKey .mgtGuardLast die 0 := by rw [regKey_mgtGuardCnt, regKey_mgtGuardLast]; omega
  have hci : regKey .mgtGuardCnt die 0 ≠ regKey .mgtGuardInit die 0 := by rw [regKey_mgtGuardCnt, regKey_mgtGuardInit]; omega
  have hli : regKey .mgtGuardLast die 0 ≠ regKey .mgtGuardInit die 0 := by rw [regKey_mgtGuardLast, regKey_mgtGuardInit]; omega
  have hwf1 := State.bump_wf hwf .mgtGuardCnt die 0 1
  have hwf2 := State.setReg_wf hwf1 .mgtGuardLast die 0 (BitVec.ofNat 32 (reason % 8 * 2 ^ 29 + off % 2 ^ 24))
  rw [State.abort]
  refine ⟨?_, ?_, ?_⟩
  · rw [State.reg_setReg_ne hwf2 _ _ _ _ _ _ _ hci, State.reg_setReg_ne hwf1 _ _ _ _ _ _ _ hcl, State.bump, State.reg_setReg_same hwf,
      countUp_one_toNat]
  · rw [State.reg_setReg_ne hwf2 _ _ _ _ _ _ _ hli, State.reg_setReg_same hwf1, BitVec.toNat_ofNat]
    omega
  · rw [State.reg_setReg_same hwf2, BitVec.toNat_ofNat]
    omega

/-- Settles O16: what the slot holds decides the store; the record of an abort is read back by its three words. -/
theorem guardedWriteTakesItsComplement : Obligations.GuardedWriteTakesItsComplement := by
  intro s ini die off v hh ho hd h4 hv hb h0
  have hstore : exec (.gwFieldWrite ini (busAddr die off) 4 v) s = .next ((s.guardPass ini die off 4 v).2.storeBits ini die off
      (storeMask die off (s.guardPass ini die off 4 v).1) v) := by
    rw [← State.regStore_word s ini die off hv, ← State.busStore_register hh hd (by omega) h4 hb]; rfl
  have hcompl : compl 32 v = 2 ^ 32 - 1 - v := by rw [compl, Nat.mod_eq_of_lt hv]
  refine ⟨?_, fun g hg hoff hw ht => ⟨fun hc => ?_, fun hc => ?_⟩, fun hg => ?_, fun g hg ht => ?_, fun hwf reason hr => ?_⟩
  · have harm := State.guardWrite_arms (s := s) (ini := ini) (v := 2 ^ 32 - 1 - v) h0 hb
    rw [Nat.mod_eq_of_lt (by omega)] at harm
    rw [← harm, ← State.busStore_mirror hh hd ho h4]; rfl
  · rw [hstore, State.guardPass_armed h0 hg hoff hw ht, if_pos (hc.trans hcompl.symm)]
  · rw [hstore, State.guardPass_armed h0 hg hoff hw ht, if_neg (hcompl ▸ hc)]
  · rw [hstore, State.guardPass_unarmed h0 hg]
  · exact congrArg Host.Outcome.next (State.expire_due hg ht)
  · exact State.abort_record hwf ini ho hr

/-! ### Loads (02 R62, R64, R68) -/

/-- `t` is `s` but for the values last observed. -/
abbrev observedFrom (t s : State) : Prop := ∃ observed, t = { s with observed := observed }

theorem observedFrom.eq_update {t u s : State} (h : observedFrom t u) (k : regsFrom u s) : t = { s with regs := t.regs, observed := t.observed } := by
  obtain ⟨_, rfl⟩ := h; obtain ⟨_, rfl⟩ := k; rfl

theorem observedFrom.reg_eq {t s : State} (h : observedFrom t s) (r : Reg) (i e : Nat) : t.reg r i e = s.reg r i e := by
  obtain ⟨_, rfl⟩ := h; rfl

theorem State.observe_observed (s : State) (r : Reg) (i e : Nat) : observedFrom (s.observe r i e) s := by
  have hfold (l : List (DEntry × Nat × Nat × Piece)) (s : State) : observedFrom (l.foldl (fun (s : State) h =>
      if h.1.acc == .ro || h.1.acc == .rc then s.setObs h.2.1 h.2.2.1 (s.homeGet h.1 h.2.1 h.2.2.1) else s) s) s := by
    induction l generalizing s with
    | nil => exact ⟨_, rfl⟩
    | cons h l ih =>
      obtain ⟨_, hl⟩ := ih (if h.1.acc == .ro || h.1.acc == .rc then s.setObs h.2.1 h.2.2.1 (s.homeGet h.1 h.2.1 h.2.2.1) else s)
      rw [List.foldl_cons, hl]
      split <;> exact ⟨_, rfl⟩
  rw [State.observe]
  split
  · obtain ⟨_, h⟩ := hfold (homesOf r i e) (s.setObs _ _ _)
    exact ⟨_, h⟩
  · exact hfold _ s

section
variable {s : State} {ini die off i e : Nat} {d : RegDef}

/-- A load of one word gives what the register reads as, and clears those of the bits asked that are RC; beside them it only marks
values as observed. -/
theorem State.loadWord_spec (hwf : s.wf = true) (hr : regAt die off = some (d, i, e)) (m : Nat) : ∃ t : State,
    s.loadWord die off m = (s.readReg d.name i e, t) ∧ t = { s with regs := t.regs, observed := t.observed } ∧
      t.reg d.name i e = s.reg d.name i e &&& ~~~(BitVec.ofNat 32 d.rc &&& BitVec.ofNat 32 m) ∧
      ∀ q j f, regKey q j f ≠ regKey d.name i e → t.reg q j f = s.reg q j f := by
  generalize hc : BitVec.ofNat 32 d.rc &&& BitVec.ofNat 32 m = clear
  obtain ⟨u, hu, hregs, hclear, hkeep⟩ : ∃ u, (if clear == 0#32 then s else s.setReg d.name i e (s.reg d.name i e &&& ~~~clear)) = u ∧
      regsFrom u s ∧ u.reg d.name i e = s.reg d.name i e &&& ~~~clear ∧
      ∀ q j f, regKey q j f ≠ regKey d.name i e → u.reg q j f = s.reg q j f := by
    by_cases h0 : clear = 0#32
    · exact ⟨s, if_pos (by simpa using h0), .refl s, by rw [h0, BitVec.not_zero, BitVec.and_allOnes], fun _ _ _ _ => rfl⟩
    · exact ⟨_, if_neg (by simpa using h0), State.setReg_regs .., State.reg_setReg_same hwf .., fun _ _ _ hk =>
        State.reg_setReg_ne hwf _ _ _ _ _ _ _ hk⟩
  have hobs := u.observe_observed d.name i e
  refine ⟨u.observe d.name i e, ?_, hobs.eq_update hregs, (hobs.reg_eq ..).trans hclear, fun q j f hk => (hobs.reg_eq ..).trans (hkeep q j f hk)⟩
  simp only [State.loadWord, hr, hc, hu]

theorem State.busLoad_word (hh : s.held = false) (hd : die ≤ 4) (ho : off < 0x40000000) (h4 : off % 4 = 0) : s.busLoad ini (busAddr die off) 4
    = (s.loadOff ini die off).2.emit (.busData ini (s.loadOff ini die off).1) := by
  simp [State.busLoad, hh, coreAlias_busAddr ini hd ho, busPlace_busAddr hd ho, busOk_busAddr h4]

/-- The hub's memory block has no register past its drain registers. -/
theorem regIn_memHB_none {x : Nat} (hx : 0x18000 ≤ x) : regIn (blkRegs .memHB) true x = none := by
  have hpast (a b n : Nat) (hb : 0 < b) (h : n * b ≤ x - a) : decide ((x - a) / b < n) = false :=
    decide_eq_false (Nat.not_lt.2 ((Nat.le_div_iff_mul_le hb).2 h))
  simp only [blkRegs, regsMemH, regIn, hpast 0x40 0x8000 2 (by decide) (by omega), hpast 0x44 0x8000 2 (by decide) (by omega),
    hpast 0x10000 4 1 (by decide) (by omega), hpast 0x10004 4 1 (by decide) (by omega), Bool.and_false, Bool.false_eq_true, if_false]

theorem locate_flash (hlo : 0x218000 ≤ off) (hhi : off < 0x220000) : locate 4 off = some (.memHB, 0, off - 0x200000) := by
  rw [locate, if_neg (by omega), if_neg (by omega), if_neg (by omega), if_neg (by omega), if_neg (by simp), if_neg (by simp; omega),
    if_pos (by simp; omega)]

theorem regAt_none {b : Blk} {x : Nat} (hl : locate die off = some (b, i, x)) (hn : regIn (blkRegs b) (die == 4) x = none) :
    regAt die off = none := by
  simp only [regAt, hl, hn]

/-- No register lies where the hub's flash interface does (12 R402). -/
theorem flashPlace_of_regAt (hr : regAt die off = some (d, i, e)) : flashPlace die off = false := by
  by_contra hf
  simp only [flashPlace, hubDie, Bool.not_eq_false, Bool.and_eq_true, beq_iff_eq, decide_eq_true_eq] at hf
  obtain ⟨⟨rfl, hlo⟩, hhi⟩ := hf
  rw [regAt_none (locate_flash hlo hhi) (regIn_memHB_none (by omega))] at hr
  cases hr

theorem State.loadOff_register (ho : off < 0x10000000) (hb : banked die off = false) (hr : regAt die off = some (d, i, e)) :
    s.loadOff ini die off = s.loadWord die off 0xFFFFFFFF := by
  rw [State.loadOff, if_neg (by omega), if_neg (by omega), hb, flashPlace_of_regAt hr, if_neg Bool.false_ne_true, if_neg Bool.false_ne_true]

theorem State.loadOff_alias {b : Nat} (hb : b < 32) (h4 : off % 4 = 0) (hbank : banked die off = false) :
    s.loadOff ini die (0x20000000 + off * 32 + b * 4) = (bits (s.loadWord die off (2 ^ b)).1 b b, (s.loadWord die off (2 ^ b)).2) := by
  rw [State.loadOff, if_pos (by omega), aliasOf_word hb h4]
  simp [hbank]

theorem exec_rcRegisterRead (hwf : s.wf = true) (hh : s.held = false) (ho : off < 0x10000000) (hd : die ≤ 4) (h4 : off % 4 = 0)
    (hb : banked die off = false) (hr : regAt die off = some (d, i, e)) : ∃ t : State, exec (.rcRegisterRead ini (busAddr die off) 4) s = .next t ∧
      t = { s with regs := t.regs, observed := t.observed, out := .busData ini (s.readReg d.name i e) :: s.out } ∧
      t.reg d.name i e = s.reg d.name i e &&& ~~~(BitVec.ofNat 32 d.rc) ∧
      (∀ q j f, regKey q j f ≠ regKey d.name i e → t.reg q j f = s.reg q j f) := by
  obtain ⟨t, hload, hframe, hclear, hkeep⟩ := State.loadWord_spec hwf hr 0xFFFFFFFF
  have hexec : exec (.rcRegisterRead ini (busAddr die off) 4) s = .next (s.busLoad ini (busAddr die off) 4) := rfl
  rw [State.busLoad_word hh hd (by omega) h4, State.loadOff_register ho hb hr, hload] at hexec
  refine ⟨_, hexec, ?_, ?_, hkeep⟩
  · rw [hframe]; rfl
  · rw [show BitVec.ofNat 32 0xFFFFFFFF = BitVec.allOnes 32 from rfl, BitVec.and_allOnes] at hclear
    exact hclear

theorem exec_bitAliasRead {b : Nat} (hwf : s.wf = true) (hh : s.held = false) (hd : die ≤ 4) (h4 : off % 4 = 0)
    (hb : banked die off = false) (hr : regAt die off = some (d, i, e)) (hb32 : b < 32) (ho : off * 32 + b * 4 < 0x20000000) :
    ∃ t : State, exec (.bitAliasRead ini (busAddr die (0x20000000 + off * 32 + b * 4))) s = .next t ∧
      t = { s with regs := t.regs, observed := t.observed, out := .busData ini (bits (s.readReg d.name i e) b b) :: s.out } ∧
      t.reg d.name i e = s.reg d.name i e &&& ~~~(BitVec.ofNat 32 d.rc &&& BitVec.ofNat 32 (2 ^ b)) := by
  obtain ⟨t, hload, hframe, hclear, -⟩ := State.loadWord_spec hwf hr (2 ^ b)
  have hexec : exec (.bitAliasRead ini (busAddr die (0x20000000 + off * 32 + b * 4))) s
      = .next (s.busLoad ini (busAddr die (0x20000000 + off * 32 + b * 4)) 4) := rfl
  rw [State.busLoad_word hh hd (by omega) (by omega), State.loadOff_alias hb32 h4 hb, hload] at hexec
  exact ⟨_, hexec, by rw [hframe]; rfl, hclear⟩

end

/-! ### Writes of one bit (02 R68) -/

section
variable {s : State} {ini die off v i e b : Nat} {d : RegDef}

theorem gwAt_of_regAt (hr : regAt die off = some (d, i, e)) : gwAt die off = d.gw := by simp [gwAt, hr]

theorem getLsbD_ofNat_eq_bit (x : Nat) {c : Nat} (hc : c < 32) : (BitVec.ofNat 32 x).getLsbD c = bit x c := by
  rw [BitVec.getLsbD_ofNat, bit, Nat.testBit_eq_decide_div_mod_eq, decide_eq_true hc, Bool.true_and]
  rfl

theorem getLsbD_two_pow {c : Nat} (hc : c < 32) : (BitVec.ofNat 32 (2 ^ b)).getLsbD c = decide (b = c) := by
  rw [BitVec.getLsbD_ofNat, Nat.testBit_two_pow, decide_eq_true hc, Bool.true_and]

theorem RegDef.getLsbD_writable {c : Nat} (hc : c < 32) : (d.writable e (2 ^ b)).getLsbD c
    = (decide (b = c) && (bit d.rw c || bit d.gw c || bit d.wo c) && bit (elMask d.name e) c) := by
  simp only [RegDef.writable, BitVec.getLsbD_and, BitVec.getLsbD_or, getLsbD_two_pow hc, getLsbD_ofNat_eq_bit _ hc]

/-- A bit that is neither RW, GW nor WO is not writable. -/
theorem RegDef.writable_fixed_bit (h : (bit d.rw b || bit d.gw b || bit d.wo b) = false) : d.writable e (2 ^ b) = 0#32 := by
  refine BitVec.eq_of_getLsbD_eq fun c hc => ?_
  rw [RegDef.getLsbD_writable hc, BitVec.getLsbD_zero]
  by_cases hbc : b = c
  · rw [← hbc, h]; simp
  · simp [hbc]

/-- A RW bit that is not reserved is writable. -/
theorem RegDef.writable_rw_bit (hrw : bit d.rw b = true) (hel : bit (elMask d.name e) b = true) : d.writable e (2 ^ b) = BitVec.ofNat 32 (2 ^ b) := by
  refine BitVec.eq_of_getLsbD_eq fun c hc => ?_
  rw [RegDef.getLsbD_writable hc, getLsbD_two_pow hc]
  by_cases hbc : b = c
  · rw [← hbc, hrw, hel]; simp
  · simp [hbc]

theorem two_pow_ne_zero (hb : b < 32) : BitVec.ofNat 32 (2 ^ b) ≠ 0#32 := by
  intro h
  have hbit := getLsbD_two_pow (b := b) hb
  rw [h, BitVec.getLsbD_zero] at hbit
  simp at hbit

/-- A word with bit `b` taken from the low bit of `v`. -/
def Word.withBit (w : Word) (b v : Nat) : Word := (w &&& ~~~(BitVec.ofNat 32 (2 ^ b))) ||| (BitVec.ofNat 32 (v % 2 * 2 ^ b) &&& BitVec.ofNat 32 (2 ^ b))

theorem Word.getLsbD_withBit (w : Word) {c : Nat} (hc : c < 32) (v : Nat) : (Word.withBit w b v).getLsbD c
    = (w.getLsbD c && !decide (b = c) || bit (v % 2 * 2 ^ b) c && decide (b = c)) := by
  simp only [Word.withBit, BitVec.getLsbD_and, BitVec.getLsbD_or, BitVec.getLsbD_not, getLsbD_two_pow hc, getLsbD_ofNat_eq_bit _ hc, hc,
    decide_true, Bool.true_and]

theorem Word.getLsbD_withBit_same (w : Word) (hb : b < 32) (v : Nat) : (Word.withBit w b v).getLsbD b = (v % 2 == 1) := by
  simp [Word.getLsbD_withBit w hb, bit]

theorem Word.getLsbD_withBit_ne (w : Word) {c : Nat} (hc : c < 32) (h : c ≠ b) (v : Nat) : (Word.withBit w b v).getLsbD c = w.getLsbD c := by
  simp [Word.getLsbD_withBit w hc, h.symm]

theorem exec_bitAliasWrite (hh : s.held = false) (ho : off * 32 + b * 4 < 0x20000000) (hb : b < 32) (hd : die ≤ 4) (h4 : off % 4 = 0)
    (hbank : banked die off = false) (hr : regAt die off = some (d, i, e)) :
    exec (.bitAliasWrite ini (busAddr die (0x20000000 + off * 32 + b * 4)) v) s
      = .next (if bit d.gw b then (s.intervene ini die none).abort ini die 4 off
        else (s.intervene ini die none).storeBits ini die off (2 ^ b) (v % 2 * 2 ^ b)) := by
  have hv : v % 2 ^ 32 % 2 = v % 2 := by omega
  have hexec : exec (.bitAliasWrite ini (busAddr die (0x20000000 + off * 32 + b * 4)) v) s
      = .next (s.busStore ini (busAddr die (0x20000000 + off * 32 + b * 4)) 4 v) := rfl
  rw [hexec, State.busStore_alias hh hd ho, State.aliasWrite, aliasOf_word hb h4]
  simp only [hbank, gwAt_of_regAt hr, hv, Bool.false_eq_true, if_false]

end

/-- Settles O15: a load by `loadWord_spec`, over a whole word and over one bit; a write of one bit by its access class. -/
theorem loadsReturnValuesAndAliasesReachOneBit : Obligations.LoadsReturnValuesAndAliasesReachOneBit := by
  refine ⟨fun s ini die off i e d hwf hh ho hd h4 hb hr => ⟨exec_rcRegisterRead hwf hh ho hd h4 hb hr, fun b hb32 hlt =>
    exec_bitAliasRead hwf hh hd h4 hb hr hb32 hlt⟩, fun s ini die off v i e b d hh ho hb hd h4 hbank hr => ?_⟩
  rw [exec_bitAliasWrite hh ho hb hd h4 hbank hr]
  refine ⟨fun hgw => ?_, fun hgw hrw hwo => ?_, fun hgw hrw hel hp hbusy => ⟨_, Word.withBit ((s.intervene ini die none).reg d.name i e) b v,
    rfl, ?_, Word.getLsbD_withBit_same _ hb v, fun c hc hne => Word.getLsbD_withBit_ne _ hc hne v⟩⟩
  · rw [if_pos hgw]
  · rw [if_neg (by simp [hgw]), State.storeBits_not_writable hr (RegDef.writable_fixed_bit (by simp [hgw, hrw, hwo]))]
  · have hmask := RegDef.writable_rw_bit hrw hel
    rw [if_neg (by simp [hgw]), State.storeBits_plain hr hp ((State.regBusy_intervene hd none _ i e).trans hbusy) (hmask ▸ two_pow_ne_zero hb), hmask]
    rfl

end Sys2Proof.Machine
end

section
/-! Stores of a word to a plain register (02 R62): what one does in a state of the canonical form, and how O14, which does not ask that form,
fails on a register without writable bits. -/

namespace Sys2Proof.Machine

/-! ### Writing what stands there -/

section
variable {α : Type} {dflt : Nat → α}

theorem tput_tget_self (m : Sparse α) {k : Nat} (h : tget dflt m k ≠ dflt k) : tput m k (tget dflt m k) = m := by
  induction m with
  | nil => exact absurd rfl h
  | cons e m ih =>
    obtain ⟨a, w⟩ := e
    rw [tget] at h ⊢
    rw [tput]
    split_ifs with hk hlt
    · rfl
    · rw [if_neg hk, if_pos hlt] at h; exact absurd rfl h
    · rw [if_neg hk, if_neg hlt] at h; rw [ih h]

variable [DecidableEq α]

theorem tdel_of_default {m : Sparse α} {lo : Option Nat} (hm : twfFrom dflt lo m = true) {k : Nat} (h : tget dflt m k = dflt k) : tdel m k = m := by
  induction m generalizing lo with
  | nil => rfl
  | cons e m ih =>
    obtain ⟨a, w⟩ := e
    simp only [twfFrom, Bool.and_eq_true, decide_eq_true_eq] at hm
    obtain ⟨⟨-, hw⟩, hm⟩ := hm
    rw [tget] at h
    rw [tdel]
    split_ifs with hk hlt
    · rw [if_pos hk] at h; exact absurd (hk ▸ h) hw
    · rfl
    · rw [if_neg hk, if_neg hlt] at h; rw [ih hm h]

/-- In the canonical form, writing the value that stands at a key changes nothing. -/
theorem tset_tget_self {m : Sparse α} (hm : twf dflt m = true) (k : Nat) : tset dflt m k (tget dflt m k) = m := by
  rw [tset]
  split
  next h => exact tdel_of_default hm h
  next h => exact tput_tget_self m h

end

section
variable {s : State} {ini die off v i e : Nat} {d : RegDef}

theorem State.setReg_reg_self (hwf : s.wf = true) (r : Reg) (i e : Nat) : s.setReg r i e (s.reg r i e) = s := by
  rw [State.setReg, State.setRegK, State.reg, State.regK, tset_tget_self (State.wf_regs hwf)]

theorem State.abort_wf (hwf : s.wf = true) (ini die reason off : Nat) : (s.abort ini die reason off).wf = true :=
  State.setReg_wf (State.setReg_wf (State.bump_wf hwf ..) ..) ..

theorem State.expire_wf (hwf : s.wf = true) (ini die : Nat) (due : Bool) : (s.expire ini die due).wf = true := by
  rw [State.expire]
  split
  · split
    · exact State.abort_wf (State.setGuard_wf hwf ..) ..
    · exact hwf
  · exact hwf

theorem State.intervene_wf (hwf : s.wf = true) (ini die : Nat) (o : Option Nat) : (s.intervene ini die o).wf = true := by
  rw [State.intervene]
  split
  · split
    · exact State.expire_wf hwf ..
    · exact State.abort_wf (State.setGuard_wf (State.expire_wf hwf ..) ..) ..
  · exact State.expire_wf hwf ..

/-! ### The store -/

theorem RegDef.writable_storeMask (hr : regAt die off = some (d, i, e)) (hgw : d.gw = 0) : d.writable e (storeMask die off false)
    = (BitVec.ofNat 32 d.rw ||| BitVec.ofNat 32 d.wo) &&& BitVec.ofNat 32 (elMask d.name e) := by
  simp only [RegDef.writable, storeMask, hr, hgw, Bool.false_eq_true, if_false, BitVec.ofNat_toNat, BitVec.setWidth_eq, BitVec.or_zero,
    BitVec.and_self]

/-- The first clause of O14, in the canonical form: a store gives the RW and WO bits that are not reserved the value stored. -/
theorem exec_registerWrite_plain (hwf : s.wf = true) (hh : s.held = false) (ho : off < 0x10000000) (hd : die ≤ 4) (h4 : off % 4 = 0)
    (hb : banked die off = false) (hr : regAt die off = some (d, i, e)) (hgw : d.gw = 0) (hv : v < 2 ^ 32) (hp : plainWord d i e)
    (hbusy : s.regBusy d.name i e = false) {m : Word}
    (hm : m = (BitVec.ofNat 32 d.rw ||| BitVec.ofNat 32 d.wo) &&& BitVec.ofNat 32 (elMask d.name e)) :
    exec (.registerWrite ini (busAddr die off) 4 v) s = .next ((s.intervene ini die (some off)).setReg d.name i e
      (((s.intervene ini die (some off)).reg d.name i e &&& ~~~m) ||| (BitVec.ofNat 32 v &&& m))) := by
  have hexec : exec (.registerWrite ini (busAddr die off) 4 v) s = .next (s.busStore ini (busAddr die off) 4 v) := rfl
  rw [← RegDef.writable_storeMask hr hgw] at hm
  rw [hexec, State.busStore_register hh hd ho h4 hb, State.regStore_word s ini die off hv, State.guardPass_plain ((gwAt_of_regAt hr).trans hgw)]
  by_cases h0 : m = 0#32
  · rw [State.storeBits_not_writable hr (hm.symm.trans h0), h0, BitVec.and_zero, BitVec.or_zero, BitVec.not_zero, BitVec.and_allOnes,
      State.setReg_reg_self (State.intervene_wf hwf ..)]
  · rw [State.storeBits_plain hr hp ((State.regBusy_intervene hd _ _ i e).trans hbusy) (hm ▸ h0), ← hm]

/-- A store to a read-only word does no more than any access of its place. -/
theorem exec_registerWrite_readOnly (hh : s.held = false) (ho : off < 0x10000000) (hd : die ≤ 4) (h4 : off % 4 = 0)
    (hb : banked die off = false) (hr : regAt die off = some (d, i, e)) (hgw : d.gw = 0) (hrw : d.rw = 0) (hwo : d.wo = 0) (hv : v < 2 ^ 32) :
    exec (.registerWrite ini (busAddr die off) 4 v) s = .next (s.intervene ini die (some off)) := by
  have hexec : exec (.registerWrite ini (busAddr die off) 4 v) s = .next (s.busStore ini (busAddr die off) 4 v) := rfl
  have hfixed (m : Nat) : d.writable e m = 0#32 := by simp [RegDef.writable, hgw, hrw, hwo]
  rw [hexec, State.busStore_register hh hd ho h4 hb, State.regStore_word s ini die off hv,
    State.guardPass_plain ((gwAt_of_regAt hr).trans hgw), State.storeBits_not_writable hr (hfixed _)]

end

/-- A state whose register table lists MGT_GUARD_LAST of die 0 at the value that an unlisted word reads as. -/
def uncanonical : State := { State.reset with boot := {}, regs := [(0x4204, 0#32)] }

/-- Refutes O14: a store to MGT_GUARD_LAST, which is read-only, leaves `uncanonical` as it is, where writing back the word that stands
there would remove its entry. The statement asks nothing of the form of the state. -/
theorem not_registerWritesStoreAndReadBack : ¬ Obligations.RegisterWritesStoreAndReadBack := by
  intro h
  have hr : regAt 0 0x10810 = some (regDef .mgtGuardLast, 0, 0) := by decide +kernel
  obtain ⟨u, rfl, hu⟩ := h.1 uncanonical 0 0 0x10810 0 0 0 (regDef .mgtGuardLast) (by decide) (by decide) (by decide) (by decide) (by decide)
    hr (by decide) (by decide) (by decide +kernel) (by decide) _ rfl
  rw [exec_registerWrite_readOnly (by decide) (by decide) (by decide) (by decide) (by decide) hr (by decide) (by decide) (by decide) (by decide),
    State.intervene_unarmed (by decide)] at hu
  have hregs := congrArg State.regs (Host.Outcome.next.inj hu)
  exact absurd hregs (by decide +kernel)

end Sys2Proof.Machine
end

section
/-! The wide-value mailbox: what each capture takes, and how it ends (02 R69 to R72; 13 R450; 14 R482). -/

namespace Sys2Proof.Machine

section
variable {s : State} {ini die index : Nat}

/-! ### A capture (02 R71) -/

theorem State.mbxCapture_words (s : State) (ini die : Nat) (l : List Nat) : s.mbxCapture ini die (.inr l)
    = (s.intervene ini die none).mbxBusy ini die ((s.intervene ini die none).mbxBank ini die) 0 (l.map fun v => BitVec.ofNat 64 v) := rfl

theorem State.mbxCapture_error (s : State) (ini die e : Nat) : s.mbxCapture ini die (.inl e)
    = (s.intervene ini die none).mbxBusy ini die ((s.intervene ini die none).mbxBank ini die) e [] := rfl

theorem exec_mbxCaptureLong128 (hh : s.held = false) :
    exec (.mbxCaptureLong128 ini die index) s = .next (s.mbxCapture ini die (s.captureLong die index)) := by
  show execMbxCaptureLong128 ini die index s = _
  rw [execMbxCaptureLong128, hh, if_neg Bool.false_ne_true]

theorem exec_mbxCaptureLay (hh : s.held = false) :
    exec (.mbxCaptureLay ini die index) s = .next (s.mbxCapture ini die (s.captureLay index)) := by
  show execMbxCaptureLay ini die index s = _
  rw [execMbxCaptureLay, hh, if_neg Bool.false_ne_true]

theorem exec_mbxCaptureSnarl (hh : s.held = false) :
    exec (.mbxCaptureSnarl ini die index) s = .next (s.mbxCapture ini die (s.captureSnarl die (s.mbxBank ini die).arg.toNat index)) := by
  show execMbxCaptureSnarl ini die index s = _
  rw [execMbxCaptureSnarl, hh, if_neg Bool.false_ne_true]

theorem exec_mbxCaptureWide (hh : s.held = false) :
    exec (.mbxCaptureWide ini die index) s = .next (s.mbxCapture ini die (s.captureWide die index)) := by
  show execMbxCaptureWide ini die index s = _
  rw [execMbxCaptureWide, hh, if_neg Bool.false_ne_true]

/-! ### What each kind takes (02 R70, R72) -/

theorem State.captureLong_outside (h : 1024 ≤ index) : s.captureLong die index = .inl 2 := if_pos h

theorem State.captureLong_otherDie (h : index < 1024) (hd : index / 256 ≠ die) : s.captureLong die index = .inl 3 := by
  rw [State.captureLong, if_neg (Nat.not_le.2 h), if_pos (by simpa using hd)]

theorem State.captureLong_slot (h : index < 1024) (hd : index / 256 = die) : s.captureLong die index
    = .inr (if tget dF s.resultPoison index then [0, 2 ^ 63]
        else [(tget dQ s.results index).toNat % 2 ^ 64, (tget dQ s.results index).toNat / 2 ^ 64]) := by
  rw [State.captureLong, if_neg (Nat.not_le.2 h), if_neg (by simpa using hd)]
  rfl

theorem State.captureLay_zero (s : State) : s.captureLay 0 = .inr [s.lay.now % 2 ^ 64, s.cycle % 2 ^ 64,
    s.layErrNs + s.lay.state % 4 * 2 ^ 32 + s.laySource % 4 * 2 ^ 34,
    s.peerEpoch + (if s.pkgId == 0xFFFFFFFF then 0xFFFF else s.pkgId % 65536) * 2 ^ 32] := rfl

theorem State.captureLay_error (h : index ≠ 0) : s.captureLay index = .inl 2 := if_pos (by simpa using h)

variable {level : Nat}

theorem State.captureSnarl_outside (h : 4 ≤ level ∨ levelCount level ≤ index) : s.captureSnarl die level index = .inl 2 :=
  if_pos (by simpa using h)

theorem State.captureSnarl_otherDie (hl : level < 4) (hi : index < levelCount level) (hd : domDie ⟨level, index⟩ ≠ die) :
    s.captureSnarl die level index = .inl 3 := by
  rw [State.captureSnarl, if_neg (by simp; omega), if_pos (by simpa using hd)]

theorem State.captureSnarl_words (hl : level < 4) (hi : index < levelCount level) (hd : domDie ⟨level, index⟩ = die) :
    s.captureSnarl die level index = .inr (descWords (s.snarlOf ⟨level, index⟩)) := by
  rw [State.captureSnarl, if_neg (by simp; omega), if_neg (by simpa using hd)]

theorem State.captureWide_otherDie (h : die ≠ 4) : s.captureWide die index = .inl 3 := if_pos (by simpa [hubDie] using h)

theorem State.captureWide_words {d : DEntry} (hf : dictFind (index / 256) (index % 256) = some d) (ht : d.ty = .wide)
    (hs : d.has (index % 256) = true) : s.captureWide 4 index
      = .inr ((List.range (d.len / 8)).map fun i => fld (s.viewEntry (index / 256) (index % 256)) (8 * i) 8) := by
  simp [State.captureWide, hubDie, hf, ht, hs]

theorem State.captureWide_error (h : ∀ d, dictFind (index / 256) (index % 256) = some d → d.ty ≠ .wide ∨ d.has (index % 256) = false) :
    s.captureWide 4 index = .inl 2 := by
  rw [State.captureWide, if_neg (by decide)]
  cases hf : dictFind (index / 256) (index % 256) with
  | none => rfl
  | some d => exact if_neg (by have := h d hf; simpa [← not_and_or, imp_iff_not_or] using this)

/-! ### The end of a capture (02 R71) -/

theorem exec_mbxCaptureDone_idle (h : (s.mbxBank ini die).busy = false) : exec (.mbxCaptureDone ini die) s = .next s := by
  show execMbxCaptureDone ini die s = _
  simp [execMbxCaptureDone, h]

theorem exec_mbxCaptureDone_busy (h : (s.mbxBank ini die).busy = true) : exec (.mbxCaptureDone ini die) s
    = .next (s.setMbx ini die { s.mbxBank ini die with
        busy := false, valid := (s.mbxBank ini die).pendError == 0, err := (s.mbxBank ini die).pendError != 0,
        error := (s.mbxBank ini die).pendError, pendError := 0 }) := by
  show execMbxCaptureDone ini die s = _
  simp [execMbxCaptureDone, h]

end

/-- Settles O17: each kind's words or error, taken by one capture; and the two outcomes of its end. -/
theorem mailboxCapturesItsWords : Obligations.MailboxCapturesItsWords := by
  rintro s _ _ ini die index hh rfl rfl
  refine ⟨?_, ?_, fun h => ?_, ?_, fun h => ?_, ?_, exec_mbxCaptureDone_busy, exec_mbxCaptureDone_idle⟩
  · rw [exec_mbxCaptureLong128 hh]
    by_cases h : index < 1024
    · by_cases hd : index / 256 = die
      · rw [State.captureLong_slot h hd, State.mbxCapture_words, if_neg (Nat.not_le.2 h), if_neg (not_not.2 hd),
          if_pos (c := index < 1024 ∧ index / 256 = die) ⟨h, hd⟩]
        cases tget dF s.resultPoison index <;> rfl
      · rw [State.captureLong_otherDie h hd, State.mbxCapture_error, if_neg (Nat.not_le.2 h), if_pos hd, if_neg (by tauto)]
    · rw [State.captureLong_outside (Nat.not_lt.1 h), State.mbxCapture_error, if_pos (Nat.not_lt.1 h), if_neg (by tauto)]
  · rintro rfl
    rw [exec_mbxCaptureLay hh, State.captureLay_zero, State.mbxCapture_words]
    simp
  · rw [exec_mbxCaptureLay hh, State.captureLay_error h, State.mbxCapture_error]
  · rintro _ rfl
    rw [exec_mbxCaptureSnarl hh]
    refine ⟨fun h => ?_, fun hl hi => ⟨fun hd => ?_, fun hd => ?_⟩⟩
    · rw [State.captureSnarl_outside h, State.mbxCapture_error]
    · rw [State.captureSnarl_otherDie hl hi hd, State.mbxCapture_error]
    · rw [State.captureSnarl_words hl hi hd, State.mbxCapture_words]
  · rw [exec_mbxCaptureWide hh, State.captureWide_otherDie h, State.mbxCapture_error]
  · rintro rfl
    rw [exec_mbxCaptureWide hh]
    refine ⟨fun d hf ht hs => ?_, fun h => ?_⟩
    · rw [State.captureWide_words hf ht hs, State.mbxCapture_words, List.map_map]
      rfl
    · rw [State.captureWide_error h, State.mbxCapture_error]

end Sys2Proof.Machine
end

section
/-! The machine right after reset (03 R91, R111; 11 R369; 12 R402; 14 R483). -/

namespace Sys2Proof.Machine

/-- The ring sizes and the memory map after reset, region by region. -/
theorem State.reset_ringsAndMap : ∀ r < 16, State.reset.reg .sqCfg r = 6#32 ∧ State.reset.reg .memMap r = 0x10#32 ∧
    ∀ e < 8, (State.reset.reg .cqCfg r e).toNat % 16 = 6 := by decide +kernel

/-- The hyperparameters after reset, stack by stack. -/
theorem State.reset_hyperparameters : ∀ k < 16, State.reset.reg .halHp k 1 = 0x3F666666#32 ∧ State.reset.reg .halHp k 2 = 0x3F7FBE77#32 ∧
    State.reset.reg .halHp k 3 = 0x0D800000#32 ∧ State.reset.reg .halHp k 4 = 0x3F800000#32 := by decide +kernel

/-- Settles O7: every table of the reset state is empty and reads its default; the register words with a reset value are listed. -/
theorem resetLeavesTheSpecsValues : Obligations.ResetLeavesTheSpecsValues :=
  ⟨State.reset_wf, rfl, rfl, rfl, fun _ _ => rfl, fun _ _ => rfl, fun _ _ => rfl, fun _ => rfl, fun _ => rfl, fun _ => rfl, rfl, rfl,
    State.reset_ringsAndMap, State.reset_hyperparameters⟩

end Sys2Proof.Machine
end

section
/-! Writes of the ring pointers (03 R92, R118; 10 R317, R336). -/

namespace Sys2Proof.Machine

section
variable {s : State} {ini region ring die v : Nat}

theorem State.writeSqTail_taken (h : (BitVec.ofNat 32 v - s.reg .sqHead region).toNat ≤ s.sqSize region) :
    s.writeSqTail region v = s.setReg .sqTail region 0 (BitVec.ofNat 32 v) := if_neg (Nat.not_lt.2 h)

theorem State.writeSqTail_overrun (h : s.sqSize region < (BitVec.ofNat 32 v - s.reg .sqHead region).toNat) :
    s.writeSqTail region v = s.flag .wrkSts region 0 2 := if_pos h

theorem State.writeCqHead_taken (h : (BitVec.ofNat 32 v - s.reg .cqHead region ring).toNat ≤
      (s.reg .cqTail region ring - s.reg .cqHead region ring).toNat) :
    s.writeCqHead region ring v = ((s.setReg .cqHead region ring (BitVec.ofNat 32 v)).flushRing region ring).settle := if_neg (Nat.not_lt.2 h)

theorem State.writeCqHead_pastTail (h : (s.reg .cqTail region ring - s.reg .cqHead region ring).toNat <
      (BitVec.ofNat 32 v - s.reg .cqHead region ring).toNat) : s.writeCqHead region ring v = s.flag .wrkSts region 0 16 := if_pos h

theorem exec_wrkSqTailWrite (s : State) (ini region v : Nat) :
    exec (.wrkSqTailWrite ini region v) s = .next ((s.intervene ini (region / 4) none).writeSqTail region v) := rfl

theorem exec_wrkCqHeadWrite (h : ring < 8) :
    exec (.wrkCqHeadWrite ini region ring v) s = .next ((s.intervene ini (region / 4) none).writeCqHead region ring v) :=
  congrArg _ (if_pos h)

theorem exec_ateRingTailWrite (h : die < 4) : exec (.ateRingTailWrite ini die v) s =
    if (s.intervene ini die none).ateSize die < (BitVec.ofNat 32 v - (s.intervene ini die none).reg .ateRingHead die).toNat
    then .next ((s.intervene ini die none).flag .ateSts die 0 4)
    else .next ((s.intervene ini die none).setReg .ateRingTail die 0 (BitVec.ofNat 32 v)) := if_neg (Nat.not_le.2 h)

end

/-- Settles O20: each write by the distance of its value from the ring's head. -/
theorem ringPointerWritesStayWithinTheirRings : Obligations.RingPointerWritesStayWithinTheirRings := by
  intro s ini v _
  refine ⟨?_, ?_⟩
  · rintro region _ - rfl
    refine ⟨fun h => ?_, fun h => ?_, fun ring hring => ⟨fun h => ?_, fun h => ?_⟩⟩
    · rw [exec_wrkSqTailWrite, State.writeSqTail_taken h]
    · rw [exec_wrkSqTailWrite, State.writeSqTail_overrun h]
    · rw [exec_wrkCqHeadWrite hring, State.writeCqHead_taken h]
    · rw [exec_wrkCqHeadWrite hring, State.writeCqHead_pastTail h]
  · rintro die _ hdie rfl
    refine ⟨fun h => ?_, fun h => ?_⟩
    · rw [exec_ateRingTailWrite hdie, if_neg (Nat.not_lt.2 h)]
    · rw [exec_ateRingTailWrite hdie, if_pos h]

end Sys2Proof.Machine
end

section
/-! Cleat operations: what one does at its home die, where it goes on its way there, and the waits that cores arm
(03 R103 to R112; 14 R475). -/

namespace Sys2Proof.Machine

/-! ### What an operation changes at its home die (03 R103, R104) -/

/-- `t` is `s` but for what a Cleat operation may change: Cleats, event registers, waiters and interrupts. -/
abbrev cleatsFrom (t s : State) : Prop := ∃ cleats regs items arms out power,
  t = { s with cleats := cleats, regs := regs, items := items, arms := arms, out := out, power := power }

theorem cleatsFrom.trans {u t s : State} (h : cleatsFrom u t) (k : cleatsFrom t s) : cleatsFrom u s := by
  obtain ⟨_, _, _, _, _, _, rfl⟩ := h; obtain ⟨_, _, _, _, _, _, rfl⟩ := k; exact ⟨_, _, _, _, _, _, rfl⟩
theorem regsFrom.cleats {t s : State} (h : regsFrom t s) : cleatsFrom t s := by obtain ⟨_, rfl⟩ := h; exact ⟨_, _, _, _, _, _, rfl⟩

theorem cleatsFrom.eq_update {t s : State} (h : cleatsFrom t s) :
    t = { s with cleats := t.cleats, regs := t.regs, items := t.items, arms := t.arms, out := t.out, power := t.power } := by
  obtain ⟨_, _, _, _, _, _, rfl⟩ := h; rfl

theorem cleatsFrom.cleatWay_eq {t s : State} (h : cleatsFrom t s) (issuer die i : Nat) : t.cleatWay issuer die i = s.cleatWay issuer die i := by
  obtain ⟨_, _, _, _, _, _, rfl⟩ := h; rfl

section
variable (s : State) (die i v : Nat)

theorem State.putCleat_from (w : Word) : cleatsFrom (s.putCleat die i w) s := ⟨_, _, _, _, _, _, rfl⟩
theorem State.wakeItems_from : cleatsFrom (s.wakeItems die i v) s := ⟨_, _, _, _, _, _, rfl⟩
theorem State.wakeHolds_from : cleatsFrom (s.wakeHolds die i v) s := ⟨_, _, _, _, _, _, rfl⟩
theorem State.fireArms_from : cleatsFrom (s.fireArms die i v) s := ⟨_, _, _, _, _, _, rfl⟩

/-- A Cleat's waiters told of its value: items, ramps, armed waits. -/
def State.wakeAll : State := ((s.wakeItems die i v).wakeHolds die i v).fireArms die i v

theorem State.wakeAll_from : cleatsFrom (s.wakeAll die i v) s :=
  (State.fireArms_from ..).trans ((State.wakeHolds_from ..).trans (State.wakeItems_from ..))

theorem State.wakeAll_regs : (s.wakeAll die i v).regs = s.regs := rfl
theorem State.reg_wakeAll (r : Reg) (j e : Nat) : (s.wakeAll die i v).reg r j e = s.reg r j e := rfl
theorem State.wakeAll_cleats : (s.wakeAll die i v).cleats = s.cleats := rfl

variable (o : CleatOp)

/-- The value that an operation gives a Cleat. -/
def State.cleatNext : Nat := o.value (s.cleat die i).toNat

/-- The event that an operation raises at a Cleat, 0 for none. -/
def State.cleatEvent : Nat := o.event (s.cleat die i).toNat

/-- The Cleat's value written by an operation. -/
def State.cleatPut : State := s.putCleat die i (BitVec.ofNat 32 (s.cleatNext die i o))

theorem State.cleatPut_from : cleatsFrom (s.cleatPut die i o) s := State.putCleat_from ..

/-- The event of an operation noted at the Cleat and counted at its die. -/
def State.cleatNote (m : Nat) : State := (s.flag .cltSts (cleatKey die i) 0 m).bump .cltSatCnt die 0 1

theorem State.cleatNote_regs (m : Nat) : regsFrom (s.cleatNote die i m) s := (State.bump_regs ..).trans (State.flag_regs ..)

end

section
variable {s : State} {die i : Nat} {o : CleatOp}

theorem State.cleatApply_quiet (h : s.cleatEvent die i o = 0) : s.cleatApply die i o = (s.cleatPut die i o).wakeAll die i (s.cleatNext die i o) := by
  have h' : (o.event (s.cleat die i).toNat == 0) = true := by simpa [State.cleatEvent] using h
  simp only [State.cleatApply, h', if_true]; rfl

theorem State.cleatApply_noted (h : s.cleatEvent die i o ≠ 0) :
    s.cleatApply die i o = ((s.cleatPut die i o).cleatNote die i (s.cleatEvent die i o)).wakeAll die i (s.cleatNext die i o) := by
  have h' : (o.event (s.cleat die i).toNat == 0) = false := by simpa [State.cleatEvent] using h
  simp only [State.cleatApply, h', Bool.false_eq_true, if_false]; rfl

variable (s die i o)

theorem State.cleatApply_from : cleatsFrom (s.cleatApply die i o) s := by
  by_cases h : s.cleatEvent die i o = 0
  · rw [State.cleatApply_quiet h]
    exact (State.wakeAll_from ..).trans (State.cleatPut_from ..)
  · rw [State.cleatApply_noted h]
    exact (State.wakeAll_from ..).trans ((State.cleatNote_regs ..).cleats.trans (State.cleatPut_from ..))

theorem State.cleatApply_cleats :
    (s.cleatApply die i o).cleats = tset dW s.cleats (cleatKey die i) (BitVec.ofNat 32 (s.cleatNext die i o)) := by
  by_cases h : s.cleatEvent die i o = 0
  · rw [State.cleatApply_quiet h, State.wakeAll_cleats]; rfl
  · rw [State.cleatApply_noted h, State.wakeAll_cleats, State.cleatNote, State.bump_cleats, State.flag_cleats]; rfl

end

section
variable {s : State} {die i : Nat} {o : CleatOp}

theorem State.cleatApply_cleats_wf (hc : twf dW s.cleats = true) : twf dW (s.cleatApply die i o).cleats = true := by
  rw [State.cleatApply_cleats]; exact twf_tset hc ..

theorem State.cleatApply_cleat_same (hc : twf dW s.cleats = true) : ((s.cleatApply die i o).cleat die i).toNat = s.cleatNext die i o := by
  rw [State.cleat, State.cleatApply_cleats, tget_tset_same hc, BitVec.toNat_ofNat, Nat.mod_eq_of_lt]
  exact CleatOp.value_lt o _ (s.cleat die i).isLt

theorem cleatKey_inj {d j : Nat} (hi : i < 16384) (hj : j < 16384) (h : cleatKey d j = cleatKey die i) : (d, j) = (die, i) := by
  unfold cleatKey at h
  exact Prod.ext (by simp only; omega) (by simp only; omega)

theorem State.cleatApply_cleat_ne (hc : twf dW s.cleats = true) {d j : Nat} (hi : i < 16384) (hj : j < 16384) (h : (d, j) ≠ (die, i)) :
    (s.cleatApply die i o).cleat d j = s.cleat d j := by
  rw [State.cleat, State.cleatApply_cleats, tget_tset_ne hc _ (mt (cleatKey_inj hi hj) h)]
  rfl

/-! ### The events of an operation (03 R103, R109) -/

theorem State.cleatApply_regs_no_event (h : s.cleatEvent die i o = 0) : (s.cleatApply die i o).regs = s.regs := by
  rw [State.cleatApply_quiet h, State.wakeAll_regs]; rfl

theorem regKey_cltB {r : Reg} (hb : (regDef r).blk = .cltB) (hi : i < 16384) :
    regKey r (cleatKey die i) 0 = die * 2 ^ 28 + (0x100000 + i * 0x80 + (regDef r).off) / 4 := by
  have hd : cleatKey die i / 16384 = die := by unfold cleatKey; omega
  have hm : cleatKey die i % 16384 = i := by unfold cleatKey; omega
  simp [regKey, regPlace, hb, blkBase, offKey, hd, hm]

theorem regKey_cltSts (hi : i < 16384) : regKey .cltSts (cleatKey die i) 0 = die * 2 ^ 28 + (0x100000 + i * 0x80 + 0x18) / 4 :=
  regKey_cltB (by decide) hi
theorem regKey_cltCfg (hi : i < 16384) : regKey .cltCfg (cleatKey die i) 0 = die * 2 ^ 28 + (0x100000 + i * 0x80 + 0x10) / 4 :=
  regKey_cltB (by decide) hi

theorem regKey_cltSatCnt (die : Nat) : regKey .cltSatCnt die 0 = (8 + die) * 2 ^ 28 := by
  have hb : (regDef .cltSatCnt).blk = .hidDB := by decide
  have ho : (regDef .cltSatCnt).off = 0 := by decide
  simp [regKey, regPlace, hb, ho, blkBase, offKey]

theorem cleatExists_lt (h : cleatExists die i = true) : die ≤ 4 ∧ i < 16384 := by
  simp [cleatExists] at h; omega

variable (hwf : s.wf = true) (hx : cleatExists die i = true)
include hwf hx

/-- An operation that stops at an end sets its event bit and counts. -/
theorem State.cleatApply_event (h : s.cleatEvent die i o ≠ 0) :
    (s.cleatApply die i o).reg .cltSts (cleatKey die i) = s.reg .cltSts (cleatKey die i) ||| BitVec.ofNat 32 (s.cleatEvent die i o) ∧
      ((s.cleatApply die i o).reg .cltSatCnt die).toNat = min ((s.reg .cltSatCnt die).toNat + 1) 0xFFFFFFFF := by
  obtain ⟨hd, hi⟩ := cleatExists_lt hx
  have hne : regKey .cltSts (cleatKey die i) 0 ≠ regKey .cltSatCnt die 0 := by rw [regKey_cltSts hi, regKey_cltSatCnt]; omega
  have hput : (s.cleatPut die i o).wf = true := State.putCleat_wf hwf ..
  have hflag := State.flag_wf hput .cltSts (cleatKey die i) 0 (s.cleatEvent die i o)
  rw [State.cleatApply_noted h, State.reg_wakeAll, State.reg_wakeAll, State.cleatNote, State.bump]
  constructor
  · rw [State.reg_setReg_ne hflag _ _ _ _ _ _ _ hne, State.flag_reg hput]; rfl
  · rw [State.reg_setReg_same hflag, countUp_one_toNat, State.flag, State.reg_setReg_ne hput _ _ _ _ _ _ _ hne.symm]; rfl

/-- An operation leaves every Cleat's configuration. -/
theorem State.cleatApply_cltCfg : (s.cleatApply die i o).reg .cltCfg (cleatKey die i) = s.reg .cltCfg (cleatKey die i) := by
  obtain ⟨hd, hi⟩ := cleatExists_lt hx
  have hput : (s.cleatPut die i o).wf = true := State.putCleat_wf hwf ..
  have hflag := State.flag_wf hput .cltSts (cleatKey die i) 0 (s.cleatEvent die i o)
  have hcnt : regKey .cltCfg (cleatKey die i) 0 ≠ regKey .cltSatCnt die 0 := by rw [regKey_cltCfg hi, regKey_cltSatCnt]; omega
  have hsts : regKey .cltCfg (cleatKey die i) 0 ≠ regKey .cltSts (cleatKey die i) 0 := by rw [regKey_cltCfg hi, regKey_cltSts hi]; omega
  by_cases h : s.cleatEvent die i o = 0
  · rw [State.cleatApply_quiet h, State.reg_wakeAll]; rfl
  · rw [State.cleatApply_noted h, State.reg_wakeAll, State.cleatNote, State.bump, State.reg_setReg_ne hflag _ _ _ _ _ _ _ hcnt, State.flag,
      State.reg_setReg_ne hput _ _ _ _ _ _ _ hsts]
    rfl

end

/-! ### The way of an operation (01 R12; 03 R112; 14 R475) -/

section
variable {s : State} {issuer die i : Nat} {o : CleatOp}

theorem State.cleatWay_open (hx : cleatExists die i = true) (hd : s.dieDown die = false) (hp : s.pathDown issuer die false = false) :
    s.cleatWay issuer die i = .open := by
  simp [State.cleatWay, hx, hd, hp]

theorem State.cleatOp_held (hx : cleatExists die i = true) (hd : s.dieDown die = false) (hp : s.pathDown issuer die false = true) :
    s.cleatOp issuer die i o = { s with heldOps := s.heldOps ++ [⟨issuer, die, i, o⟩] } := by
  have hway : s.cleatWay issuer die i = .held := by simp [State.cleatWay, hx, hd, hp]
  rw [State.cleatOp, hway]; rfl

theorem State.cleatOp_lost (h : cleatExists die i = false ∨ s.dieDown die = true) : s.cleatOp issuer die i o = s.bump .cltUndelCnt issuer 0 1 := by
  have hway : s.cleatWay issuer die i = .lost := by obtain h | h := h <;> simp [State.cleatWay, h]
  rw [State.cleatOp, hway]

theorem State.cleatOp_signal (h : s.cleatWay issuer die i = .open) (n : Nat) : s.cleatOp issuer die i (.signal n) = s.cleatApply die i (.signal n) := by
  rw [State.cleatOp, h]

theorem State.cleatOp_set (h : s.cleatWay issuer die i = .open) (n : Nat) : s.cleatOp issuer die i (.set n) = s.cleatApply die i (.set n) := by
  rw [State.cleatOp, h]

theorem State.cleatOp_decrement (h : s.cleatWay issuer die i = .open) (n : Nat) : s.cleatOp issuer die i (.decrement n)
    = (s.cleatApply die i (.decrement n)).zeroNotice die i (s.cleat die i).toNat := by
  rw [State.cleatOp, h]

theorem State.zeroNotice_off (h : bit (s.reg .cltCfg (cleatKey die i)).toNat 31 = false) (before : Nat) : s.zeroNotice die i before = s := by
  simp [State.zeroNotice, h]

/-- A notice whose target can be reached signals it by 1. -/
theorem State.zeroNotice_open (h : bit (s.reg .cltCfg (cleatKey die i)).toNat 31 = true) {before : Nat} (hb : before ≠ 0)
    (hz : (s.cleat die i).toNat = 0) {zd zi : Nat} (hd : zd = bits (s.reg .cltCfg (cleatKey die i)).toNat 30 28)
    (hi : zi = bits (s.reg .cltCfg (cleatKey die i)).toNat 13 0) (hw : s.cleatWay die zd zi = .open) :
    s.zeroNotice die i before = s.cleatApply zd zi (.signal 1) := by
  subst hd hi
  rw [State.zeroNotice, if_pos (by simp [h, hb, hz]), hw]

/-! ### The commands -/

theorem exec_cleatSignal {s₀ : State} {src n : Nat} (hs : s = s₀.coreStore src die) (hn : n ≠ 0) (hlt : n < 2 ^ 32) :
    exec (.cleatSignal src die i n) s₀ = .next (s.cleatOp (srcDie src) die i (.signal n)).settle := by
  subst hs
  show execCleatSignal src die i n s₀ = _
  rw [execCleatSignal, Nat.mod_eq_of_lt hlt, if_neg (by simpa using hn)]

theorem exec_cleatDecrement {s₀ : State} {src n : Nat} (hs : s = s₀.coreStore src die) (hn : n ≠ 0) (hlt : n < 2 ^ 32) :
    exec (.cleatDecrement src die i n) s₀ = .next (s.cleatOp (srcDie src) die i (.decrement n)).settle := by
  subst hs
  show execCleatDecrement src die i n s₀ = _
  rw [execCleatDecrement, Nat.mod_eq_of_lt hlt, if_neg (by simpa using hn)]

theorem exec_cleatSet (s : State) (ini die i n : Nat) : exec (.cleatSet ini die i n) s = .next (s.cleatOp hubDie die i (.set n)).settle := rfl

/-- No way from the hub crosses a ply die. -/
theorem State.pathDown_hub (s : State) (dst : Nat) (b : Bool) : s.pathDown hubDie dst b = false := by
  simp [State.pathDown, hubDie]

variable (hwf : s.wf = true) (hx : cleatExists die i = true)
include hwf hx

theorem State.cleatApply_moved (o : CleatOp) : (s.cleatApply die i o).cleatMoved s die i :=
  ⟨fun _ _ _ hj h => State.cleatApply_cleat_ne (State.wf_cleats hwf) (cleatExists_lt hx).2 hj h, (s.cleatApply_from die i o).eq_update⟩

/-- The event bit of an operation that stops at an end. -/
theorem State.cleatApply_event_bit {k : Nat} (hk : k < 32) (h : s.cleatEvent die i o = 2 ^ k) :
    ((s.cleatApply die i o).reg .cltSts (cleatKey die i)).getLsbD k = true ∧
      ((s.cleatApply die i o).reg .cltSatCnt die).toNat = min ((s.reg .cltSatCnt die).toNat + 1) 0xFFFFFFFF := by
  obtain ⟨hsts, hcnt⟩ := State.cleatApply_event hwf hx (o := o) (by rw [h]; exact Nat.two_pow_pos k |>.ne')
  refine ⟨?_, hcnt⟩
  rw [hsts, h, BitVec.getLsbD_or, getLsbD_two_pow hk]
  simp

end

/-- Settles O24: each command is `cleatOp`, by its way; a decrement without a zero notice is its `cleatApply`. -/
theorem cleatOperationsGiveTheirValues : Obligations.CleatOperationsGiveTheirValues := by
  intro s₀ s src ini die i n hs hwf hx hd hn
  have hc := State.wf_cleats hwf
  refine ⟨fun hp h0 => ?_, fun hp h0 => ?_, fun hp h0 hz => ?_, ?_, ?_, ?_⟩
  · rw [exec_cleatSignal hs h0 hn, exec_cleatDecrement hs h0 hn, State.cleatOp_held hx hd hp, State.cleatOp_held hx hd hp]
    exact ⟨rfl, rfl⟩
  · refine ⟨s.cleatApply die i (.signal n), ?_, State.cleatApply_moved hwf hx _, State.cleatApply_cleat_same hc, fun h => ?_, fun h => ?_⟩
    · rw [exec_cleatSignal hs h0 hn, State.cleatOp_signal (State.cleatWay_open hx hd hp)]
    · exact State.cleatApply_event_bit hwf hx (k := 0) (by decide) (if_pos h)
    · exact State.cleatApply_regs_no_event (if_neg (Nat.not_lt.2 h))
  · refine ⟨s.cleatApply die i (.decrement n), ?_, State.cleatApply_moved hwf hx _, State.cleatApply_cleat_same hc, fun h => ?_, fun h => ?_⟩
    · rw [exec_cleatDecrement hs h0 hn, State.cleatOp_decrement (State.cleatWay_open hx hd hp),
        State.zeroNotice_off (by rw [State.cleatApply_cltCfg hwf hx, hz])]
    · exact State.cleatApply_event_bit hwf hx (k := 1) (by decide) (if_pos h)
    · exact State.cleatApply_regs_no_event (if_neg (Nat.not_lt.2 h))
  · refine ⟨s.cleatApply die i (.set n), ?_, State.cleatApply_moved hwf hx _, ?_, State.cleatApply_regs_no_event rfl⟩
    · rw [exec_cleatSet, State.cleatOp_set (State.cleatWay_open hx hd (s.pathDown_hub die false))]
    · exact (State.cleatApply_cleat_same hc).trans (Nat.mod_eq_of_lt hn)
  · rw [hs]; rfl
  · rw [hs]; rfl

/-! ### Armed waits (03 R110) -/

section
variable {s u : State} {core die i t : Nat}

theorem exec_cleatArm (hcore : core < 32) (hx : cleatExists die i = true) (ht : t < 2 ^ 32) :
    exec (.cleatArm core die i t) s = .next ((s.intervene core die none).armWait core die i t) := by
  have hstore : s.coreStore core die = s.intervene core die none := by
    have hd : die < 5 := Nat.lt_succ_of_le (cleatExists_lt hx).1
    simp [State.coreStore, hcore, hd]
  show execCleatArm core die i t s = _
  rw [execCleatArm, hstore, Nat.mod_eq_of_lt ht]

variable (hx : cleatExists die i = true) (hd : u.dieDown die = false)
include hx hd

theorem State.armWait_due (h : t ≤ (u.cleat die i).toNat) : u.armWait core die i t = u.emit (.irq core causeCleat (die * 16384 + i)) := by
  simp [State.armWait, hx, hd, h]

theorem State.armWait_refused (h : (u.cleat die i).toNat < t) (hf : 64 ≤ (u.arms.filter fun a => a.core == core).length) :
    u.armWait core die i t = u.flag .cltSts (cleatKey die i) 0 4 := by
  simp [State.armWait, hx, hd, Nat.not_le.2 h, hf]

theorem State.armWait_armed (h : (u.cleat die i).toNat < t) (hf : (u.arms.filter fun a => a.core == core).length < 64) :
    u.armWait core die i t = { u with arms := u.arms ++ [⟨core, die, i, t⟩] } := by
  simp [State.armWait, hx, hd, Nat.not_le.2 h, Nat.not_le.2 hf]

end

theorem guardsFrom.cleat_eq {t s : State} (h : guardsFrom t s) (d j : Nat) : t.cleat d j = s.cleat d j := by
  obtain ⟨_, _, rfl⟩ := h; rfl

theorem guardsFrom.arms_eq {t s : State} (h : guardsFrom t s) : t.arms = s.arms := by
  obtain ⟨_, _, rfl⟩ := h; rfl

/-- Settles O25: the notice is a second `cleatApply`, at another Cleat; lost operations count; an arm by its three cases. -/
theorem zeroNoticesUndeliveredOperationsAndArmedWaits : Obligations.ZeroNoticesUndeliveredOperationsAndArmedWaits := by
  refine ⟨fun s₀ s src die i zd zi hs hwf => ⟨?_, fun h n h0 hn => ?_⟩, ?_⟩
  · intro hx hd hp hen hzd hzi hne hzx hzdown hzpath n hle hlt hv
    have hc := State.wf_cleats hwf
    have hi := (cleatExists_lt hx).2
    have hzlt := (cleatExists_lt hzx).2
    have hv0 : (s.cleat die i).toNat ≠ 0 := fun h => hv (BitVec.eq_of_toNat_eq h)
    have hcfg := State.cleatApply_cltCfg hwf hx (o := .decrement n)
    have hzero : ((s.cleatApply die i (.decrement n)).cleat die i).toNat = 0 :=
      (State.cleatApply_cleat_same hc).trans (Nat.sub_eq_zero_of_le hle)
    have hnotice := State.zeroNotice_open (hcfg ▸ hen) hv0 hzero (hcfg ▸ hzd) (hcfg ▸ hzi)
      (((s.cleatApply_from die i (.decrement n)).cleatWay_eq die zd zi).trans (State.cleatWay_open hzx hzdown hzpath))
    have hc' := State.cleatApply_cleats_wf (die := die) (i := i) (o := .decrement n) hc
    refine ⟨(s.cleatApply die i (.decrement n)).cleatApply zd zi (.signal 1), ?_, ?_, ?_, fun d j hd4 hj hdi hdz => ?_⟩
    · rw [exec_cleatDecrement hs (by omega) hlt, State.cleatOp_decrement (State.cleatWay_open hx hd hp), hnotice]
    · rw [State.cleatApply_cleat_ne hc' hzlt hi hne.symm]
      exact BitVec.eq_of_toNat_eq hzero
    · rw [State.cleatApply_cleat_same hc', State.cleatNext, State.cleatApply_cleat_ne hc hi hzlt hne]
      rfl
    · rw [State.cleatApply_cleat_ne hc' hzlt hj hdz, State.cleatApply_cleat_ne hc hi hj hdi]
  · rw [exec_cleatSignal hs h0 hn, exec_cleatDecrement hs h0 hn, State.cleatOp_lost h, State.cleatOp_lost h]
    refine ⟨rfl, rfl, fun ini => ?_⟩
    rw [exec_cleatSet, State.cleatOp_lost h]; rfl
  · rintro s _ core die i t hcore rfl hx hd ht
    have hguards := s.intervene_guards core die none
    have hcleat := hguards.cleat_eq die i
    have harms := hguards.arms_eq
    rw [exec_cleatArm hcore hx ht]
    refine ⟨fun h => ?_, fun h => ⟨fun hf => ?_, fun hf => ?_⟩⟩
    · rw [State.armWait_due hx hd (hcleat ▸ h)]; rfl
    · rw [State.armWait_armed hx hd (hcleat ▸ h) (harms ▸ hf), harms]
    · rw [State.armWait_refused hx hd (hcleat ▸ h) (harms ▸ hf)]

end Sys2Proof.Machine
end

section
/-! Where device addresses lie (12 R373 to R379, R395): two addresses never share a place, and the bytes of a line lie side by side. -/

namespace Sys2Proof.Machine

/-! ### Folding page numbers (12 R375) -/

theorem xorBits_lt (f a b : Nat) : xorBits f a b < 2 ^ f := (BitVec.ofNat f a ^^^ BitVec.ofNat f b).isLt

theorem xorBits_left_inj {f a b u : Nat} (h : xorBits f a u = xorBits f b u) : a % 2 ^ f = b % 2 ^ f := by
  have hx : BitVec.ofNat f a = BitVec.ofNat f b := (BitVec.xor_left_inj _).1 (BitVec.eq_of_toNat_eq h)
  simpa using congrArg BitVec.toNat hx

theorem foldPage4_inj {p q : Nat} (hh : p / 16 = q / 16) (h : foldPage4 p = foldPage4 q) : p = q := by
  have hb : ∀ hi lo, 4 ≤ lo → bits p hi lo = bits q hi lo := fun hi lo hlo => by
    have hpow : 2 ^ lo = 16 * 2 ^ (lo - 4) := by rw [show (16 : Nat) = 2 ^ 4 from rfl, ← Nat.pow_add]; congr 1; omega
    rw [bits, bits, hpow, ← Nat.div_div_eq_div_mul, ← Nat.div_div_eq_div_mul, hh]
  rw [foldPage4, foldPage4, hb 7 4 (by decide), hb 11 8 (by decide), hb 15 12 (by decide)] at h
  have hxor := xorBits_left_inj h
  rw [Nat.mod_eq_of_lt (xorBits_lt ..), Nat.mod_eq_of_lt (xorBits_lt ..)] at hxor
  have hlow := xorBits_left_inj hxor
  simp only [bits] at hlow
  omega

theorem foldPage2_inj {p q : Nat} (hh : p / 4 = q / 4) (h : foldPage2 p = foldPage2 q) : p = q := by
  have hb : ∀ hi lo, 2 ≤ lo → bits p hi lo = bits q hi lo := fun hi lo hlo => by
    have hpow : 2 ^ lo = 4 * 2 ^ (lo - 2) := by rw [show (4 : Nat) = 2 ^ 2 from rfl, ← Nat.pow_add]; congr 1; omega
    rw [bits, bits, hpow, ← Nat.div_div_eq_div_mul, ← Nat.div_div_eq_div_mul, hh]
  rw [foldPage2, foldPage2, hb 3 2 (by decide), hb 5 4 (by decide), hb 7 6 (by decide)] at h
  have hxor := xorBits_left_inj h
  rw [Nat.mod_eq_of_lt (xorBits_lt ..), Nat.mod_eq_of_lt (xorBits_lt ..)] at hxor
  have hlow := xorBits_left_inj hxor
  simp only [bits] at hlow
  omega

/-! ### The windows of the map (12 R373, R374, R395) -/

section
variable (s : State) (a p : Nat)

/-- The far tier is interleaved over two devices. -/
def State.interleaved : Prop := (s.mem.farInterleave && s.mem.far0.present && s.mem.far1.present) = true

/-- `a` lies in the interleaved HBM window, at `p`. -/
def State.atHbm : Prop := a < 2 ^ 40 ∧ p = foldPage4 (a / 4096) * 2 ^ 40 + (a / 4096 / 16 * 4096 + a % 4096) ∧
  a / 4096 / 16 * 4096 + a % 4096 + s.localBytes (foldPage4 (a / 4096)) < s.stackBytes

/-- `a` lies in a die's window of local HBM, at `p`. -/
def State.atLocal : Prop := 2 ^ 40 ≤ a ∧ a < 2 ^ 41 ∧ ∃ d b k, d = (a - 2 ^ 40) / 2 ^ 38 ∧ b = (a - 2 ^ 40) % 2 ^ 38 ∧ k = 4 * d + foldPage2 (b / 4096) ∧
  p = k * 2 ^ 40 + (s.stackBytes - s.localBytes k + b / 4096 / 4 * 4096 + b % 4096) ∧
  s.stackBytes - s.localBytes k + b / 4096 / 4 * 4096 + b % 4096 + 64 * 2 ^ 20 < s.stackBytes

/-- `a` lies in a die's SRAM, at `p`. -/
def State.atSram : Prop := 2 ^ 41 ≤ a ∧ a < 2 ^ 41 + 5 * 2 ^ 32 ∧ p = 2 ^ 48 + (a - 2 ^ 41)

/-- `a` lies in the far tier, at `p`. -/
def State.atFar : Prop := 2 ^ 42 ≤ a ∧ a < 2 ^ 43 ∧
  (s.interleaved ∧ p = 2 ^ 50 + (a - 2 ^ 42) / 4096 % 2 * 2 ^ 42 + ((a - 2 ^ 42) / 8192 * 4096 + (a - 2 ^ 42) % 4096)
    ∨ ¬ s.interleaved ∧ p = 2 ^ 50 + (a - 2 ^ 42) / 2 ^ 41 * 2 ^ 42 + (a - 2 ^ 42) % 2 ^ 41)

end

section
variable {s : State} {a b p q : Nat}

/-- An address of the map lies in one of its windows. -/
theorem State.place_window (h : s.place a = some p) : s.atHbm a p ∨ s.atLocal a p ∨ State.atSram a p ∨ s.atFar a p := by
  unfold State.place at h
  dsimp only at h
  split at h
  next ha =>
    split at h
    next hb => exact .inl ⟨ha, (Option.some.inj h).symm, hb⟩
    next => cases h
  next ha =>
    split at h
    next hlt =>
      split at h
      next hb => exact .inr (.inl ⟨by omega, by omega, _, _, _, rfl, rfl, rfl, (Option.some.inj h).symm, hb⟩)
      next => cases h
    next =>
      split at h
      next hs =>
        simp only [Bool.and_eq_true, decide_eq_true_eq] at hs
        have hp : p = 2 ^ 48 + (a - 2 ^ 41) := by
          split at h
          next hd =>
            split at h
            next hx =>
              have := Option.some.inj h
              simp only [placeSram, beq_iff_eq] at this hd
              omega
            next => cases h
          next =>
            split at h
            next =>
              have := Option.some.inj h
              simp only [placeSram] at this
              omega
            next =>
              split at h
              next =>
                have := Option.some.inj h
                simp only [placeSram] at this
                omega
              next => cases h
        exact .inr (.inr (.inl ⟨hs.1, hs.2, hp⟩))
      next =>
        split at h
        next hf =>
          simp only [Bool.and_eq_true, decide_eq_true_eq] at hf
          refine .inr (.inr (.inr ⟨hf.1, hf.2, ?_⟩))
          split at h
          next hi =>
            split at h
            next => exact .inl ⟨hi, (Option.some.inj h).symm⟩
            next => cases h
          next hi =>
            split at h
            next => exact .inr ⟨hi, (Option.some.inj h).symm⟩
            next => cases h
        next => cases h

theorem State.stackBytes_le (s : State) : s.stackBytes ≤ 2 ^ 36 := by
  unfold State.stackBytes; split <;> decide

theorem foldPage4_lt (p : Nat) : foldPage4 p < 2 ^ 4 := xorBits_lt ..
theorem foldPage2_lt (p : Nat) : foldPage2 p < 2 ^ 2 := xorBits_lt ..

/-- Where each window's places lie. -/
theorem State.atHbm.lt (h : s.atHbm a p) : p < 2 ^ 44 := by
  obtain ⟨-, hp, ho⟩ := h
  have := s.stackBytes_le
  have := foldPage4_lt (a / 4096)
  omega

theorem State.atLocal.lt (h : s.atLocal a p) : p < 2 ^ 44 := by
  obtain ⟨h1, h2, d, b, k, hd, -, hk, hp, ho⟩ := h
  have := s.stackBytes_le
  have := foldPage2_lt (b / 4096)
  have : k < 16 := by omega
  omega

theorem State.atHbm.inj (ha : s.atHbm a p) (hb : s.atHbm b p) : a = b := by
  obtain ⟨-, hp, ho⟩ := ha
  obtain ⟨-, hq, hr⟩ := hb
  have := s.stackBytes_le
  have hpage : a / 4096 = b / 4096 := foldPage4_inj (by omega) (by omega)
  omega

theorem State.atLocal.inj (ha : s.atLocal a p) (hb : s.atLocal b p) : a = b := by
  obtain ⟨h1, h2, d, x, k, hd, hx, hk, hp, ho⟩ := ha
  obtain ⟨h3, h4, e, y, j, he, hy, hj, hq, hr⟩ := hb
  have := s.stackBytes_le
  have := foldPage2_lt (x / 4096)
  have := foldPage2_lt (y / 4096)
  obtain rfl : k = j := by omega
  have hpage : x / 4096 = y / 4096 := foldPage2_inj (by omega) (by omega)
  omega

theorem State.atHbm.not_atLocal (ha : s.atHbm a p) (hb : s.atLocal b p) : False := by
  obtain ⟨-, hp, ho⟩ := ha
  obtain ⟨-, -, e, y, j, -, -, -, hq, hr⟩ := hb
  have := s.stackBytes_le
  obtain hk : foldPage4 (a / 4096) = j := by omega
  rw [hk] at hp ho
  omega

theorem State.atFar.inj (ha : s.atFar a p) (hb : s.atFar b p) : a = b := by
  obtain ⟨_, _, ⟨hi, hp⟩ | ⟨hi, hp⟩⟩ := ha
  · obtain ⟨_, _, ⟨_, hq⟩ | ⟨hj, _⟩⟩ := hb
    · have hhalf (x : Nat) : x / 8192 = x / 4096 / 2 := (Nat.div_div_eq_div_mul x 4096 2).symm
      have hport : (a - 2 ^ 42) / 4096 % 2 = (b - 2 ^ 42) / 4096 % 2 := by omega
      have hpair : (a - 2 ^ 42) / 8192 = (b - 2 ^ 42) / 8192 := by omega
      rw [hhalf, hhalf] at hpair
      omega
    · exact absurd hi hj
  · obtain ⟨_, _, ⟨hj, _⟩ | ⟨_, hq⟩⟩ := hb
    · exact absurd hj hi
    · omega

theorem State.atSram.bounds (h : State.atSram a p) : 2 ^ 48 ≤ p ∧ p < 2 ^ 49 := by
  obtain ⟨_, _, hp⟩ := h; omega

theorem State.atFar.le (h : s.atFar a p) : 2 ^ 50 ≤ p := by
  obtain ⟨_, _, ⟨-, hp⟩ | ⟨-, hp⟩⟩ := h <;> omega

/-- Two device addresses never share a place. -/
theorem State.place_inj (ha : s.place a = some p) (hb : s.place b = some p) : a = b := by
  obtain ha | ha | ha | ha := State.place_window ha <;> obtain hb | hb | hb | hb := State.place_window hb
  · exact ha.inj hb
  · exact (ha.not_atLocal hb).elim
  · have := ha.lt; have := hb.bounds; omega
  · have := ha.lt; have := hb.le; omega
  · exact (hb.not_atLocal ha).elim
  · exact ha.inj hb
  · have := ha.lt; have := hb.bounds; omega
  · have := ha.lt; have := hb.le; omega
  · have := hb.lt; have := ha.bounds; omega
  · have := hb.lt; have := ha.bounds; omega
  · have := ha.2.2; have := hb.2.2; have := ha.1; have := hb.1; omega
  · have := ha.bounds; have := hb.le; omega
  · have := hb.lt; have := ha.le; omega
  · have := hb.lt; have := ha.le; omega
  · have := hb.bounds; have := ha.le; omega
  · exact ha.inj hb

/-- The bytes of a line lie side by side. -/
theorem State.place_add {i : Nat} (h64 : a % 64 = 0) (hi : i < 64) (ha : s.place a = some p) (hb : s.place (a + i) = some q) : q = p + i := by
  obtain ha | ha | ha | ha := State.place_window ha <;> obtain hb | hb | hb | hb := State.place_window hb
  · obtain ⟨-, hp, -⟩ := ha
    obtain ⟨-, hq, -⟩ := hb
    rw [show (a + i) / 4096 = a / 4096 by omega] at hq
    omega
  · have := ha.1; have := hb.1; omega
  · have := ha.1; have := hb.1; omega
  · have := ha.1; have := hb.1; omega
  · have := ha.1; have := hb.1; omega
  · obtain ⟨h1, h2, d, x, k, hd, hx, hk, hp, -⟩ := ha
    obtain ⟨-, -, e, y, j, he, hy, hj, hq, -⟩ := hb
    obtain rfl : y = x + i := by omega
    have hpage : (x + i) / 4096 = x / 4096 := by omega
    obtain rfl : j = k := by rw [hk, hj, hpage]; omega
    rw [hpage] at hq
    omega
  · have := ha.2.1; have := hb.1; omega
  · have := ha.2.1; have := hb.1; omega
  · have := ha.1; have := hb.1; omega
  · have := ha.1; have := hb.2.1; omega
  · have := ha.2.2; have := hb.2.2; have := ha.1; omega
  · have := ha.2.1; have := hb.1; omega
  · have := ha.1; have := hb.1; omega
  · have := ha.1; have := hb.2.1; omega
  · have := ha.1; have := hb.2.1; omega
  · obtain ⟨h1, h2, ⟨hi1, hp⟩ | ⟨hi1, hp⟩⟩ := ha
    · obtain ⟨-, -, ⟨-, hq⟩ | ⟨hj, -⟩⟩ := hb
      · rw [show (a + i - 2 ^ 42) / 4096 = (a - 2 ^ 42) / 4096 by omega, show (a + i - 2 ^ 42) / 8192 = (a - 2 ^ 42) / 8192 by omega] at hq
        omega
      · exact absurd hi1 hj
    · obtain ⟨-, -, ⟨hj, -⟩ | ⟨-, hq⟩⟩ := hb
      · exact absurd hj hi1
      · omega
end
end Sys2Proof.Machine
end

section
/-! The completion of an item: its record, where it is written, and what that leaves alone (03 R113 to R116). -/

namespace Sys2Proof.Machine

/-! ### A line written -/

/-- A write of a whole line of HBM or SRAM, or of a root port that is up. -/
theorem State.wr_line (s : State) {a p : Nat} {bs : List Byte} (hl : bs.length = 64) (h64 : a % 64 = 0) (hp : s.place a = some p)
    (hf : s.farDown a = false) (bad : Bool) : s.wr a bs bad = { s with mem := s.mem.writeLine p bs bad } := by
  have hne : bs.isEmpty = false := by cases bs <;> simp at hl ⊢
  have hmin : min bs.length (64 - a % 64) = 64 := by omega
  have htake : bs.take 64 = bs := List.take_of_length_le (by omega)
  have hdrop : bs.drop 64 = [] := List.drop_of_length_le (by omega)
  rw [State.wr, hl, State.wrLines, hne]
  simp only [hmin, htake, hdrop, hf, hp, Bool.false_eq_true, if_false]
  rw [State.wrLines]
  rfl

theorem Mem.setBytes_frame (m : Mem) (p : Nat) (bs : List Byte) : m.setBytes p bs = { m with bytes := (m.setBytes p bs).bytes } := by
  induction bs generalizing m p with
  | nil => rfl
  | cons b bs ih => rw [Mem.setBytes, ih]; rfl

theorem Mem.writeLine_frame (m : Mem) (p : Nat) (bs : List Byte) (bad : Bool) : ∃ bytes poison markDue,
    m.writeLine p bs bad = { m with bytes := bytes, poison := poison, markDue := markDue } := by
  rw [Mem.writeLine, Mem.setBytes_frame]
  exact ⟨_, _, _, rfl⟩

section
variable {s t : State} {a p : Nat} {bs : List Byte} {bad : Bool}

/-- The place of an address hangs on the map alone: LOCAL_GIB and the far tier's devices. -/
theorem State.place_writeLine (hs : t.small = s.small) (hl : ∀ k, t.localBytes k = s.localBytes k) (hm : t.mem = s.mem.writeLine p bs bad) (b : Nat) :
    t.place b = s.place b := by
  obtain ⟨_, _, _, hframe⟩ := s.mem.writeLine_frame p bs bad
  rw [hframe] at hm
  simp only [State.place, State.farPort, State.stackBytes, hl, hs, hm]
  rfl

variable (hplace : ∀ b, t.place b = s.place b) (hm : t.mem = s.mem.writeLine p bs bad) (hwf : s.mem.wf = true) (hlen : bs.length = 64)
  (h64 : a % 64 = 0) (hall : ∀ i < 64, (s.place (a + i)).isSome = true) (hp : s.place a = some p)
include hplace hm hwf hlen h64 hall hp

/-- A line written is read back. -/
theorem State.rdBytes_writeLine : t.rdBytes a 64 = bs := by
  refine List.ext_getElem (by simp [State.rdBytes, hlen]) fun i hi hi' => ?_
  obtain ⟨q, hq⟩ := Option.isSome_iff_exists.1 (hall i (by omega))
  obtain rfl := State.place_add h64 (by omega) hp hq
  simp only [State.rdBytes, List.getElem_map, List.getElem_range, State.rdByte, hplace, hq, hm, Mem.byteAt_writeLine,
    Mem.byteAt_setBytes hwf p bs hi', List.getD_eq_getElem _ _ hi']

/-- A line written leaves every other byte. -/
theorem State.rdByte_writeLine_outside {b : Nat} (hb : b < a ∨ a + 64 ≤ b) : t.rdByte b = s.rdByte b := by
  rw [State.rdByte, State.rdByte, hplace, hm]
  cases hq : s.place b with
  | none => rfl
  | some q =>
    refine Mem.byteAt_setBytes_outside hwf p bs ?_
    by_contra hin
    obtain ⟨r, hr⟩ := Option.isSome_iff_exists.1 (hall (q - p) (by omega))
    have hrq : r = q := (State.place_add h64 (by omega) hp hr).trans (by omega)
    have := State.place_inj (hrq ▸ hr) hq
    omega

end

/-! ### The record (03 R113, R115) -/
/-- FLAGS of an item's completion record. -/
def Item.recFlags (x : Item) : Nat :=
  b2n x.res.poison + 2 * b2n x.late + 4 * b2n x.retried + 8 * b2n x.chained + 16 * b2n x.res.partialOut

theorem flags_bits : ∀ a b c d e : Bool, b2n a + 2 * b2n b + 4 * b2n c + 8 * b2n d + 16 * b2n e < 256 ∧
    bit (b2n a + 2 * b2n b + 4 * b2n c + 8 * b2n d + 16 * b2n e) 0 = a ∧ bit (b2n a + 2 * b2n b + 4 * b2n c + 8 * b2n d + 16 * b2n e) 1 = b ∧
    bit (b2n a + 2 * b2n b + 4 * b2n c + 8 * b2n d + 16 * b2n e) 2 = c ∧ bit (b2n a + 2 * b2n b + 4 * b2n c + 8 * b2n d + 16 * b2n e) 3 = d := by
  decide

/-- The flags of a record, bit by bit. -/
theorem Item.recFlags_bits (x : Item) : x.recFlags < 256 ∧ bit x.recFlags 0 = x.res.poison ∧ bit x.recFlags 1 = x.late ∧
    bit x.recFlags 2 = x.retried ∧ bit x.recFlags 3 = x.chained := flags_bits ..

theorem primaryStatus_lt (l : List Nat) : primaryStatus l < 256 := by
  rw [primaryStatus]
  cases h : statusOrder.find? fun c => l.contains c with
  | none => decide
  | some c =>
    have : ∀ c ∈ statusOrder, c < 256 := by decide
    exact this c (List.mem_of_find?_eq_some h)

theorem fld_lt (x off n : Nat) : fld x off n < 2 ^ (8 * n) := Nat.mod_lt _ (Nat.two_pow_pos _)

/-- A field within a field. -/
theorem fld_fld (x off m i n : Nat) (h : i + n ≤ m) : fld (fld x off m) i n = fld x (off + i) n := by
  have hm : 8 * m = 8 * i + (8 * (m - i)) := by omega
  have hn : 2 ^ (8 * n) ∣ 2 ^ (8 * (m - i)) := Nat.pow_dvd_pow 2 (by omega)
  rw [fld, fld, fld, hm, Nat.pow_add, Nat.mod_mul_right_div_self, Nat.mod_mod_of_dvd _ hn, Nat.div_div_eq_div_mul, ← Nat.pow_add, Nat.mul_add]

/-- The fields of a number made of words side by side. -/
theorem fld_words {w0 w1 w2 w3 w4 : Nat} (h0 : w0 < 2 ^ 64) (h1 : w1 < 2 ^ 64) (h2 : w2 < 2 ^ 64) (h3 : w3 < 2 ^ 64) (h4 : w4 < 2 ^ 128) {w5 : Nat}
    (h5 : w5 < 2 ^ 128) {r : Nat} (hr : r = w0 + w1 * 2 ^ 64 + w2 * 2 ^ 128 + w3 * 2 ^ 192 + w4 * 2 ^ 256 + w5 * 2 ^ 384) :
    fld r 0 8 = w0 ∧ fld r 8 8 = w1 ∧ fld r 0x10 8 = w2 ∧ fld r 0x20 16 = w4 ∧ fld r 0x30 16 = w5 := by
  simp only [fld]
  omega

section
variable (x : Item) {region status cflags cycles : Nat} (detail : Nat) (c : Counts) {r : Nat}

/-- The fields of a completion record (03 R113). -/
theorem recordBits_fields (hs : status < 256) (hf : cflags < 256) (hr : region < 16) (hu : x.units < 2 ^ 32) (hcy : cycles < 2 ^ 32)
    (h : r = recordBits x region status cflags detail cycles c) :
    fld r 0 4 = x.tag ∧ fld r 4 1 = status ∧ fld r 5 1 = cflags ∧ fld r 6 1 = region ∧ fld r 8 2 = x.gen % 65536 ∧
      fld r 0x10 8 = x.start.getD 0 % 2 ^ 64 ∧ fld r 0x20 4 = min c.saturated 0xFFFFFFFF ∧ fld r 0x30 4 = min c.nonfinite 0xFFFFFFFF := by
  have htag : x.tag < 2 ^ 32 := fld_lt ..
  have hlayer : x.layer < 2 ^ 16 := fld_lt ..
  have hsat (n : Nat) : sat32 n < 2 ^ 32 := by unfold sat32; omega
  obtain ⟨h0, h1, h2, h4, h5⟩ := fld_words (by omega) (by omega) (Nat.mod_lt _ (by decide)) (by omega)
    (by have := hsat c.saturated; have := hsat c.flushed; have := hsat c.clipped; have := hsat c.zeros; omega)
    (by have := hsat c.nonfinite; have := hsat c.escaped; have := hsat c.outlierOvf; have := hsat c.zeroBlocks; omega) h
  have hfirst (i n : Nat) (hn : i + n ≤ 8) := (fld_fld r 0 8 i n hn).symm.trans (congrArg (fld · i n) h0)
  have hsecond := (fld_fld r 8 8 0 2 (by decide)).symm.trans (congrArg (fld · 0 2) h1)
  have hfifth := (fld_fld r 0x20 16 0 4 (by decide)).symm.trans (congrArg (fld · 0 4) h4)
  have hlast := (fld_fld r 0x30 16 0 4 (by decide)).symm.trans (congrArg (fld · 0 4) h5)
  refine ⟨(hfirst 0 4 (by decide)).trans ?_, (hfirst 4 1 (by decide)).trans ?_, (hfirst 5 1 (by decide)).trans ?_,
    (hfirst 6 1 (by decide)).trans ?_, hsecond.trans ?_, h2, hfifth.trans ?_, hlast.trans ?_⟩ <;> simp only [fld, sat32] <;> omega

end

/-! ### The completion -/

/-- The statuses that an item's run gives: poisoned outputs, and those of its result. -/
def Item.given (x : Item) : List Nat := (if x.res.poison then [0x01] else []) ++ x.res.statuses.map (·.1)

/-- An item outside every step and tracker, with no result, signal, share check or pin. -/
structure Item.Plain (x : Item) : Prop where
  watch : 16384 ≤ x.watch
  stepSlot : 16 ≤ x.stepSlot
  shares : x.res.shares = false
  nonfin : x.res.nonfin = false
  result : x.res.result = none
  signal0 : sigEn (x.signal 0) = false
  signal1 : sigEn (x.signal 1) = false
  pin : x.pin = none

/-- One completion more; a collective that ended well is not aborted. -/
def State.completed (s : State) (region slot st : Nat) : State :=
  { s with doneCtr := s.doneCtr + 1
           colls := if st == stDone || st == stPoisoned then tset dN s.colls (itemKey region slot) none else s.colls }

/-- An item with its place in the order of completions; it holds no pin. -/
def Item.completed (x : Item) (n : Nat) : Item := { x with doneSeq := n, counted := 0, pin := none }

/-- The completion of a plain item is the delivery of its record. -/
theorem State.finish_plain (s : State) (region slot : Nat) {x : Item} (h : x.Plain) : ∃ detail cycles, cycles < 2 ^ 32 ∧
    s.finish region slot x = (s.completed region slot (primaryStatus x.given)).deliver region slot (x.completed (s.doneCtr + 1))
      (recordBits (x.completed (s.doneCtr + 1)) region (primaryStatus x.given) x.recFlags detail cycles x.res.counts) false := by
  obtain ⟨hw, hst, hsh, hnf, hr, h0, h1, hp⟩ := h
  have hgiven : (if x.res.poison then stPoisoned :: x.res.statuses.map (·.1) else x.res.statuses.map (·.1)) = x.given := by
    cases hb : x.res.poison <;> simp [Item.given, hb, stPoisoned]
  have hc : s.contribute x (primaryStatus x.given) = s := by rw [State.contribute, if_pos hw]
  have hs : ¬ x.stepSlot < 16 := by omega
  have hshare : (bits 0 1 0 != 0) = false := rfl
  have hovf : bit 0 3 = false := rfl
  have hcyc : (if x.start.isSome then sat32 (s.cycle - x.startCyc) else 0) < 2 ^ 32 := by unfold sat32; split <;> omega
  rw [State.finish]
  simp only [hgiven, hsh, hnf, hr, h0, h1, hs, hc, hshare, hovf, Bool.false_eq_true, if_false, List.append_nil, Bool.false_and, Bool.and_false,
    BitVec.or_self, BitVec.toNat_zero, beq_self_eq_true, if_true, Bool.or_self, State.dropPin, hp]
  exact ⟨_, _, hcyc, rfl⟩

section
variable {s : State} {region slot ring r : Nat} {x : Item}

theorem State.deliver_written (h0 : sigEn (x.signal 0) = false) (h1 : sigEn (x.signal 1) = false) (hr : x.compRing = ring)
    (hon : s.ringOn region ring = true) (hfull : s.ringFull region ring = false) (hheld : s.recordHeld region ring = false) (r : Nat) :
    s.deliver region slot x r false = (s.putRecord region ring r).setItem region slot none := by
  have hring : s.recordRing region ring = some ring := by rw [State.recordRing, if_pos hon]
  have hsig (t : State) (k w : Nat) (hw : sigEn w = false) : t.issueSignal region slot k w = t := by simp [State.issueSignal, hw]
  simp only [State.deliver, hr, hring, hfull, hheld, Bool.false_eq_true, if_false, State.releaseSlot, hsig _ _ _ h0, hsig _ _ _ h1, ite_self]

/-- `t` is `s` but for memory, registers, items, the order of completions, collectives, and what goes out. -/
abbrev recordFrom (t s : State) : Prop := ∃ mem regs items doneCtr colls out,
  t = { s with mem := mem, regs := regs, items := items, doneCtr := doneCtr, colls := colls, out := out }

theorem recordFrom.trans {u t s : State} (h : recordFrom u t) (k : recordFrom t s) : recordFrom u s := by
  obtain ⟨_, _, _, _, _, _, rfl⟩ := h; obtain ⟨_, _, _, _, _, _, rfl⟩ := k; exact ⟨_, _, _, _, _, _, rfl⟩
theorem itemsFrom.record {t s : State} (h : itemsFrom t s) : recordFrom t s := by obtain ⟨_, _, rfl⟩ := h; exact ⟨_, _, _, _, _, _, rfl⟩
theorem State.emit_record (s : State) (o : Out) : recordFrom (s.emit o) s := ⟨_, _, _, _, _, _, rfl⟩
theorem State.with_mem_record (s : State) (m : Mem) : recordFrom { s with mem := m } s := ⟨_, _, _, _, _, _, rfl⟩
theorem State.setReg_with_mem (s : State) (m : Mem) (q : Reg) (i e : Nat) (v : Word) :
    (({ s with mem := m } : State).setReg q i e v).regs = (s.setReg q i e v).regs := rfl

/-- A record put into its ring: the line written, the tail moved on, and maybe an interrupt. -/
theorem State.putRecord_line (s : State) {a p : Nat} (ha : a = s.cqBase region ring + (s.reg .cqTail region ring).toNat % s.ringSize region ring * 64)
    (h64 : a % 64 = 0) (hp : s.place a = some p) (hf : s.farDown a = false) (r : Nat) : recordFrom (s.putRecord region ring r) s ∧
      (s.putRecord region ring r).mem = s.mem.writeLine p (leBytes 64 r) false ∧
      (s.putRecord region ring r).regs = (s.setReg .cqTail region ring (s.reg .cqTail region ring + 1)).regs ∧
      (s.putRecord region ring r).items = s.items := by
  have hmem := s.with_mem_record (s.mem.writeLine p (leBytes 64 r) false)
  have hset := (State.setReg_regs { s with mem := s.mem.writeLine p (leBytes 64 r) false } .cqTail region ring (s.reg .cqTail region ring + 1)).items.record
  rw [State.putRecord, ← ha, State.wr_line s (leBytes_length 64 r) h64 hp hf]
  generalize s.mem.writeLine p (leBytes 64 r) false = m at hmem hset
  split
  · exact ⟨(State.emit_record ..).trans (hset.trans hmem), by rw [State.emit_mem, State.setReg_mem], by rw [State.emit_regs, State.setReg_with_mem],
      by rw [State.emit_items, State.setReg_items]⟩
  · exact ⟨hset.trans hmem, by rw [State.setReg_mem], by rw [State.setReg_with_mem], by rw [State.setReg_items]⟩

/-- `t` is `s` but for the order of completions and collectives. -/
abbrev doneFrom (t s : State) : Prop := ∃ doneCtr colls, t = { s with doneCtr := doneCtr, colls := colls }

theorem State.completed_done (s : State) (region slot st : Nat) : doneFrom (s.completed region slot st) s := ⟨_, _, rfl⟩

section
variable {t s : State} (h : doneFrom t s)
include h

theorem doneFrom.reg_eq (q : Reg) (i e : Nat) : t.reg q i e = s.reg q i e := by obtain ⟨_, _, rfl⟩ := h; rfl
theorem doneFrom.setReg_eq (q : Reg) (i e : Nat) (v : Word) : (t.setReg q i e v).regs = (s.setReg q i e v).regs := by obtain ⟨_, _, rfl⟩ := h; rfl
theorem doneFrom.ringOn_eq (i k : Nat) : t.ringOn i k = s.ringOn i k := by obtain ⟨_, _, rfl⟩ := h; rfl
theorem doneFrom.ringFull_eq (i k : Nat) : t.ringFull i k = s.ringFull i k := by obtain ⟨_, _, rfl⟩ := h; rfl
theorem doneFrom.ringSize_eq (i k : Nat) : t.ringSize i k = s.ringSize i k := by obtain ⟨_, _, rfl⟩ := h; rfl
theorem doneFrom.cqBase_eq (i k : Nat) : t.cqBase i k = s.cqBase i k := by obtain ⟨_, _, rfl⟩ := h; rfl
theorem doneFrom.place_eq (a : Nat) : t.place a = s.place a := by obtain ⟨_, _, rfl⟩ := h; rfl
theorem doneFrom.calm_eq : t.calm = s.calm := by obtain ⟨_, _, rfl⟩ := h; rfl
theorem doneFrom.dieDown_eq (d : Nat) : t.dieDown d = s.dieDown d := by obtain ⟨_, _, rfl⟩ := h; rfl
theorem doneFrom.pathDown_eq (i d : Nat) (b : Bool) : t.pathDown i d b = s.pathDown i d b := by obtain ⟨_, _, rfl⟩ := h; rfl
theorem doneFrom.recordHeld_eq (i k : Nat) : t.recordHeld i k = s.recordHeld i k := by
  simp only [State.recordHeld, doneFrom.calm_eq h, doneFrom.place_eq h, doneFrom.cqBase_eq h, doneFrom.reg_eq h, doneFrom.ringSize_eq h,
    doneFrom.dieDown_eq h, doneFrom.pathDown_eq h]
theorem doneFrom.farDown_eq (a : Nat) : t.farDown a = s.farDown a := by obtain ⟨_, _, rfl⟩ := h; rfl
theorem doneFrom.mem_eq : t.mem = s.mem := by obtain ⟨_, _, rfl⟩ := h; rfl
theorem doneFrom.items_eq : t.items = s.items := by obtain ⟨_, _, rfl⟩ := h; rfl

end

theorem doneFrom.record {t s : State} (h : doneFrom t s) : recordFrom t s := by obtain ⟨_, _, rfl⟩ := h; exact ⟨_, _, _, _, _, _, rfl⟩

theorem State.setItem_tset (s : State) (region slot : Nat) (y : Option Item) :
    (s.setItem region slot y).items = tset dItem s.items (itemKey region slot) y := rfl

/-- The completion of a plain item whose ring is on and has room: one line, one tail, one slot. -/
theorem State.finish_plain_written {a p : Nat} (hx : x.Plain) (hon : s.ringOn region x.compRing = true)
    (hfull : s.ringFull region x.compRing = false) (hheld : s.recordHeld region x.compRing = false)
    (ha : a = s.cqBase region x.compRing + (s.reg .cqTail region x.compRing).toNat % s.ringSize region x.compRing * 64)
    (h64 : a % 64 = 0) (hp : s.place a = some p) (hf : s.farDown a = false) : ∃ (t : State) (r detail cycles : Nat),
    s.finish region slot x = t ∧ cycles < 2 ^ 32 ∧
      r = recordBits (x.completed (s.doneCtr + 1)) region (primaryStatus x.given) x.recFlags detail cycles x.res.counts ∧
      recordFrom t s ∧ t.mem = s.mem.writeLine p (leBytes 64 r) false ∧
      t.regs = (s.setReg .cqTail region x.compRing (s.reg .cqTail region x.compRing + 1)).regs ∧
      t.items = tset dItem s.items (itemKey region slot) none := by
  obtain ⟨detail, cycles, hcyc, hfin⟩ := s.finish_plain region slot hx
  have hu := s.completed_done region slot (primaryStatus x.given)
  generalize hr : recordBits (x.completed (s.doneCtr + 1)) region (primaryStatus x.given) x.recFlags detail cycles x.res.counts = r at hfin
  generalize s.completed region slot (primaryStatus x.given) = u at hfin hu
  rw [State.deliver_written (x := x.completed (s.doneCtr + 1)) hx.signal0 hx.signal1 (rfl : _ = x.compRing) ((hu.ringOn_eq ..).trans hon) ((hu.ringFull_eq ..).trans hfull)
    ((hu.recordHeld_eq ..).trans hheld)] at hfin
  have hreg := hu.reg_eq .cqTail region x.compRing
  obtain ⟨hframe, hmem, hregs, hitems⟩ := State.putRecord_line (region := region) (ring := x.compRing) u
    (by rw [hreg, hu.cqBase_eq, hu.ringSize_eq]; exact ha) h64 ((hu.place_eq a).trans hp) ((hu.farDown_eq a).trans hf) r
  refine ⟨_, r, detail, cycles, hfin, hcyc, hr.symm, ?_, ?_, ?_, ?_⟩
  · exact (State.setItem_items ..).record.trans (hframe.trans hu.record)
  · rw [State.setItem_mem, hmem, hu.mem_eq]
  · rw [State.setItem_regs, hregs, hreg, hu.setReg_eq]
  · rw [State.setItem_tset, hitems, hu.items_eq]

end

theorem regKey_wrkB {q : Reg} (hb : (regDef q).blk = .wrkB) (region e : Nat) :
    regKey q region e = region / 4 * 2 ^ 28 + (0x1000000 * (region % 4 + 1) + (regDef q).off + (regDef q).stride * e) / 4 := by
  simp [regKey, regPlace, hb, blkBase, offKey, regionDie]

/-- The ring tails lie apart from the memory map. -/
theorem regKey_memMap_ne_cqTail (k region : Nat) {ring : Nat} (h : ring < 8) : regKey .memMap k 0 ≠ regKey .cqTail region ring := by
  have hmap : (regDef .memMap).off = 8 := by decide
  have hoff : (regDef .cqTail).off < 0x10000 ∧ (regDef .cqTail).stride < 0x10000 := by decide
  have hmul := Nat.mul_le_mul hoff.2.le h.le
  rw [regKey_memMap, hmap, regKey_wrkB (by decide)]
  omega

/-- Settles O23: the completion of a plain item delivers its record, which is one line written at the ring's tail. -/
theorem completionWritesTheRecord : Obligations.CompletionWritesTheRecord := by
  rintro s region slot x hwf hregion hwatch hstep hshares hnonfin hresult h0 h1 hon hfull hheld hpin _ a rfl ha hall hf h64 hunits
  obtain ⟨p, hp⟩ := Option.isSome_iff_exists.1 (hall 0 (by decide))
  obtain ⟨t, r, detail, cycles, hfin, hcyc, hr, hframe, hmem, hregs, hitems⟩ := State.finish_plain_written (slot := slot)
    ⟨hwatch, hstep, hshares, hnonfin, hresult, h0, h1, hpin⟩ hon hfull hheld ha h64 hp hf
  obtain ⟨hflags, hpoison, hlate, hretried, hchained⟩ := x.recFlags_bits
  obtain ⟨htag, hst, hfl, hreg, hgen, hstart, hsat, hnf⟩ := recordBits_fields _ detail _ (primaryStatus_lt x.given) hflags hregion hunits hcyc hr
  have hreg' (q : Reg) (i e : Nat) : t.reg q i e = (s.setReg .cqTail region x.compRing (s.reg .cqTail region x.compRing + 1)).reg q i e := by
    rw [State.reg, State.regK, hregs]; rfl
  have hlocal (k : Nat) : t.localBytes k = s.localBytes k := by
    have hkey : regKey .memMap k 0 ≠ regKey .cqTail region x.compRing := regKey_memMap_ne_cqTail k region (Nat.mod_lt _ (by decide))
    rw [State.localBytes, hreg', State.reg_setReg_ne hwf _ _ _ _ _ _ _ hkey]; rfl
  have hsmall : t.small = s.small := by obtain ⟨_, _, _, _, _, _, h⟩ := hframe; rw [h]
  have hplace := State.place_writeLine hsmall hlocal hmem
  have hlen := leBytes_length 64 r
  refine ⟨t, r, hfin, ?_, htag, hst, hreg, hgen, hstart, hfl ▸ hpoison, hfl ▸ hlate, hfl ▸ hretried, hfl ▸ hchained, hsat, hnf,
    State.rdBytes_writeLine hplace hmem (State.wf_mem hwf) hlen h64 hall hp,
    fun b hb => State.rdByte_writeLine_outside hplace hmem (State.wf_mem hwf) hlen h64 hall hp hb, ?_, ?_⟩
  · rw [State.item, hitems, tget_tset_same (State.wf_items hwf)]
  · rw [hreg', State.reg_setReg_same hwf]
  · obtain ⟨_, _, _, _, _, _, h⟩ := hframe
    rw [h]
    exact ⟨rfl, rfl, rfl, rfl⟩

end Sys2Proof.Machine
end

section
/-! A fetch block that ends a chained item's requests (03 R99, R101), in a state whose item table lists a slot twice. -/

namespace Sys2Proof.Machine

/-- A COPY-like vector item, FLAGS CHAIN, with one stream whose list, at address 0, holds one data entry. -/
def chainedRaw : Nat := 0x2000 + 2 ^ 16 + 2 ^ 49 * 2 ^ (8 * 0x48)

/-- It runs; the bytes of its data entry have been read: one row of one byte at address 0, not scaled. -/
def chainedItem : Item :=
  { State.reset.newItem 0 chainedRaw 1 with stage := .running, fetched := [(40, some 1#8), (44, some 1#8), (47, some 0x90#8)] }

/-- The item that follows it in ring order. -/
def successorItem : Item := { State.reset.newItem 0 chainedRaw 0 with stage := .admitted }

/-- A state whose item table lists slot 0 of region 0 twice: the running item, which is read there, and its successor. -/
def doublyListed : State := { State.reset with items := [(0, some chainedItem), (0, some successorItem)] }

/-- What stands in slot 0 of region 0 after a command. -/
def stageAfter (c : Instr) (s : State) : Option Stage :=
  match exec c s with
  | .next t => (t.item 0 0).map (·.stage)
  | _ => none

theorem stageAfter_next {c : Instr} {s t : State} (h : exec c s = .next t) : stageAfter c s = (t.item 0 0).map (·.stage) := by
  rw [stageAfter, h]

/-- Refutes O22: on `doublyListed` the last block of the running item marks its successor CHAINED at the slot of both, so that the item
read there is admitted, not running. The statement asks nothing of the form of the state. -/
theorem not_itemsGatesFetchesAndCompletion : ¬ Obligations.ItemsGatesFetchesAndCompletion := by
  intro h
  have hstart : doublyListed.startItem 0 0 chainedItem = some (doublyListed, chainedItem) := by decide +kernel
  obtain ⟨t, z, hexec, -, hitem, hstage, -⟩ := ((h doublyListed 0 0 chainedItem rfl).2.2.2.1 0 1 0 false doublyListed chainedItem
    ⟨0, 1, 1, 9, false, false, false, 0x9000, 0, 0, 0, 0⟩ 0 1 (by decide +kernel) (by decide) (by decide) (by decide +kernel) (by decide) hstart).2
      (by decide +kernel) (by decide +kernel) (by decide +kernel)
  have hadmitted : stageAfter (.fetchBlockArrive 0 0 0 1 0 (doublyListed.gen 2 0) false) doublyListed = some .admitted := by decide +kernel
  rw [stageAfter_next hexec, hitem, Option.map_some, hstage] at hadmitted
  exact absurd hadmitted (by decide)

end Sys2Proof.Machine
end

section
/-! The admission of the descriptor at the ring's head (03 R82, R88, R90, R92 to R95; 12 R380; 14 R483). -/

namespace Sys2Proof.Machine

section
variable {s : State} {region slot a : Nat}

/-- The descriptor at the head of a ring that takes it: it enters the lowest free slot, and what became ready moves. -/
theorem exec_descriptorAdmit (hon : bit (s.reg .sqCfg region).toNat 31 = true) (hne : s.reg .sqHead region ≠ s.reg .sqTail region)
    (hf : s.frozen ⟨2, region⟩ = false) (hroom : s.items.length < 4096)
    (ha : a = s.sqBase region + (s.reg .sqHead region).toNat % s.sqSize region * 128) (hheld : s.heldAt (regionDie region) a = false)
    (hslot : s.freeSlot region = some slot)
    (hunits : (maskUsed (s.newItem region (s.rd a 128) 0).engine && s.maskFrozen region (s.newItem region (s.rd a 128) 0).mask) = false) :
    exec (.descriptorAdmit region) s
      = .next (s.admitRaw region slot (s.rd a 128) (s.poisonedIn a 128 || !s.mapped a 128)).settle := by
  subst ha
  have hne' : (s.reg .sqHead region == s.reg .sqTail region) = false := by simpa using hne
  show execDescriptorAdmit region s = _
  simp only [execDescriptorAdmit, hon, hne', hf, hheld, hslot, hunits, Nat.not_le.2 hroom, decide_false, Bool.not_true, Bool.or_self,
    Bool.false_eq_true, if_false]

end

section
variable {s u w : State} {region slot raw : Nat} {x : Item}

/-- The state with the descriptor in its slot and HEAD moved past it. -/
def State.entered (s : State) (region slot : Nat) (x : Item) : State :=
  (s.setReg .sqHead region 0 (s.reg .sqHead region + 1)).setItem region slot (some x)

/-- What becomes of an item that its descriptor lets in: it is checked, and taken. -/
def State.admitChecked (w : State) (region slot : Nat) (x : Item) : State :=
  match w.admitCheck region slot x with
  | some b =>
    (if b.1 == 0xA then w.bump .wideCnt region 0 1 else w).finish region slot
      { x with res := { statuses := (stInvalid, badDetail b) :: (if maskUsed x.engine && w.maskFenced region x.mask then [(stFenced, 0)] else []) } }
      (!(if b.1 == 0xA then w.bump .wideCnt region 0 1 else w).slotAdmits x)
  | none => if maskUsed x.engine && w.maskFenced region x.mask then w.finishAs region slot x stFenced 0 else w.takeItem region slot x

theorem State.admitRaw_eq (hx : x = s.newItem region raw (s.reg .sqHead region).toNat) (hu : u = s.entered region slot x) (bad : Bool) :
    s.admitRaw region slot raw bad
      = if bad then (u.flag .wrkSts region 0 1).finishAs region slot x stInvalid (badDetail (7, 0, 0)) (!u.slotAdmits x)
        else if x.genField != u.gen 2 region then u.finishAs region slot x stStale 0
        else (u.seeLayer x).admitChecked region slot x := by
  subst hx hu
  unfold State.admitRaw State.admitChecked State.entered
  rfl

theorem State.admitChecked_failed {b : Bad} (hb : w.admitCheck region slot x = some b) {v : State}
    (hv : v = if b.1 = 0x0A then w.bump .wideCnt region 0 1 else w) : w.admitChecked region slot x
      = v.finish region slot { x with res := { statuses := (0x0A, badDetail b)
          :: (if (maskUsed x.engine && w.maskFenced region x.mask) = true then [(0x0C, 0)] else []) } } (!v.slotAdmits x) := by
  have hv' : (if b.1 == 0xA then w.bump .wideCnt region 0 1 else w) = v := by rw [hv]; simp only [beq_iff_eq]
  simp only [State.admitChecked, hb, hv']
  rfl

theorem State.admitChecked_fenced (hc : w.admitCheck region slot x = none) (hf : (maskUsed x.engine && w.maskFenced region x.mask) = true) :
    w.admitChecked region slot x = w.finishAs region slot x 0x0C 0 := by
  simp only [State.admitChecked, hc, hf, if_true]
  rfl

theorem State.admitChecked_taken (hc : w.admitCheck region slot x = none) (hf : (maskUsed x.engine && w.maskFenced region x.mask) = false) :
    w.admitChecked region slot x = w.takeItem region slot x := by
  simp only [State.admitChecked, hc, hf, Bool.false_eq_true, if_false]

end

/-- A layer that an item names leaves all but registers, the layers seen, the widening, its counter and interrupts. -/
abbrev layerFrom (t s : State) : Prop :=
  ∃ regs seenEver globalWiden mc out, t = { s with regs := regs, seenEver := seenEver, globalWiden := globalWiden, mc := mc, out := out }

theorem layerFrom.trans {u t s : State} (h : layerFrom u t) (k : layerFrom t s) : layerFrom u s := by
  obtain ⟨_, _, _, _, _, rfl⟩ := h; obtain ⟨_, _, _, _, _, rfl⟩ := k; exact ⟨_, _, _, _, _, rfl⟩

theorem State.irqBy_layer (s : State) (cfg : Word) (cause detail : Nat) : layerFrom (s.irqBy cfg cause detail) s := by
  unfold State.irqBy
  split <;> exact ⟨_, _, _, _, _, rfl⟩

theorem State.mcBump_layer (s : State) (idx sub n : Nat) : layerFrom (s.mcBump idx sub n) s := ⟨_, _, _, _, _, rfl⟩

theorem State.globalCheck_layer (s : State) (slot : Nat) : layerFrom (s.globalCheck slot) s := by
  unfold State.globalCheck
  split
  · exact (State.irqBy_layer ..).trans ((State.mcBump_layer ..).trans ⟨_, _, _, _, _, rfl⟩)
  · exact ⟨_, _, _, _, _, rfl⟩

theorem State.seeLayer_layer (s : State) (x : Item) : layerFrom (s.seeLayer x) s := by
  unfold State.seeLayer
  split
  · exact (State.globalCheck_layer ..).trans ⟨_, _, _, _, _, rfl⟩
  · exact ⟨_, _, _, _, _, rfl⟩

section
variable {s u w : State} {region slot : Nat} {x : Item}

/-- What the item's step slot and tracker record of its admission. -/
def State.admissionNoted (w : State) (x : Item) : State :=
  let s := if x.watch < 16384 then w.holdTracker x.watch x.stepSlot else w
  if x.stepSlot < 16 then s.setStep x.stepSlot ((s.step x.stepSlot).takeIn x.countedAs) else s

/-- The item as it stands in its slot once it is admitted (R94, R96). -/
def State.takenItem (c : State) (x : Item) : Item :=
  { x with
    w0 := c.registerWait (x.wait 0), w1 := c.registerWait (x.wait 1)
    gateOpen := !x.timed || decide (x.layGate ≤ c.lay.now)
    seed := c.bwlSeedNow, bwl := c.bwlOf x, counted := x.countedAs
    prepass := if x.watch < 16384 && (c.tracker x.watch).prepass then 1 else 0 }

theorem State.takeItem_eq (w : State) (region slot : Nat) (x : Item) : w.takeItem region slot x
    = ({ w.admissionNoted x with mem := { (w.admissionNoted x).mem with mapLocked := true } }.setItem region slot (some ((w.admissionNoted x).takenItem x))).admitColl
        (itemKey region slot) ((w.admissionNoted x).takenItem x) := rfl

theorem State.holdTracker_trk (s : State) (t slot : Nat) : ∃ trk, s.holdTracker t slot = { s with trk := trk } := by
  unfold State.holdTracker
  dsimp only
  split <;> exact ⟨_, rfl⟩

theorem State.admissionNoted_from (w : State) (x : Item) : ∃ steps trk, w.admissionNoted x = { w with steps := steps, trk := trk } := by
  unfold State.admissionNoted
  have htrk : ∃ trk, (if x.watch < 16384 then w.holdTracker x.watch x.stepSlot else w) = { w with trk := trk } := by
    split
    · exact State.holdTracker_trk ..
    · exact ⟨_, rfl⟩
  obtain ⟨_, h⟩ := htrk
  dsimp only
  rw [h]
  split <;> exact ⟨_, _, rfl⟩

theorem State.admitColl_colls (s : State) (k : Nat) (x : Item) : ∃ colls earlyReady, s.admitColl k x = { s with colls := colls, earlyReady := earlyReady } := by
  unfold State.admitColl
  split <;> exact ⟨_, _, rfl⟩

theorem State.registerWait_satisfied (s : State) {v : Nat} (h : waitEn v = true) :
    s.registerWait v = .satisfied ↔ waitThr v ≤ (s.cleat (waitDie v) (waitIdx v)).toNat := by
  simp only [State.registerWait, h, Bool.not_true, Bool.false_eq_true, if_false]
  split <;> simp_all

/-- An admitted item stands in its slot with its waits registered, and the memory map is locked (R94, R96; 12 R380). -/
theorem State.takeItem_spec (w : State) (region slot : Nat) (x : Item) :
    ∃ (c : State) (y : Item), (∃ steps trk, c = { w with steps := steps, trk := trk }) ∧ y = c.takenItem x ∧
      (w.takeItem region slot x).item region slot = some y ∧ (w.takeItem region slot x).mem = { w.mem with mapLocked := true } ∧
      (w.takeItem region slot x).regs = w.regs ∧ (w.takeItem region slot x).cleats = w.cleats ∧ (w.takeItem region slot x).gens = w.gens := by
  refine ⟨_, _, w.admissionNoted_from x, rfl, ?_⟩
  rw [State.takeItem_eq]
  generalize (w.admissionNoted x).takenItem x = y
  obtain ⟨steps, trk, hc⟩ := w.admissionNoted_from x
  rw [hc]
  generalize hv : State.setItem _ region slot (some y) = v
  obtain ⟨colls, ready, h⟩ := v.admitColl_colls (itemKey region slot) y
  have hi : v.item region slot = some y := by rw [← hv]; exact State.item_setItem_some ..
  rw [h]
  subst hv
  exact ⟨hi, rfl, rfl, rfl, rfl⟩

end

section
variable {s u w : State} {region slot : Nat} {x y : Item}

theorem State.entered_from (s : State) (region slot : Nat) (x : Item) : itemsFrom (s.entered region slot x) s :=
  (State.setItem_items ..).trans (State.setReg_regs ..).items

/-- The item that a descriptor describes bears its count, and is admitted. -/
theorem State.newItem_fields (s : State) (region raw count : Nat) : (s.newItem region raw count).count = count ∧
    (s.newItem region raw count).stage = .admitted ∧ (s.newItem region raw count).raw = raw := ⟨rfl, rfl, rfl⟩

theorem Item.engine_eq_of_raw (h : x.raw = y.raw) : x.engine = y.engine := by unfold Item.engine; rw [h]
theorem Item.mask_eq_of_raw (h : x.raw = y.raw) : x.mask = y.mask := by unfold Item.mask; rw [h]

/-- Settles O21, branch by branch of what an admission makes of the descriptor. -/
theorem descriptorsAreAdmittedInRingOrder : Obligations.DescriptorsAreAdmittedInRingOrder := by
  intro s region slot a _ hon hne hf hroom ha hheld hslot x u hx hu hunits
  obtain ⟨hcount, hstage, hraw⟩ := s.newItem_fields region (s.rd a 128) (s.reg .sqHead region).toNat
  rw [← hx] at hcount hstage hraw
  have hraw0 : (s.newItem region (s.rd a 128) 0).raw = x.raw := hraw.symm
  have hexec := exec_descriptorAdmit hon hne hf hroom ha hheld hslot
    (by rw [Item.engine_eq_of_raw hraw0, Item.mask_eq_of_raw hraw0]; exact hunits)
  have hu : u = s.entered region slot x := hu
  rw [State.admitRaw_eq hx hu] at hexec
  obtain ⟨_, _, hus⟩ := s.entered_from region slot x
  rw [← hu] at hus
  have hgens : u.gen 2 region = s.gen 2 region := by rw [hus]; rfl
  refine ⟨fun hbad => ?_, fun hp hm => ?_⟩
  · have hbad : (s.poisonedIn a 128 || !s.mapped a 128) = true := by
      rcases hbad with h | h <;> simp [h]
    rw [hexec, hbad, if_pos rfl]
    rfl
  have hgood : (s.poisonedIn a 128 || !s.mapped a 128) = false := by simp [hp, hm]
  simp only [hgood, Bool.false_eq_true, if_false] at hexec
  refine ⟨fun hg => ?_, fun hg w hw => ?_⟩
  · rw [hexec, if_pos (by simpa [hgens] using hg)]
    rfl
  rw [if_neg (by simpa [hgens] using hg), ← hw] at hexec
  refine ⟨fun b hb v hv => ?_, fun hc => ⟨fun hfenced => ?_, fun hfenced => ?_⟩⟩
  · rw [hexec, State.admitChecked_failed hb hv]
    rfl
  · rw [hexec, State.admitChecked_fenced hc hfenced]
  · rw [State.admitChecked_taken hc hfenced] at hexec
    obtain ⟨c, y, ⟨_, _, hcw⟩, hy, hitem, hmem, hregs, hcleats, hgens'⟩ := w.takeItem_spec region slot x
    obtain ⟨_, _, _, _, _, hwu⟩ := u.seeLayer_layer x
    have hws : w.mem = s.mem ∧ w.cleats = s.cleats ∧ w.gens = s.gens ∧ w.lay = s.lay := by
      rw [hw, hwu, hus]; exact ⟨rfl, rfl, rfl, rfl⟩
    obtain ⟨hwm, hwc, hwg, hwl⟩ := hws
    have hcc : ∀ d i, c.cleat d i = s.cleat d i := fun d i => by unfold State.cleat; rw [hcw, ← hwc]
    have hcl : c.lay = s.lay := by rw [hcw, ← hwl]
    refine ⟨_, y, hexec, hitem, ?_, ?_, ?_, by rw [hmem, hwm], hregs, hcleats.trans hwc, hgens'.trans hwg, fun hen => ?_, ?_⟩
    · rw [hy]; rfl
    · rw [hy, ← hcount]; rfl
    · rw [hy, ← hstage]; rfl
    · rw [hy, ← hcc, ← State.registerWait_satisfied c hen]; rfl
    · rw [hy, ← hcl]
      simp [State.takenItem]

end

end Sys2Proof.Machine
end

section
/-! What the run of an item may change beside its item: memory and registers, the counters of the controller, and the free values
drawn (04 R151 to R153; 06 R209; 09 R297; 11 R363, R368). -/

namespace Sys2Proof.Machine

/-- `t` is `s` but for registers, memory, the counters of the controller, and the free values drawn. -/
structure ranFrom (t s : State) : Prop where
  frame : ∃ regs mem mc freeCtr, t = { s with regs := regs, mem := mem, mc := mc, freeCtr := freeCtr }

theorem ranFrom.refl (s : State) : ranFrom s s := ⟨_, _, _, _, rfl⟩
theorem ranFrom.trans {u t s : State} (h : ranFrom u t) (k : ranFrom t s) : ranFrom u s := by
  obtain ⟨_, _, _, _, rfl⟩ := h; obtain ⟨_, _, _, _, rfl⟩ := k; exact ⟨_, _, _, _, rfl⟩
theorem regsFrom.ran {t s : State} (h : regsFrom t s) : ranFrom t s := by obtain ⟨_, rfl⟩ := h; exact ⟨_, _, _, _, rfl⟩

theorem ranFrom.ite {p : Prop} [Decidable p] {t t' s : State} (h : ranFrom t s) (h' : ranFrom t' s) : ranFrom (if p then t else t') s := by
  split
  · exact h
  · exact h'

/-- Steps that each change no more than this change no more in sequence; `st` gives the state of what is carried from step to step. -/
theorem ranFrom.foldl_of {α β : Type} {st : β → State} {f : β → α → β} (hf : ∀ b a, ranFrom (st (f b a)) (st b)) (l : List α) (b : β) :
    ranFrom (st (l.foldl f b)) (st b) := by
  induction l generalizing b with
  | nil => exact .refl _
  | cons a l ih => exact (ih (f b a)).trans (hf b a)

theorem ranFrom.foldl {α : Type} {f : State → α → State} (hf : ∀ s a, ranFrom (f s a) s) (l : List α) (s : State) : ranFrom (l.foldl f s) s :=
  ranFrom.foldl_of (st := id) hf l s

theorem State.setReg_ran (s : State) (r : Reg) (i e : Nat) (v : Word) : ranFrom (s.setReg r i e v) s := (State.setReg_regs ..).ran
theorem State.bump_ran (s : State) (r : Reg) (i e n : Nat) : ranFrom (s.bump r i e n) s := (State.bump_regs ..).ran
theorem State.flag_ran (s : State) (r : Reg) (i e m : Nat) : ranFrom (s.flag r i e m) s := (State.flag_regs ..).ran
theorem State.mcBump_ran (s : State) (idx sub n : Nat) : ranFrom (s.mcBump idx sub n) s := ⟨_, _, _, _, rfl⟩
theorem State.free_ran (s : State) : ranFrom s.free.2 s := ⟨_, _, _, _, rfl⟩

/-! ### Memory (12) -/

theorem State.wrLines_ran (s : State) (fuel a : Nat) (bs : List Byte) (bad : Bool) : ranFrom (s.wrLines fuel a bs bad) s := by
  induction fuel generalizing s a bs with
  | zero => exact .refl s
  | succ n ih =>
    simp only [State.wrLines]
    split
    · exact .refl s
    · refine (ih ..).trans ?_
      split
      · exact State.bump_ran ..
      · split
        · exact ⟨_, _, _, _, rfl⟩
        · exact .refl s

theorem State.wr_ran (s : State) (a : Nat) (bs : List Byte) (bad : Bool) : ranFrom (s.wr a bs bad) s := State.wrLines_ran ..

theorem State.wrMarked_ran (s : State) (fuel a : Nat) (l : List (Byte × Bool)) : ranFrom (s.wrMarked fuel a l) s := by
  induction fuel generalizing s a l with
  | zero => exact .refl s
  | succ n ih =>
    simp only [State.wrMarked]
    split
    · exact .refl s
    · exact (ih ..).trans (State.wr_ran ..)

theorem State.wrMarks_ran (s : State) (a : Nat) (l : List (Byte × Bool)) : ranFrom (s.wrMarks a l) s := State.wrMarked_ran ..

theorem State.nmApply_ran (s : State) (addr ty op value : Nat) (poisoned : Bool) (tag : Nat) :
    ranFrom (s.nmApply addr ty op value poisoned false tag).st s := by
  unfold State.nmApply
  exact ranFrom.ite ((State.flag_ran ..).trans ((State.bump_ran ..).trans ((State.bump_ran ..).trans (State.wr_ran ..))))
    ((State.bump_ran ..).trans (State.wr_ran ..))

/-! ### Streams (04 R151 to R153, R566) -/

theorem State.mergeLine_ran (s : State) (m : LineMerge) : ranFrom (s.mergeLine m) s := by
  unfold State.mergeLine
  dsimp only
  split
  · exact (State.wr_ran ..).trans (State.wr_ran ..)
  · exact State.wr_ran ..

theorem State.mergeBlocks_ran (s : State) (m : Strm) (e : Ent) (blocks : List (Nat × Nat × List Nat)) : ranFrom (s.mergeBlocks m e blocks) s := by
  unfold State.mergeBlocks
  exact .foldl (fun _ _ => .ite (.refl _) (State.mergeLine_ran ..)) ..

theorem State.writeScaled_ran (s : State) (m : Strm) (e : Ent) (mode : Nat) (cf : Int × Int) (els : List OutEl) :
    ranFrom (s.writeScaled m e mode cf els).st s := by
  unfold State.writeScaled
  exact (State.mergeBlocks_ran ..).trans (.foldl (fun _ _ => State.wrMarks_ran ..) ..)

theorem State.writeNear_ran (s : State) (e : Ent) (mode tag : Nat) (els : List OutEl) : ranFrom (s.writeNear e mode tag els).st s := by
  unfold State.writeNear
  exact ranFrom.foldl_of (st := Wrote.st) (fun _ _ => State.nmApply_ran (tag := tag) ..) ..

theorem State.writePlain_ran (s : State) (e : Ent) (mode : Nat) (els : List OutEl) : ranFrom (s.writePlain e mode els).st s := by
  unfold State.writePlain
  exact .foldl (fun _ _ => State.wrMarks_ran ..) ..

theorem State.writeStream_ran (s : State) (m : Strm) (mode cf : Nat) (els : List OutEl) (tag : Nat) :
    ranFrom (s.writeStream m mode cf els tag).st s := by
  unfold State.writeStream
  refine ranFrom.foldl_of (st := fun acc : Wrote × List OutEl => acc.1.st) (fun acc e => ?_) m.ents _
  dsimp only
  split
  · exact State.writeScaled_ran ..
  · split
    · exact State.writeNear_ran ..
    · exact State.writePlain_ran ..

theorem State.writeByteStream_ran (s : State) (m : Strm) (bs : List (Byte × Bool)) : ranFrom (s.writeByteStream m bs) s := by
  unfold State.writeByteStream
  exact ranFrom.foldl_of (st := Prod.fst) (fun _ _ => ranFrom.foldl_of (st := Prod.fst) (fun _ _ => State.wrMarks_ran ..) ..) ..

theorem State.outCoarse_ran (s : State) (x : Item) (m : Strm) : ranFrom (s.outCoarse x m).2 s := by
  unfold State.outCoarse
  split
  · exact .ite ((State.mcBump_ran ..).trans (State.wr_ran ..)) (State.wr_ran ..)
  · exact .refl s

theorem State.writeProduct_ran (s : State) (x : Item) (p : ProdOut) (second : Bool) (nonfin zeroBlocks : Nat) :
    ranFrom (s.writeProduct x p second nonfin zeroBlocks).1 s := by
  have first (els : List OutEl) : ranFrom ((s.outCoarse x (s.strm x 2)).2.writeStream (s.strm x 2) x.round (s.outCoarse x (s.strm x 2)).1
      els x.tag).st s := (State.writeStream_ran ..).trans (State.outCoarse_ran ..)
  unfold State.writeProduct
  dsimp only
  split
  · exact (State.writeStream_ran ..).trans ((State.outCoarse_ran ..).trans (first _))
  · exact first _

/-! ### The Hawser arrays, the Turn and the router (06 R197 to R210; 09 R287, R297) -/

theorem State.hwsSats_ran (s : State) (us : List Nat) (sats : List (Nat × Bool)) : ranFrom (s.hwsSats us sats) s := by
  unfold State.hwsSats
  exact .foldl (fun _ _ => (State.flag_ran ..).trans (State.bump_ran ..)) ..

/-- With no residue mismatch, the arrays count in registers alone. -/
theorem State.hwsCount_ran (s : State) (x : Item) (region : Nat) (o : HwsOp) (i : HwsIn) (cyc : List (Nat × Nat)) (sats : List (Nat × Bool))
    (nf : List Nat) : ranFrom (s.hwsCount x region o i cyc [] sats nf) s := by
  unfold State.hwsCount
  dsimp only [List.foldl_nil]
  refine ranFrom.trans (.foldl (fun _ _ => ?_) ..) (ranFrom.trans (.foldl (fun _ _ => State.flag_ran ..) ..)
    ((State.hwsSats_ran ..).trans (.foldl (fun _ _ => State.bump_ran ..) ..)))
  exact (State.flag_ran ..).trans ((State.bump_ran ..).trans ((State.bump_ran ..).trans ((State.bump_ran ..).trans (State.setReg_ran ..))))

theorem State.rtrCount_ran (s : State) (x : Item) (region : Nat) (o : RtrOp) (st : RtrRun) (logits : List (List El)) (biasBad : Bool) :
    ranFrom (s.rtrCount x region o st logits biasBad) s := by
  unfold State.rtrCount
  exact .foldl (fun _ _ => (State.flag_ran ..).trans ((State.bump_ran ..).trans ((State.bump_ran ..).trans (State.bump_ran ..)))) ..

theorem State.segTurn_ran (s : State) (us : List Nat) (first rows tfmt : Nat) (v : SegIn) : ranFrom (s.segTurn us first rows tfmt v) s := by
  unfold State.segTurn
  dsimp only
  split
  · exact .refl s
  · exact .foldl (fun _ _ => (State.bump_ran ..).trans ((State.flag_ran ..).trans ((State.bump_ran ..).trans (State.bump_ran ..)))) ..

theorem State.segCount_ran (s : State) (x : Item) (region : Nat) (o : SegOp) (gs : List SegRun) (sats : List (Nat × Bool)) (nf : List Nat) :
    ranFrom (s.segCount x region o gs sats nf) s := by
  unfold State.segCount
  refine ranFrom.trans (.foldl (fun _ _ => State.setReg_ran ..) ..) (ranFrom.trans (.foldl (fun _ _ => State.flag_ran ..) ..)
    ((State.hwsSats_ran ..).trans (.foldl (fun s g => ?_) ..)))
  split
  · exact (State.segTurn_ran ..).trans (.foldl (fun _ _ => State.bump_ran ..) ..)
  · exact .refl s

/-! ### The Halyard (11 R343 to R364) -/

theorem State.putF32s_ran (s : State) (a : Nat) (l : List HV) : ranFrom (s.putF32s a l) s := State.wrMarks_ran ..
theorem State.putBf16s_ran (s : State) (a : Nat) (l : List HV) : ranFrom (s.putBf16s a l) s := State.wrMarks_ran ..
theorem State.unValid_ran (s : State) (r : HalRec) : ranFrom (s.unValid r) s := State.wr_ran ..

theorem State.putStats_ran (s : State) (r : HalRec) (h : HalStats) : ranFrom (s.putStats r h) s := by
  unfold State.putStats
  exact .ite ((State.putF32s_ran ..).trans (State.putF32s_ran ..)) (State.putF32s_ran ..)

theorem State.passA_ran (s : State) (x : Item) (r : HalRec) : ranFrom (s.passA x r).st s := by
  unfold State.passA
  dsimp only
  exact State.wrMarks_ran ..

theorem State.passB_ran (s : State) (x : Item) (r : HalRec) : ranFrom (s.passB x r).st s := by
  unfold State.passB
  dsimp only
  exact (State.wr_ran ..).trans ((State.wr_ran ..).trans ((State.wr_ran ..).trans ((State.putStats_ran ..).trans (State.unValid_ran ..))))

theorem State.writeCopy_ran (s : State) (x : Item) (r : HalRec) (back : Bool) (w : List (List HV)) (h : XV) (amax fv : Nat) :
    ranFrom (s.writeCopy x r back w h amax fv).st s := by
  unfold State.writeCopy
  extract_lets fmt on c list els put first again c2 written cf st
  have hfirst : ranFrom first.st s := State.writeStream_ran ..
  have hwritten : ranFrom written.st s := by
    unfold written
    rw [apply_ite Wrote.st]
    exact .ite ((State.writeStream_ran ..).trans hfirst) hfirst
  have hst : ranFrom st written.st := State.wr_ran ..
  rw [apply_ite CopyOut.st]
  dsimp only
  exact .ite (State.wr_ran ..) (hst.trans hwritten)

theorem State.finishOut_ran (s : State) (x : Item) (r : HalRec) (w : List (List HV)) (hp : Option HV) (oldHist : List Nat)
    (fields : Nat → List (Nat × List Byte)) (valid bad bdone : Bool) :
    ranFrom (s.finishOut x r w hp oldHist fields valid bad bdone).st s := by
  unfold State.finishOut
  dsimp only
  exact (State.wr_ran ..).trans (ranFrom.trans (.foldl (fun _ _ => State.wr_ran ..) ..) (ranFrom.trans (.foldl (fun _ _ => State.wr_ran ..) ..)
    ((State.writeCopy_ran ..).trans ((State.writeCopy_ran ..).trans (State.free_ran ..)))))

theorem State.passC_ran (s : State) (x : Item) (r : HalRec) : ranFrom (s.passC x r).st s := by
  unfold State.passC
  extract_lets delayed skips g scr sc h us i usq uSum one dt sc' ws rems moms zero fine at' new ups w u0sat reads hpv hist made nonfin
    s1 s2 s3 s4 s5 fields o
  have h1 : ranFrom s1 s := State.unValid_ran ..
  have h2 : ranFrom s2 s1 := .ite (State.putStats_ran ..) (.refl s1)
  have h3 : ranFrom s3 s2 := State.putF32s_ran ..
  have h4 : ranFrom s4 s3 := State.putBf16s_ran ..
  have h5 : ranFrom s5 s4 := .ite (State.putF32s_ran ..) (.refl s4)
  have ho : ranFrom o.st s5 := State.finishOut_ran ..
  exact ho.trans (h5.trans (h4.trans (h3.trans (h2.trans h1))))

theorem State.passSeed_ran (s : State) (x : Item) (r : HalRec) : ranFrom (s.passSeed x r).st s := by
  unfold State.passSeed
  extract_lets g w nonfin zeros f s1 s2 s3 s4 s5 fields o
  have h1 : ranFrom s1 s := (State.unValid_ran ..).trans (State.free_ran s)
  have h2 : ranFrom s2 s1 := State.putF32s_ran ..
  have h3 : ranFrom s3 s2 := .ite (State.putF32s_ran ..) (.refl s2)
  have h4 : ranFrom s4 s3 := State.putBf16s_ran ..
  have h5 : ranFrom s5 s4 := .ite ((State.putF32s_ran ..).trans (State.putF32s_ran ..)) (State.putF32s_ran ..)
  have ho : ranFrom o.st s5 := State.finishOut_ran ..
  exact ho.trans (h5.trans (h4.trans (h3.trans (h2.trans h1))))

theorem State.halPass_ran (s : State) (x : Item) (r : HalRec) : ranFrom (s.halPass x r).st s := by
  unfold State.halPass
  split
  · exact State.passA_ran ..
  · exact State.passB_ran ..
  · exact State.passSeed_ran ..
  · exact State.passC_ran ..

theorem State.halCount_ran (s : State) (region : Nat) (o : HalOut) : ranFrom (s.halCount region o) s := by
  unfold State.halCount
  exact (State.flag_ran ..).trans ((State.bump_ran ..).trans ((State.bump_ran ..).trans ((State.bump_ran ..).trans (State.free_ran ..))))

theorem State.halStep_ran (x : Item) (region : Nat) (acc : HalAcc) (i : Nat) : ranFrom (State.halStep x region acc i).st acc.st := by
  unfold State.halStep
  split
  · exact .refl _
  · dsimp only
    split
    · exact (State.flag_ran ..).trans (State.free_ran ..)
    · split
      · exact .refl _
      · exact (State.halCount_ran ..).trans (State.halPass_ran ..)

theorem State.halWorked_ran (s : State) (region : Nat) : ranFrom (s.halWorked region) s := by
  unfold State.halWorked
  exact .foldl (fun _ _ => (State.bump_ran ..).trans (State.free_ran ..)) ..

theorem State.nmStep_ran (tag : Nat) (acc : NmAcc) (e : List (Byte × Bool) × Nat) : ranFrom (State.nmStep tag acc e).st acc.st := by
  unfold State.nmStep
  split
  · exact .refl _
  · extract_lets s v a w ty op d
    split
    · exact .refl _
    · split
      · exact .refl _
      · exact State.nmApply_ran (tag := tag) ..

/-! ### The runs -/

/-- A run that passes its checks is the operation's own. -/
theorem State.gated_ok {s : State} {x : Item} {checks : List (Option Bad)} {ins : List (Strm × Bool)} {k : Unit → RunOut} {amax : Nat}
    {go : State → Item → State × Result} (h : s.gated x checks ins k = .ok amax go) : k () = .ok amax go := by
  unfold State.gated at h
  split at h
  · cases h
  · split at h
    · cases h
    · exact h

theorem State.gated_passes {s : State} {x : Item} {checks : List (Option Bad)} {ins : List (Strm × Bool)} (h : s.passes x checks ins)
    (k : Unit → RunOut) : s.gated x checks ins k = k () := by
  unfold State.gated
  rw [h.1, h.2]

/-- The runs of an operation leave all but registers, memory, the counters of the controller, and the free values drawn. -/
def onlyOutputs (f : State → Nat → Item → RunOut) : Prop :=
  ∀ u region y amax go, f u region y = .ok amax go → ranFrom (go u y).1 u

/-- A run that meets `ok` runs through. -/
def runsThrough (f : State → Nat → Item → RunOut) (ok : State → Nat → Item → Prop) : Prop :=
  ∀ u region y, ok u region y → ∃ amax go, f u region y = .ok amax go

theorem onlyOutputs_hwsRun : onlyOutputs (State.hwsRun []) := by
  intro u region y amax go h
  unfold State.hwsRun at h
  obtain ⟨-, rfl⟩ := RunOut.ok.inj (State.gated_ok h)
  exact (State.hwsCount_ran ..).trans (State.writeProduct_ran ..)

theorem runsThrough_hwsRun (marks : List Nat) : runsThrough (State.hwsRun marks) fun u _ y =>
    u.passes y (u.hwsChecks y) [(u.strm y 0, false), (u.strm y 1, false)] := by
  intro u region y h
  unfold State.hwsRun
  exact ⟨_, _, State.gated_passes h _⟩

theorem onlyOutputs_rebRun : onlyOutputs State.rebRun := by
  intro u region y amax go h
  unfold State.rebRun at h
  obtain ⟨-, rfl⟩ := RunOut.ok.inj (State.gated_ok h)
  exact (State.flag_ran ..).trans ((State.bump_ran ..).trans ((State.bump_ran ..).trans ((State.bump_ran ..).trans (State.writeStream_ran ..))))

theorem runsThrough_rebRun : runsThrough State.rebRun fun u _ y => u.passes y (u.rebChecks y) [(u.strm y 0, false)] := by
  intro u region y h
  unfold State.rebRun
  exact ⟨_, _, State.gated_passes h _⟩

theorem onlyOutputs_rtrRun : onlyOutputs State.rtrRun := by
  intro u region y amax go h
  unfold State.rtrRun at h
  obtain ⟨-, rfl⟩ := RunOut.ok.inj (State.gated_ok h)
  dsimp only
  refine ranFrom.trans (.ite (State.hwsCount_ran ..) (.refl _)) ((State.rtrCount_ran ..).trans ?_)
  refine ranFrom.trans (.ite (.foldl (fun _ _ => State.nmApply_ran (tag := y.tag) ..) ..) (.refl _)) ?_
  exact (State.writeByteStream_ran ..).trans ((State.writeByteStream_ran ..).trans (State.writeByteStream_ran ..))

theorem runsThrough_rtrRun : runsThrough State.rtrRun fun u _ y =>
    u.passes y (u.rtrChecks y) (if y.gate then [(u.strm y 0, false), (u.strm y 1, false)] else []) := by
  intro u region y h
  unfold State.rtrRun
  exact ⟨_, _, State.gated_passes h _⟩

theorem onlyOutputs_segRun : onlyOutputs State.segRun := by
  intro u region y amax go h
  unfold State.segRun at h
  have h := State.gated_ok h
  extract_lets at h
  split at h
  · cases h
  split at h
  · cases h
  obtain ⟨-, rfl⟩ := RunOut.ok.inj h
  dsimp only
  refine (State.segCount_ran ..).trans ((State.writeStream_ran ..).trans ?_)
  exact .ite ((State.bump_ran ..).trans (State.outCoarse_ran ..)) (State.outCoarse_ran ..)

theorem runsThrough_segRun : runsThrough State.segRun fun u region y =>
    u.passes y (u.segChecks y) [] ∧ u.calm = true ∧ u.segSkew region y = none := by
  intro u region y ⟨h, hcalm, hskew⟩
  unfold State.segRun
  simp only [State.gated_passes h, hcalm, hskew, Bool.not_true, Bool.false_and, Bool.false_eq_true, if_false]
  exact ⟨_, _, rfl⟩

theorem onlyOutputs_halRun : onlyOutputs State.halRun := by
  intro u region y amax go h
  unfold State.halRun at h
  split at h
  · cases h
  extract_lets at h
  split at h
  · cases h
  obtain ⟨-, rfl⟩ := RunOut.ok.inj h
  beta_reduce
  extract_lets acc
  have hacc : ranFrom acc.st u := (ranFrom.foldl_of (st := HalAcc.st) (State.halStep_ran y region) ..).trans (State.halWorked_ran ..)
  split <;> exact hacc

theorem runsThrough_halRun : runsThrough State.halRun halSteady := by
  intro u region y ⟨hheld, hsteady⟩
  have hskew : (List.range y.hal.count).findSome? (fun i => if u.inHbm (y.hal.tlist + 64 * i) 64 && (u.recBad y (u.halRec y i)).isNone
      then u.recSkew y (u.halRec y i) (u.skipRows y (u.halRec y i)) else none) = none := by
    rw [List.findSome?_eq_none_iff]
    intro i hi
    rw [hsteady i (List.mem_range.1 hi), ite_self]
  unfold State.halRun
  rw [if_neg (by simp [hheld])]
  dsimp only
  rw [hskew]
  exact ⟨_, _, rfl⟩

theorem onlyOutputs_nmRun : onlyOutputs State.nmRun := by
  intro u region y amax go h
  unfold State.nmRun at h
  have h := State.gated_ok h
  extract_lets at h
  split at h
  · cases h
  obtain ⟨-, rfl⟩ := RunOut.ok.inj h
  beta_reduce
  extract_lets acc
  have hacc : ranFrom acc.st u := (ranFrom.foldl_of (st := NmAcc.st) (State.nmStep_ran y.tag) ..).trans (State.halWorked_ran ..)
  split <;> exact hacc

theorem runsThrough_nmRun : runsThrough State.nmRun fun u _ y => u.calm = true ∧
    u.passes y [u.bytesCheck (u.strm y 0), if (u.strm y 0).byteCount < 32 * y.opnd 0x68 4 then some (9, 0, 0) else none] [] := by
  intro u region y ⟨hcalm, h⟩
  unfold State.nmRun
  simp only [State.gated_passes h, hcalm, Bool.not_true, Bool.false_and, Bool.false_eq_true, if_false]
  exact ⟨_, _, rfl⟩

/-! ### What the command of a row leaves -/

section
variable {s u : State} {region slot e op : Nat} {x y : Item} {takes : Item → Bool} {f : State → Nat → Item → RunOut}

/-- What an item's command leaves, by how its operation's run ends: `u` and `y` are the state and the item as the run finds them. -/
def State.afterRun (s u : State) (region slot : Nat) (y : Item) : RunOut → State
  | .hold => s
  | .bad b => u.endRun region slot y { statuses := [(stInvalid, badDetail b)], partialOut := y.wrote }
  | .skew cause k entry => u.skewRun region slot y cause k entry
  | .ok _ go => u.ranOn region slot y (go u y)

theorem State.runItem_starts (h : s.itemStarts region slot e op x u y) (ht : takes x = true) :
    s.runItem region slot takes f = s.afterRun u region slot y (f u region y) := by
  obtain ⟨hx, -, -, hpre, hfr, hst, hb, hlost⟩ := id h
  have hnm : (!u.calm && (u.nmaRows y).any fun p => u.nmLost p.1) = false := by
    rcases hlost with hcalm | hrows
    · simp [hcalm]
    · simp only [Bool.and_eq_false_iff, List.any_eq_false]
      exact .inr fun p hp => by simp [hrows p hp]
  have hpre' : (x.prepass == 1) = false := by simpa using hpre
  cases hout : f u region y with
  | ok amax go => exact State.runItem_ok h ht hout
  | _ => simp only [State.runItem, hx, ht, hpre', hfr, hst, hb, hnm, hout, State.afterRun, Bool.not_true, Bool.or_self, Bool.false_eq_true, if_false]

/-- The result as the item keeps it: with the poison and the saturations of its near-memory operations. -/
def Item.keptResult (y : Item) (r : Result) : Result :=
  { r with poison := r.poison || y.nmPoison, counts := { r.counts with saturated := r.counts.saturated + y.nmSats } }

/-- The item after its run: it waits for its outputs to be visible. -/
def Item.ended (y : Item) (cycle : Nat) (r : Result) : Item :=
  { y with stage := .finished, res := y.keptResult r, wrote := true, progCyc := cycle }

theorem State.endRun_item (w : State) (region slot : Nat) (y : Item) (r : Result) :
    (w.endRun region slot y r).item region slot = some (y.ended w.cycle r) :=
  ((State.showItem_regs ..).item_eq region slot).trans (State.item_setItem_some ..)

theorem itemsFrom.cycle_eq {t s : State} (h : itemsFrom t s) : t.cycle = s.cycle := by obtain ⟨_, _, rfl⟩ := h; rfl
theorem itemsFrom.fenced_eq {t s : State} (h : itemsFrom t s) : t.fenced = s.fenced := by obtain ⟨_, _, rfl⟩ := h; rfl
theorem itemsFrom.mem_eq {t s : State} (h : itemsFrom t s) : t.mem = s.mem := by obtain ⟨_, _, rfl⟩ := h; rfl
theorem itemsFrom.mc_eq {t s : State} (h : itemsFrom t s) : t.mc = s.mc := by obtain ⟨_, _, rfl⟩ := h; rfl
theorem ranFrom.cycle_eq {t s : State} (h : ranFrom t s) : t.cycle = s.cycle := by obtain ⟨_, _, _, _, rfl⟩ := h; rfl
theorem ranFrom.fenced_eq {t s : State} (h : ranFrom t s) : t.fenced = s.fenced := by obtain ⟨_, _, _, _, rfl⟩ := h; rfl

theorem ranFrom.eq_update {t w u s : State} (hw : ranFrom w u) (ht : itemsFrom t w) (hu : itemsFrom u s) :
    t = { s with items := t.items, regs := t.regs, mem := t.mem, mc := t.mc, freeCtr := t.freeCtr } := by
  obtain ⟨_, _, rfl⟩ := ht; obtain ⟨_, _, _, _, rfl⟩ := hw; obtain ⟨_, _, rfl⟩ := hu; rfl

/-- A run that fences nothing ends at once. -/
theorem State.ranOn_unfenced {w : State × Result} (hw : ranFrom w.1 u) : u.ranOn region slot y w = w.1.endRun region slot y w.2 :=
  if_pos ((State.endRun_items ..).fenced_eq.trans hw.fenced_eq)

theorem State.ranOn_ranTo {w : State × Result} (hu : itemsFrom u s) (hw : ranFrom w.1 u) : (u.ranOn region slot y w).ranTo s region slot y w := by
  rw [State.ranOn_unfenced hw]
  have hend := State.endRun_items w.1 region slot y w.2
  refine ⟨?_, hend.mem_eq, hend.mc_eq, hw.eq_update hend hu⟩
  rw [State.endRun_item, hw.cycle_eq, hu.cycle_eq]
  rfl

/-- A REPLAYABLE item that is not its retry restarts once from its descriptor, unless it has issued a near-memory operation. -/
def Item.mayRetry (y : Item) : Bool := y.replayable && !y.retried && !y.nmIssued

theorem Item.mayRetry_iff : y.mayRetry = true ↔ y.replayable = true ∧ y.retried = false ∧ y.nmIssued = false := by
  simp [Item.mayRetry, and_assoc]

theorem State.skewRun_item (u : State) (region slot : Nat) (y : Item) (cause k entry : Nat) :
    ∃ z, (u.skewRun region slot y cause k entry).item region slot = some z ∧
      (y.mayRetry = true → z.stage = .ready ∧ z.retried = true) ∧
      (¬ y.mayRetry = true → z.stage = .finished ∧ z.res.statuses = [(0x03, cause * 2 ^ 24 + k % 4 * 2 ^ 16 + entry % 65536)]) := by
  have hshow (v : State) : (v.showItem y region y.units).item region slot = v.item region slot := (State.showItem_regs ..).item_eq region slot
  unfold State.skewRun
  simp only [hshow]
  split
  next hm => exact ⟨_, State.item_setItem_some .., fun _ => ⟨rfl, rfl⟩, fun hn => absurd hm hn⟩
  next hm => exact ⟨_, State.item_setItem_some .., fun hr => absurd hr hm, fun _ => ⟨rfl, rfl⟩⟩

theorem itemRowRuns_of {c : Instr} (hc : ∀ s, exec c s = .next (s.runItem region slot takes f))
    (ht : ∀ x : Item, x.engine = e → x.op = op → takes x = true) (hf : onlyOutputs f) : itemRowRuns region slot (c, e, op, f) := by
  intro s u x y h
  have hu : itemsFrom u s := by
    obtain ⟨-, -, -, -, -, hst, -⟩ := h
    exact (State.startItem_spec hst).2.2.2.1
  have hexec : exec c s = .next (s.afterRun u region slot y (f u region y)) := by
    rw [hc, State.runItem_starts h (ht x h.2.1 h.2.2.1)]
  refine ⟨fun hout => ?_, fun amax go hout => ?_, fun b hout => ?_, fun cause k entry hout => ?_⟩ <;> replace hout : f u region y = _ := hout
  · rw [hexec, hout]; rfl
  · exact ⟨_, by rw [hexec, hout]; rfl, State.ranOn_ranTo hu (hf _ _ _ _ _ hout)⟩
  · exact ⟨_, _, by rw [hexec, hout]; rfl, State.endRun_item .., rfl, rfl, ((State.endRun_items ..).trans hu).eq_update⟩
  · obtain ⟨z, hz, hretry, hend⟩ := u.skewRun_item region slot y cause k entry
    rw [Item.mayRetry_iff] at hretry hend
    exact ⟨_, z, by rw [hexec, hout]; rfl, hz, ((State.skewRun_items ..).trans hu).eq_update, hretry, hend⟩

theorem State.canStart_itemStarts (h : s.canStart region slot e op x) (hs : s.startItem region slot x = some (u, y))
    (hr : u.runsNow region slot y) : s.itemStarts region slot e op x u y := by
  obtain ⟨hx, he, hop, hpre, -, hfr, -⟩ := h
  exact ⟨hx, he, hop, hpre, hfr, hs, hr⟩

theorem itemRowCompletes_of {c : Instr} {ok : State → Nat → Item → Prop} (hr : itemRowRuns region slot (c, e, op, f)) (hok : runsThrough f ok) :
    itemRowCompletes region slot (c, e, op, f) ok := by
  intro s x h
  obtain ⟨u, y, hs⟩ := State.canStart_starts h
  obtain ⟨-, hraw, hstage, hframe, -⟩ := State.startItem_spec hs
  refine ⟨u, y, hs, hraw, hstage, hframe.eq_update, fun hnow hmeets => ?_⟩
  obtain ⟨amax, go, hout⟩ := hok u region y hmeets
  obtain ⟨t, ht, hran⟩ := (hr s u x y (State.canStart_itemStarts h hs hnow)).2.1 amax go hout
  exact ⟨amax, go, t, hout, ht, hran⟩

end

/-! ### The rows -/

section
variable {region slot : Nat}

/-- A row whose runs leave nothing but outputs, and whose condition suffices, runs and completes. -/
theorem itemRow_settled {c : Instr} {e op : Nat} {takes : Item → Bool} {f : State → Nat → Item → RunOut} {ok : State → Nat → Item → Prop}
    (hf : onlyOutputs f) (hok : runsThrough f ok) (ht : takes = fun x => x.engine == e && x.op == op)
    (hc : ∀ s, exec c s = .next (s.runItem region slot takes f)) :
    itemRowRuns region slot (c, e, op, f) ∧ itemRowCompletes region slot (c, e, op, f) ok := by
  have hr := itemRowRuns_of (e := e) (op := op) hc (fun x he hop => by simp [ht, he, hop]) hf
  exact ⟨hr, itemRowCompletes_of hr hok⟩

/-- A Hawser product that runs through with a residue mismatch in one of its tiles has a poisoned result. -/
theorem State.hwsRun_poison {u : State} {y : Item} {residue : List Nat} {amax : Nat} {go : State → Item → State × Result}
    (h : u.hwsRun residue region y = .ok amax go) (hk : ∃ k ∈ residue, k < tileCount y.hws.m y.hws.n) : (go u y).2.poison = true := by
  obtain ⟨k, hmem, hlt⟩ := hk
  have hmarks : (residue.filter fun t => decide (t < tileCount y.hws.m y.hws.n)).isEmpty = false := by
    rw [List.isEmpty_eq_false_iff]
    exact List.ne_nil_of_mem (List.mem_filter.2 ⟨hmem, by simpa using hlt⟩)
  unfold State.hwsRun at h
  obtain ⟨-, rfl⟩ := RunOut.ok.inj (State.gated_ok h)
  simp [hmarks]

/-- A Hawser product ends its run with what its residue checks found. -/
theorem hawserMatmul_residue (s : State) (x : Item) (residue : List Nat) (h : s.canStart region slot 1 1 x) : ∃ (u : State) (y : Item),
    s.startItem region slot x = some (u, y) ∧ y.raw = x.raw ∧ (u.runsNow region slot y →
      u.passes y (u.hwsChecks y) [(u.strm y 0, false), (u.strm y 1, false)] →
      ∃ (amax : Nat) (go : State → Item → State × Result) (z : Item), u.hwsRun residue region y = .ok amax go ∧
        exec (.hawserMatmul region slot residue) s = .next (u.ranOn region slot y (go u y)) ∧
        ((go u y).1.endRun region slot y (go u y).2).item region slot = some z ∧ z.stage = .finished ∧ z.raw = x.raw ∧
        ((∃ k ∈ residue, k < tileCount y.hws.m y.hws.n) → z.res.poison = true)) := by
  obtain ⟨u, y, hs⟩ := State.canStart_starts h
  have hraw := (State.startItem_spec hs).2.1
  refine ⟨u, y, hs, hraw, fun hnow hpass => ?_⟩
  obtain ⟨amax, go, hout⟩ := runsThrough_hwsRun residue u region y hpass
  have hst := State.canStart_itemStarts h hs hnow
  have hrun : s.runItem region slot takesHawser (State.hwsRun residue) = u.ranOn region slot y (go u y) :=
    State.runItem_ok hst (by simp [takesHawser, h.2.1, h.2.2.1]) hout
  refine ⟨amax, go, _, hout, congrArg _ hrun, State.endRun_item .., rfl, hraw, fun hk => ?_⟩
  show ((go u y).2.poison || y.nmPoison) = true
  rw [State.hwsRun_poison hout hk, Bool.true_or]

end

/-- Settles O30: each row's run leaves nothing but its outputs, and runs through where its condition holds. -/
theorem arrayRouterAndHalyardItemsRun : Obligations.ArrayRouterAndHalyardItemsRun := by
  intro region slot
  refine ⟨?_, fun s x residue => hawserMatmul_residue s x residue⟩
  simp only [List.forall_mem_cons, List.not_mem_nil, false_implies, implies_true, and_true]
  exact ⟨itemRow_settled onlyOutputs_hwsRun (runsThrough_hwsRun []) rfl fun _ => rfl,
    itemRow_settled onlyOutputs_segRun runsThrough_segRun rfl fun _ => rfl,
    itemRow_settled onlyOutputs_rebRun runsThrough_rebRun rfl fun _ => rfl,
    itemRow_settled onlyOutputs_rtrRun runsThrough_rtrRun rfl fun _ => rfl,
    itemRow_settled onlyOutputs_rtrRun runsThrough_rtrRun rfl fun _ => rfl,
    itemRow_settled onlyOutputs_halRun runsThrough_halRun rfl fun _ => rfl,
    itemRow_settled onlyOutputs_halRun runsThrough_halRun rfl fun _ => rfl,
    itemRow_settled onlyOutputs_halRun runsThrough_halRun rfl fun _ => rfl,
    itemRow_settled onlyOutputs_halRun runsThrough_halRun rfl fun _ => rfl,
    itemRow_settled onlyOutputs_halRun runsThrough_halRun rfl fun _ => rfl,
    itemRow_settled onlyOutputs_nmRun runsThrough_nmRun rfl fun _ => rfl⟩

end Sys2Proof.Machine
end

section
/-! Rounding to a magnitude grid (04 R142): the values of a grid, where a magnitude lies between two of them, and what each mode makes of
it there. -/

namespace Sys2Proof.Machine

variable {g : Grid} {mode r n d lo rem den k : Nat}

/-! ### The values of a grid (04 R123, R125 to R130) -/

/-- Grid value k, as a rational. -/
def Grid.point (g : Grid) (k : Nat) : ℚ := ((gval g k).1 : ℚ) * (2 : ℚ) ^ (gval g k).2

theorem gridRat_eq_point (fmt k : Nat) : gridRat fmt k = (grid fmt).point k := rfl

theorem gval_of_lt (h : k < 2 ^ (g.mb + 1)) : gval g k = ((k : Int), g.emin) := by simp [gval, h]

theorem gval_binade (g : Grid) (sh : Nat) {j : Nat} (hj : j < 2 ^ g.mb) :
    gval g ((sh + 1) * 2 ^ g.mb + j) = (((2 ^ g.mb + j : Nat) : Int), g.emin + sh) := by
  rcases sh with _ | sh
  · rw [gval_of_lt (by rw [pow_succ]; omega)]; simp
  · have hge : ¬ (sh + 1 + 1) * 2 ^ g.mb + j < 2 ^ (g.mb + 1) := by
      rw [pow_succ, mul_comm (2 ^ g.mb)]
      exact not_lt.2 (le_add_right (Nat.mul_le_mul_right _ (by omega)))
    have hdiv : ((sh + 1 + 1) * 2 ^ g.mb + j) / 2 ^ g.mb = sh + 1 + 1 :=
      Nat.div_eq_of_lt_le (by omega) (by rw [Nat.succ_mul (sh + 1 + 1)]; omega)
    rw [gval, if_neg hge, Nat.mul_add_mod_self_right, Nat.mod_eq_of_lt hj, hdiv]
    rfl

/-- Index `sh` × 2^mb + m is m points up from 0 at the spacing of binade `sh`, both below the binades and where the next one begins. -/
theorem Grid.point_binade (g : Grid) {sh m : Nat} (hm : m ≤ 2 ^ (g.mb + 1)) (hsh : sh = 0 ∨ 2 ^ g.mb ≤ m) :
    g.point (sh * 2 ^ g.mb + m) = (m : ℚ) * 2 ^ sh * 2 ^ g.emin := by
  have hzpow (k : Nat) : (2 : ℚ) ^ (g.emin + k) = 2 ^ k * 2 ^ g.emin := by rw [zpow_add₀ two_ne_zero, zpow_natCast, mul_comm]
  rcases lt_or_ge m (2 ^ g.mb) with hlow | hge
  · obtain rfl : sh = 0 := hsh.resolve_right (not_le.2 hlow)
    have hlt : m < 2 ^ (g.mb + 1) := hlow.trans (Nat.pow_lt_pow_right one_lt_two (Nat.lt_succ_self _))
    simp [Grid.point, gval_of_lt hlt]
  obtain ⟨j, rfl⟩ := Nat.exists_eq_add_of_le hge
  rw [pow_succ] at hm
  rcases lt_or_eq_of_le (show j ≤ 2 ^ g.mb by omega) with hj | rfl
  · rw [show sh * 2 ^ g.mb + (2 ^ g.mb + j) = (sh + 1) * 2 ^ g.mb + j by ring, Grid.point, gval_binade g sh hj, hzpow]
    push_cast
    ring
  · rw [show sh * 2 ^ g.mb + (2 ^ g.mb + 2 ^ g.mb) = (sh + 1 + 1) * 2 ^ g.mb + 0 by ring, Grid.point,
      gval_binade g (sh + 1) (by positivity), hzpow]
    push_cast
    ring

/-- Every index is the sum of a binade's first and less than 2^(mb+1) points. -/
theorem Grid.exists_binade (g : Grid) (k : Nat) :
    ∃ sh m, k = sh * 2 ^ g.mb + m ∧ m < 2 ^ (g.mb + 1) ∧ (sh = 0 ∨ 2 ^ g.mb ≤ m) := by
  have hB : 0 < 2 ^ g.mb := by positivity
  have hk := Nat.div_add_mod' k (2 ^ g.mb)
  have hr := Nat.mod_lt k hB
  rw [pow_succ]
  rcases hq : k / 2 ^ g.mb with _ | sh
  · exact ⟨0, k, by simp, by rw [hq] at hk; omega, .inl rfl⟩
  · refine ⟨sh, 2 ^ g.mb + k % 2 ^ g.mb, ?_, by omega, .inr (by omega)⟩
    rw [hq] at hk
    linarith

theorem Grid.point_strictMono (g : Grid) : StrictMono g.point := by
  refine strictMono_nat_of_lt_succ fun k => ?_
  obtain ⟨sh, m, rfl, hm, hsh⟩ := g.exists_binade k
  rw [add_assoc, g.point_binade hm.le hsh, g.point_binade (m := m + 1) hm (hsh.imp_right Nat.le_succ_of_le)]
  push_cast
  gcongr
  linarith

/-! ### The procedure of R142 by where a magnitude lies -/

/-- The index R142 takes for a magnitude that lies `rem` / `den` of the way from grid value `lo` to the next. -/
def roundPick (mode r lo rem den : Nat) : Nat :=
  if rem = 0 ∨ mode = mRZ then lo
  else if mode = mSR then (if 16 ≤ 16 * rem / den + r then lo + 1 else lo)
  else if 2 * rem < den then lo
  else if den < 2 * rem then lo + 1
  else if lo % 2 = 0 then lo else lo + 1

/-- R142 there: beyond the last grid value it saturates. -/
def roundAt (g : Grid) (mode r lo rem den : Nat) : Nat × Bool :=
  if g.last < lo ∨ lo = g.last ∧ rem ≠ 0 then (g.last, true) else (roundPick mode r lo rem den, false)

/-- The binade of a magnitude whose integer part, in units of the least point, is `q`. -/
def Grid.binadeOf (g : Grid) (q : Nat) : Nat := if q < 2 ^ (g.mb + 1) then 0 else Nat.log2 q - g.mb

/-- The points from the first of its binade up to a magnitude. -/
theorem Grid.binadeOf_spec (g : Grid) (q : Nat) :
    q / 2 ^ g.binadeOf q < 2 ^ (g.mb + 1) ∧ (g.binadeOf q = 0 ∨ 2 ^ g.mb ≤ q / 2 ^ g.binadeOf q) := by
  unfold Grid.binadeOf
  split
  · next h => simpa using h
  · next h =>
    have hq : q ≠ 0 := fun h0 => h (h0 ▸ by positivity)
    have hL : g.mb + 1 ≤ q.log2 := (Nat.le_log2 hq).2 (not_lt.1 h)
    refine ⟨?_, .inr ?_⟩
    · rw [Nat.div_lt_iff_lt_mul (by positivity), ← pow_add, show g.mb + 1 + (q.log2 - g.mb) = q.log2 + 1 by omega]
      exact Nat.lt_log2_self
    · rw [Nat.le_div_iff_mul_le (by positivity), ← pow_add, show g.mb + (q.log2 - g.mb) = q.log2 by omega]
      exact Nat.log2_self_le hq

theorem roundQ_eq_roundAt (g : Grid) (mode r n d : Nat) {N D sh : Nat} (hN : N = n * pow2 (-g.emin)) (hD : D = d * pow2 g.emin)
    (hsh : sh = g.binadeOf (N / D)) :
    roundQ g mode r n d = roundAt g mode r (sh * 2 ^ g.mb + N / (D * 2 ^ sh)) (N % (D * 2 ^ sh)) (D * 2 ^ sh) := by
  rw [Grid.binadeOf] at hsh
  simp only [roundQ, ← hN, ← hD, ← hsh]
  generalize sh * 2 ^ g.mb + N / (D * 2 ^ sh) = lo
  generalize N % (D * 2 ^ sh) = rem
  generalize D * 2 ^ sh = den
  simp only [roundAt, roundPick, Bool.or_eq_true, Bool.and_eq_true, decide_eq_true_eq, beq_iff_eq, bne_iff_ne]
  split_ifs <;> simp_all

theorem pow2_pos (e : Int) : 0 < pow2 e := by unfold pow2; positivity

theorem pow2_div_pow2_neg (e : Int) : (pow2 e : ℚ) / pow2 (-e) = 2 ^ e := by
  obtain ⟨k, rfl | rfl⟩ := e.eq_nat_or_neg <;> simp [pow2]

/-- A magnitude in units of the least point. -/
theorem Grid.eq_units (g : Grid) (n d : Nat) {N D : Nat} (hN : N = n * pow2 (-g.emin)) (hD : D = d * pow2 g.emin) :
    (n : ℚ) / d = N / D * 2 ^ g.emin := by
  have hpos := pow2_pos g.emin
  have hneg := pow2_pos (-g.emin)
  rw [← pow2_div_pow2_neg, hN, hD]
  push_cast
  field_simp

/-- Where N / D units of the least point lie: from a grid value on, by the remainder's share of the way to the next. -/
theorem Grid.cell (g : Grid) (N : Nat) {D sh : Nat} (hD : 0 < D) (hsh : sh = g.binadeOf (N / D)) {lo : Nat}
    (hlo : lo = sh * 2 ^ g.mb + N / (D * 2 ^ sh)) :
    (N : ℚ) / D * 2 ^ g.emin
      = g.point lo + ((N % (D * 2 ^ sh) : Nat) : ℚ) / (D * 2 ^ sh : Nat) * (g.point (lo + 1) - g.point lo) := by
  obtain ⟨hm, hlow⟩ := g.binadeOf_spec (N / D)
  rw [← hsh, Nat.div_div_eq_div_mul] at hm hlow
  have hsplit : (N : ℚ) = D * 2 ^ sh * (N / (D * 2 ^ sh) : Nat) + (N % (D * 2 ^ sh) : Nat) := by
    exact_mod_cast (Nat.div_add_mod N (D * 2 ^ sh)).symm
  rw [hlo, add_assoc, g.point_binade hm.le hlow, g.point_binade (m := _ + 1) hm (hlow.imp_right Nat.le_succ_of_le), hsplit]
  push_cast
  field_simp
  ring

/-! ### Between two grid values (04 R142) -/

/-- What lies a fraction below 1 of the way from a grid value to the next lies between the two. -/
theorem Grid.between (g : Grid) {x f : ℚ} (h0 : 0 ≤ f) (h1 : f < 1) (hx : x = g.point lo + f * (g.point (lo + 1) - g.point lo)) :
    g.point lo ≤ x ∧ x < g.point (lo + 1) ∧ f = (x - g.point lo) / (g.point (lo + 1) - g.point lo) := by
  have hstep := sub_pos.2 (g.point_strictMono (Nat.lt_succ_self lo))
  refine ⟨?_, ?_, ?_⟩
  · rw [hx]; exact le_add_of_nonneg_right (mul_nonneg h0 hstep.le)
  · rw [hx]; linarith [mul_lt_of_lt_one_left hstep h1]
  · rw [hx, add_sub_cancel_left, mul_div_cancel_right₀ _ hstep.ne']

/-- It is past grid value k when `lo` is, or when `lo` is k and it has moved on from there. -/
theorem Grid.point_lt_iff (g : Grid) {x f : ℚ} (h0 : 0 ≤ f) (h1 : f < 1) (hx : x = g.point lo + f * (g.point (lo + 1) - g.point lo)) :
    g.point k < x ↔ k < lo ∨ lo = k ∧ f ≠ 0 := by
  obtain ⟨hle, hlt, hf⟩ := g.between h0 h1 hx
  rcases lt_trichotomy k lo with hk | rfl | hk
  · exact iff_of_true ((g.point_strictMono hk).trans_le hle) (.inl hk)
  · rcases h0.eq_or_lt with rfl | hpos
    · simp [hx]
    · have hstep := sub_pos.2 (g.point_strictMono (Nat.lt_succ_self k))
      exact iff_of_true (hx ▸ lt_add_of_pos_right _ (mul_pos hpos hstep)) (.inr ⟨rfl, hpos.ne'⟩)
  · exact iff_of_false (not_lt.2 (hlt.le.trans (g.point_strictMono.monotone hk))) (by omega)

theorem fraction_eq_zero (hden : 0 < den) : (rem : ℚ) / den = 0 ↔ rem = 0 := by
  rw [div_eq_zero_iff, Nat.cast_eq_zero, Nat.cast_eq_zero, or_iff_left hden.ne']

theorem fraction_lt_half (hden : 0 < den) : (rem : ℚ) / den < 1 / 2 ↔ 2 * rem < den := by
  rw [div_lt_div_iff₀ (by exact_mod_cast hden) two_pos]
  norm_cast
  omega

theorem half_lt_fraction (hden : 0 < den) : 1 / 2 < (rem : ℚ) / den ↔ den < 2 * rem := by
  rw [div_lt_div_iff₀ two_pos (by exact_mod_cast hden)]
  norm_cast
  omega

theorem floor_sixteenths (rem den : Nat) : ⌊16 * ((rem : ℚ) / den)⌋ = ((16 * rem / den : Nat) : ℤ) := by
  have : 16 * ((rem : ℚ) / den) = ((16 * rem : Nat) : ℚ) / den := by push_cast; ring
  rw [this, Rat.floor_natCast_div_natCast, Int.natCast_div]

/-- Every magnitude lies between two neighbours `lo` and `lo` + 1 of the grid. Past the last grid value it saturates; else the share
`rem` / `den` of the way that it has gone decides. -/
theorem roundQ_cell (g : Grid) {x : ℚ} (hd : 0 < d) (hx : x = (n : ℚ) / d) : ∃ lo rem den : Nat, 0 < den ∧
    g.point lo ≤ x ∧ x < g.point (lo + 1) ∧ (rem : ℚ) / den = (x - g.point lo) / (g.point (lo + 1) - g.point lo) ∧
    ∀ mode r, roundQ g mode r n d = if g.point g.last < x then (g.last, true) else (roundPick mode r lo rem den, false) := by
  obtain ⟨N, hN⟩ : ∃ N, N = n * pow2 (-g.emin) := ⟨_, rfl⟩
  obtain ⟨D, hD⟩ : ∃ D, D = d * pow2 g.emin := ⟨_, rfl⟩
  obtain ⟨sh, hsh⟩ : ∃ sh, sh = g.binadeOf (N / D) := ⟨_, rfl⟩
  have hDpos : 0 < D := hD ▸ Nat.mul_pos hd (pow2_pos _)
  have hden : 0 < D * 2 ^ sh := by positivity
  have hcell : x = _ := hx.trans ((g.eq_units n d hN hD).trans (g.cell N hDpos hsh rfl))
  have h0 : (0 : ℚ) ≤ (N % (D * 2 ^ sh) : Nat) / (D * 2 ^ sh : Nat) := by positivity
  have h1 : ((N % (D * 2 ^ sh) : Nat) : ℚ) / (D * 2 ^ sh : Nat) < 1 :=
    (div_lt_one (by exact_mod_cast hden)).2 (by exact_mod_cast Nat.mod_lt N hden)
  obtain ⟨hle, hlt, hf⟩ := g.between h0 h1 hcell
  refine ⟨_, _, _, hden, hle, hlt, hf, fun mode r => ?_⟩
  rw [roundQ_eq_roundAt g mode r n d hN hD hsh, roundAt]
  simp only [g.point_lt_iff h0 h1 hcell, ne_eq, fraction_eq_zero hden]

/-! ### What each mode makes of it (04 R142, R145) -/

theorem roundPick_exact (mode r lo den : Nat) : roundPick mode r lo 0 den = lo := by simp [roundPick]
theorem roundPick_rz (r lo rem den : Nat) : roundPick mRZ r lo rem den = lo := by simp [roundPick]

theorem roundPick_le (mode r lo rem den : Nat) : roundPick mode r lo rem den ≤ lo + 1 := by
  unfold roundPick
  split_ifs <;> omega

theorem roundAt_le_last (g : Grid) (mode r lo rem den : Nat) : (roundAt g mode r lo rem den).1 ≤ g.last := by
  unfold roundAt
  split
  · exact le_rfl
  next h =>
    rcases Nat.eq_zero_or_pos rem with rfl | hrem
    · rw [roundPick_exact]; omega
    · have := roundPick_le mode r lo rem den
      omega

/-- No rounding leaves the grid. -/
theorem roundQ_le_last (g : Grid) (mode r n d : Nat) : (roundQ g mode r n d).1 ≤ g.last := by
  rw [roundQ_eq_roundAt g mode r n d rfl rfl rfl]
  exact roundAt_le_last ..

theorem roundPick_rn_below (hden : 0 < den) (h : (rem : ℚ) / den < 1 / 2) : roundPick mRN r lo rem den = lo := by
  simp [roundPick, mRN, mSR, (fraction_lt_half hden).1 h]

theorem roundPick_rn_above (hden : 0 < den) (h : 1 / 2 < (rem : ℚ) / den) : roundPick mRN r lo rem den = lo + 1 := by
  have := (half_lt_fraction hden).1 h
  simp [roundPick, mRN, mRZ, mSR, this, this.not_gt, show rem ≠ 0 by omega]

theorem roundPick_rn_tie (hden : 0 < den) (h : (rem : ℚ) / den = 1 / 2) :
    roundPick mRN r lo rem den = if lo % 2 = 0 then lo else lo + 1 := by
  have hle := mt (fraction_lt_half hden).2 h.not_lt
  have hge := mt (half_lt_fraction hden).2 h.not_gt
  simp [roundPick, mRN, mRZ, mSR, hle, hge, show rem ≠ 0 by omega]

theorem roundPick_sr (hr : r < 16) :
    roundPick mSR r lo rem den = if 16 ≤ ⌊16 * ((rem : ℚ) / den)⌋ + r then lo + 1 else lo := by
  rcases Nat.eq_zero_or_pos rem with rfl | hrem
  · simp [roundPick_exact, hr]
  · have hcarry : 16 ≤ ⌊16 * ((rem : ℚ) / den)⌋ + r ↔ 16 ≤ 16 * rem / den + r := by rw [floor_sixteenths]; norm_cast
    simp [roundPick, mRZ, mSR, hcarry, hrem.ne']

/-! ### Every magnitude -/

/-- A grid value stays as it is, in every mode. -/
theorem roundQ_point (g : Grid) (mode r : Nat) (hd : 0 < d) (hk : k ≤ g.last) (hx : g.point k = (n : ℚ) / d) :
    roundQ g mode r n d = (k, false) := by
  obtain ⟨lo, rem, den, hden, hle, hlt, hf, hround⟩ := roundQ_cell g hd hx
  obtain rfl : lo = k := by
    rw [g.point_strictMono.le_iff_le] at hle
    rw [g.point_strictMono.lt_iff_lt] at hlt
    omega
  rw [sub_self, zero_div, fraction_eq_zero hden] at hf
  rw [hround, if_neg (not_lt.2 (g.point_strictMono.monotone hk)), hf, roundPick_exact]

/-- Settles O26: each magnitude lies between two neighbours of the grid, and how far it has gone from the one to the other decides in
every mode. -/
theorem roundingTakesTheGridValue : Obligations.RoundingTakesTheGridValue := by
  intro fmt n d r x _ hd hx hr
  simp only [gridRat_eq_point]
  obtain ⟨lo, rem, den, hden, hle, hlt, hf, hround⟩ := roundQ_cell (grid fmt) hd hx
  refine ⟨fun hmax mode _ => (hround mode r).trans (if_pos hmax), fun hfits => ?_⟩
  have hpick (mode : Nat) : roundQ (grid fmt) mode r n d = (roundPick mode r lo rem den, false) :=
    (hround mode r).trans (if_neg (not_lt.2 hfits))
  refine ⟨lo, rem / den, (grid fmt).point_strictMono.le_iff_le.1 (hle.trans hfits), hle, hlt, hf, fun h mode _ => ?_, ?_, fun h => ?_,
    fun h => ?_, fun h => ?_, ?_⟩
  · rw [hpick, (fraction_eq_zero hden).1 h, roundPick_exact]
  · rw [hpick, roundPick_rz]
  · rw [hpick, roundPick_rn_below hden h]
  · rw [hpick, roundPick_rn_above hden h]
  · rw [hpick, roundPick_rn_tie hden h]
  · rw [hpick, roundPick_sr hr]

end Sys2Proof.Machine
end

section
/-! Element codes (04 R125 to R130, R142, R146): every finite element is a grid value with a sign, rounding keeps it, and the code that is
written for it is its own; the code of −0 is written for no value. -/

namespace Sys2Proof.Machine

variable {fmt c k : Nat}

/-! ### Signed codes (04 R125 to R130, R146) -/

/-- The formats in two's complement: T4i, INT8, INT32 and LONG128. The others have a sign bit. -/
abbrev TwosFmt (fmt : Nat) : Prop := fmt = 2 ∨ fmt = 10 ∨ fmt = 11 ∨ fmt = 12

theorem fmtBits_pos (h : fmt ≤ 12) : 0 < fmtBits fmt := by interval_cases fmt <;> decide
theorem two_pow_fmtBits (h : fmt ≤ 12) : 2 ^ fmtBits fmt = 2 ^ (fmtBits fmt - 1) + 2 ^ (fmtBits fmt - 1) := by
  rw [← two_mul, mul_pow_sub_one (fmtBits_pos h).ne']

/-- The grid values of a format are magnitude codes below its sign bit. -/
theorem grid_last_lt (h : fmt ≤ 12) : (grid fmt).last < 2 ^ (fmtBits fmt - 1) := by interval_cases fmt <;> decide

theorem signCode_zero (fmt : Nat) (neg : Bool) : signCode fmt neg 0 = 0 := rfl
theorem signCode_pos (fmt k : Nat) : signCode fmt false k = k := by simp [signCode]

theorem signCode_neg_sign (h : fmt ≤ 12) (ht : ¬ TwosFmt fmt) (hk : k ≠ 0) (hmax : k ≤ (grid fmt).last) :
    signCode fmt true k = 2 ^ (fmtBits fmt - 1) + k := by
  interval_cases fmt <;> simp_all [signCode, fmtBits, grid]
  omega

theorem signCode_neg_twos (ht : TwosFmt fmt) (hk : k ≠ 0) : signCode fmt true k = 2 ^ fmtBits fmt - k := by
  rcases ht with rfl | rfl | rfl | rfl <;> simp [signCode, hk, fmtBits]

theorem signCode_ne_negZero (h : fmt ≤ 12) (neg : Bool) (hmax : k ≤ (grid fmt).last) : signCode fmt neg k ≠ 2 ^ (fmtBits fmt - 1) := by
  have hlt := grid_last_lt h
  have hpow := two_pow_fmtBits h
  rcases eq_or_ne k 0 with rfl | hk
  · rw [signCode_zero]; omega
  rcases neg with _ | _
  · rw [signCode_pos]; omega
  · by_cases ht : TwosFmt fmt
    · rw [signCode_neg_twos ht hk]; omega
    · rw [signCode_neg_sign h ht hk hmax]; omega

/-! ### What a code stands for (04 R125 to R130, R155) -/

/-- Grid value k with a sign. -/
def signedVal (fmt : Nat) (neg : Bool) (k : Nat) : XV :=
  .fin (if neg then -(gval (grid fmt) k).1 else (gval (grid fmt) k).1) (gval (grid fmt) k).2

/-- `c` is the code that writes some grid value with a sign, and `v` is its value. -/
def IsElement (fmt c : Nat) (v : XV) : Prop :=
  ∃ k ≤ (grid fmt).last, ∃ neg : Bool, (neg = true → k ≠ 0) ∧ c = signCode fmt neg k ∧ v = signedVal fmt neg k

theorem ite_eq_signedVal (fmt k : Nat) (neg : Bool) :
    (if neg = true then XV.fin (-(gval (grid fmt) k).1) (gval (grid fmt) k).2 else .fin (gval (grid fmt) k).1 (gval (grid fmt) k).2)
      = signedVal fmt neg k := by
  cases neg <;> rfl

/-- A finite element of a format with a sign bit. -/
theorem codeVal_sign {v : XV} (h : fmt ≤ 12) (ht : ¬ TwosFmt fmt) (hc : c < 2 ^ fmtBits fmt) (hne : c ≠ 2 ^ (fmtBits fmt - 1))
    (hv : codeVal fmt c = some v) (hfin : v.isFinite = true) :
    c % 2 ^ (fmtBits fmt - 1) ≤ (grid fmt).last ∧
      v = signedVal fmt (c / 2 ^ (fmtBits fmt - 1) % 2 == 1) (c % 2 ^ (fmtBits fmt - 1)) := by
  obtain rfl | rfl | hrest : fmt = 0 ∨ fmt = 4 ∨ (fmt = 1 ∨ fmt = 3 ∨ fmt = 5 ∨ fmt = 6 ∨ fmt = 7 ∨ fmt = 8 ∨ fmt = 9) := by
    omega
  · -- T2 has the codes 0, 1 and 3
    obtain rfl | rfl | rfl : c = 0 ∨ c = 1 ∨ c = 3 := by simp [fmtBits] at hc hne; omega
    all_goals obtain rfl := Option.some.inj hv; decide
  · -- S6 has no other codes
    simp only [codeVal, ite_eq_signedVal] at hv
    obtain rfl := Option.some.inj hv
    exact ⟨Nat.le_of_lt_succ (Nat.mod_lt c (by decide)), rfl⟩
  · -- the other codes are the escape, an infinity or a NaN
    rcases hrest with rfl | rfl | rfl | rfl | rfl | rfl | rfl
    all_goals
      simp only [codeVal, ite_eq_signedVal] at hv
      split_ifs at hv
      all_goals obtain rfl := Option.some.inj hv
      all_goals simp_all [XV.isFinite, grid, fmtBits]
    all_goals omega

/-- An element of a format in two's complement. -/
theorem codeVal_twos {v : XV} (ht : TwosFmt fmt) (hne : c ≠ 2 ^ (fmtBits fmt - 1))
    (hv : codeVal fmt c = some v) : v = .fin (sInt (fmtBits fmt) c) (grid fmt).emin := by
  rcases ht with rfl | rfl | rfl | rfl <;> simp_all [codeVal, fmtBits, grid, XV.ofInt]

/-- Below the first binade the grid values are the multiples of the least. -/
theorem signedVal_twos (ht : TwosFmt fmt) (neg : Bool) (hk : k ≤ (grid fmt).last) :
    signedVal fmt neg k = .fin (if neg then -k else k) (grid fmt).emin := by
  have hlow : k < 2 ^ ((grid fmt).mb + 1) := by
    refine hk.trans_lt ?_
    rcases ht with rfl | rfl | rfl | rfl <;> decide
  rw [signedVal, gval_of_lt hlow]

theorem isElement_sign {v : XV} (h : fmt ≤ 12) (ht : ¬ TwosFmt fmt) (hc : c < 2 ^ fmtBits fmt) (hne : c ≠ 2 ^ (fmtBits fmt - 1))
    (hv : codeVal fmt c = some v) (hfin : v.isFinite = true) : IsElement fmt c v := by
  obtain ⟨hmax, hval⟩ := codeVal_sign h ht hc hne hv hfin
  rcases lt_or_ge c (2 ^ (fmtBits fmt - 1)) with hlow | hhigh
  · rw [Nat.mod_eq_of_lt hlow] at hmax hval
    rw [Nat.div_eq_of_lt hlow] at hval
    exact ⟨c, hmax, false, by simp, (signCode_pos fmt c).symm, hval⟩
  · obtain ⟨k, rfl⟩ := Nat.exists_eq_add_of_le hhigh
    have hk0 : k ≠ 0 := fun hk => hne (by rw [hk, add_zero])
    have hlt : k < 2 ^ (fmtBits fmt - 1) := by rw [two_pow_fmtBits h] at hc; omega
    rw [Nat.add_mod_left, Nat.mod_eq_of_lt hlt] at hmax hval
    rw [Nat.add_div_left k (by positivity), Nat.div_eq_of_lt hlt] at hval
    exact ⟨k, hmax, true, fun _ => hk0, (signCode_neg_sign h ht hk0 hmax).symm, hval⟩

theorem isElement_twos {v : XV} (h : fmt ≤ 12) (ht : TwosFmt fmt) (hc : c < 2 ^ fmtBits fmt) (hne : c ≠ 2 ^ (fmtBits fmt - 1))
    (hv : codeVal fmt c = some v) : IsElement fmt c v := by
  have hpow := two_pow_fmtBits h
  have hlast : (grid fmt).last = 2 ^ (fmtBits fmt - 1) - 1 := by
    rcases ht with rfl | rfl | rfl | rfl <;> rfl
  rw [codeVal_twos ht hne hv, sInt, Nat.mod_eq_of_lt hc]
  rcases lt_or_ge c (2 ^ (fmtBits fmt - 1)) with hlow | hhigh
  · refine ⟨c, by omega, false, by simp, (signCode_pos fmt c).symm, ?_⟩
    rw [signedVal_twos ht false (by omega), if_pos (by omega)]
    rfl
  · have hk : 2 ^ fmtBits fmt - c ≤ (grid fmt).last := by omega
    refine ⟨2 ^ fmtBits fmt - c, hk, true, fun _ => by omega, ?_, ?_⟩
    · rw [signCode_neg_twos ht (by omega)]; omega
    · rw [signedVal_twos ht true hk, if_neg (by omega), if_pos rfl]
      congr 1
      omega

/-- A finite element is a grid value with a sign. -/
theorem codeVal_isElement {v : XV} (h : fmt ≤ 12) (hc : c < 2 ^ fmtBits fmt) (hne : c ≠ 2 ^ (fmtBits fmt - 1))
    (hv : codeVal fmt c = some v) (hfin : v.isFinite = true) : IsElement fmt c v := by
  by_cases ht : TwosFmt fmt
  · exact isElement_twos h ht hc hne hv
  · exact isElement_sign h ht hc hne hv hfin

/-! ### Writing an element (04 R142, R146) -/

theorem magFrac_snd_pos (m e : Int) : 0 < (magFrac m e).2 := pow2_pos _

theorem magFrac_div (m e : Int) : ((magFrac m e).1 : ℚ) / (magFrac m e).2 = (m.natAbs : ℚ) * 2 ^ e := by
  rw [magFrac, Nat.cast_mul, mul_div_assoc, pow2_div_pow2_neg]

/-- The mantissa of a grid value is 0 for grid value 0 alone. -/
theorem gval_mantissa (g : Grid) (k : Nat) : ∃ a : Nat, (gval g k).1 = a ∧ (k ≠ 0 → 0 < a) := by
  unfold gval
  split
  · exact ⟨k, rfl, Nat.pos_of_ne_zero⟩
  · exact ⟨_, rfl, fun _ => by positivity⟩

/-- An element written back in its format keeps its code. -/
theorem convCode_of_isElement {v : XV} (mode r : Nat) (h : IsElement fmt c v) : convCode fmt mode r v = (c, false) := by
  obtain ⟨k, hmax, neg, hneg, rfl, rfl⟩ := h
  obtain ⟨a, ha, hpos⟩ := gval_mantissa (grid fmt) k
  have hsign : decide ((if neg then -(a : Int) else a) < 0) = neg := by
    cases neg
    · simp
    · simpa using hpos (hneg rfl)
  have hround : (grid fmt).point k = (a : ℚ) * 2 ^ (gval (grid fmt) k).2 := by rw [Grid.point, ha, Int.cast_natCast]
  have habs : (if neg then -(a : Int) else a).natAbs = a := by cases neg <;> simp
  rw [← habs, ← magFrac_div] at hround
  simp only [convCode, signedVal, ha, hsign, roundQ_point (grid fmt) mode r (magFrac_snd_pos ..) hmax hround]

/-- Settles O27: a finite element is a grid value with a sign (`codeVal_isElement`), which rounding keeps and `signCode` writes with its own
code (`convCode_of_isElement`); what is rounded stays on the grid, where no value has the code of −0. -/
theorem elementCodesRoundTrip : Obligations.ElementCodesRoundTrip := by
  intro fmt hfmt
  refine ⟨fun c mode r v hc hne hv hfin => convCode_of_isElement mode r (codeVal_isElement hfmt hc hne hv hfin), signCode_zero fmt,
    fun neg k hk => signCode_ne_negZero hfmt neg hk, fun mode r m e => ⟨?_, fun h => ?_⟩⟩
  · exact signCode_ne_negZero hfmt _ (roundQ_le_last ..)
  · show signCode fmt _ (roundQ (grid fmt) mode r (magFrac m e).1 (magFrac m e).2).1 = 0
    rw [h, signCode_zero]

end Sys2Proof.Machine
end

section
/-! The Twine reduction (05 R162): exact sums and products of finite elements, as the rationals they stand for. -/

namespace Sys2Proof.Machine

/-! ### Exact arithmetic (04 R149) -/

theorem XV.isFinite_iff {v : XV} : v.isFinite = true ↔ ∃ m e, v = .fin m e := by
  cases v <;> simp [XV.isFinite]

theorem pow2_sub_mul_zpow {a b : Int} (h : a ≤ b) : (pow2 (b - a) : ℚ) * 2 ^ a = 2 ^ b := by
  rw [pow2, Nat.cast_pow, Nat.cast_ofNat, ← zpow_natCast, Int.toNat_of_nonneg (by omega), ← zpow_add₀ two_ne_zero]
  congr 1
  omega

/-- The sum of finite values is finite and exact: it is formed at the lower of the two exponents. -/
theorem XV.add_exact {v w : XV} (hv : v.isFinite = true) (hw : w.isFinite = true) :
    (v.add w).isFinite = true ∧ (v.add w).rat = v.rat + w.rat := by
  obtain ⟨a, ea, rfl⟩ := XV.isFinite_iff.1 hv
  obtain ⟨b, eb, rfl⟩ := XV.isFinite_iff.1 hw
  simp only [XV.add, beq_iff_eq]
  split_ifs with ha hb he
  · simp [XV.isFinite, XV.rat, ha]
  · simp [XV.isFinite, XV.rat, hb]
  · refine ⟨rfl, ?_⟩
    simp only [XV.rat]
    push_cast
    rw [add_mul, mul_assoc, pow2_sub_mul_zpow he]
  · refine ⟨rfl, ?_⟩
    simp only [XV.rat]
    push_cast
    rw [add_mul, mul_assoc, pow2_sub_mul_zpow (not_le.1 he).le]

/-- The product of finite values is finite and exact. -/
theorem XV.mul_exact {v w : XV} (hv : v.isFinite = true) (hw : w.isFinite = true) :
    (v.mul w).isFinite = true ∧ (v.mul w).rat = v.rat * w.rat := by
  obtain ⟨a, ea, rfl⟩ := XV.isFinite_iff.1 hv
  obtain ⟨b, eb, rfl⟩ := XV.isFinite_iff.1 hw
  refine ⟨rfl, ?_⟩
  simp only [XV.mul, XV.rat, zpow_add₀ (two_ne_zero (α := ℚ))]
  push_cast
  ring

/-! ### The reduction -/

/-- What the array takes of an element: a finite value, 0 in a zero block. -/
def El.reducible (e : El) : Prop := e.v.isFinite = true ∧ (e.z = true → e.v.rat = 0)

/-- One step of the reduction adds the pair's product, which is 0 where it is skipped. -/
theorem twineStep_exact {l : XV} {a b : El} (hl : l.isFinite = true) (ha : a.reducible) (hb : b.reducible) :
    (if a.z || b.z then l else l.add (a.v.mul b.v)).isFinite = true ∧
      (if a.z || b.z then l else l.add (a.v.mul b.v)).rat = l.rat + a.v.rat * b.v.rat := by
  obtain ⟨hfa, hza⟩ := ha
  obtain ⟨hfb, hzb⟩ := hb
  split
  next hz =>
    refine ⟨hl, ?_⟩
    rcases Bool.or_eq_true_iff.1 hz with hz | hz
    · simp [hza hz]
    · simp [hzb hz]
  next =>
    obtain ⟨hfm, hm⟩ := XV.mul_exact hfa hfb
    obtain ⟨hfs, hs⟩ := XV.add_exact hl hfm
    exact ⟨hfs, by rw [hs, hm]⟩

/-- Settles O28, by induction on the pairs: each step is exact (`twineStep_exact`). -/
theorem twineSumIsExact : Obligations.TwineSumIsExact := by
  intro init ra rb hinit hels
  have hpairs : ∀ p ∈ ra.zip rb, p.1.reducible ∧ p.2.reducible := fun p hp =>
    ⟨hels _ (List.mem_append_left _ (List.of_mem_zip hp).1), hels _ (List.mem_append_right _ (List.of_mem_zip hp).2)⟩
  unfold twineSum
  generalize ra.zip rb = pairs at hpairs ⊢
  clear hels
  induction pairs generalizing init with
  | nil => exact ⟨hinit, by simp⟩
  | cons p ps ih =>
    obtain ⟨⟨ha, hb⟩, htail⟩ := List.forall_mem_cons.1 hpairs
    obtain ⟨hfin, hstep⟩ := twineStep_exact hinit ha hb
    obtain ⟨hfold, hsum⟩ := ih _ hfin htail
    refine ⟨hfold, ?_⟩
    rw [List.foldl_cons, hsum, hstep, List.map_cons, List.sum_cons, add_assoc]

end Sys2Proof.Machine
end

section
/-! A Twine product whose residue mismatch fences its unit (01 R27; 05 R182; 10 R321), in a state whose item table lists a slot three
times. -/

namespace Sys2Proof.Machine

/-- The descriptor field of stream `k` with a block list of a header and one data entry at address `l`. -/
def listField (k l : Nat) : Nat := (l + 2 * 2 ^ 48) * 2 ^ (8 * (0x48 + 8 * k))

/-- A Twine MATMUL on unit 0 that names no step slot, tracker or result slot, with the block list of stream C at `l`. -/
def twineRaw (l : Nat) : Nat := 1 + 2 ^ (8 * 0xC) + listField 2 l + (2 ^ 48 - 1) * 2 ^ (8 * 0x7A)

/-- A block list at `l` of one data entry of 16 elements of FMT 0x2, all 0, with a scale line that is in step. -/
def State.putScaledList (s : State) (l : Nat) : State :=
  (s.wr l (leBytes 32 (l + 0x400 + 0x3F800000 * 2 ^ 128) ++ leBytes 32 (l + 0x800 + 8 * 2 ^ 64 + 2 ^ 96 + 0x2001 * 2 ^ 112))).wr (l + 0x400)
    (leBytes 8 (0xFFFF * 2 ^ 48))

/-- A block list at `l` of one data entry of one FP32 element, with `f` set in its EFLAGS. -/
def State.putPlainList (s : State) (l f : Nat) : State :=
  s.wr l (leBytes 32 0 ++ leBytes 32 (l + 0x800 + 4 * 2 ^ 64 + 2 ^ 96 + (0x9001 + f) * 2 ^ 112 + noScale * 2 ^ 192))

/-- A ready product of 1 × 16 × 1 elements. -/
def productItem : Item :=
  { State.reset.newItem 0 (twineRaw 0x12000 + listField 0 0x10000 + listField 1 0x10000 + 2 ^ (8 * 0x68) + 2 ^ (8 * 0x6C) + 15 * 2 ^ (8 * 0x70)) 0
    with stage := .ready }
/-- An admitted item that names the same unit. -/
def waitingItem : Item := State.reset.newItem 0 (twineRaw 0x12000) 2
/-- A reeve item that has run: REEVE of its stream C is bit 10 of EFLAGS. -/
def spilledItem : Item := { State.reset.newItem 0 (twineRaw 0x14000) 1 with stage := .finished }

/-- A state whose item table lists slot 0 of region 0 three times: the product, which is read there, the item that the fence of unit 0
ends, and the reeve item, one of whose tokens is spilled. Unit 0 has had two faults: FENCE_REPEATS is 3. -/
def triplyListed : State :=
  { ((State.reset.putScaledList 0x10000).putPlainList 0x12000 0).putPlainList 0x14000 0x400 with
    faults := [(0, 0, 0), (0, 0, 0)]
    spills := [(0, [⟨0, 0, 0, 0, 0, [], [], [], [], false, 0, 0, 1⟩])]
    items := [(0, some productItem), (0, some waitingItem), (0, some spilledItem)] }

/-- The command of a Twine product is its run, and then the wait of a reeve item for its spilled tokens. -/
theorem exec_twineMatmul {s : State} {region slot : Nat} {x : Item} (h : s.item region slot = some x) (hr : s.isReeve x = false)
    (residue : List Nat) : exec (.twineMatmul region slot residue) s
      = .next ((s.runItem region slot takesTwine (State.twnRun residue)).reeveWait region slot) := by
  show execTwineMatmul region slot residue s = _
  simp only [execTwineMatmul, h, hr, Bool.false_eq_true, if_false]

theorem triplyListed_canStart : triplyListed.canStart 0 0 0 1 productItem :=
  ⟨rfl, by decide +kernel, by decide +kernel, by decide, rfl, by decide +kernel, by decide +kernel, 1, by decide +kernel, by decide +kernel⟩

/-- The product as it starts on unit 0: it runs on, its checks pass, and its scale lines are in step. -/
theorem triplyListed_passes {u : State} {y : Item} (h : triplyListed.startItem 0 0 productItem = some (u, y)) :
    u.runsNow 0 0 y ∧ u.passes y (u.twnChecks y) [(u.strm y 0, false), (u.strm y 1 y.twn.bFirst, y.twn.two4)] := by
  have hstart : ∀ p ∈ triplyListed.startItem 0 0 productItem, (p.1.behind 0 0 p.2 = false ∧ p.1.calm = true) ∧
      p.1.passes p.2 (p.1.twnChecks p.2) [(p.1.strm p.2 0, false), (p.1.strm p.2 1 p.2.twn.bFirst, p.2.twn.two4)] := by decide +kernel
  obtain ⟨⟨hbehind, hcalm⟩, hpass⟩ := hstart (u, y) h
  exact ⟨⟨hbehind, .inl hcalm⟩, hpass⟩

/-- What stands in the slot after the run with a residue mismatch is the reeve item: it takes up its wait. -/
theorem triplyListed_waits : ((triplyListed.runItem 0 0 takesTwine (State.twnRun [0])).reeveWait 0 0).item 0 0
    ≠ (triplyListed.runItem 0 0 takesTwine (State.twnRun [0])).item 0 0 := by decide +kernel

/-- Refutes O33: on `triplyListed` the residue mismatch of the product fences unit 0, which ends the admitted item of the same slot; with
the slot's entry, that of the product, removed, the reeve item is read there, and the command makes it wait. The statement asks nothing
of the form of the state. -/
theorem not_twineItemsRun : ¬ Obligations.TwineItemsRun := by
  intro h
  have hreeve : triplyListed.isReeve productItem = false := by decide +kernel
  obtain ⟨u, y, hstart, -, -, hrun⟩ := h triplyListed 0 0 productItem [0] triplyListed_canStart
  obtain ⟨hnow, hpass⟩ := triplyListed_passes hstart
  obtain ⟨amax, go, -, hout, hexec, -⟩ := (hrun hnow).1 hreeve (by decide +kernel) hpass
  have hended : triplyListed.runItem 0 0 takesTwine (State.twnRun [0]) = u.ranOn 0 0 y (go u y) :=
    State.runItem_ok (State.canStart_itemStarts triplyListed_canStart hstart hnow) (by decide +kernel) hout
  rw [exec_twineMatmul rfl hreeve, ← hended] at hexec
  exact triplyListed_waits (congrArg (State.item · 0 0) (Host.Outcome.next.inj hexec))

end Sys2Proof.Machine
end

section
/-! What a step's vote and its commands rest on: what leaves step slots, trackers, votes and memory as they are, and the trackers that a
slot holds (07 R216, R227, R231). -/

namespace Sys2Proof.Machine

/-! ### What leaves steps and trackers as they are -/

/-- Step slots and trackers are those of `s`. -/
structure stepsKept (t s : State) : Prop where
  steps : t.steps = s.steps
  trk : t.trk = s.trk

/-- Step slots, trackers, votes in progress, the dictionary's image and memory are those of `s`. -/
structure votesKept (t s : State) : Prop extends stepsKept t s where
  votes : t.votes = s.votes
  image : t.image = s.image
  mem : t.mem = s.mem

theorem stepsKept.refl (s : State) : stepsKept s s := ⟨rfl, rfl⟩
theorem stepsKept.trans {u t s : State} (h : stepsKept u t) (k : stepsKept t s) : stepsKept u s :=
  ⟨h.steps.trans k.steps, h.trk.trans k.trk⟩
theorem stepsKept.step_eq {t s : State} (h : stepsKept t s) (i : Nat) : t.step i = s.step i := congrArg (tget dStep · i) h.steps
theorem stepsKept.tracker_eq {t s : State} (h : stepsKept t s) (i : Nat) : t.tracker i = s.tracker i := congrArg (tget dTrk · i) h.trk

theorem votesKept.refl (s : State) : votesKept s s := ⟨⟨rfl, rfl⟩, rfl, rfl, rfl⟩
theorem votesKept.trans {u t s : State} (h : votesKept u t) (k : votesKept t s) : votesKept u s :=
  ⟨h.tostepsKept.trans k.tostepsKept, h.votes.trans k.votes, h.image.trans k.image, h.mem.trans k.mem⟩
theorem votesKept.foldl {α : Type} {f : State → α → State} (hf : ∀ s a, votesKept (f s a) s) (l : List α) (s : State) :
    votesKept (l.foldl f s) s := by
  induction l generalizing s with
  | nil => exact .refl s
  | cons a l ih => exact (ih (f s a)).trans (hf s a)
theorem votesKept.ite {p : Prop} [Decidable p] {t t' s : State} (h : votesKept t s) (h' : votesKept t' s) :
    votesKept (if p then t else t') s := by
  split
  · exact h
  · exact h'

theorem sentFrom.votesKept {t s : State} (h : sentFrom t s) : votesKept t s := by
  obtain ⟨_, _, _, rfl⟩ := h; exact ⟨⟨rfl, rfl⟩, rfl, rfl, rfl⟩
theorem itemsFrom.votesKept {t s : State} (h : itemsFrom t s) : votesKept t s := by
  obtain ⟨_, _, rfl⟩ := h; exact ⟨⟨rfl, rfl⟩, rfl, rfl, rfl⟩
theorem regsFrom.votesKept {t s : State} (h : regsFrom t s) : votesKept t s := h.items.votesKept
theorem cleatsFrom.votesKept {t s : State} (h : cleatsFrom t s) : votesKept t s := by
  obtain ⟨_, _, _, _, _, _, rfl⟩ := h; exact ⟨⟨rfl, rfl⟩, rfl, rfl, rfl⟩
theorem ranFrom.stepsKept {t s : State} (h : ranFrom t s) : stepsKept t s := by
  obtain ⟨_, _, _, _, rfl⟩ := h.frame; exact ⟨rfl, rfl⟩

theorem State.mcBump_votesKept (s : State) (idx sub n : Nat) : votesKept (s.mcBump idx sub n) s := ⟨⟨rfl, rfl⟩, rfl, rfl, rfl⟩
theorem State.holdOp_votesKept (s : State) (issuer die i : Nat) (o : CleatOp) : votesKept (s.holdOp issuer die i o) s :=
  ⟨⟨rfl, rfl⟩, rfl, rfl, rfl⟩

theorem State.zeroNotice_votesKept (s : State) (die i before : Nat) : votesKept (s.zeroNotice die i before) s := by
  rw [State.zeroNotice]
  split
  · split
    · exact (State.cleatApply_from ..).votesKept
    · exact State.holdOp_votesKept ..
    · exact (State.bump_regs ..).votesKept
  · exact .refl s

/-- A Cleat operation leaves steps, trackers and memory, whatever becomes of it. -/
theorem State.cleatOp_votesKept (s : State) (issuer die i : Nat) (o : CleatOp) : votesKept (s.cleatOp issuer die i o) s := by
  rw [State.cleatOp]
  split
  · cases o with
    | decrement n => exact (State.zeroNotice_votesKept ..).trans (State.cleatApply_from ..).votesKept
    | signal n => exact (State.cleatApply_from ..).votesKept
    | set n => exact (State.cleatApply_from ..).votesKept
  · exact State.holdOp_votesKept ..
  · exact (State.bump_regs ..).votesKept

theorem State.signalWord_votesKept (s : State) (w : Nat) : votesKept (s.signalWord w) s :=
  .ite (State.cleatOp_votesKept ..) (.refl s)

theorem State.irqBy_votesKept (s : State) (cfg : Word) (cause detail : Nat) : votesKept (s.irqBy cfg cause detail) s :=
  .ite (State.emit_sent ..).votesKept (.refl s)

theorem State.policyEvent_votesKept (s : State) (detail : Nat) : votesKept (s.policyEvent detail) s := State.irqBy_votesKept ..

theorem State.sendControl_sent (s : State) (kind dst : Nat) (body : List Byte) : sentFrom (s.sendControl kind dst body) s :=
  State.sendPacket_sent ..

/-! ### The slot of a step -/

/-- A step slot that is not FREE, once written, is read back from any table. -/
theorem State.step_setStep_of_busy (s : State) (i : Nat) {p : StepSlot} (h : p.state ≠ 0) : (s.setStep i p).step i = p :=
  tget_tset_of_ne_default (d := dStep) s.steps fun hp => h (congrArg StepSlot.state hp)

/-! ### The trackers that a slot holds (07 R216) -/

theorem lt_of_mem_twfFrom {α : Type} [DecidableEq α] {d : Nat → α} {m : Sparse α} {b : Nat} (h : twfFrom d (some b) m = true) {e : Nat × α}
    (he : e ∈ m) : b < e.1 := by
  induction m generalizing b with
  | nil => cases he
  | cons a m ih =>
    simp only [twfFrom, Bool.and_eq_true, decide_eq_true_eq] at h
    obtain ⟨⟨hlt, -⟩, hm⟩ := h
    obtain rfl | he := List.mem_cons.1 he
    · exact hlt
    · exact hlt.trans (ih hm he)

/-- The keys of a canonical table rise. -/
theorem keys_rise {α : Type} [DecidableEq α] {d : Nat → α} {m : Sparse α} {lo : Option Nat} (h : twfFrom d lo m = true) :
    (m.map (·.1)).Pairwise (· < ·) := by
  induction m generalizing lo with
  | nil => exact .nil
  | cons a m ih =>
    simp only [twfFrom, Bool.and_eq_true] at h
    refine .cons (fun k hk => ?_) (ih h.2)
    obtain ⟨e, he, rfl⟩ := List.mem_map.1 hk
    exact lt_of_mem_twfFrom h.2 he

/-- An entry of a canonical table is what its key reads as. -/
theorem tget_of_mem {α : Type} [DecidableEq α] {d : Nat → α} {m : Sparse α} {lo : Option Nat} (h : twfFrom d lo m = true) {e : Nat × α}
    (he : e ∈ m) : tget d m e.1 = e.2 := by
  induction m generalizing lo with
  | nil => cases he
  | cons a m ih =>
    simp only [twfFrom, Bool.and_eq_true] at h
    obtain rfl | he := List.mem_cons.1 he
    · simp [tget]
    · have hlt := lt_of_mem_twfFrom h.2 he
      simp [tget, hlt.ne', hlt.not_gt, ih h.2 he]

/-- A key that does not read as its default has an entry. -/
theorem mem_of_tget_ne {α : Type} {d : Nat → α} {m : Sparse α} {k : Nat} (h : tget d m k ≠ d k) : (k, tget d m k) ∈ m := by
  induction m with
  | nil => exact absurd rfl h
  | cons a m ih =>
    obtain ⟨j, v⟩ := a
    rw [tget] at h ⊢
    split at h
    next hk => rw [if_pos hk, hk]; exact List.mem_cons_self
    next hk =>
      split at h
      · exact absurd rfl h
      next hlt => rw [if_neg hk, if_neg hlt]; exact List.mem_cons_of_mem _ (ih h)

section
variable {s : State} {slot : Nat}

theorem State.mem_heldTrackers (h : twf dTrk s.trk = true) (t : Nat) :
    t ∈ s.heldTrackers slot ↔ (s.tracker t).held = true ∧ (s.tracker t).slot = slot := by
  simp only [State.heldTrackers, List.mem_filterMap, Option.ite_none_right_eq_some, Option.some.injEq, Bool.and_eq_true, beq_iff_eq]
  constructor
  · rintro ⟨e, he, hheld, rfl⟩
    rw [State.tracker, tget_of_mem h he]
    exact hheld
  · intro hheld
    refine ⟨(t, s.tracker t), mem_of_tget_ne fun hd => ?_, hheld, rfl⟩
    rw [State.tracker, hd] at hheld
    exact Bool.false_ne_true hheld.1

theorem State.heldTrackers_nodup (h : twf dTrk s.trk = true) : (s.heldTrackers slot).Nodup := by
  refine List.Pairwise.filterMap _ (R := fun a b => a.1 < b.1) (fun a b hab i hi j hj => ?_) (List.pairwise_map.1 (keys_rise h))
  simp only [Option.ite_none_right_eq_some, Option.some.injEq] at hi hj
  omega

/-- Trackers changed one after the other, none twice. -/
theorem State.tracker_foldl_setTracker (g : Tracker → Tracker) {l : List Nat} (hl : l.Nodup) (h : twf dTrk s.trk = true) (t : Nat) :
    (l.foldl (fun s t => s.setTracker t (g (s.tracker t))) s).tracker t = if t ∈ l then g (s.tracker t) else s.tracker t := by
  induction l generalizing s with
  | nil => simp
  | cons a l ih =>
    obtain ⟨ha, hl⟩ := List.nodup_cons.1 hl
    rw [List.foldl_cons, ih hl (twf_tset h ..)]
    by_cases hta : t = a
    · subst hta
      rw [if_neg ha, if_pos List.mem_cons_self]
      exact tget_tset_same h ..
    · have hne : (s.setTracker a (g (s.tracker a))).tracker t = s.tracker t := tget_tset_ne h _ hta
      simp only [hne, List.mem_cons, hta, false_or]

/-- Each tracker of a slot is changed, and no other. -/
theorem State.tracker_mapHeld (g : Tracker → Tracker) (h : twf dTrk s.trk = true) (t : Nat) :
    (s.mapHeld slot fun _ _ x => g x).tracker t
      = if (s.tracker t).held = true ∧ (s.tracker t).slot = slot then g (s.tracker t) else s.tracker t := by
  rw [State.mapHeld, State.tracker_foldl_setTracker g (State.heldTrackers_nodup h) h]
  simp only [State.mem_heldTrackers h]

/-- Beside trackers, `mapHeld` changes nothing. -/
theorem State.mapHeld_trk (s : State) (slot : Nat) (f : State → Nat → Tracker → Tracker) : ∃ trk, s.mapHeld slot f = { s with trk := trk } := by
  rw [State.mapHeld]
  generalize s.heldTrackers slot = l
  induction l generalizing s with
  | nil => exact ⟨_, rfl⟩
  | cons a l ih => obtain ⟨trk, h⟩ := ih (s.setTracker a (f s a (s.tracker a))); exact ⟨trk, h⟩

end

end Sys2Proof.Machine
end

section
/-! VOTE (07 R231; 13 R439): the slot and the exchange that it starts. -/

namespace Sys2Proof.Machine

theorem State.sendReady_sent (s : State) (c : Coll) : sentFrom (s.sendReady c) s := .foldl (fun _ _ => State.sendControl_sent ..) _ _
theorem State.passVote_sent (s : State) (v : VoteX) (sum : Nat) : sentFrom (s.passVote v sum) s := .foldl (fun _ _ => State.sendControl_sent ..) _ _

/-- Beside the vote results kept, keeping one changes nothing. -/
theorem State.keepVote_kept (s : State) (epoch num attempt sum : Nat) :
    s.keepVote epoch num attempt sum = { s with voteKept := (s.keepVote epoch num attempt sum).voteKept } := by
  rw [State.keepVote]
  split <;> rfl

/-- A member's exchange replaced by what it has become. -/
def State.putVote (s : State) (v : VoteX) : State := { s with votes := s.votes.map fun u => if u.slot == v.slot then v else u }

/-- `t` is `s` but for ports, what goes out, registers, the votes in progress and the results kept. -/
abbrev exchangeFrom (t s : State) : Prop := ∃ ports out regs votes voteKept,
  t = { s with ports := ports, out := out, regs := regs, votes := votes, voteKept := voteKept }

theorem exchangeFrom.trans {u t s : State} (h : exchangeFrom u t) (k : exchangeFrom t s) : exchangeFrom u s := by
  obtain ⟨_, _, _, _, _, rfl⟩ := h; obtain ⟨_, _, _, _, _, rfl⟩ := k; exact ⟨_, _, _, _, _, rfl⟩
theorem sentFrom.exchange {t s : State} (h : sentFrom t s) : exchangeFrom t s := by obtain ⟨_, _, _, rfl⟩ := h; exact ⟨_, _, _, _, _, rfl⟩
theorem State.putVote_exchange (s : State) (v : VoteX) : exchangeFrom (s.putVote v) s := ⟨_, _, _, _, _, rfl⟩
theorem State.keepVote_exchange (s : State) (epoch num attempt sum : Nat) : exchangeFrom (s.keepVote epoch num attempt sum) s := by
  rw [State.keepVote_kept]; exact ⟨_, _, _, _, _, rfl⟩

/-- An exchange that moves keeps its place among the votes, PASSED at most, and changes what sending changes. -/
theorem State.voteMove_spec (s : State) (v : VoteX) : ∃ b, (s.voteMove v).votes = (s.putVote { v with passed := b }).votes ∧
    exchangeFrom (s.voteMove v) s := by
  have hstay : ∃ b, (s.putVote v).votes = (s.putVote { v with passed := b }).votes ∧ exchangeFrom (s.putVote v) s :=
    ⟨v.passed, rfl, State.putVote_exchange ..⟩
  have hpassed {t : State} (h : sentFrom t (s.putVote { v with passed := true })) :
      ∃ b, t.votes = (s.putVote { v with passed := b }).votes ∧ exchangeFrom t s :=
    ⟨true, h.votesKept.votes, h.exchange.trans (State.putVote_exchange ..)⟩
  simp only [State.voteMove]
  split
  · exact hstay
  · split
    · have hsent := State.passVote_sent ((s.putVote { v with passed := true }).keepVote v.plan.epoch v.num v.attempt
        (v.got.foldl (fun a g => ldAdd a g.2) v.own)) v (v.got.foldl (fun a g => ldAdd a g.2) v.own)
      refine ⟨true, hsent.votesKept.votes.trans ?_, hsent.exchange.trans ((State.keepVote_exchange ..).trans (State.putVote_exchange ..))⟩
      rw [State.keepVote_kept]
    · split
      · exact hpassed (.foldl (fun _ _ => State.sendControl_sent ..) _ _)
      · exact hstay

/-- The exchange that a VOTE item starts for its slot. -/
def voteOf (p : StepSlot) (region slot : Nat) (x : Item) (c : Coll) : VoteX :=
  { slot := x.stepSlot, num := p.num, attempt := p.attempt, collId := c.id, plan := c.plan, rank := c.rank, resultSlot := x.resultSlot
    region := region, item := slot, own := if p.fault % 128 == 0 then 0 else 2 ^ 80, ready := c.ready.map (·.2) }

/-- The slot of a VOTE item in VOTING from this cycle, and the item's exchange, before it moves. -/
def State.startVote (s : State) (p : StepSlot) (region slot : Nat) (x : Item) (c : Coll) : State :=
  ({ s.setStep x.stepSlot { p with state := 2, voteCyc := s.cycle } with
      votes := voteOf p region slot x c :: s.votes.filter fun u => u.slot != x.stepSlot }).setColl (itemKey region slot) none

section
variable {s u : State} {region slot : Nat} {x y : Item} {c : Coll} (h : s.itemStarts region slot 7 0x30 x u y) (hr : x.stage = .ready)
  (hm : s.selfMember = true) (hc : tget dColl s.colls (itemKey region slot) = some c)
include h hr hm hc

theorem exec_vote_waits (hp : (s.step x.stepSlot).state ≠ 1 ∨ (s.step x.stepSlot).outstanding ≠ 0) : exec (.vote region slot) s = .next s := by
  obtain ⟨hx, he, ho, -, hf, -⟩ := h
  show execVote region slot s = _
  simp [execVote, hx, Item.isVote, he, ho, hr, hf, hm, hc, hp]

theorem exec_vote_starts (hi : s.collRuns (itemKey region slot) c.id = false) {p : StepSlot} (hp : s.step x.stepSlot = p) (hst : p.state = 1)
    (hout : p.outstanding = 0) : exec (.vote region slot) s
      = .next (((u.startVote p region slot x c).sendReady c).voteMove (voteOf p region slot x c)) := by
  obtain ⟨hx, he, ho, -, hf, hs, -⟩ := h
  have hvote : x.isVote = true := by simp [Item.isVote, he, ho]
  have hopen : (p.state != 1 || p.outstanding != 0) = false := by simp [hst, hout]
  show execVote region slot s = _
  simp only [execVote, hx, hvote, hr, hf, hm, hc, hp, hopen, hi, hs, Bool.not_true, Bool.or_self, bne_self_eq_false, Bool.false_eq_true,
    if_false]
  rfl

end

/-- Settles O40: the exchange starts with the slot in VOTING, and moves without touching it. -/
theorem voteItemsStartTheExchange : Obligations.VoteItemsStartTheExchange := by
  intro s u region slot x y c h hr hlt hm hc hi
  refine ⟨fun hst hout => ?_, exec_vote_waits h hr hm hc⟩
  have hexec := exec_vote_starts h hr hm hc hi rfl hst hout
  obtain ⟨-, -, -, -, -, hs, -⟩ := h
  obtain ⟨-, -, -, hu, -⟩ := State.startItem_spec hs
  generalize hv : voteOf (s.step x.stepSlot) region slot x c = v at hexec
  have hready := (u.startVote (s.step x.stepSlot) region slot x c).sendReady_sent c
  obtain ⟨b, hvotes, hmove⟩ := State.voteMove_spec ((u.startVote (s.step x.stepSlot) region slot x c).sendReady c) v
  have hmem : v ∈ ((u.startVote (s.step x.stepSlot) region slot x c).sendReady c).votes := by
    rw [hready.votesKept.votes, ← hv]; exact List.mem_cons_self
  generalize ((u.startVote (s.step x.stepSlot) region slot x c).sendReady c).voteMove v = t at hexec hvotes hmove
  obtain ⟨_, _, _, _, _, rfl⟩ := hmove.trans hready.exchange
  obtain ⟨_, _, rfl⟩ := hu
  refine ⟨_, { v with passed := b }, hexec,
    State.step_setStep_of_busy s x.stepSlot (p := { s.step x.stepSlot with state := 2, voteCyc := s.cycle }) (Nat.succ_ne_zero 1),
    hvotes ▸ List.mem_map.2 ⟨v, hmem, if_pos (beq_self_eq_true _)⟩, ?_⟩
  rw [← hv]
  exact ⟨rfl, rfl, rfl, by simp [voteOf], rfl, rfl, rfl⟩

end Sys2Proof.Machine
end

section
/-! The ends of a step's attempt (07 R220, R231, R232, R240, R241, R248; 13 R439, R440): what a commit, a failed vote and an abandonment make
of the slot and of the trackers it holds. -/

namespace Sys2Proof.Machine

/-! ### What leaves the slot and its trackers alone -/

theorem State.setLayer_votesKept (s : State) (l : Nat) (x : LayerRec) : votesKept (s.setLayer l x) s := ⟨⟨rfl, rfl⟩, rfl, rfl, rfl⟩
theorem State.setWidened_votesKept (s : State) (l : Nat) (b : Bool) : votesKept (s.setWidened l b) s := (State.setReg_regs ..).votesKept

theorem State.widen_votesKept (s : State) (slot l n : Nat) : votesKept (s.widen slot l n) s :=
  (State.mcBump_votesKept ..).trans ((State.setWidened_votesKept ..).trans (State.setLayer_votesKept ..))

theorem State.recordLayer_votesKept (s : State) (slot n l : Nat) : votesKept (s.recordLayer slot n l) s :=
  .ite ((State.widen_votesKept ..).trans (State.setLayer_votesKept ..)) (State.setLayer_votesKept ..)

theorem State.with_globalWiden_votesKept (s : State) (b : Bool) : votesKept { s with globalWiden := b } s := ⟨⟨rfl, rfl⟩, rfl, rfl, rfl⟩

theorem State.globalCheck_votesKept (s : State) (slot : Nat) : votesKept (s.globalCheck slot) s :=
  .ite ((State.policyEvent_votesKept ..).trans ((State.mcBump_votesKept ..).trans (State.with_globalWiden_votesKept s true))) (.refl s)

theorem votesKept.setStep {t s : State} (h : votesKept t s) (i : Nat) (p : StepSlot) : votesKept (t.setStep i p) (s.setStep i p) :=
  ⟨⟨congrArg (tset dStep · i p) h.steps, h.trk⟩, h.votes, h.image, h.mem⟩

/-- A slot whose attempt is recorded: its charged layers are those of the whole step. -/
def StepSlot.recorded (p : StepSlot) : StepSlot :=
  { p with charged := [], chargedAny := p.chargedAny ++ p.charged.filter fun l => !p.chargedAny.contains l }

/-- An attempt recorded changes its slot, and the layers that it charged. -/
theorem State.recordAttempt_votesKept (s : State) (slot : Nat) : votesKept (s.recordAttempt slot) (s.setStep slot (s.step slot).recorded) := by
  have hfold := votesKept.foldl (fun t l => State.recordLayer_votesKept t slot (s.step slot).num l) (s.step slot).charged s
  rw [State.recordAttempt, hfold.step_eq]
  exact hfold.setStep slot _

/-! ### What becomes of a slot and its trackers -/

/-- Between `s` and `t` the slot has become `p` and each of its trackers what `g` makes of it; no other tracker and no memory has changed. -/
structure slotBecomes (t s : State) (slot : Nat) (p : StepSlot) (g : Tracker → Tracker) : Prop where
  step : t.step slot = p
  tracker : twf dTrk s.trk = true → ∀ k,
    t.tracker k = if (s.tracker k).held = true ∧ (s.tracker k).slot = slot then g (s.tracker k) else s.tracker k
  mem : t.mem = s.mem

theorem slotBecomes.after {u t s : State} {slot : Nat} {p : StepSlot} {g : Tracker → Tracker} (h : slotBecomes t s slot p g)
    (k : votesKept u t) : slotBecomes u s slot p g :=
  ⟨(k.step_eq slot).trans h.step, fun hs i => (k.tracker_eq i).trans (h.tracker hs i), k.mem.trans h.mem⟩

theorem slotBecomes.of_same {t s' s : State} {slot : Nat} {p : StepSlot} {g : Tracker → Tracker} (h : slotBecomes t s' slot p g)
    (htrk : s'.trk = s.trk) (hmem : s'.mem = s.mem) : slotBecomes t s slot p g := by
  have htracker (k : Nat) : s'.tracker k = s.tracker k := congrArg (tget dTrk · k) htrk
  exact ⟨h.step, fun hs k => by rw [h.tracker (htrk ▸ hs), htracker], h.mem.trans hmem⟩

theorem State.mapHeld_step (s : State) (slot : Nat) (f : State → Nat → Tracker → Tracker) (i : Nat) : (s.mapHeld slot f).step i = s.step i := by
  obtain ⟨_, h⟩ := s.mapHeld_trk slot f; rw [h]; rfl

/-- The slot's trackers changed, and then the slot. -/
theorem State.mapHeld_setStep_becomes (s : State) (slot : Nat) (g : Tracker → Tracker) {p : StepSlot} (hp : p.state ≠ 0) :
    slotBecomes ((s.mapHeld slot fun _ _ x => g x).setStep slot p) s slot p g := by
  refine ⟨State.step_setStep_of_busy _ _ hp, fun hs k => ?_, ?_⟩
  · exact State.tracker_mapHeld g hs k
  · obtain ⟨_, h⟩ := s.mapHeld_trk slot fun _ _ x => g x
    rw [h]; rfl

/-! ### COMMITTED, REPLAY or EXHAUSTED, ABANDONED -/

/-- A slot whose step is COMMITTED. -/
def StepSlot.committed (p : StepSlot) : StepSlot := { p with state := 3, charged := [], asked := [], toAsk := [] }

theorem State.commitStep_becomes (s : State) (slot : Nat) :
    slotBecomes (s.commitStep slot) s slot (s.step slot).committed Tracker.commit := by
  have h := s.mapHeld_setStep_becomes slot Tracker.commit (p := (s.step slot).committed) (Nat.succ_ne_zero 2)
  rw [State.commitStep, State.mapHeld_step]
  exact h.after ((State.signalWord_votesKept ..).trans (State.mcBump_votesKept ..))

/-- A slot whose attempt has failed, in REPLAY or EXHAUSTED. -/
def StepSlot.failed (p : StepSlot) (limit : Nat) : StepSlot :=
  { p.recorded with state := if decide (limit ≤ p.attempt) then 5 else 4, asked := [], toAsk := [] }

/-- A tracker after a failed attempt: FAULTED if it was charged. -/
def Tracker.marked (x : Tracker) : Tracker := { x with faulted := x.faultNow }

theorem StepSlot.failed_state (p : StepSlot) (limit : Nat) : (p.failed limit).state = if limit ≤ p.attempt then 5 else 4 := by
  simp [StepSlot.failed]

theorem StepSlot.failed_busy (p : StepSlot) (limit : Nat) : (p.failed limit).state ≠ 0 := by
  rw [StepSlot.failed_state]; split <;> decide

/-- A failed attempt recorded, with what it widens. -/
def State.failLayers (s : State) (slot : Nat) : State :=
  (if decide (s.policy slot 0x3020 ≤ (s.step slot).attempt) then
    (((s.recordAttempt slot).step slot).chargedAny).foldl
      (fun t l => if t.widened l || 4096 ≤ l then t else t.widen slot l (s.step slot).num) (s.recordAttempt slot)
   else s.recordAttempt slot).globalCheck slot

theorem State.failLayers_votesKept (s : State) (slot : Nat) : votesKept (s.failLayers slot) (s.setStep slot (s.step slot).recorded) := by
  refine (State.globalCheck_votesKept ..).trans (votesKept.trans (.ite (.foldl (fun t l => ?_) _ _) (.refl _)) (s.recordAttempt_votesKept slot))
  exact .ite (.refl t) (State.widen_votesKept ..)

/-- A failed attempt counted and told of. -/
def State.failNotice (s : State) (exhausted : Bool) : State :=
  if exhausted then (s.mcBump 0x4044 2 1).policyEvent 1 else s.mcBump 0x4044 1 1

theorem State.failNotice_votesKept (s : State) (exhausted : Bool) : votesKept (s.failNotice exhausted) s :=
  .ite ((State.policyEvent_votesKept ..).trans (State.mcBump_votesKept ..)) (State.mcBump_votesKept ..)

/-- A failed attempt in its parts: layers, trackers, the slot, the notices. -/
theorem State.failStep_parts (s : State) (slot : Nat) : ∃ w, s.failStep slot
    = (State.failNotice (((s.failLayers slot).mapHeld slot fun _ _ x => x.marked).setStep slot
        { ((s.failLayers slot).mapHeld slot fun _ _ x => x.marked).step slot with
          state := if decide (s.policy slot 0x3020 ≤ (s.step slot).attempt) then 5 else 4, asked := [], toAsk := [] })
        (decide (s.policy slot 0x3020 ≤ (s.step slot).attempt))).signalWord w := ⟨_, rfl⟩

theorem State.failStep_becomes {s : State} {slot : Nat} (hbusy : (s.step slot).state ≠ 0) :
    slotBecomes (s.failStep slot) s slot ((s.step slot).failed (s.policy slot 0x3020)) Tracker.marked := by
  have hlayers := s.failLayers_votesKept slot
  have hstep : (s.failLayers slot).step slot = (s.step slot).recorded :=
    (hlayers.step_eq slot).trans (State.step_setStep_of_busy s slot (p := (s.step slot).recorded) hbusy)
  obtain ⟨w, hfail⟩ := s.failStep_parts slot
  rw [hfail, State.mapHeld_step, hstep]
  have h := (s.failLayers slot).mapHeld_setStep_becomes slot Tracker.marked (StepSlot.failed_busy (s.step slot) (s.policy slot 0x3020))
  exact (h.of_same (s := s) hlayers.trk hlayers.mem).after ((State.signalWord_votesKept ..).trans (State.failNotice_votesKept ..))

/-- A slot whose step is ABANDONED. -/
def StepSlot.abandoned (p : StepSlot) : StepSlot := { p.recorded with state := 7, asked := [], toAsk := [] }

/-- The votes in progress but for a slot's. -/
def State.dropVote (s : State) (slot : Nat) : State := { s with votes := s.votes.filter fun v => v.slot != slot }

theorem State.dropVote_votes (s : State) (slot : Nat) : ∀ v ∈ (s.dropVote slot).votes, v.slot ≠ slot := fun v hv => by
  simpa using (List.mem_filter.1 hv).2

/-- An abandonment in its parts: the attempt recorded, trackers, the slot, the notices, the vote. -/
theorem State.abandonStep_parts (s : State) (slot : Nat) : ∃ w, s.abandonStep slot
    = (((((((s.recordAttempt slot).mapHeld slot fun _ _ x => x.dropAttempt).setStep slot
        { ((s.recordAttempt slot).mapHeld slot fun _ _ x => x.dropAttempt).step slot with state := 7, asked := [], toAsk := [] }).mcBump
          0x4044 3 1).globalCheck slot).signalWord w).dropVote slot) := ⟨_, rfl⟩

theorem slotBecomes.dropVote {t s : State} {slot : Nat} {p : StepSlot} {g : Tracker → Tracker} (h : slotBecomes t s slot p g) (i : Nat) :
    slotBecomes (t.dropVote i) s slot p g := ⟨h.step, h.tracker, h.mem⟩

theorem State.abandonStep_becomes {s : State} {slot : Nat} (hbusy : (s.step slot).state ≠ 0) :
    slotBecomes (s.abandonStep slot) s slot (s.step slot).abandoned Tracker.dropAttempt := by
  have hrec := s.recordAttempt_votesKept slot
  have hstep : (s.recordAttempt slot).step slot = (s.step slot).recorded :=
    (hrec.step_eq slot).trans (State.step_setStep_of_busy s slot (p := (s.step slot).recorded) hbusy)
  have h := (s.recordAttempt slot).mapHeld_setStep_becomes slot Tracker.dropAttempt (p := (s.step slot).abandoned) (Nat.succ_ne_zero 6)
  obtain ⟨w, hend⟩ := s.abandonStep_parts slot
  rw [hend, State.mapHeld_step, hstep]
  exact ((h.of_same (s := s) hrec.trk hrec.mem).after
    ((State.signalWord_votesKept ..).trans ((State.globalCheck_votesKept ..).trans (State.mcBump_votesKept ..)))).dropVote slot

end Sys2Proof.Machine
end

section
/-! The outcome of a vote (07 R231, R232; 13 R439, R440): what a sum makes of the slot that waits for it, and of one that none waits for. -/

namespace Sys2Proof.Machine

theorem State.putResult_votesKept (s : State) (i : Nat) (v : Quad × Bool) : votesKept (s.putResult i v) s := ⟨⟨rfl, rfl⟩, rfl, rfl, rfl⟩

theorem State.endVoteItem_votesKept (s : State) (v : VoteX) : votesKept (s.endVoteItem v) s := by
  rw [State.endVoteItem]
  split
  · exact .ite (State.setItem_items ..).votesKept (.refl s)
  · exact .refl s

/-- The sum at a vote's result slot, and its item ended. -/
def State.voteEnds (s : State) (slot sum : Nat) : State :=
  match s.votes.find? (fun v => v.slot == slot) with
  | some v => (if v.resultSlot < 1024 then s.putResult v.resultSlot (BitVec.ofNat 128 sum, false) else s).endVoteItem v
  | none => s

theorem State.voteEnds_votesKept (s : State) (slot sum : Nat) : votesKept (s.voteEnds slot sum) s := by
  rw [State.voteEnds]
  split
  · exact (State.endVoteItem_votesKept ..).trans (.ite (State.putResult_votesKept ..) (.refl s))
  · exact .refl s

/-- A slot that has its sum. -/
def StepSlot.voted (p : StepSlot) (sum : Nat) : StepSlot := { p with vote := voteCount sum }

/-- A slot that has its sum, before the outcome. -/
def State.takeSum (s : State) (slot sum : Nat) : State :=
  (s.voteEnds slot sum).setStep slot (((s.voteEnds slot sum).step slot).voted sum)

theorem State.applyVote_eq (s : State) (slot sum : Nat) : s.applyVote slot sum
    = ((if sum == 0 then (s.takeSum slot sum).commitStep slot else (s.takeSum slot sum).failStep slot).dropVote slot).settle := by
  rw [State.applyVote]; rfl

theorem State.policy_congr {t s : State} {slot : Nat} (h : (t.step slot).policy = (s.step slot).policy) (hi : t.image = s.image) (idx : Nat) :
    t.policy slot idx = s.policy slot idx := by
  rw [State.policy, State.policy, h, State.dv, State.dv, hi]

/-- What a sum makes of a slot: COMMITTED, or REPLAY or EXHAUSTED under a limit of attempts. -/
def StepSlot.decided (p : StepSlot) (sum limit : Nat) : StepSlot :=
  if sum = 0 then (p.voted sum).committed else (p.voted sum).failed limit

theorem StepSlot.decided_vote (p : StepSlot) (sum limit : Nat) : (p.decided sum limit).vote = voteCount sum := by
  rw [StepSlot.decided]; split <;> rfl

theorem StepSlot.decided_state (p : StepSlot) (sum limit : Nat) :
    (p.decided sum limit).state = if sum = 0 then 3 else if limit ≤ p.attempt then 5 else 4 := by
  rw [StepSlot.decided]
  split
  · rfl
  · exact StepSlot.failed_state ..

theorem State.applyVote_becomes {s : State} {slot : Nat} (hbusy : (s.step slot).state ≠ 0) (sum : Nat) :
    ∃ u : State, s.applyVote slot sum = u.settle ∧ (∀ v ∈ u.votes, v.slot ≠ slot) ∧
      slotBecomes u s slot ((s.step slot).decided sum (s.policy slot 0x3020)) (if sum = 0 then Tracker.commit else Tracker.marked) := by
  refine ⟨_, s.applyVote_eq slot sum, State.dropVote_votes _ slot, slotBecomes.dropVote ?_ slot⟩
  have hends := s.voteEnds_votesKept slot sum
  have hstep : (s.takeSum slot sum).step slot = (s.step slot).voted sum := by
    rw [State.takeSum, hends.step_eq]
    exact State.step_setStep_of_busy _ slot (p := (s.step slot).voted sum) hbusy
  have hpolicy : (s.takeSum slot sum).policy slot 0x3020 = s.policy slot 0x3020 :=
    State.policy_congr (t := s.takeSum slot sum) (by rw [hstep]; rfl) hends.image _
  refine slotBecomes.of_same (s' := s.takeSum slot sum) ?_ hends.trk hends.mem
  rw [StepSlot.decided, ← hstep, ← hpolicy]
  by_cases h0 : sum = 0
  · simp only [h0, beq_self_eq_true, if_true]
    exact State.commitStep_becomes ..
  · simp only [h0, beq_iff_eq, if_false]
    exact State.failStep_becomes (hstep ▸ hbusy)

/-! ### A vote result (13 R439, R440) -/

theorem State.keepVote_votesKept (s : State) (epoch num attempt sum : Nat) : votesKept (s.keepVote epoch num attempt sum) s := by
  rw [State.keepVote_kept]; exact ⟨⟨rfl, rfl⟩, rfl, rfl, rfl⟩

theorem State.votingSlot_congr {t s : State} (h : stepsKept t s) (epoch num attempt : Nat) :
    t.votingSlot epoch num attempt = s.votingSlot epoch num attempt := by
  simp only [State.votingSlot, h.step_eq]

theorem State.votingSlot_busy {s : State} {epoch num attempt slot : Nat} (h : s.votingSlot epoch num attempt = some slot) :
    (s.step slot).state ≠ 0 := by
  have := List.find?_some h
  simp only [Bool.and_eq_true, Bool.or_eq_true, beq_iff_eq] at this
  omega

/-- A result kept is found again, when any is kept. -/
theorem State.keptVote_keepVote (s : State) {epoch num attempt sum : Nat} (h : 0 < s.dv 0x5006 0) :
    ((s.keepVote epoch num attempt sum).keptVote epoch num attempt).isSome = true := by
  rw [State.keepVote]
  split
  next hany => simpa [State.keptVote] using hany
  next =>
    simp only [State.keptVote, Option.isSome_map, List.find?_isSome, List.mem_filterMap]
    exact ⟨(epoch, num, attempt, sum), ⟨((epoch, num, attempt, sum), 0), by simp [List.zipIdx_cons], by simp [h]⟩, by simp⟩

/-- A result sent down the tree of a slot's exchange, unless it was formed here. -/
def State.sendDown (s : State) (slot sum : Nat) : State :=
  match s.votes.find? (fun v => v.slot == slot) with
  | some v => if v.rank == 0 then s else s.passVote v sum
  | none => s

theorem State.sendDown_votesKept (s : State) (slot sum : Nat) : votesKept (s.sendDown slot sum) s := by
  rw [State.sendDown]
  split
  · exact .ite (.refl s) (State.passVote_sent ..).votesKept
  · exact .refl s

theorem exec_voteResult_waited {s : State} {epoch num attempt slot : Nat} (h : s.votingSlot epoch num attempt = some slot) (sum : Nat) :
    exec (.voteResult epoch num attempt sum) s = .next (((s.keepVote epoch num attempt sum).sendDown slot sum).applyVote slot sum) := by
  have hslot := (State.votingSlot_congr (s.keepVote_votesKept epoch num attempt sum).tostepsKept epoch num attempt).trans h
  show Host.Outcome.next (s.onVoteResult epoch num attempt sum) = _
  simp only [State.onVoteResult, hslot]
  rfl

theorem exec_voteResult_unwaited {s : State} {epoch num attempt : Nat} (h : s.votingSlot epoch num attempt = none) (sum : Nat) :
    exec (.voteResult epoch num attempt sum) s = .next (s.keepVote epoch num attempt sum) := by
  have hslot := (State.votingSlot_congr (s.keepVote_votesKept epoch num attempt sum).tostepsKept epoch num attempt).trans h
  show Host.Outcome.next (s.onVoteResult epoch num attempt sum) = _
  simp only [State.onVoteResult, hslot]

/-- Settles O43: a slot that waits becomes what `applyVote_becomes` says, from the state with the result kept and sent on. -/
theorem voteResultsDecideTheirSlots : Obligations.VoteResultsDecideTheirSlots := by
  intro s epoch num attempt sum hwf
  refine ⟨fun slot hslot => ?_, fun hnone => ?_⟩
  · have hkept := (State.sendDown_votesKept _ slot sum).trans (s.keepVote_votesKept epoch num attempt sum)
    have hexec := exec_voteResult_waited hslot sum
    generalize (s.keepVote epoch num attempt sum).sendDown slot sum = r at hkept hexec
    have hstep := hkept.step_eq slot
    obtain ⟨u, hu, hvotes, hbecomes⟩ := State.applyVote_becomes (s := r) (slot := slot) (hstep ▸ State.votingSlot_busy hslot) sum
    obtain ⟨hp, htracker, hmem⟩ := hbecomes.of_same hkept.trk hkept.mem
    have hpolicy := State.policy_congr (congrArg StepSlot.policy hstep) hkept.image 0x3020
    rw [hstep, hpolicy] at hp
    refine ⟨u, hexec.trans (congrArg _ hu), ?_, hvotes, hmem, ?_, fun t hheld hown => ?_, fun t hother => ?_⟩
    · rw [hp, StepSlot.decided_vote]
    · rw [hp, StepSlot.decided_state]
    · rw [htracker (State.wf_trk hwf), if_pos ⟨hheld, hown⟩]
      refine ⟨fun h0 => ?_, fun h0 => ?_⟩
      · rw [if_pos h0]; exact ⟨rfl, rfl⟩
      · rw [if_neg h0]; exact ⟨hheld, rfl, rfl⟩
    · rw [htracker (State.wf_trk hwf), if_neg]
      rintro ⟨hheld, hown⟩
      obtain h | h := hother
      · exact Bool.false_ne_true (h.symm.trans hheld)
      · exact h hown
  · exact ⟨_, exec_voteResult_unwaited hnone sum, s.keepVote_kept epoch num attempt sum, s.keptVote_keepVote⟩

end Sys2Proof.Machine
end

section
/-! Votes in doubt (07 R247, R248; 13 R440): the vote item that ends without a result, the members asked, and their answers. -/

namespace Sys2Proof.Machine

/-! ### The end of an item and the steps (03 R113, R116) -/

theorem stepsKept.ite {p : Prop} [Decidable p] {t t' s : State} (h : stepsKept t s) (h' : stepsKept t' s) : stepsKept (if p then t else t') s := by
  split
  · exact h
  · exact h'

theorem State.sendTracked_stepsKept (s : State) (kind dst region slot sig : Nat) (body : List Byte) (bad : Bool) :
    stepsKept (s.sendTracked kind dst region slot sig body bad) s := by
  rw [State.sendTracked]
  exact (State.sendFrom_sent ..).votesKept.tostepsKept.trans ⟨rfl, rfl⟩

theorem State.issueSignal_stepsKept (s : State) (region slot k w : Nat) : stepsKept (s.issueSignal region slot k w) s :=
  .ite (.refl s) (.ite (.ite (State.sendTracked_stepsKept ..) (State.bump_regs ..).votesKept.tostepsKept) (State.cleatOp_votesKept ..).tostepsKept)

theorem State.putRecord_stepsKept (s : State) (region ring r : Nat) : stepsKept (s.putRecord region ring r) s := by
  have h := (State.setReg_regs _ .cqTail region ring (s.reg .cqTail region ring + 1)).votesKept.tostepsKept.trans (s.wr_ran
    (s.cqBase region ring + (s.reg .cqTail region ring).toNat % s.ringSize region ring * 64) (leBytes 64 r) false).stepsKept
  rw [State.putRecord]
  exact .ite ((State.emit_sent ..).votesKept.tostepsKept.trans h) h

theorem State.setItem_stepsKept (s : State) (region slot : Nat) (x : Option Item) : stepsKept (s.setItem region slot x) s := ⟨rfl, rfl⟩

theorem State.releaseSlot_stepsKept (s : State) (region slot : Nat) (x : Item) (status : Nat) : stepsKept (s.releaseSlot region slot x status) s := by
  have h := s.setItem_stepsKept region slot none
  exact .ite ((State.issueSignal_stepsKept ..).trans ((State.issueSignal_stepsKept ..).trans h)) h

/-- The delivery of a record leaves steps and trackers, wherever the record goes. -/
theorem State.deliver_stepsKept (s : State) (region slot : Nat) (x : Item) (r : Nat) (hold : Bool) :
    stepsKept (s.deliver region slot x r hold) s := by
  rw [State.deliver]
  split
  · exact State.setItem_stepsKept ..
  · split
    · exact (State.releaseSlot_stepsKept ..).trans (State.flag_regs ..).votesKept.tostepsKept
    · split
      · exact (State.bump_regs ..).votesKept.tostepsKept.trans ((State.flag_regs ..).votesKept.tostepsKept.trans (State.setItem_stepsKept ..))
      · exact .ite (State.setItem_stepsKept ..) ((State.releaseSlot_stepsKept ..).trans (State.putRecord_stepsKept ..))

theorem State.dropPin_stepsKept (s : State) (x : Item) : stepsKept (s.dropPin x).1 s := by
  rw [State.dropPin]
  split
  · exact .ite (State.cleatOp_votesKept ..).tostepsKept (.refl s)
  · exact .refl s

/-- An item that ends PEER_LOST: its status alone, with no counts. -/
structure Item.Lost (x : Item) : Prop where
  status : x.res.statuses.map (·.1) = [stPeerLost]
  poison : x.res.poison = false
  nonfin : x.res.nonfin = false
  shares : x.res.shares = false
  result : x.res.result = none

theorem State.contribute_peerLost (s : State) (x : Item) : s.contribute x stPeerLost = s := by
  rw [State.contribute]; exact ite_self ..

/-- An item of a step that ends PEER_LOST leaves its flags in its slot, and nothing in a tracker. -/
theorem State.finish_lost (s : State) (region slot : Nat) {x : Item} (hx : x.Lost) (hlt : x.stepSlot < 16) :
    ∃ flags, stepsKept (s.finish region slot x) (s.setStep x.stepSlot ((s.step x.stepSlot).complete x.counted flags)) := by
  obtain ⟨hst, hp, hn, hs, hr⟩ := hx
  have hbase : primaryStatus [stPeerLost] = stPeerLost := by decide
  have hshare : (bits 0 1 0 != 0) = false := rfl
  have hovf : bit 0 3 = false := rfl
  rw [State.finish]
  simp only [hst, hp, hn, hs, hr, hlt, hbase, State.contribute_peerLost, hshare, hovf, Bool.false_eq_true, if_false, List.append_nil,
    Bool.false_and, Bool.or_self, BitVec.or_self, BitVec.toNat_zero, beq_self_eq_true, if_true]
  exact ⟨_, (State.deliver_stepsKept ..).trans ((State.dropPin_stepsKept ..).trans ⟨rfl, rfl⟩)⟩

theorem State.finishAs_peerLost (s : State) (region slot : Nat) (x : Item) (detail : Nat) (hx : x.stepSlot < 16) :
    ∃ flags, stepsKept (s.finishAs region slot x stPeerLost detail)
      (s.setStep x.stepSlot ((s.step x.stepSlot).complete x.counted flags)) :=
  s.finish_lost region slot (x := { x with res := { statuses := [(stPeerLost, detail)] } }) ⟨rfl, rfl, rfl, rfl, rfl⟩ hx

/-! ### A vote without a result (07 R247) -/

/-- A slot asks up to 64 members in all. -/
def StepSlot.askMore (p : StepSlot) : StepSlot :=
  { p with asked := p.asked ++ p.toAsk.take (64 - p.asked.length), toAsk := p.toAsk.drop (64 - p.asked.length) }

theorem State.askMore_votesKept (s : State) (slot : Nat) : votesKept (s.askMore slot) (s.setStep slot (s.step slot).askMore) :=
  (votesKept.foldl (fun _ _ => (State.sendControl_sent ..).votesKept) _ _).setStep slot _

theorem State.askMore_step {s : State} {slot : Nat} (hbusy : (s.step slot).state ≠ 0) : (s.askMore slot).step slot = (s.step slot).askMore :=
  ((s.askMore_votesKept slot).step_eq slot).trans (State.step_setStep_of_busy s slot (p := (s.step slot).askMore) hbusy)

/-- The first 64 of the members are asked, and the others are still to be asked. -/
theorem StepSlot.askMore_first {p : StepSlot} (h : p.asked = []) : p.askMore.asked.length ≤ 64 ∧ p.askMore.asked ++ p.askMore.toAsk = p.toAsk := by
  simp [StepSlot.askMore, h]

theorem StepSlot.askMore_last {p : StepSlot} (h : p.toAsk = []) : p.askMore.asked = p.asked := by
  simp [StepSlot.askMore, h]

/-- `q` is `p` as far as a vote in doubt goes. -/
structure StepSlot.SameDoubt (q p : StepSlot) : Prop where
  state : q.state = p.state
  doubtCyc : q.doubtCyc = p.doubtCyc
  asked : q.asked = p.asked
  toAsk : q.toAsk = p.toAsk

/-- The item of a vote in doubt ends PEER_LOST. -/
def State.endDoubted (s : State) (slot : Nat) (v : VoteX) : State :=
  match s.item v.region v.item with
  | some x =>
    if x.isVote && x.stage == Stage.running && x.stepSlot == slot then
      s.finishAs v.region v.item x stPeerLost (2 * 2 ^ 16 + v.plan.members.getD 0 0 % 65536)
    else s
  | none => s

theorem State.endDoubted_spec {s : State} {slot : Nat} (hslot : slot < 16) (hbusy : (s.step slot).state ≠ 0) (v : VoteX) :
    ((s.endDoubted slot v).step slot).SameDoubt (s.step slot) ∧ (s.endDoubted slot v).trk = s.trk := by
  have hsame : (s.step slot).SameDoubt (s.step slot) := ⟨rfl, rfl, rfl, rfl⟩
  rw [State.endDoubted]
  split
  next x _ =>
    split
    next h =>
      obtain rfl : x.stepSlot = slot := by simp only [Bool.and_eq_true, beq_iff_eq] at h; exact h.2
      obtain ⟨flags, hkept⟩ := s.finishAs_peerLost v.region v.item x (2 * 2 ^ 16 + v.plan.members.getD 0 0 % 65536) hslot
      have hstep := (hkept.step_eq x.stepSlot).trans
        (State.step_setStep_of_busy s x.stepSlot (p := (s.step x.stepSlot).complete x.counted flags) hbusy)
      exact ⟨hstep ▸ ⟨rfl, rfl, rfl, rfl⟩, hkept.trk⟩
    next => exact ⟨hsame, rfl⟩
  next => exact ⟨hsame, rfl⟩

/-- A slot IN_DOUBT from a cycle on, with the members to ask. -/
def StepSlot.doubted (p : StepSlot) (cycle : Nat) (others : List Nat) : StepSlot :=
  { p with state := 6, doubtCyc := cycle, asked := [], toAsk := others }

/-- A slot that has entered IN_DOUBT, its item ended. -/
def State.enterDoubt (s : State) (slot : Nat) (v : VoteX) : State :=
  (((s.setStep slot ((s.step slot).doubted s.cycle (v.plan.members.filter (· != s.pkgId)))).mcBump 0x4044 4 1).policyEvent 3).endDoubted slot v

theorem exec_voteDoubtTimeout_due {s : State} {slot : Nat} {v : VoteX} (hslot : slot < 16) (hstate : (s.step slot).state = 2)
    (hdue : (s.step slot).voteCyc + cycOfMs (s.dv 0x3027 0) ≤ s.cycle) (hv : s.votes.find? (fun v => v.slot == slot) = some v) :
    exec (.voteDoubtTimeout slot) s = .next (((s.enterDoubt slot v).askMore slot).settle) := by
  have hwait : (decide (16 ≤ slot) || (s.step slot).state != 2 || decide (s.cycle < (s.step slot).voteCyc + cycOfMs (s.dv 0x3027 0))) = false := by
    simp [hslot, hstate, hdue]
  show execVoteDoubtTimeout slot s = _
  simp only [execVoteDoubtTimeout, hwait, hv, Bool.false_eq_true, if_false]
  rfl

theorem State.enterDoubt_spec (s : State) {slot : Nat} (hslot : slot < 16) (v : VoteX) :
    ((s.enterDoubt slot v).step slot).SameDoubt ((s.step slot).doubted s.cycle (v.plan.members.filter (· != s.pkgId))) ∧
      (s.enterDoubt slot v).trk = s.trk := by
  have hkept := (State.policyEvent_votesKept _ 3).trans (State.mcBump_votesKept
    (s.setStep slot ((s.step slot).doubted s.cycle (v.plan.members.filter (· != s.pkgId)))) 0x4044 4 1)
  have hstep := (hkept.step_eq slot).trans (State.step_setStep_of_busy s slot
    (p := (s.step slot).doubted s.cycle (v.plan.members.filter (· != s.pkgId))) (Nat.succ_ne_zero 5))
  obtain ⟨hsame, htrk⟩ := State.endDoubted_spec hslot (by rw [hstep]; exact Nat.succ_ne_zero 5) v
  exact ⟨hstep ▸ hsame, htrk.trans hkept.trk⟩

/-! ### Queries and answers (07 R248; 13 R440) -/

/-- A query is answered with the kept sum. -/
theorem State.onVoteQuery_kept {s : State} {p : Packet} {sum : Nat}
    (h : s.keptVote (bodyEpoch p.body) (bodyNum p.body) (bodyAttempt p.body) = some sum) : s.onVoteQuery p
      = s.sendControl 0x31 p.src (voteBody (bodyEpoch p.body) (bodyNum p.body) (bodyAttempt p.body) 1 sum) := by
  simp only [State.onVoteQuery, h]

/-- Where no sum is kept, a query is answered with none. -/
theorem State.onVoteQuery_unkept {s : State} {p : Packet}
    (h : s.keptVote (bodyEpoch p.body) (bodyNum p.body) (bodyAttempt p.body) = none) : s.onVoteQuery p
      = s.sendControl 0x31 p.src (voteBody (bodyEpoch p.body) (bodyNum p.body) (bodyAttempt p.body) 2 0) := by
  simp only [State.onVoteQuery, h]

section
variable {s : State} {port : Nat} {p : Packet} (hkind : p.kind = 0x31) (hdst : p.dst = s.pkgId) (hgen : p.tgen = s.pkgGen)
include hkind hdst hgen

theorem State.onPacket_mine (f : State → State) : s.onPacket port 0x31 p f = f s := by
  simp [State.onPacket, State.arrive, hkind, hdst, hgen]

theorem exec_voteQuery_asked (hcode : bodyCode p.body = 0) : exec (.voteQuery port p) s = .next (s.onVoteQuery p) := by
  show Host.Outcome.next (s.onPacket port 0x31 p _) = _
  rw [State.onPacket_mine hkind hdst hgen, hcode]; rfl

theorem exec_voteQueryAnswer_answered (hcode : bodyCode p.body ≠ 0) : exec (.voteQueryAnswer port p) s = .next (s.onVoteAnswer p) := by
  show Host.Outcome.next (s.onPacket port 0x31 p _) = _
  rw [State.onPacket_mine hkind hdst hgen, if_neg (by simpa using hcode)]

end

/-- A slot whose members asked have all answered. -/
def StepSlot.answered (p : StepSlot) : StepSlot := { p with asked := [] }

/-- A slot with its answers in, as it asks more members. -/
def State.takeAnswers (s : State) (slot : Nat) : State := (s.setStep slot (s.step slot).answered).askMore slot

theorem State.takeAnswers_step {s : State} {slot : Nat} (hbusy : (s.step slot).state ≠ 0) :
    (s.takeAnswers slot).step slot = (s.step slot).answered.askMore := by
  have hstep := State.step_setStep_of_busy s slot (p := (s.step slot).answered) hbusy
  rw [State.takeAnswers, State.askMore_step (by rw [hstep]; exact hbusy), hstep]

section
variable {s : State} {slot : Nat} {p : Packet} (hslot : s.votingSlot (bodyEpoch p.body) (bodyNum p.body) (bodyAttempt p.body) = some slot)
  (hstate : (s.step slot).state = 6)
include hslot hstate

/-- A kept sum decides the slot in doubt. -/
theorem State.onVoteAnswer_sum (hsrc : p.src ∈ (s.step slot).asked) (hcode : bodyCode p.body = 1) : s.onVoteAnswer p
    = (s.keepVote (bodyEpoch p.body) (bodyNum p.body) (bodyAttempt p.body) (bodySum p.body)).applyVote slot (bodySum p.body) := by
  simp only [State.onVoteAnswer, hslot]
  rw [if_neg (by simp [hstate, hsrc]), if_pos (by simp [hcode])]

/-- The last member's answer that it has none abandons the slot. -/
theorem State.onVoteAnswer_none (hcode : 2 ≤ bodyCode p.body) (hasked : (s.step slot).asked = [p.src]) (hrest : (s.step slot).toAsk = []) :
    s.onVoteAnswer p = ((s.takeAnswers slot).abandonStep slot).settle := by
  have hnone : ((s.takeAnswers slot).step slot).asked.isEmpty = true := by
    rw [State.takeAnswers_step (by rw [hstate]; decide), StepSlot.askMore_last (p := (s.step slot).answered) hrest]; rfl
  have hleft : (s.step slot).asked.filter (· != p.src) = [] := by simp [hasked]
  simp only [State.onVoteAnswer, hslot]
  rw [if_neg (by simp [hstate, hasked]), if_neg (by simp; omega), hleft]
  exact if_pos hnone

end

/-- Settles O44: the time-outs, a query, and its answers, each by its command. -/
theorem votesInDoubtAsk : Obligations.VotesInDoubtAsk := by
  intro s slot hslot
  refine ⟨fun v hstate hdue hv => ?_, fun hstate hdue => ?_, fun port p hkind hdst hgen => ⟨fun hcode => ?_, fun hvoting hstate hsrc =>
    ⟨fun hcode => ?_, fun hcode hasked hrest => ?_⟩⟩⟩
  · obtain ⟨⟨hst, hcyc, hasked, hrest⟩, htrk⟩ := s.enterDoubt_spec hslot v
    have hmore := (s.enterDoubt slot v).askMore_votesKept slot
    have hstep := State.askMore_step (by rw [hst]; exact Nat.succ_ne_zero 5)
    obtain ⟨hlen, hall⟩ := StepSlot.askMore_first hasked
    refine ⟨_, exec_voteDoubtTimeout_due hslot hstate hdue hv, ?_, ?_, ?_, ?_, hmore.trk.trans htrk⟩
    · rw [hstep]; exact hst
    · rw [hstep]; exact hcyc
    · rw [hstep]; exact hlen
    · rw [hstep]; exact hall.trans hrest
  · show execVoteQueryTimeout slot s = _
    rw [execVoteQueryTimeout, if_pos (by simp [hslot, hstate, hdue])]
  · rw [exec_voteQuery_asked hkind hdst hgen hcode]
    cases hkept : s.keptVote (bodyEpoch p.body) (bodyNum p.body) (bodyAttempt p.body) with
    | some sum => exact congrArg _ (State.onVoteQuery_kept hkept)
    | none => exact congrArg _ (State.onVoteQuery_unkept hkept)
  · rw [exec_voteQueryAnswer_answered hkind hdst hgen (by omega), State.onVoteAnswer_sum hvoting hstate hsrc hcode]
  · refine ⟨_, (exec_voteQueryAnswer_answered hkind hdst hgen (by omega)).trans
      (congrArg _ (State.onVoteAnswer_none hvoting hstate hcode hasked hrest)), ?_⟩
    have hstep := State.takeAnswers_step (s := s) (slot := slot) (by rw [hstate]; decide)
    rw [(State.abandonStep_becomes (by rw [hstep]; exact hstate ▸ Nat.succ_ne_zero 5)).step]; rfl

end Sys2Proof.Machine
end

section
/-! Trackers as they are configured and as a prepass adds to them (07 R216, R220, R238). -/

namespace Sys2Proof.Machine

/-! ### Configuration (07 R216, R220) -/

/-- `t` is `s` but for trackers and registers. -/
abbrev trackersFrom (t s : State) : Prop := ∃ trk regs, t = { s with trk := trk, regs := regs }

theorem trackersFrom.trans {u t s : State} (h : trackersFrom u t) (k : trackersFrom t s) : trackersFrom u s := by
  obtain ⟨_, _, rfl⟩ := h; obtain ⟨_, _, rfl⟩ := k; exact ⟨_, _, rfl⟩
theorem regsFrom.trackers {t s : State} (h : regsFrom t s) : trackersFrom t s := by obtain ⟨_, rfl⟩ := h; exact ⟨_, _, rfl⟩
theorem trackersFrom.eq_update {t s : State} (h : trackersFrom t s) : t = { s with trk := t.trk, regs := t.regs } := by
  obtain ⟨_, _, rfl⟩ := h; rfl
theorem State.setTracker_trackers (s : State) (i : Nat) (x : Tracker) : trackersFrom (s.setTracker i x) s := ⟨_, _, rfl⟩

/-- SPL_TRK_CFG as it reads back fits its word. -/
theorem trkCfgBack_lt (v : Nat) : trkCfgBack v < 2 ^ 32 := by
  have hon (b : Bool) : b2n b ≤ 1 := by cases b <;> decide
  have hon := hon (bit v 31)
  have hr : bits v 19 16 < 16 := Nat.mod_lt _ (by decide)
  rw [trkCfgBack]
  split <;> split <;> omega

/-- A tracker as EN rises: its history, its shares and its prepass state are cleared. -/
def Tracker.enabled (x : Tracker) : Tracker :=
  { x with hist := [], counts := {}, prepass := false, usePre := false, premax := 0, preDone := 0, producers := 0 }

section
variable {s : State} {ini t value : Nat}

theorem exec_splTrkCfgWrite (ht : t < 16384) (s : State) (ini value : Nat) :
    exec (.splTrkCfgWrite ini t value) s = .next ((s.intervene ini (t / 4096) none).writeTrkCfg ini t value) := by
  show execSplTrkCfgWrite ini t value s = _
  rw [execSplTrkCfgWrite, if_pos ht]

theorem State.writeTrkCfg_held (ht : t < 16384) (hheld : (s.tracker t).held = true) :
    s.writeTrkCfg ini t value = s.refuse ini (t / 4096) (0x500000 + t % 4096 * 0x80) := by
  rw [State.writeTrkCfg, if_neg (by omega), if_pos hheld]

theorem State.writeTrkCfg_rising (ht : t < 16384) (hheld : (s.tracker t).held = false) (hon : bit value 31 = true)
    (hoff : bit (s.trkCfg t) 31 = false) : s.writeTrkCfg ini t value
      = (s.setTracker t (s.tracker t).enabled).setReg .trkCfg (t / 4096) (t % 4096) (BitVec.ofNat 32 (trkCfgBack value)) := by
  rw [State.writeTrkCfg, if_neg (by omega), hheld, hon, hoff]; rfl

theorem State.writeTrkCfg_plain (ht : t < 16384) (hheld : (s.tracker t).held = false)
    (hen : bit value 31 = false ∨ bit (s.trkCfg t) 31 = true) : s.writeTrkCfg ini t value
      = s.setReg .trkCfg (t / 4096) (t % 4096) (BitVec.ofNat 32 (trkCfgBack value)) := by
  have hno : (bit value 31 && !bit (s.trkCfg t) 31) = false := by obtain h | h := hen <;> simp [h]
  rw [State.writeTrkCfg, if_neg (by omega), hheld, hno]; rfl

/-- The configuration word reads back as it was taken. -/
theorem State.trkCfg_setReg (h : s.wf = true) (t value : Nat) :
    (s.setReg .trkCfg (t / 4096) (t % 4096) (BitVec.ofNat 32 (trkCfgBack value))).trkCfg t = trkCfgBack value := by
  rw [State.trkCfg, State.reg_setReg_same h, BitVec.toNat_ofNat, Nat.mod_eq_of_lt (trkCfgBack_lt value)]

/-- A store to a tracker that is not held: registers and trackers may change, no other tracker, and this one as EN rises. -/
theorem State.writeTrkCfg_free (hwf : s.wf = true) (ht : t < 16384) (hheld : (s.tracker t).held = false) :
    trackersFrom (s.writeTrkCfg ini t value) s ∧
      (s.writeTrkCfg ini t value).trkCfg t = trkCfgBack value ∧ (∀ k, k ≠ t → (s.writeTrkCfg ini t value).tracker k = s.tracker k) ∧
      (bit value 31 = true → bit (s.trkCfg t) 31 = false → (s.writeTrkCfg ini t value).tracker t = (s.tracker t).enabled) ∧
      (bit value 31 = false ∨ bit (s.trkCfg t) 31 = true → (s.writeTrkCfg ini t value).tracker t = s.tracker t) := by
  by_cases hrise : bit value 31 = true ∧ bit (s.trkCfg t) 31 = false
  · obtain ⟨hon, hoff⟩ := hrise
    rw [State.writeTrkCfg_rising ht hheld hon hoff]
    have hreg := (s.setTracker t (s.tracker t).enabled).setReg_regs .trkCfg (t / 4096) (t % 4096) (BitVec.ofNat 32 (trkCfgBack value))
    have htracker := hreg.votesKept.tostepsKept.tracker_eq
    refine ⟨hreg.trackers.trans (State.setTracker_trackers ..), State.trkCfg_setReg (State.setTracker_wf hwf ..) t value,
      fun k hk => (htracker k).trans (State.tracker_setTracker_ne hwf t _ k hk),
      fun _ _ => (htracker t).trans (State.tracker_setTracker_same hwf t _), fun h => ?_⟩
    simp [hon, hoff] at h
  · have hplain : bit value 31 = false ∨ bit (s.trkCfg t) 31 = true :=
      (not_and_or.1 hrise).imp Bool.eq_false_of_not_eq_true Bool.eq_true_of_not_eq_false
    rw [State.writeTrkCfg_plain ht hheld hplain]
    have hreg := s.setReg_regs .trkCfg (t / 4096) (t % 4096) (BitVec.ofNat 32 (trkCfgBack value))
    have htracker := hreg.votesKept.tostepsKept.tracker_eq
    exact ⟨hreg.trackers, State.trkCfg_setReg hwf t value, fun k _ => htracker k, fun hon hoff => absurd ⟨hon, hoff⟩ hrise,
      fun _ => htracker t⟩

end

/-! ### A prepass pass (07 R238) -/

/-- A ready item that starts keeps its descriptor and what it has pinned. -/
theorem State.startItem_kept {s u : State} {region slot : Nat} {x y : Item} (hr : x.stage = .ready)
    (h : s.startItem region slot x = some (u, y)) : y.raw = x.raw ∧ y.pin = x.pin ∧ itemsFrom u s := by
  obtain ⟨hheld, hraw, -, hu, hrunning | ⟨-, units, hunits, hyields, -⟩⟩ := State.startItem_spec h
  · rw [hr] at hrunning; exact absurd hrunning.1 (by decide)
  · rw [State.startItem_ready hr hheld hunits hyields] at h
    have hy : (s.beginItem region slot x units).2 = y := congrArg Prod.snd (Option.some.inj h)
    obtain ⟨_, _, _, hmark⟩ := s.markStart_item region (s.placedItem region x units)
    rw [State.beginItem_snd, hmark] at hy
    exact ⟨hraw, hy ▸ rfl, hu⟩

/-- The prepass of a ready item that holds no pin runs and ends. -/
theorem exec_prepassPassDone_ready {s u : State} {region slot amax : Nat} {x y : Item} {go : State → Item → State × Result}
    (hx : s.item region slot = some x) (hpre : x.prepass = 1) (hw : x.watch < 16384) (hf : s.frozen ⟨2, region⟩ = false)
    (hr : x.stage = .ready) (hcoll : x.engine ≠ 7 ∨ x.op = 1) (hatt : x.engine ≠ 4 ∨ x.op ≠ 1)
    (hs : s.startItem region slot x = some (u, y)) (hdry : u.dryRun region y = .ok amax go) :
    exec (.prepassPassDone region slot) s = .next (((u.passDone region slot y amax).prepassRelease region slot).settle) := by
  have hready : (x.prepass != 1 || decide (16384 ≤ x.watch) || s.frozen ⟨2, region⟩) = false := by simp [hpre, hw, hf]
  have hnocoll : (x.engine == 7 && x.op != 1) = false := by obtain h | h := hcoll <;> simp [h]
  have hnoatt : (x.engine == 4 && x.op == 1 && x.pin.isNone) = false := by obtain h | h := hatt <;> simp [h]
  have hrun : s.prepassRun region slot = u.passDone region slot y amax := by
    simp only [State.prepassRun, hx, hs, hdry]
  show execPrepassPassDone region slot s = _
  simp only [execPrepassPassDone, hx, hready, hnocoll, hr, hnoatt, hrun, Bool.false_eq_true, if_false]
  rfl

/-- An item whose prepass pass is over: it waits, its streams to be fetched again. -/
def Item.passed (x : Item) (cycle : Nat) : Item := { x with stage := .admitted, prepass := 2, queued := [0, 0, 0, 0], progCyc := cycle }

/-- A tracker with a pass's amax and one producer more at PRE_DONE. -/
theorem Tracker.prepassContribute_fields (x : Tracker) (amax : Nat) : (x.prepassContribute amax).preDone = x.preDone + 1 ∧
    (x.prepassContribute amax).premax = max x.premax amax ∧
      ((x.prepassContribute amax).prepass = true ↔ x.prepass = true ∧ x.preDone + 1 ≠ x.producers) := by
  simp [Tracker.prepassContribute]

/-- The end of a pass: its item waits, its tracker has its amax, and beside items only trackers and registers change. -/
theorem State.passDone_spec (s : State) (region slot : Nat) (x : Item) (amax : Nat) :
    (s.passDone region slot x amax).item region slot = some (x.passed s.cycle) ∧
      (s.passDone region slot x amax).tracker x.watch = (s.tracker x.watch).prepassContribute amax ∧
      ∃ items trk regs, s.passDone region slot x amax = { s with items := items, trk := trk, regs := regs } := by
  have hne : (s.tracker x.watch).prepassContribute amax ≠ dTrk x.watch :=
    fun h => Nat.succ_ne_zero _ (congrArg Tracker.preDone h)
  obtain ⟨_, hcount⟩ := s.bumpEach_regs .splPreCnt (unitList region x.units) 1
  rw [State.passDone, hcount]
  generalize hv : ((State.setItem _ region slot _) : State) = v
  obtain ⟨_, hshow⟩ := v.showItem_regs x region x.units
  rw [hshow, ← hv]
  exact ⟨State.item_setItem_some .., tget_tset_of_ne_default (d := dTrk) s.trk hne, _, _, _, rfl⟩

theorem State.prepassRelease_unpinned {s : State} {region slot : Nat} {x : Item} (h : s.item region slot = some x) (hp : x.pin = none) :
    s.prepassRelease region slot = s := by
  simp only [State.prepassRelease, h, hp]

/-- Settles O42: a store to a tracker's configuration by whether it is held; a pass by `passDone`. -/
theorem trackersAreConfiguredAndPrepassed : Obligations.TrackersAreConfiguredAndPrepassed := by
  refine ⟨?_, ?_⟩
  · rintro s u ini t value hwf ht rfl
    rw [exec_splTrkCfgWrite ht]
    refine ⟨fun hheld => congrArg _ (State.writeTrkCfg_held ht hheld), fun hheld => ?_⟩
    obtain ⟨hframe, hcfg, hother, hrise, hplain⟩ := State.writeTrkCfg_free (ini := ini) (value := value) (State.intervene_wf hwf ..) ht hheld
    exact ⟨_, rfl, hframe.eq_update, hcfg, hother, hrise, hplain⟩
  · intro s u region slot x y amax go hwf hx hpre hw hf hr hpin hcoll hatt hs hdry
    obtain ⟨hraw, hpinned, hu⟩ := State.startItem_kept hr hs
    have hwatch : y.watch = x.watch := congrArg (fld · 0x7C 2) hraw
    obtain ⟨hitem, htracker, hframe⟩ := u.passDone_spec region slot y amax
    have hexec := exec_prepassPassDone_ready hx hpre hw hf hr hcoll hatt hs hdry
    rw [State.prepassRelease_unpinned hitem (hpinned.trans hpin)] at hexec
    rw [hwatch, hu.votesKept.tostepsKept.tracker_eq] at htracker
    obtain ⟨hdone, hmax, hpass⟩ := (s.tracker x.watch).prepassContribute_fields amax
    refine ⟨_, y.passed u.cycle, hexec, hitem, rfl, rfl, ?_, ?_, ?_, ?_⟩
    · rw [htracker, hdone]
    · rw [htracker, hmax]
    · rw [htracker, hpass]
    · obtain ⟨_, _, _, h⟩ := hframe
      obtain ⟨_, _, rfl⟩ := hu
      rw [h]

end Sys2Proof.Machine
end

section
/-! A REOPEN (07 R227, R237, R240) in a state where a tracker of number 16,416 is held: the word that its number names as its SPL_TRK_CFG is
SPL_WIDENED's first, which the narrowing of a layer changes. -/

namespace Sys2Proof.Machine

/-! ### Ramps that start (16 R530, R531) -/

/-- The ramp in progress is that of `s`. -/
abbrev rampKept (t s : State) : Prop := t.power.active = s.power.active

theorem rampKept.ite {p : Prop} [Decidable p] {t t' s : State} (h : rampKept t s) (h' : rampKept t' s) : rampKept (if p then t else t') s := by
  split
  · exact h
  · exact h'

theorem regsFrom.rampKept {t s : State} (h : regsFrom t s) : rampKept t s := by obtain ⟨_, rfl⟩ := h; rfl
theorem State.emit_rampKept (s : State) (o : Out) : rampKept (s.emit o) s := congrArg Power.active (State.emit_power ..)
theorem State.setErrDie_rampKept (s : State) (die : Nat) (x : ErrDie) : rampKept (s.setErrDie die x) s :=
  congrArg Power.active (State.setErrDie_power ..)
theorem State.irqBy_rampKept (s : State) (cfg : Word) (cause detail : Nat) : rampKept (s.irqBy cfg cause detail) s :=
  .ite (State.emit_rampKept ..) rfl

theorem State.errPut_rampKept (s : State) (die : Nat) (r : ErrRec) : rampKept (s.errPut die r) s :=
  .ite ((State.bump_regs ..).rampKept.trans (State.setErrDie_rampKept ..)) ((State.flag_regs ..).rampKept.trans (State.setErrDie_rampKept ..))

theorem State.alert_rampKept (s : State) (m : Nat) : rampKept (s.alert m) s := by
  simp only [State.alert]
  exact .ite rfl (State.emit_rampKept ..)

/-- A record leaves the ramp in progress. -/
theorem State.record_rampKept (s : State) (die src sev level action index gen payload : Nat) :
    rampKept (s.record die src sev level action index gen payload) s := by
  have hput (t : State) (r : ErrRec) : rampKept (if 2 ≤ sev then ((t.errPut die r).flag .errSts die 0 2).alert (if sev == 3 then 3 else 1)
      else t.errPut die r) t :=
    .ite ((State.alert_rampKept ..).trans ((State.flag_regs ..).rampKept.trans (State.errPut_rampKept ..))) (State.errPut_rampKept ..)
  have hnote (b : Bool) (x : ErrDie) : rampKept (if b then s.setErrDie die x else s) s := .ite (State.setErrDie_rampKept ..) rfl
  rw [State.record]
  refine rampKept.ite rfl (rampKept.ite ((State.irqBy_rampKept ..).trans ?_) ?_)
  · exact (hput ..).trans (hnote ..)
  · exact (hput ..).trans (hnote ..)

theorem State.pwrRecord_rampKept (s : State) (kind sev action level index region unit value limit : Nat) :
    rampKept (s.pwrRecord kind sev action level index region unit value limit) s :=
  (State.irqBy_rampKept ..).trans (State.record_rampKept ..)

/-- An entry that starts is the ramp in progress. -/
theorem State.rampStart_active (s : State) (e : Nat) : (s.rampStart e).power.active = some e := by
  simp only [State.rampStart]
  generalize (match s.power.active with | some o => s.rampFlag o 16 0 | none => s) = t
  exact rampKept.ite (s := { t with power := { t.power with active := some e } }) ((State.pwrRecord_rampKept ..).trans
    ((State.flag_regs ..).rampKept.trans (State.setReg_regs ..).rampKept)) rfl

theorem State.foldl_rampStart_active {s : State} (h : s.power.active ≠ none) (l : List Nat) : (l.foldl State.rampStart s).power.active ≠ none := by
  induction l generalizing s with
  | nil => exact h
  | cons e l ih => exact ih (by rw [State.rampStart_active]; exact Option.some_ne_none e)

/-- Where no ramp is in progress after the sweep, no entry has started. -/
theorem State.rampSweep_none {s : State} (h : s.rampSweep.power.active = none) : s.rampSweep = s := by
  rw [State.rampSweep] at h ⊢
  generalize List.mergeSort _ _ = l at h ⊢
  cases l with
  | nil => rfl
  | cons e l => exact absurd h (State.foldl_rampStart_active (by rw [State.rampStart_active]; exact Option.some_ne_none e) l)

theorem State.settle_empty {s : State} (hi : s.items = []) (hc : s.colls = []) : s.settle = s.rampSweep := by
  have hsweep (t : State) (h : t.colls = []) : t.collSweep = t := by rw [State.collSweep, h]; rfl
  rw [State.settle, hi, List.length_nil, Nat.mul_zero, State.settleN, hsweep s hc]

/-! ### A tracker past the last -/

/-- Slot 0 in REPLAY, holding the tracker 4 * 4096 + 32, with two entries of history; layer 20, which is wide, narrows at the next REOPEN.
The tracker's configuration lies at element 32 of the trackers' block of die 4, the hub, whose word there is the first of SPL_WIDENED: bit 20,
that layer's, reads as bit 0 of HLEN. -/
def heldPastTheLast : State :=
  (((State.reset.setStep 0 { state := 4 }).setTracker 16416 { held := true, slot := 0, hist := [1, 2] }).setLayer 20 { dur := 1 }).setWidened 20 true

/-- After the REOPEN its scale is that of one entry, and its history, read again, that of two. -/
theorem heldPastTheLast_reopened : (heldPastTheLast.reopenStep 0).settle.power.active = none ∧
    ((heldPastTheLast.reopenStep 0).settle.tracker 16416).hmax ≠ (heldPastTheLast.reopenStep 0).settle.histMax 0 16416 := by
  decide +kernel

/-- Refutes O41: on `heldPastTheLast` the REOPEN takes the scale with HLEN 1, and its narrowing then leaves HLEN 0, which stands for the
dictionary's 16. The statement asks no bound of a tracker's number; below 16,384 the two words lie on different dies. -/
theorem not_stepCommandsChangeTheirSlotsOrAreRefused : ¬ Obligations.StepCommandsChangeTheirSlotsOrAreRefused := by
  intro h
  have hwf : heldPastTheLast.wf = true := by decide +kernel
  obtain ⟨u, hexec, -, -, -, -, -, hheld, -, hframe⟩ := (h.1 heldPastTheLast 0 0 hwf (by decide)).2.1 (.inl (by decide +kernel))
  obtain ⟨-, -, -, hplain⟩ := hheld 16416 (by decide +kernel) (by decide +kernel)
  obtain ⟨hactive, hne⟩ := heldPastTheLast_reopened
  have hreopen : exec (.stepReopen 0 0) heldPastTheLast = .next (heldPastTheLast.reopenStep 0).settle := rfl
  have hsettle : u.settle = (heldPastTheLast.reopenStep 0).settle := Host.Outcome.next.inj (hexec.symm.trans hreopen)
  have hempty : u.settle = u.rampSweep := State.settle_empty (by rw [hframe]; rfl) (by rw [hframe]; rfl)
  have hu : u = (heldPastTheLast.reopenStep 0).settle := by
    rw [← hsettle] at hactive ⊢
    rw [hempty] at hactive ⊢
    exact (State.rampSweep_none hactive).symm
  exact hne (hu ▸ (hplain (by decide +kernel)).2)

end Sys2Proof.Machine
end

section
/-! The items of the Vector engine that draw (08 R261 to R263) and pack (09 R276 to R278): their runs leave nothing but outputs, what a
drawing item writes is its draws, and what each operation draws. -/

namespace Sys2Proof.Machine

/-! ### What the runs leave, and when they run through -/

theorem onlyOutputs_drwRun : onlyOutputs State.drwRun := by
  intro u region y amax go h
  unfold State.drwRun at h
  obtain ⟨-, rfl⟩ := RunOut.ok.inj (State.gated_ok h)
  exact (State.writeStream_ran ..).trans (State.outCoarse_ran ..)

theorem runsThrough_drwRun : runsThrough State.drwRun drwSteady := by
  intro u region y h
  unfold State.drwRun
  exact ⟨_, _, State.gated_passes h _⟩

theorem State.writePacked_ran (s : State) (m : Strm) (two4 : Bool) (l : List (SrcBlk × List Byte)) : ranFrom (s.writePacked m two4 l) s := by
  unfold State.writePacked
  exact ranFrom.foldl_of (st := Prod.fst)
    (fun _ _ => (State.mergeBlocks_ran ..).trans (.foldl (fun _ _ => State.wrMarks_ran ..) ..)) ..

/-- A bitmap target with room takes its tiles, its records and their count, in TILES and TOTAL_BLOCKS; one without room takes nothing. -/
theorem onlyOutputs_packRun : onlyOutputs State.packRun := by
  intro u region y amax go h
  unfold State.packRun at h
  have h := State.gated_ok h
  extract_lets at h
  split at h
  · split at h
    · obtain ⟨-, rfl⟩ := RunOut.ok.inj h
      exact .refl u
    · obtain ⟨-, rfl⟩ := RunOut.ok.inj h
      beta_reduce
      extract_lets scaled packed recorded counted totalled
      have hscaled : ranFrom scaled u := State.outCoarse_ran ..
      have hpacked : ranFrom packed scaled := State.writePacked_ran ..
      have hrecorded : ranFrom recorded packed := State.wrMarks_ran ..
      have hcounted : ranFrom counted recorded := State.wr_ran ..
      have htotalled : ranFrom totalled counted := State.wr_ran ..
      dsimp only
      exact htotalled.trans (hcounted.trans (hrecorded.trans (hpacked.trans hscaled)))
  · obtain ⟨-, rfl⟩ := RunOut.ok.inj h
    exact (State.writePacked_ran ..).trans (State.outCoarse_ran ..)

theorem runsThrough_packRun : runsThrough State.packRun fun u _ y => u.passes y (u.packChecks y) [(u.strm y 0, false)] := by
  intro u region y h
  unfold State.packRun
  rw [State.gated_passes h]
  extract_lets
  split
  · split <;> exact ⟨_, _, rfl⟩
  · exact ⟨_, _, rfl⟩

/-! ### What a drawing item writes -/

/-- With no tracker named, an output is written with its header's coarse scale, which stays (07 R219). -/
theorem State.outCoarse_untracked {y : Item} (h : 16384 ≤ y.watch) (s : State) (m : Strm) : s.outCoarse y m = (m.hdr.coarse, s) := by
  simp [State.outCoarse, supplies, not_lt.2 h]

theorem State.drwIns_of_reads {u : State} {y : Item} (h : y.drwReads = true) :
    u.drwIns y = (u.readStream y (u.strm y 0)).els.map fun e => { e with v := e.v.mul (srcCoarse (u.strm y 0)) } := by
  simp [State.drwIns, h]

theorem State.drwIns_of_not_reads {u : State} {y : Item} (h : y.drwReads = false) : u.drwIns y = [] := by
  simp [State.drwIns, h]

/-- The elements that a drawing item keyed by its own stream C writes: one from the Bowline word of each index (08 R256, R262). -/
def State.draws (u : State) (y : Item) : List OutEl :=
  ((u.strm y 2).indexes.zipIdx).map fun p =>
    drawEl y.drw y.op (y.word (u.strm y 2).hdr.tag p.1 y.drw.draw) ((u.drwIns y).getD p.2 El.zero)

theorem State.drwRun_writes_draws {u : State} {region : Nat} {y : Item} (hsteady : drwSteady u region y) (hwatch : 16384 ≤ y.watch)
    (hkey : y.stream 3 = 0) : ∃ amax go, u.drwRun region y = .ok amax go ∧
      (go u y).1 = (u.writeStream (u.strm y 2) y.round (u.strm y 2).hdr.coarse (drawBits y (u.strm y 2) 0 (u.draws y)) y.tag).st := by
  unfold State.drwRun
  refine ⟨_, _, State.gated_passes hsteady _, ?_⟩
  simp only [State.outCoarse_untracked hwatch, hkey, beq_self_eq_true, if_true, State.draws]

/-- A drawing item that reads no stream has no scale line to be out of step. -/
theorem drwSteady_of {u : State} {region : Nat} {y : Item} (hchecks : firstBad (u.drwChecks y) = none)
    (hreads : y.drwReads = true → u.firstSkew y [(u.strm y 0, false)] = none) : drwSteady u region y := by
  refine ⟨hchecks, ?_⟩
  split
  · next h => exact hreads h
  · rfl

/-! ### The draws (08 R262) -/

section
variable {o : DrawOp} {w : Nat} {a : El}

/-- The value of an element of an INT32 stream. -/
def El.int (a : El) : Int := match a.v with | .fin m e => if 0 ≤ e then m * (pow2 e : Int) else 0 | _ => 0

theorem El.int_of {p : Int} (h : a.v = .ofInt p) : a.int = p := by
  simp [El.int, h, XV.ofInt, pow2]

/-- The P that a MASK compares with: its operand's, or the element's, held within 16 bits. -/
def DrawOp.keepBelow (o : DrawOp) (a : El) : Nat :=
  if o.psrc then (if a.int < 0 then 0 else if 65535 < a.int then 65535 else a.int.toNat) else o.a0 % 65536

theorem DrawOp.keepBelow_fixed (h : o.psrc = false) : o.keepBelow a = o.a0 % 65536 := by
  simp [DrawOp.keepBelow, h]

theorem DrawOp.keepBelow_read (h : o.psrc = true) : (o.keepBelow a : Int) = max 0 (min a.int 65535) := by
  rw [DrawOp.keepBelow, if_pos h]
  split_ifs <;> omega

theorem drawEl_mask_v : (drawEl o 0x400 w a).v = .ofInt (if bits w 31 16 < o.keepBelow a then 1 else 0) := rfl

theorem drawEl_mask_clip : (drawEl o 0x400 w a).clip = (o.psrc && (decide (a.int < 0) || decide (65535 < a.int))) := rfl

theorem drawEl_dropout : drawEl o 0x401 w a = if bits w 31 16 < o.a0 % 65536
    then { v := (rn32 (a.v.mul (f32 o.a1))).1, sat := (rn32 (a.v.mul (f32 o.a1))).2, poison := a.poison }
    else { v := .zero, poison := a.poison } := rfl

theorem drawEl_mask_fixed (h : o.psrc = false) : (drawEl o 0x400 w a).v = .ofInt (if bits w 31 16 < o.a0 % 65536 then 1 else 0) := by
  rw [drawEl_mask_v, DrawOp.keepBelow_fixed h]

theorem drawEl_mask_read {p : Int} (h : o.psrc = true) (ha : a.v = .ofInt p) :
    (drawEl o 0x400 w a).v = .ofInt (if (bits w 31 16 : Int) < max 0 (min p 65535) then 1 else 0) := by
  simp only [drawEl_mask_v, ← El.int_of ha, ← DrawOp.keepBelow_read h, Nat.cast_lt]

theorem drawEl_mask_clips {p : Int} (h : o.psrc = true) (ha : a.v = .ofInt p) : (drawEl o 0x400 w a).clip = true ↔ p < 0 ∨ 65535 < p := by
  simp [drawEl_mask_clip, h, El.int_of ha]

theorem drawEl_dropout_kept (h : bits w 31 16 < o.a0 % 65536) : (drawEl o 0x401 w a).v = (rn32 (a.v.mul (f32 o.a1))).1 := by
  rw [drawEl_dropout, if_pos h]

theorem drawEl_dropout_dropped (h : o.a0 % 65536 ≤ bits w 31 16) : (drawEl o 0x401 w a).v.isZero = true := by
  rw [drawEl_dropout, if_neg (not_lt.2 h)]
  rfl

theorem drawEl_fillUniform : (drawEl o 0x402 w a).v
    = (rn32 ((rn32 ((XV.fin (bits w 63 40) (-24)).mul (rn32 ((f32 o.a1).sub (f32 o.a0))).1)).1.add (f32 o.a0))).1 := rfl

end

/-- Settles O31: each row by its run's outputs and its condition; the writes of a run whose scale lines are in step; the draws one by one. -/
theorem vectorItemsRunAndDraw : Obligations.VectorItemsRunAndDraw := by
  refine ⟨⟨fun region slot => ?_, fun u region y ins hchecks hreads hnone hwatch hkey => ?_⟩, fun o w a => ?_⟩
  · simp only [List.forall_mem_cons, List.not_mem_nil, false_implies, implies_true, and_true]
    exact ⟨itemRow_settled onlyOutputs_drwRun runsThrough_drwRun rfl fun _ => rfl,
      itemRow_settled onlyOutputs_drwRun runsThrough_drwRun rfl fun _ => rfl,
      itemRow_settled onlyOutputs_drwRun runsThrough_drwRun rfl fun _ => rfl,
      itemRow_settled onlyOutputs_drwRun runsThrough_drwRun rfl fun _ => rfl,
      itemRow_settled onlyOutputs_packRun runsThrough_packRun rfl fun _ => rfl⟩
  · have hins : ins = u.drwIns y := by
      cases h : y.drwReads with
      | true => exact (hreads h).2.trans (State.drwIns_of_reads h).symm
      | false => exact (hnone h).trans (State.drwIns_of_not_reads h).symm
    subst hins
    exact State.drwRun_writes_draws (drwSteady_of hchecks fun h => (hreads h).1) hwatch hkey
  · exact ⟨drawEl_mask_fixed, fun h p ha => ⟨drawEl_mask_read h ha, drawEl_mask_clips h ha⟩, drawEl_dropout_kept, drawEl_dropout_dropped,
      drawEl_fillUniform⟩

end Sys2Proof.Machine
end

section
/-! A PTE_WRITE (10 R308, R326) to an entry that lies across the end of a far-tier device (12 R395). -/

namespace Sys2Proof.Machine

/-- Root port 0 has a device of 4 bytes, and its window is populated up to that capacity (12 R395). -/
def shortDevice : State := { State.reset with mem := { far0 := { present := true, capacity := 4, up := true } } }

/-- A PTE_WRITE of a VALID entry, VALID being its bit 63, to the first 8 bytes of the far tier. -/
def pteAcross : Item := State.reset.newItem 0 (2 ^ 42 * 2 ^ (8 * 0x68) + 2 ^ 63 * 2 ^ (8 * 0x70)) 0

/-- The state is of the canonical form; the entry's first byte, which decides for its page, is in the map, its bytes from the fifth on are not,
and the link is up. -/
theorem shortDevice_map : shortDevice.wf = true ∧ shortDevice.mapped (2 ^ 42) 8 = true ∧ shortDevice.place (2 ^ 42 + 4) = none ∧
    shortDevice.farDown (2 ^ 42) = false := by decide +kernel

/-- The byte that holds VALID is not stored: it reads 0 as before. -/
theorem pteAcross_lost {amax : Nat} {go : State → Item → State × Result} (h : shortDevice.pteRun 0 pteAcross = .ok amax go) :
    bit (shortDevice.rd (2 ^ 42) 8) 63 = false ∧ (go shortDevice pteAcross).1.rd (2 ^ 42) 8 ≠ 2 ^ 63 := by
  have hmapped : shortDevice.mapped (pteAcross.opnd 0x68 8 % 2 ^ 48 / 8 * 8) 8 = true := by decide +kernel
  simp only [State.pteRun, hmapped, Bool.not_true, Bool.false_eq_true, if_false] at h
  obtain ⟨-, rfl⟩ := RunOut.ok.inj h
  decide +kernel

/-- Refutes O35: on `shortDevice` a PTE_WRITE passes the check of the map, which one byte of each page decides, and stores an entry whose
upper half lies past the end of the device, so that it does not read back. The statement asks for no more than that check. -/
theorem not_kvItemsRun : ¬ Obligations.KvItemsRun := by
  rintro ⟨-, hpte⟩
  obtain ⟨-, hmapped, -, hup⟩ := shortDevice_map
  obtain ⟨go, hrun, -, hstore⟩ := hpte shortDevice 0 pteAcross (2 ^ 42) (2 ^ 63) (by decide +kernel) (by decide +kernel) hmapped
  obtain ⟨hclear, hlost⟩ := pteAcross_lost hrun
  obtain ⟨-, hread, -⟩ := hstore (.inl hclear) hup
  exact hlost hread

end Sys2Proof.Machine
end

section
/-! PIN and RELEASE of a record (10 R309, R310, R322): the snapshot, and the operation on the record's REF Cleat. -/

namespace Sys2Proof.Machine

/-! ### The item of a slot as a Cleat operation leaves it (03 R104) -/

/-- A table changed entry by entry reads changed, where the default stays. -/
theorem tget_map {α : Type} {d : Nat → α} {f : α → α} (hd : ∀ k, f (d k) = d k) (m : Sparse α) (k : Nat) :
    tget d (m.map fun e => (e.1, f e.2)) k = f (tget d m k) := by
  induction m with
  | nil => exact (hd k).symm
  | cons e m ih =>
    simp only [List.map_cons, tget]
    split
    · rfl
    · split
      · exact (hd k).symm
      · exact ih

section
variable (s : State) (die i : Nat)

theorem State.wakeAll_items (v : Nat) : (s.wakeAll die i v).items = s.items.map fun e => (e.1, e.2.map fun x => x.wake die i v) := rfl

theorem State.cleatApply_items (o : CleatOp) :
    (s.cleatApply die i o).items = s.items.map fun e => (e.1, e.2.map fun x => x.wake die i (s.cleatNext die i o)) := by
  by_cases h : s.cleatEvent die i o = 0
  · rw [State.cleatApply_quiet h, State.wakeAll_items]; rfl
  · rw [State.cleatApply_noted h, State.wakeAll_items, State.cleatNote, State.bump_items, State.flag_items]; rfl

/-- An operation at a Cleat wakes the item of each slot. -/
theorem State.cleatApply_item (o : CleatOp) (region slot : Nat) :
    (s.cleatApply die i o).item region slot = (s.item region slot).map fun x => x.wake die i (s.cleatNext die i o) := by
  rw [State.item, State.cleatApply_items]
  exact tget_map (d := dItem) (f := Option.map fun x => x.wake die i (s.cleatNext die i o)) (fun _ => rfl) s.items (itemKey region slot)

end

/-! ### The operation on REF (10 R305, R309) -/

/-- `t` is `s` but for what a Cleat operation changes or, where its way is closed, for its being held. -/
abbrev refFrom (t s : State) : Prop := ∃ cleats regs items arms out power heldOps,
  t = { s with cleats := cleats, regs := regs, items := items, arms := arms, out := out, power := power, heldOps := heldOps }

theorem refFrom.trans {u t s : State} (h : refFrom u t) (k : refFrom t s) : refFrom u s := by
  obtain ⟨_, _, _, _, _, _, _, rfl⟩ := h; obtain ⟨_, _, _, _, _, _, _, rfl⟩ := k; exact ⟨_, _, _, _, _, _, _, rfl⟩
theorem refFrom.refl (s : State) : refFrom s s := ⟨_, _, _, _, _, _, _, rfl⟩
theorem cleatsFrom.ref {t s : State} (h : cleatsFrom t s) : refFrom t s := by
  obtain ⟨_, _, _, _, _, _, rfl⟩ := h; exact ⟨_, _, _, _, _, _, _, rfl⟩
theorem itemsFrom.ref {t s : State} (h : itemsFrom t s) : refFrom t s := by
  obtain ⟨_, _, rfl⟩ := h; exact ⟨_, _, _, _, _, _, _, rfl⟩
theorem refFrom.eq_update {t s : State} (h : refFrom t s) : t = { s with cleats := t.cleats, regs := t.regs, items := t.items, arms := t.arms
                                                                         out := t.out, power := t.power, heldOps := t.heldOps } := by
  obtain ⟨_, _, _, _, _, _, _, rfl⟩ := h; rfl

/-- A signal, whatever becomes of it on its way, leaves the item of each slot with its descriptor and its stage. -/
theorem State.cleatOp_signal_spec (s : State) (issuer die i n : Nat) : refFrom (s.cleatOp issuer die i (.signal n)) s ∧
    ∀ region slot x, s.item region slot = some x →
      ∃ y, (s.cleatOp issuer die i (.signal n)).item region slot = some y ∧ y.raw = x.raw ∧ y.stage = x.stage := by
  rw [State.cleatOp]
  match s.cleatWay issuer die i with
  | .open =>
    refine ⟨(State.cleatApply_from ..).ref, fun region slot x hx => ?_⟩
    show ∃ y, (s.cleatApply die i (.signal n)).item region slot = some y ∧ _
    rw [State.cleatApply_item, hx]
    exact ⟨_, rfl, rfl, rfl⟩
  | .held => exact ⟨⟨_, _, _, _, _, _, _, rfl⟩, fun region slot x hx => ⟨x, hx, rfl, rfl⟩⟩
  | .lost => exact ⟨(State.bump_regs ..).items.ref, fun region slot x hx => ⟨x, ((State.bump_regs ..).item_eq region slot).trans hx, rfl, rfl⟩⟩

section
variable {s : State} {home w n : Nat} {o : CleatOp}

theorem State.refOp_off (h : refEn w = false) : s.refOp home w o = s := by simp [State.refOp, h]
theorem State.refOp_on (h : refEn w = true) : s.refOp home w o = s.cleatOp home (bits w 30 28) (bits w 13 0) o := if_pos h

theorem State.refOp_signal_spec : refFrom (s.refOp home w (.signal n)) s ∧ ∀ region slot x, s.item region slot = some x →
    ∃ y, (s.refOp home w (.signal n)).item region slot = some y ∧ y.raw = x.raw ∧ y.stage = x.stage := by
  cases h : refEn w with
  | false =>
    rw [State.refOp_off h]
    exact ⟨.refl s, fun region slot x hx => ⟨x, hx, rfl, rfl⟩⟩
  | true =>
    rw [State.refOp_on h]
    exact State.cleatOp_signal_spec ..

/-- A signal on a REF whose Cleat it reaches adds to that Cleat, up to its end, and to no other. -/
theorem State.refOp_signal_cleat (hc : twf dW s.cleats = true) {d i : Nat} (hd : d = bits w 30 28) (hi : i = bits w 13 0) (h : refEn w = true)
    (hx : cleatExists d i = true) (hdown : s.dieDown d = false) (hp : s.pathDown home d false = false) :
    ((s.refOp home w (.signal n)).cleat d i).toNat = min ((s.cleat d i).toNat + n) 0xFFFFFFFF ∧
      ∀ e j, e ≤ 4 → j < 16384 → (e, j) ≠ (d, i) → (s.refOp home w (.signal n)).cleat e j = s.cleat e j := by
  rw [State.refOp_on h, ← hd, ← hi, State.cleatOp_signal (State.cleatWay_open hx hdown hp)]
  exact ⟨State.cleatApply_cleat_same hc, fun e j _ hj hne => State.cleatApply_cleat_ne hc (cleatExists_lt hx).2 hj hne⟩

end

/-! ### The commands -/

section
variable {s : State} {op : RecOp} {x : Item} {r : KvRec} (hx : s.item op.region op.slot = some x)
include hx

theorem exec_recordRelease {p : Pin} (hp : x.pin = some p) : exec (.recordRelease op) s
    = .next (((s.setItem op.region op.slot (some { x with pin := none })).releasePin (x.opnd 0x6C 2) p).settle) := by
  show execRecordRelease op s = _
  simp only [execRecordRelease, hx, hp]

variable (hr : s.kvRec op.seq op.layer = some r) (ha : x.attends op.seq op.layer = true) (hpin : x.pin = none)
  (hd : s.dieDown (kvHome op.seq) = false) (hv : r.valid = true)
include hr ha hpin hd hv

theorem exec_recordPin_waits (h : r.spill ≠ 0) : exec (.recordPin op) s
    = .next (s.setItem op.region op.slot (some { x with waitCyc := some (x.waitCyc.getD s.cycle) })) := by
  show execRecordPin op s = _
  simp [execRecordPin, hx, hr, ha, hpin, hd, hv, h]

theorem exec_recordPin_takes (h : r.spill = 0) {y : Item}
    (hy : (s.refOp (kvHome op.seq) r.ref (.signal 1)).item op.region op.slot = some y) : exec (.recordPin op) s
    = .next ((s.refOp (kvHome op.seq) r.ref (.signal 1)).setItem op.region op.slot (some { y with
        pin := some ⟨r.dir, r.len, r.lastPos, r.layout, r.ref, s.poisoned ((s.kvRecAddr op.seq op.layer).getD 0)⟩, waitCyc := none })).settle := by
  show execRecordPin op s = _
  simp [execRecordPin, State.pinRec, hx, hr, ha, hpin, hd, hv, h, hy]

end

/-- Settles O36: a PIN by the record's spilled tokens, its signal by the REF it names; a RELEASE is `releasePin`. -/
theorem pinsTakeSnapshotsAndRelease : Obligations.PinsTakeSnapshotsAndRelease := by
  refine fun s op x hx => ⟨fun a r hwf hrec ha hpin hd hv => ⟨exec_recordPin_waits hx hrec.2.1 ha hpin hd hv, fun h => ?_⟩,
    fun p hp => exec_recordRelease hx hp⟩
  obtain ⟨haddr, hr, -, -⟩ := hrec
  obtain ⟨hfrom, hitem⟩ := State.refOp_signal_spec (s := s) (home := kvHome op.seq) (w := r.ref) (n := 1)
  obtain ⟨y, hy, hraw, hstage⟩ := hitem _ _ _ hx
  have hexec := exec_recordPin_takes hx hr ha hpin hd hv h hy
  rw [haddr] at hexec
  refine ⟨_, _, hexec, State.item_setItem_some .., rfl, hraw, hstage, fun hoff => ?_, fun d i hd hi hen hex hdown hpath => ?_, ?_⟩
  · rw [State.setItem_cleats, State.refOp_off hoff]
  · exact State.refOp_signal_cleat (State.wf_cleats hwf) hd hi hen hex hdown hpath
  · exact ((State.setItem_items ..).ref.trans hfrom).eq_update

end Sys2Proof.Machine
end

section
/-! Writes and reads within a line of memory (12 R373 to R384, R395, R398). -/

namespace Sys2Proof.Machine

/-! ### Pages of the map -/

/-- Where page `n` of the device addresses begins, if it is in the map (12 R373, R374, R395). -/
def State.pageStart (s : State) (n : Nat) : Nat :=
  if n < 2 ^ 28 then foldPage4 n * 2 ^ 40 + n / 16 * 4096
  else if n < 2 ^ 29 then
    let k := 4 * ((n - 2 ^ 28) / 2 ^ 26) + foldPage2 ((n - 2 ^ 28) % 2 ^ 26)
    k * 2 ^ 40 + (s.stackBytes - s.localBytes k) + (n - 2 ^ 28) % 2 ^ 26 / 4 * 4096
  else if n < 2 ^ 30 then 2 ^ 48 + (n - 2 ^ 29) * 4096
  else if s.mem.farInterleave && s.mem.far0.present && s.mem.far1.present then
    2 ^ 50 + (n - 2 ^ 30) % 2 * 2 ^ 42 + (n - 2 ^ 30) / 2 * 4096
  else 2 ^ 50 + (n - 2 ^ 30) / 2 ^ 29 * 2 ^ 42 + (n - 2 ^ 30) % 2 ^ 29 * 4096

section
variable {s : State} {a p q i : Nat}

/-- A page's bytes lie side by side. -/
theorem State.place_page (h : s.place a = some p) : p = s.pageStart (a / 4096) + a % 4096 := by
  unfold State.pageStart
  dsimp only
  obtain ⟨_, hp, -⟩ | ⟨_, _, d, b, k, hd, hb, hk, hp, -⟩ | ⟨_, _, hp⟩ | ⟨_, _, ⟨hi, hp⟩ | ⟨hi, hp⟩⟩ := State.place_window h
  · rw [if_pos (by omega), hp]; omega
  · have hpage : (a / 4096 - 2 ^ 28) % 2 ^ 26 = b / 4096 := by omega
    have hdie : (a / 4096 - 2 ^ 28) / 2 ^ 26 = d := by omega
    rw [if_neg (by omega), if_pos (by omega), hpage, hdie, ← hk, hp]; omega
  · rw [if_neg (by omega), if_neg (by omega), if_pos (by omega), hp]; omega
  · rw [if_neg (by omega), if_neg (by omega), if_neg (by omega), if_pos (show _ = true from hi), hp]; omega
  · rw [if_neg (by omega), if_neg (by omega), if_neg (by omega), if_neg (show ¬ _ = true from hi), hp]; omega

theorem State.place_add_inLine (h : a % 64 + i < 64) (ha : s.place a = some p) (hb : s.place (a + i) = some q) : q = p + i := by
  have hp := State.place_page ha
  have hq := State.place_page hb
  rw [show (a + i) / 4096 = a / 4096 by omega] at hq
  omega

theorem State.farDown_add_inLine (h : a % 64 + i < 64) : s.farDown (a + i) = s.farDown a := by
  have hlo : decide (2 ^ 42 ≤ a + i) = decide (2 ^ 42 ≤ a) := decide_eq_decide.2 (by omega)
  have hhi : decide (a + i < 2 ^ 43) = decide (a < 2 ^ 43) := decide_eq_decide.2 (by omega)
  have hpage : (a + i - 2 ^ 42) / 4096 = (a - 2 ^ 42) / 4096 := by omega
  have hhalf : (a + i - 2 ^ 42) / 2 ^ 41 = (a - 2 ^ 42) / 2 ^ 41 := by omega
  simp only [State.farDown, State.farRoot, hlo, hhi, hpage, hhalf]

end

/-! ### A write within a line -/

section
variable {s : State} {a b m n v : Nat} {bs : List Byte} {bad : Bool}

section
variable (h0 : 0 < bs.length) (hl : a % 64 + bs.length ≤ 64) (hall : ∀ i < bs.length, (s.place (a + i)).isSome = true) (hf : s.farDown a = false)
include h0 hl hall hf

/-- A write within a line of HBM or SRAM, or of a root port that is up. -/
theorem State.wr_inLine : ∃ p, s.place a = some p ∧ s.wr a bs bad = { s with mem := s.mem.writeLine p bs bad } := by
  obtain ⟨p, hp⟩ := Option.isSome_iff_exists.1 (hall 0 h0)
  have hp : s.place a = some p := hp
  have hne : bs.isEmpty = false := by cases bs with | nil => cases h0 | cons => rfl
  have hmin : min bs.length (64 - a % 64) = bs.length := by omega
  have hfuel : bs.length / 64 + 2 = bs.length / 64 + 1 + 1 := rfl
  refine ⟨p, hp, ?_⟩
  rw [State.wr, hfuel, State.wrLines, hne]
  simp only [hmin, hf, hp, List.take_length, List.drop_length, Bool.false_eq_true, if_false]
  rw [State.wrLines]
  rfl

/-- A write does not move the map. -/
theorem State.place_wr_inLine (c : Nat) : (s.wr a bs bad).place c = s.place c := by
  obtain ⟨p, -, hw⟩ := State.wr_inLine (bad := bad) h0 hl hall hf
  rw [hw]
  exact State.place_writeLine (s := s) (t := { s with mem := s.mem.writeLine p bs bad }) rfl (fun _ => rfl) rfl c

variable (hwf : s.mem.wf = true)
include hwf

theorem State.rdByte_wr_inside {i : Nat} (hi : i < bs.length) : (s.wr a bs bad).rdByte (a + i) = bs.getD i 0#8 := by
  obtain ⟨p, hp, hw⟩ := State.wr_inLine (bad := bad) h0 hl hall hf
  obtain ⟨q, hq⟩ := Option.isSome_iff_exists.1 (hall i hi)
  obtain rfl := State.place_add_inLine (by omega) hp hq
  rw [State.rdByte, State.place_wr_inLine h0 hl hall hf, hq, hw]
  exact Mem.byteAt_setBytes hwf p bs hi

theorem State.rdByte_wr_outside (hb : b < a ∨ a + bs.length ≤ b) : (s.wr a bs bad).rdByte b = s.rdByte b := by
  obtain ⟨p, hp, hw⟩ := State.wr_inLine (bad := bad) h0 hl hall hf
  rw [State.rdByte, State.rdByte, State.place_wr_inLine h0 hl hall hf, hw]
  cases hq : s.place b with
  | none => rfl
  | some q =>
    refine Mem.byteAt_setBytes_outside hwf p bs ?_
    by_contra hin
    obtain ⟨r, hr⟩ := Option.isSome_iff_exists.1 (hall (q - p) (by omega))
    have hrq : r = q := (State.place_add_inLine (by omega) hp hr).trans (by omega)
    have := State.place_inj (hrq ▸ hr) hq
    omega

theorem State.rdBytes_wr_inside : (s.wr a bs bad).rdBytes a bs.length = bs := by
  refine List.ext_getElem (by simp [State.rdBytes]) fun i hi hi' => ?_
  simp only [State.rdBytes, List.getElem_map, List.getElem_range, State.rdByte_wr_inside h0 hl hall hf hwf hi', List.getD_eq_getElem _ _ hi']

theorem State.rd_wr_outside (hb : b + m ≤ a ∨ a + bs.length ≤ b) : (s.wr a bs bad).rd b m = s.rd b m := by
  refine congrArg leNat (List.map_congr_left fun i hi => ?_)
  have := List.mem_range.1 hi
  exact State.rdByte_wr_outside h0 hl hall hf hwf (by omega)

end

/-- A number written is read back. -/
theorem State.rd_wr_inside (h0 : 0 < n) (hl : a % 64 + n ≤ 64) (hall : ∀ i < n, (s.place (a + i)).isSome = true) (hf : s.farDown a = false)
    (hwf : s.mem.wf = true) (hv : v < 2 ^ (8 * n)) : (s.wr a (leBytes n v) bad).rd a n = v := by
  have hlen := leBytes_length n v
  have hread := State.rdBytes_wr_inside (bad := bad) (by rw [hlen]; exact h0) (by rw [hlen]; exact hl) (by rw [hlen]; exact hall) hf hwf
  rw [hlen] at hread
  rw [State.rd, hread, leNat_leBytes, Nat.mod_eq_of_lt hv]

end

/-! ### Fields of a number in memory -/

theorem leNat_append (xs ys : List Byte) : leNat (xs ++ ys) = leNat xs + 2 ^ (8 * xs.length) * leNat ys := by
  induction xs with
  | nil => simp [leNat]
  | cons b xs ih =>
    rw [List.cons_append, leNat, leNat, ih, List.length_cons, Nat.mul_succ, Nat.pow_add]
    ring

theorem leNat_lt (xs : List Byte) : leNat xs < 2 ^ (8 * xs.length) := by
  induction xs with
  | nil => exact Nat.one_pos
  | cons b xs ih =>
    have := b.isLt
    rw [leNat, List.length_cons, Nat.mul_succ, Nat.pow_add]
    omega

theorem State.rdBytes_add (s : State) (a m n : Nat) : s.rdBytes a (m + n) = s.rdBytes a m ++ s.rdBytes (a + m) n := by
  simp [State.rdBytes, List.range_add, Function.comp_def, Nat.add_assoc]

/-- A field of a number in memory is the number at the field's address. -/
theorem State.rd_field (s : State) {a off m n : Nat} (h : off + n ≤ m) : s.rd (a + off) n = fld (s.rd a m) off n := by
  obtain ⟨k, rfl⟩ := Nat.exists_eq_add_of_le h
  have hlen (a n : Nat) : (s.rdBytes a n).length = n := by simp [State.rdBytes]
  have hlo := leNat_lt (s.rdBytes a off)
  have hmid := leNat_lt (s.rdBytes (a + off) n)
  rw [hlen] at hlo hmid
  rw [State.rd, State.rd, State.rdBytes_add, State.rdBytes_add, List.append_assoc, leNat_append, leNat_append, hlen, hlen, fld,
    Nat.add_mul_div_left _ _ (Nat.two_pow_pos _), Nat.div_eq_of_lt hlo, Nat.zero_add, Nat.add_mul_mod_self_left, Nat.mod_eq_of_lt hmid]

end Sys2Proof.Machine
end

section
/-! What an append and a drain leave in its place: the map, where records lie, spill slots, and most registers (10 R305, R312, R317 to R320). -/

namespace Sys2Proof.Machine

/-! ### The registers they write -/

/-- The word within its die of a register of a die's attention block. -/
theorem regKey_ateDB {r : Reg} {o : Nat} (hb : (regDef r).blk = .ateDB) (ho : (regDef r).off = o) (hlt : o < 2 ^ 20) (die : Nat) :
    regKey r die 0 % 2 ^ 28 = (0x400000 + o) / 4 := by
  simp only [regKey, regPlace, hb, ho, blkBase, offKey]
  omega

/-- The registers of clusters lie beyond those of dies. -/
theorem regKey_ateClSts (cluster : Nat) : 0x400000 ≤ regKey .ateClSts cluster 0 % 2 ^ 28 := by
  have hb : (regDef .ateClSts).blk = .ateCB := by decide
  have ho : (regDef .ateClSts).off = 4 := by decide
  simp only [regKey, regPlace, hb, ho, blkBase, offKey]
  omega

theorem regKey_memFarDropCnt (p : Nat) (h : p < 2) : regKey .memFarDropCnt 0 p % 2 ^ 28 = 0x80011 ∨ regKey .memFarDropCnt 0 p % 2 ^ 28 = 0x82011 := by
  revert p
  decide

theorem regKey_memMap_mod (k : Nat) : regKey .memMap k 0 % 2 ^ 28 < 0x40000 := by
  have ho : (regDef .memMap).off = 8 := by decide
  rw [regKey_memMap, ho]
  omega

/-- Words that writes to memory count in: FAR_LINK_DROPS of the two root ports (12 R398). -/
def dropWord (n : Nat) : Prop := n = 0x80011 ∨ n = 0x82011

/-- Words that the events of a ring or a spill slot set too: ATE_STS, and the clusters' own (10 R336, R337). -/
def eventWord (n : Nat) : Prop := dropWord n ∨ n = 0x100006 ∨ 0x400000 ≤ n

/-- Words that an append or a drain may write: those, ATE_RING_HEAD, ATE_EXH_LAST and ATE_EXH_CNT. -/
def appendWord (n : Nat) : Prop := eventWord n ∨ n = 0x100003 ∨ n = 0x100008 ∨ n = 0x100009

theorem eventWord_append {n : Nat} (h : eventWord n) : appendWord n := .inl h
theorem dropWord_event {n : Nat} (h : dropWord n) : eventWord n := .inl h

/-! ### The relation -/

/-- Beside what memory holds, what goes out, items and tokens whose exhaustion was told, `t` is `s` but for registers at the words `K` of a die:
the map and the spill slots are those of `s`. -/
structure placesKept (K : Nat → Prop) (t s : State) : Prop where
  wf : s.wf = true → t.wf = true
  small : t.small = s.small
  far0 : t.mem.far0 = s.mem.far0
  far1 : t.mem.far1 = s.mem.far1
  interleave : t.mem.farInterleave = s.mem.farInterleave
  spills : t.spills = s.spills
  regs : s.wf = true → ∀ k, ¬ K (k % 2 ^ 28) → t.regK k = s.regK k

section
variable {K L : Nat → Prop} {u t s : State}

theorem placesKept.refl (s : State) : placesKept K s s := ⟨id, rfl, rfl, rfl, rfl, rfl, fun _ _ _ => rfl⟩

theorem placesKept.trans (h : placesKept K u t) (k : placesKept K t s) : placesKept K u s :=
  ⟨fun hs => h.wf (k.wf hs), h.small.trans k.small, h.far0.trans k.far0, h.far1.trans k.far1, h.interleave.trans k.interleave,
    h.spills.trans k.spills, fun hs i hi => (h.regs (k.wf hs) i hi).trans (k.regs hs i hi)⟩

theorem placesKept.mono (h : placesKept K t s) (hKL : ∀ {n}, K n → L n) : placesKept L t s :=
  { h with regs := fun hs i hi => h.regs hs i (mt hKL hi) }

theorem placesKept.ite {p : Prop} [Decidable p] (h : placesKept K t s) (h' : placesKept K u s) : placesKept K (if p then t else u) s := by
  split
  · exact h
  · exact h'

theorem placesKept.foldl {α : Type} {f : State → α → State} (hf : ∀ s a, placesKept K (f s a) s) (l : List α) (s : State) :
    placesKept K (l.foldl f s) s := by
  induction l generalizing s with
  | nil => exact .refl s
  | cons a l ih => exact (ih (f s a)).trans (hf s a)

/-! ### What keeps places -/

theorem State.setReg_places (s : State) {r : Reg} {i e : Nat} (h : K (regKey r i e % 2 ^ 28)) (v : Word) : placesKept K (s.setReg r i e v) s := by
  refine ⟨fun hs => State.setReg_wf hs .., ?_, by rw [State.setReg_mem], by rw [State.setReg_mem], by rw [State.setReg_mem], State.setReg_spills ..,
    fun hs k hk => State.regK_setRegK_ne hs _ _ _ fun hkey => hk (hkey ▸ h)⟩
  obtain ⟨_, hregs⟩ := State.setReg_regs s r i e v
  rw [hregs]

theorem State.bump_places (s : State) {r : Reg} {i e : Nat} (h : K (regKey r i e % 2 ^ 28)) (n : Nat) : placesKept K (s.bump r i e n) s :=
  State.setReg_places s h _

theorem State.flag_places (s : State) {r : Reg} {i e : Nat} (h : K (regKey r i e % 2 ^ 28)) (m : Nat) : placesKept K (s.flag r i e m) s :=
  State.setReg_places s h _

theorem State.emit_places (s : State) (o : Out) : placesKept K (s.emit o) s := ⟨id, rfl, rfl, rfl, rfl, rfl, fun _ _ _ => rfl⟩

theorem State.irqBy_places (s : State) (cfg : Word) (cause detail : Nat) : placesKept K (s.irqBy cfg cause detail) s :=
  .ite (State.emit_places ..) (.refl s)

theorem State.exhForget_places (s : State) (t : Token) : placesKept K (s.exhForget t) s := ⟨id, rfl, rfl, rfl, rfl, rfl, fun _ _ _ => rfl⟩

/-- A write to memory keeps the map; what a root port whose link is down drops is counted. -/
theorem State.wrLines_places (s : State) (fuel a : Nat) (bs : List Byte) (bad : Bool) : placesKept dropWord (s.wrLines fuel a bs bad) s := by
  induction fuel generalizing s a bs with
  | zero => exact .refl s
  | succ n ih =>
    simp only [State.wrLines]
    split
    · exact .refl s
    refine (ih ..).trans ?_
    split
    next hdown =>
      have hroot : s.farRoot a < 2 := by
        simp only [State.farDown, Bool.and_eq_true, decide_eq_true_eq] at hdown
        unfold State.farRoot
        split <;> omega
      exact State.bump_places s (regKey_memFarDropCnt _ hroot) 1
    next =>
      split
      next p _ =>
        obtain ⟨_, _, _, hline⟩ := s.mem.writeLine_frame p (bs.take (min bs.length (64 - a % 64))) bad
        refine ⟨fun hs => State.with_mem_wf hs (Mem.writeLine_wf (State.wf_mem hs) ..), rfl, ?_, ?_, ?_, rfl, fun _ _ _ => rfl⟩ <;> rw [hline]
      next => exact .refl s

theorem State.wr_places (s : State) (a : Nat) (bs : List Byte) (bad : Bool) : placesKept dropWord (s.wr a bs bad) s := State.wrLines_places ..

theorem State.wrMarks_places (s : State) (a : Nat) (l : List (Byte × Bool)) : placesKept dropWord (s.wrMarks a l) s := by
  unfold State.wrMarks
  generalize l.length / 64 + 2 = fuel
  induction fuel generalizing s a l with
  | zero => exact .refl s
  | succ n ih =>
    simp only [State.wrMarked]
    split
    · exact .refl s
    · exact (ih ..).trans (State.wr_places ..)

theorem State.mergeLine_places (s : State) (m : LineMerge) : placesKept dropWord (s.mergeLine m) s := by
  unfold State.mergeLine
  dsimp only
  split
  · exact (State.wr_places ..).trans (State.wr_places ..)
  · exact State.wr_places ..

/-- A token written to its page. -/
theorem State.writeTok_places (s : State) (l : KvLay) (page : Nat) (t : SpillTok) : placesKept dropWord (s.writeTok l page t) s := by
  have hhalf (s : State) (dat sl out tag slot : Nat) (bytes : List Byte) (blocks : List (Nat × List Nat)) (bad : Bool) :
      placesKept dropWord (s.writeHalf l dat sl out tag slot bytes blocks bad) s :=
    (placesKept.foldl (fun _ _ => State.mergeLine_places ..) ..).trans (State.wrMarks_places ..)
  exact (State.wr_places ..).trans ((hhalf ..).trans (hhalf ..))

theorem State.setRecField_places (s : State) (seq layer off n v : Nat) : placesKept dropWord (s.setRecField seq layer off n v) s := by
  unfold State.setRecField
  split
  · exact State.wr_places ..
  · exact .refl s

theorem State.advanceRec_places (s : State) (seq layer len pos : Nat) : placesKept dropWord (s.advanceRec seq layer len pos) s :=
  (State.setRecField_places ..).trans (State.setRecField_places ..)

theorem State.ateEvent_places (s : State) (die m : Nat) : placesKept eventWord (s.ateEvent die m) s := by
  have hflag : placesKept eventWord (s.flag .ateSts die 0 m) s :=
    State.flag_places s (.inr (.inl (regKey_ateDB (o := 0x18) (by decide) (by decide) (by decide) die))) m
  exact .ite hflag ((State.irqBy_places ..).trans hflag)

/-- A page popped moves the ring's head by one. -/
theorem State.atePop_places (s : State) (ring : Nat) :
    placesKept eventWord (s.atePop ring).2 (s.setReg .ateRingHead ring 0 (s.reg .ateRingHead ring + 1)) := by
  unfold State.atePop
  exact .ite (State.ateEvent_places ..) (.refl _)

theorem State.takePage_places (s : State) (r : KvRec) (home seq layer p pte ring coarse pos : Nat) :
    placesKept eventWord (s.takePage r home seq layer p pte ring coarse pos).1 (s.setReg .ateRingHead ring 0 (s.reg .ateRingHead ring + 1)) := by
  unfold State.takePage
  dsimp only
  exact ((State.wr_places ..).mono dropWord_event).trans (((State.wr_places ..).mono dropWord_event).trans (State.atePop_places ..))

/-- ATE_EXH_LAST of a page-exhausted event (10 R318). -/
def exhLast (seq layer cause ring : Nat) : Word := BitVec.ofNat 32 (seq * 2 ^ 16 + cause * 2 ^ 15 + ring * 2 ^ 12 + layer % 4096)

/-- A page-exhausted event is recorded, counted, and told. -/
theorem State.pageExhausted_places (s : State) (seq layer cause ring : Nat) : placesKept eventWord (s.pageExhausted seq layer cause ring)
    ((s.setReg .ateExhLast ring 0 (exhLast seq layer cause ring)).bump .ateExhCnt ring 0 1) := by
  unfold State.pageExhausted
  exact State.ateEvent_places ..

end

end Sys2Proof.Machine
end

section
/-! A record and its fields while an append or a drain goes on (10 R305, R307, R320). -/

namespace Sys2Proof.Machine

/-! ### Where the record lies -/

section
variable {t s : State} (h : placesKept appendWord t s)
include h

theorem placesKept.farDown_eq (a : Nat) : t.farDown a = s.farDown a := by
  simp only [State.farDown, State.farRoot, State.farPort, h.far0, h.far1, h.interleave]
  rfl

variable (hs : s.wf = true)
include hs

theorem placesKept.place_eq (a : Nat) : t.place a = s.place a := by
  have hlocal (k : Nat) : t.localBytes k = s.localBytes k := by
    have hmap := regKey_memMap_mod k
    have hreg : t.reg .memMap k = s.reg .memMap k := h.regs hs _ (by unfold appendWord eventWord dropWord; omega)
    rw [State.localBytes, hreg]; rfl
  simp only [State.place, State.farPort, State.stackBytes, hlocal, h.small, h.far0, h.far1, h.interleave]
  rfl

theorem placesKept.mapped_eq (a n : Nat) : t.mapped a n = s.mapped a n := by
  simp only [State.mapped, h.place_eq hs]

theorem placesKept.rd_eq (hm : t.mem = s.mem) (a n : Nat) : t.rd a n = s.rd a n := by
  simp only [State.rd, State.rdBytes, State.rdByte, h.place_eq hs, hm]

/-- The records of a die: their base and number stand in registers that no append writes. -/
theorem placesKept.kvRecAddr_eq (seq layer : Nat) : t.kvRecAddr seq layer = s.kvRecAddr seq layer := by
  have hreg {r : Reg} {o : Nat} (hb : (regDef r).blk = .ateDB) (ho : (regDef r).off = o) (h40 : 0x40 ≤ o) (h50 : o < 0x50) (die : Nat) :
      t.reg r die = s.reg r die :=
    h.regs hs _ (by rw [regKey_ateDB hb ho (by omega)]; unfold appendWord eventWord dropWord; omega)
  simp only [State.kvRecAddr, State.pair, h.mapped_eq hs, hreg (r := .ateSeqCfg) (o := 0x48) (by decide) (by decide) (by decide) (by decide),
    hreg (r := .ateSeqBase) (o := 0x40) (by decide) (by decide) (by decide) (by decide),
    hreg (r := .ateSeqBaseHi) (o := 0x44) (by decide) (by decide) (by decide) (by decide)]
  rfl

end

/-- The record of a sequence and layer lies at `a`, in memory that is there. -/
structure State.recHere (s : State) (seq layer a : Nat) : Prop where
  addr : s.kvRecAddr seq layer = some a
  there : ∀ i < 32, (s.place (a + i)).isSome = true
  up : s.farDown a = false

section
variable {t s : State} {seq layer a : Nat}

theorem State.recAt.here {r : KvRec} (h : s.recAt seq layer a r) : s.recHere seq layer a :=
  have ⟨haddr, _, hthere, hup⟩ := h
  ⟨haddr, hthere, hup⟩

theorem State.recHere.kept (h : s.recHere seq layer a) (hs : s.wf = true) (hk : placesKept appendWord t s) : t.recHere seq layer a := by
  refine ⟨(hk.kvRecAddr_eq hs seq layer).trans h.addr, fun i hi => ?_, (hk.farDown_eq a).trans h.up⟩
  rw [hk.place_eq hs]
  exact h.there i hi

/-! ### Its fields -/

/-- Records lie 32 bytes apart. -/
theorem State.recHere.aligned (h : s.recHere seq layer a) : a % 32 = 0 := by
  have haddr := h.addr
  simp only [State.kvRecAddr] at haddr
  split at haddr
  · have := Option.some.inj haddr
    omega
  · cases haddr

section
variable (h : s.recHere seq layer a) (hs : s.wf = true) {off n v : Nat} (h0 : 0 < n) (hoff : off + n ≤ 32)
include h

theorem State.recHere.setRecField_eq : s.setRecField seq layer off n v = s.wr (a + off) (leBytes n v) := by
  simp only [State.setRecField, h.addr]

include hoff

/-- A field lies in one line, in memory that is there. -/
theorem State.recHere.field : (a + off) % 64 + n ≤ 64 ∧ (∀ i < n, (s.place (a + off + i)).isSome = true) := by
  have := h.aligned
  refine ⟨by omega, fun i hi => ?_⟩
  rw [Nat.add_assoc]
  exact h.there _ (by omega)

include h0

theorem State.recHere.field_up : s.farDown (a + off) = false := by
  have := h.aligned
  rw [State.farDown_add_inLine (by omega), h.up]

include hs

theorem State.recHere.rd_setRecField_same (hv : v < 2 ^ (8 * n)) : (s.setRecField seq layer off n v).rd (a + off) n = v := by
  obtain ⟨hline, hthere⟩ := h.field hoff
  rw [h.setRecField_eq]
  exact State.rd_wr_inside h0 hline hthere (h.field_up h0 hoff) (State.wf_mem hs) hv

theorem State.recHere.rd_setRecField_ne {b m : Nat} (hb : b + m ≤ a + off ∨ a + off + n ≤ b) :
    (s.setRecField seq layer off n v).rd b m = s.rd b m := by
  obtain ⟨hline, hthere⟩ := h.field hoff
  have hlen := leBytes_length n v
  rw [h.setRecField_eq]
  exact State.rd_wr_outside (by rw [hlen]; exact h0) (by rw [hlen]; exact hline) (by rw [hlen]; exact hthere) (h.field_up h0 hoff)
    (State.wf_mem hs) (by rw [hlen]; exact hb)

end

theorem dropWord_append {n : Nat} (h : dropWord n) : appendWord n := .inl (.inl h)

/-- LEN and LAST_POS of a record that has advanced. -/
theorem State.recHere.advanceRec_fields (h : s.recHere seq layer a) (hs : s.wf = true) {len pos : Nat} (hlen : len < 2 ^ 32) (hpos : pos < 2 ^ 32) :
    (s.advanceRec seq layer len pos).rd (a + 8) 4 = len ∧ (s.advanceRec seq layer len pos).rd (a + 0xC) 4 = pos := by
  have hk := s.setRecField_places seq layer 8 4 len
  have h' := h.kept hs (hk.mono dropWord_append)
  refine ⟨?_, h'.rd_setRecField_same (hk.wf hs) (by decide) (by decide) hpos⟩
  exact (h'.rd_setRecField_ne (hk.wf hs) (by decide) (by decide) (by omega)).trans (h.rd_setRecField_same hs (by decide) (by decide) hlen)

/-- The fields of a record as memory holds them. -/
theorem State.recAt.fields {r : KvRec} (h : s.recAt seq layer a r) : s.recFields a r.len r.lastPos r.spill := by
  obtain ⟨haddr, hr, -, -⟩ := h
  rw [State.kvRec, haddr] at hr
  obtain rfl := Option.some.inj hr
  exact ⟨s.rd_field (by decide), s.rd_field (by decide), s.rd_field (by decide)⟩

/-- The fields of a record after SPILL is written. -/
theorem State.recHere.setSpill_fields (h : s.recHere seq layer a) (hs : s.wf = true) {len pos n : Nat}
    (hlen : s.rd (a + 8) 4 = len) (hpos : s.rd (a + 0xC) 4 = pos) (hn : n < 2 ^ 16) :
    (s.setRecField seq layer 0x14 2 n).recFields a len pos n :=
  ⟨(h.rd_setRecField_ne hs (by decide) (by decide) (by omega)).trans hlen, (h.rd_setRecField_ne hs (by decide) (by decide) (by omega)).trans hpos,
    h.rd_setRecField_same hs (by decide) (by decide) hn⟩

end

end Sys2Proof.Machine
end

section
/-! APPEND at the end of a record, SPILL_DRAIN, and the time-outs of the wait for a page (10 R316 to R322). -/

namespace Sys2Proof.Machine

/-! ### What an append comes to (10 R316 to R319) -/

/-- A token that comes at the end of a record with no spilled token, its position above those before it (10 R307, R316). -/
structure State.atEnd (s : State) (t : Token) (r : KvRec) : Prop where
  record : s.kvRec t.seq t.layer = some r
  valid : r.valid = true
  unspilled : r.spill = 0
  held : s.spilled t.seq t.layer = []
  last : t.index = r.len
  bound : t.index < 4194304
  rises : r.len = 0 ∨ r.lastPos < t.pos

section
variable {s : State} {t : Token} {r : KvRec} {l : KvLay} {coarse pte ring : Nat}

/-- With no token held, a position is bad only at or below the record's last. -/
theorem State.atEnd.pos_ok (h : s.atEnd t r) : posBad r [] t.index t.pos = false := by
  have hlast := h.last
  simp only [posBad, List.filter_nil, List.getLast?_nil, List.find?_nil, Bool.or_false, Bool.and_eq_false_iff, bne_eq_false_iff_eq]
  exact h.rises.imp (fun h0 => by omega) fun hp => decide_eq_false (Nat.not_le.2 hp)

/-- Into the page that is there. -/
theorem State.kvAppend_page (h : s.atEnd t r) (hl : l = s.kvLay (kvHome t.seq) r.layout) {e page : Nat} (hm : t.index % 128 ≠ 0)
    (he : s.pte r.dir (t.index / 128) = some e) (hpage : page = s.pageAddr (kvHome t.seq) e) : s.kvAppend t
    = ((s.writeTok l page (t.encode l (s.pageCoarse page)).1).advanceRec t.seq t.layer (r.len + 1) t.pos,
        .placed (t.encode l (s.pageCoarse page)).2) := by
  simp [State.kvAppend, h.record, h.valid, h.unspilled, h.held, h.pos_ok, hm, he, hl, hpage, Nat.not_le.2 h.bound, ← h.last]

section
variable (h : s.atEnd t r) (hl : l = s.kvLay (kvHome t.seq) r.layout) (hring : ring = ringDie r t.die (t.index / 128)) (hm : t.index % 128 = 0)
  (hc : newPageCoarse t.fresh l.headroom = some coarse) (hp : s.pteAddr r.dir (t.index / 128) = some pte)
include h hl hring hm hc hp

/-- Into a page popped from the ring of its die. -/
theorem State.kvAppend_new (hr : s.ateReady ring = true) (hb : bit (s.rd pte 8) 63 = false) {n : State × Nat}
    (hn : n = s.takePage r (kvHome t.seq) t.seq t.layer (t.index / 128) pte ring coarse t.pos) : s.kvAppend t
    = (((n.1.writeTok l n.2 (t.encode l coarse).1).advanceRec t.seq t.layer (r.len + 1) t.pos).exhForget t, .placed (t.encode l coarse).2) := by
  subst hl hring hn
  simp [State.kvAppend, h.record, h.valid, h.unspilled, h.held, h.pos_ok, hm, hc, hp, hr, hb, Nat.not_le.2 h.bound, ← h.last]

/-- With no page to pop, into the spill slot, if it has room. -/
theorem State.kvAppend_exhausted (hr : s.ateReady ring = false) :
    s.kvAppend t = (s.exhaustedOnce t 0 ring).spillOr t r l coarse true := by
  subst hl hring
  simp [State.kvAppend, h.record, h.valid, h.unspilled, h.held, h.pos_ok, hm, hc, hp, hr, Nat.not_le.2 h.bound, ← h.last]

end
end

/-! ### Placed (10 R312, R317) -/

section
variable {s : State} {t : Token} {r : KvRec} {a : Nat}

/-- A token that is placed advances its record, whatever became of memory as its page was written. -/
theorem State.recHere.placed_fields {u : State} (h : s.recHere t.seq t.layer a) (hs : s.wf = true) (hu : placesKept appendWord u s)
    (hlen : t.index = r.len) (hb : t.index < 4194304) (hpos : t.pos < 2 ^ 32) :
    (u.advanceRec t.seq t.layer (r.len + 1) t.pos).rd (a + 8) 4 = r.len + 1 ∧
      (u.advanceRec t.seq t.layer (r.len + 1) t.pos).rd (a + 0xC) 4 = t.pos :=
  (h.kept hs hu).advanceRec_fields (hu.wf hs) (by omega) hpos

end

/-! ### Spilled (10 R318, R319, R339) -/

section
variable {s : State} {t : Token} {r : KvRec} {l : KvLay} {a coarse ring : Nat}

theorem regKey_ateExhCnt (die : Nat) : regKey .ateExhCnt die 0 % 2 ^ 28 = 0x100009 := regKey_ateDB (o := 0x24) (by decide) (by decide) (by decide) die
theorem regKey_ateExhLast (die : Nat) : regKey .ateExhLast die 0 % 2 ^ 28 = 0x100008 := regKey_ateDB (o := 0x20) (by decide) (by decide) (by decide) die
theorem regKey_ateRingHead (die : Nat) : regKey .ateRingHead die 0 % 2 ^ 28 = 0x100003 := regKey_ateDB (o := 0xC) (by decide) (by decide) (by decide) die

theorem State.ateRingHead_places (s : State) (die : Nat) (v : Word) : placesKept appendWord (s.setReg .ateRingHead die 0 v) s :=
  State.setReg_places s (.inr (.inl (regKey_ateRingHead die))) v

theorem State.ateEvent_mem (s : State) (die m : Nat) : (s.ateEvent die m).mem = s.mem := by
  simp only [State.ateEvent, State.irqBy]
  split_ifs <;> simp only [State.emit_mem, State.flag_mem]

/-- A page-exhausted event counts one more. -/
theorem State.pageExhausted_spec (s : State) (hs : s.wf = true) (seq layer cause ring : Nat) :
    placesKept appendWord (s.pageExhausted seq layer cause ring) s ∧ (s.pageExhausted seq layer cause ring).mem = s.mem ∧
      ((s.pageExhausted seq layer cause ring).reg .ateExhCnt ring).toNat = min ((s.reg .ateExhCnt ring).toNat + 1) 0xFFFFFFFF := by
  have hevent := s.pageExhausted_places seq layer cause ring
  have hlast : placesKept appendWord (s.setReg .ateExhLast ring 0 (exhLast seq layer cause ring)) s :=
    State.setReg_places s (.inr (.inr (.inl (regKey_ateExhLast ring)))) _
  have hcount := State.bump_places (K := appendWord) (s.setReg .ateExhLast ring 0 (exhLast seq layer cause ring))
    (.inr (.inr (.inr (regKey_ateExhCnt ring)))) 1
  refine ⟨(hevent.mono eventWord_append).trans (hcount.trans hlast), ?_, ?_⟩
  · rw [State.pageExhausted, State.ateEvent_mem, State.bump_mem, State.setReg_mem]
  · have hne : regKey .ateExhCnt ring 0 ≠ regKey .ateExhLast ring 0 := fun h => by
      have := regKey_ateExhCnt ring
      rw [h, regKey_ateExhLast] at this
      omega
    have hreg : (s.pageExhausted seq layer cause ring).reg .ateExhCnt ring = _ :=
      hevent.regs (hcount.wf (hlast.wf hs)) _ (by rw [regKey_ateExhCnt]; unfold eventWord dropWord; omega)
    rw [hreg]
    show ((State.bump _ .ateExhCnt ring 0 1).reg .ateExhCnt ring).toNat = _
    rw [State.bump, State.reg_setReg_same (hlast.wf hs), countUp_one_toNat, State.reg_setReg_ne hs _ _ _ _ _ _ _ hne]

/-- The exhaustion is counted once for a token. -/
theorem State.exhaustedOnce_spec (s : State) (hs : s.wf = true) (t : Token) (cause ring : Nat) :
    placesKept appendWord (s.exhaustedOnce t cause ring) s ∧ (s.exhaustedOnce t cause ring).mem = s.mem ∧
      ((s.exhaustedOnce t cause ring).reg .ateExhCnt ring).toNat = if (t.seq, t.layer, t.index) ∈ s.exhSeen
        then (s.reg .ateExhCnt ring).toNat else min ((s.reg .ateExhCnt ring).toNat + 1) 0xFFFFFFFF := by
  by_cases h : (t.seq, t.layer, t.index) ∈ s.exhSeen
  · simp only [State.exhaustedOnce, List.contains_iff_mem, h, if_true]
    exact ⟨.refl s, trivial, trivial⟩
  · simp only [State.exhaustedOnce, List.contains_iff_mem, h, if_false]
    exact s.pageExhausted_spec hs ..

theorem State.spillOr_room (h : (s.spillOf t.cluster).length < 16) (exh : Bool) :
    s.spillOr t r l coarse exh = ((s.exhForget t).spillTok t.cluster r (t.encode l coarse).1, .spilled (t.encode l coarse).2) := if_pos h

theorem State.spillOr_full (h : 16 ≤ (s.spillOf t.cluster).length) (exh : Bool) : (s.spillOr t r l coarse exh).2 = .full := by
  rw [State.spillOr, if_neg (Nat.not_lt.2 h)]

/-- A token put into a spill slot: the newest there, and one more in SPILL of its record. -/
theorem State.recHere.spillTok_spec {k : SpillTok} {len pos spill : Nat} (h : s.recHere k.seq k.layer a) (hs : s.wf = true) (cluster : Nat)
    (hf : s.recFields a len pos spill) (hr : r.spill + 1 < 2 ^ 16) : (s.spillTok cluster r k).spillOf cluster = s.spillOf cluster ++ [k] ∧
      (s.spillTok cluster r k).recFields a len pos (r.spill + 1) ∧
      ∀ die, (s.spillTok cluster r k).reg .ateExhCnt die = s.reg .ateExhCnt die := by
  have hput : (s.setSpill cluster (s.spillOf cluster ++ [k])).recHere k.seq k.layer a := ⟨h.addr, h.there, h.up⟩
  have hread : (s.setSpill cluster (s.spillOf cluster ++ [k])).recFields a len pos spill := hf
  have hslot := State.spillOf_setSpill_same hs cluster (s.spillOf cluster ++ [k])
  have hwf := State.setSpill_wf hs cluster (s.spillOf cluster ++ [k])
  have hregs (die : Nat) : (s.setSpill cluster (s.spillOf cluster ++ [k])).reg .ateExhCnt die = s.reg .ateExhCnt die := rfl
  unfold State.spillTok
  generalize s.setSpill cluster (s.spillOf cluster ++ [k]) = v at hput hread hslot hwf hregs ⊢
  obtain ⟨hlen, hpos, -⟩ := hread
  obtain ⟨hlen', hpos', hspill'⟩ := hput.setSpill_fields hwf hlen hpos hr
  have hrec := v.setRecField_places k.seq k.layer 0x14 2 (r.spill + 1)
  have hflag := State.flag_places (K := eventWord) (v.setRecField k.seq k.layer 0x14 2 (r.spill + 1)) (.inr (.inr (regKey_ateClSts cluster))) 2
  have hboth := hflag.trans (hrec.mono dropWord_event)
  refine ⟨(congrArg (tget dSpill · cluster) hboth.spills).trans hslot, ?_, fun die => ?_⟩
  · have hrd := fun b m => (hflag.mono eventWord_append).rd_eq (hrec.wf hwf) (State.flag_mem ..) b m
    exact ⟨(hrd ..).trans hlen', (hrd ..).trans hpos', (hrd ..).trans hspill'⟩
  · exact (hboth.regs hwf _ (by rw [regKey_ateExhCnt]; unfold eventWord dropWord; omega)).trans (hregs die)

end

/-! ### SPILL_DRAIN (10 R320) -/

section
variable {s : State} {cluster a : Nat} {k : SpillTok} {rest : List SpillTok} {r : KvRec} (hk : s.spillOf cluster = k :: rest)
  (hr : s.kvRec k.seq k.layer = some r)
include hk hr

/-- A token out of turn stays. -/
theorem exec_spillDrain_early (h : r.len ≠ k.index) : exec (.spillDrain cluster) s = .next s := by
  show execSpillDrain cluster s = _
  simp [execSpillDrain, State.drainOne, hk, hr, h]

/-- The oldest token of a cluster goes into the page that is there. -/
theorem exec_spillDrain_page (hv : r.valid = true) (hd : s.dieDown (kvHome k.seq) = false) (hm : k.index % 128 ≠ 0) {e page : Nat}
    (he : s.pte r.dir (k.index / 128) = some e) (hpage : page = s.pageAddr (kvHome k.seq) e) (h : r.len = k.index) :
    exec (.spillDrain cluster) s = .next ((((((s.writeTok (s.kvLay (kvHome k.seq) r.layout) page k).advanceRec k.seq k.layer (r.len + 1) k.pos).setRecField
      k.seq k.layer 0x14 2 (r.spill - 1)).setSpill cluster rest).wakeSpill k.region k.item)) := by
  show execSpillDrain cluster s = _
  simp [execSpillDrain, State.drainOne, hk, hr, hv, hd, hm, he, hpage, h]

end

/-- Waking items changes items alone. -/
theorem State.wakeSpill_items (s : State) (region item : Nat) : ∃ items, s.wakeSpill region item = { s with items := items } := by
  unfold State.wakeSpill
  split <;> exact ⟨_, rfl⟩

/-! ### Waits that are over (10 R321, R322) -/

section
variable {s : State} {region slot : Nat} {x : Item} (hx : s.item region slot = some x) (hw : s.pageWaitOver region x = true)
include hx hw

theorem exec_pageWaitTimeout (hst : x.stage = .finished ∨ x.stage = .running) (hr : s.isReeve x = true) (hs : s.itemSpills region x.count ≠ []) :
    exec (.pageWaitTimeout region slot) s = .next ((((s.bump .ateWaitCnt (regionDie region) 0 1).finishStopped region slot
      { x with waitCyc := none, wrote := true } stPageWait (s.pageWaitDetail region x none)).showItem x region x.units).settle) := by
  have hstage : (x.stage == .finished || x.stage == .running) = true := by simpa using hst
  show execPageWaitTimeout region slot s = _
  simp [execPageWaitTimeout, hx, hw, hr, hs, hstage]

theorem exec_pinWaitTimeout {r : KvRec} (hst : x.stage = .ready) (he : x.engine = 4) (hp : x.pin = none)
    (hr : s.kvRec (x.opnd 0x6C 2) x.layer = some r) (hs : r.spill ≠ 0) :
    exec (.pinWaitTimeout region slot) s = .next (((s.bump .ateWaitCnt (regionDie region) 0 1).finish region slot
      { x with waitCyc := none, res := { statuses := [(stPageWait, x.opnd 0x6C 2 * 2 ^ 16)], partialOut := true } }).settle) := by
  show execPinWaitTimeout region slot s = _
  simp [execPinWaitTimeout, hx, hw, hst, he, hp, hr, hs]

end

/-- A row of the item whose token is spilled. -/
def State.rowSpilled (s : State) (region : Nat) (x : Item) (m : Nat) : Prop :=
  ∃ t ∈ s.itemSpills region x.count, t.seq = (s.reeveRow x m).seq ∧ t.index = (s.reeveRow x m).index

/-- The DETAIL of a wait that is over names the first row that is not placed, and how many tokens are spilled. -/
theorem State.pageWaitDetail_first {s : State} {region m : Nat} {x : Item} (hm : m < x.twn.m) (h : s.rowSpilled region x m)
    (hfirst : ∀ j < m, ¬ s.rowSpilled region x j) :
    s.pageWaitDetail region x none = (s.reeveRow x m).seq * 2 ^ 16 + (s.itemSpills region x.count).length := by
  have hopen (j : Nat) : (none == some ((s.reeveRow x j).seq, (s.reeveRow x j).index) || (s.itemSpills region x.count).any fun t =>
      t.seq == (s.reeveRow x j).seq && t.index == (s.reeveRow x j).index) = true ↔ s.rowSpilled region x j := by
    simp [State.rowSpilled]
  have hfind : (List.range x.twn.m).find? (fun j => none == some ((s.reeveRow x j).seq, (s.reeveRow x j).index) ||
      (s.itemSpills region x.count).any fun t => t.seq == (s.reeveRow x j).seq && t.index == (s.reeveRow x j).index) = some m := by
    refine List.find?_range_eq_some.2 ⟨(hopen m).2 h, List.mem_range.2 hm, fun j hj => ?_⟩
    rw [Bool.not_eq_true', ← Bool.not_eq_true]
    exact mt (hopen j).1 (hfirst j hj)
  unfold State.pageWaitDetail
  dsimp only
  rw [hfind]

end Sys2Proof.Machine
end

section
/-! Appends that place or spill their token, drains, and the end of a wait, in the words of 10 R316 to R322. -/

namespace Sys2Proof.Machine

/-! ### Appends -/

theorem State.recAt.spill_lt {s : State} {seq layer a : Nat} {r : KvRec} (h : s.recAt seq layer a r) : r.spill < 2 ^ 16 := by
  obtain ⟨haddr, hr, -, -⟩ := h
  rw [State.kvRec, haddr] at hr
  obtain rfl := Option.some.inj hr
  exact fld_lt _ 0x14 2

section
variable {s : State} {t : Token} {r : KvRec} {a : Nat} (hs : s.wf = true) (hrec : s.recAt t.seq t.layer a r) (h : s.atEnd t r)
include hs hrec h

/-- A token whose page is there is placed (10 R316, R317). -/
theorem State.atEnd.append_page (hpos : t.pos < 2 ^ 32) {e : Nat} (hm : t.index % 128 ≠ 0) (he : s.pte r.dir (t.index / 128) = some e) :
    ∃ (u : State) (c : Counts), s.kvAppend t = (u, .placed c) ∧ u.rd (a + 8) 4 = r.len + 1 ∧ u.rd (a + 0xC) 4 = t.pos :=
  ⟨_, _, State.kvAppend_page h rfl hm he rfl,
    hrec.here.placed_fields hs ((State.writeTok_places ..).mono dropWord_append) h.last h.bound hpos⟩

section
variable {coarse pte ring : Nat} (hm : t.index % 128 = 0)
  (hc : newPageCoarse t.fresh (s.kvLay (kvHome t.seq) r.layout).headroom = some coarse)
  (hring : ring = ringDie r t.die (t.index / 128)) (hp : s.pteAddr r.dir (t.index / 128) = some pte)
include hm hc hring hp

/-- A token that begins a page is placed in one popped from the ring of its die (10 R317). -/
theorem State.atEnd.append_new (hpos : t.pos < 2 ^ 32) (hr : s.ateReady ring = true) (hb : bit (s.rd pte 8) 63 = false) :
    ∃ (u : State) (c : Counts), s.kvAppend t = (u, .placed c) ∧ u.rd (a + 8) 4 = r.len + 1 ∧ u.rd (a + 0xC) 4 = t.pos ∧
      u.reg .ateRingHead ring = s.reg .ateRingHead ring + 1 := by
  obtain ⟨n, hn⟩ : ∃ n, n = s.takePage r (kvHome t.seq) t.seq t.layer (t.index / 128) pte ring coarse t.pos := ⟨_, rfl⟩
  have htake : placesKept eventWord n.1 (s.setReg .ateRingHead ring 0 (s.reg .ateRingHead ring + 1)) := hn ▸ State.takePage_places ..
  have hwrite (k : SpillTok) : placesKept eventWord (n.1.writeTok (s.kvLay (kvHome t.seq) r.layout) n.2 k)
      (s.setReg .ateRingHead ring 0 (s.reg .ateRingHead ring + 1)) := ((State.writeTok_places ..).mono dropWord_event).trans htake
  obtain ⟨hlen, hlast⟩ := hrec.here.placed_fields hs (((hwrite (t.encode (s.kvLay (kvHome t.seq) r.layout) coarse).1).mono eventWord_append).trans
    (s.ateRingHead_places ring _)) h.last h.bound hpos
  refine ⟨_, _, State.kvAppend_new h rfl hring hm hc hp hr hb hn, hlen, hlast, ?_⟩
  exact ((((State.exhForget_places ..).trans ((State.advanceRec_places ..).mono dropWord_event)).trans (hwrite _)).regs (State.setReg_wf hs ..) _
    (by rw [regKey_ateRingHead]; unfold eventWord dropWord; omega)).trans (State.reg_setReg_same hs ..)

/-- With no page to pop it goes into the spill slot of its cluster (10 R318, R319). -/
theorem State.atEnd.append_spilled (hr : s.ateReady ring = false) (hroom : (s.spillOf t.cluster).length < 16) :
    ∃ (u : State) (c : Counts) (k : SpillTok), s.kvAppend t = (u, .spilled c) ∧ u.spillOf t.cluster = s.spillOf t.cluster ++ [k] ∧
      k.seq = t.seq ∧ k.layer = t.layer ∧ k.index = t.index ∧ k.pos = t.pos ∧ k.coarse = coarse ∧
      u.recFields a r.len r.lastPos 1 ∧ (u.reg .ateExhCnt ring).toNat = (if (t.seq, t.layer, t.index) ∈ s.exhSeen
        then (s.reg .ateExhCnt ring).toNat else min ((s.reg .ateExhCnt ring).toNat + 1) 0xFFFFFFFF) := by
  obtain ⟨hplaces, hmem, hcount⟩ := s.exhaustedOnce_spec hs t 0 ring
  have hforget := ((s.exhaustedOnce t 0 ring).exhForget_places (K := appendWord) t).trans hplaces
  have hslot : ((s.exhaustedOnce t 0 ring).exhForget t).spillOf t.cluster = s.spillOf t.cluster := congrArg (tget dSpill · t.cluster) hforget.spills
  have hfields : ((s.exhaustedOnce t 0 ring).exhForget t).recFields a r.len r.lastPos r.spill := by
    simpa only [State.recFields, hforget.rd_eq hs hmem] using hrec.fields
  obtain ⟨hput, hfields', hregs⟩ := State.recHere.spillTok_spec (k := (t.encode (s.kvLay (kvHome t.seq) r.layout) coarse).1)
    (hrec.here.kept hs hforget) (hforget.wf hs) t.cluster hfields (by rw [h.unspilled]; decide)
  rw [hslot] at hput
  rw [h.unspilled] at hfields'
  have hroom' : ((s.exhaustedOnce t 0 ring).spillOf t.cluster).length < 16 := by
    rwa [show (s.exhaustedOnce t 0 ring).spillOf t.cluster = s.spillOf t.cluster from hslot]
  exact ⟨_, _, _, (State.kvAppend_exhausted h rfl hring hm hc hp hr).trans (State.spillOr_room hroom' true), hput, rfl, rfl, rfl, rfl, rfl, hfields',
    (congrArg BitVec.toNat (hregs ring)).trans hcount⟩

omit hrec in
/-- A full spill slot takes no more. -/
theorem State.atEnd.append_full (hr : s.ateReady ring = false) (hfull : 16 ≤ (s.spillOf t.cluster).length) : (s.kvAppend t).2 = .full := by
  obtain ⟨hplaces, -, -⟩ := s.exhaustedOnce_spec hs t 0 ring
  rw [State.kvAppend_exhausted h rfl hring hm hc hp hr]
  exact State.spillOr_full (hfull.trans_eq (congrArg (fun m => (tget dSpill m t.cluster).length) hplaces.spills.symm)) true

end
end

/-! ### Drains -/

/-- The slot of a cluster without its oldest token, items woken: the other slots and what memory holds are as they were. -/
theorem State.drained_spec {v w : State} (hv : v.wf = true) {cluster region item : Nat} {rest : List SpillTok}
    (hw : w = (v.setSpill cluster rest).wakeSpill region item) : w.spillOf cluster = rest ∧ (∀ c, c ≠ cluster → w.spillOf c = v.spillOf c) ∧
      ∀ {a len pos spill}, v.recFields a len pos spill → w.recFields a len pos spill := by
  obtain ⟨items, hitems⟩ := (v.setSpill cluster rest).wakeSpill_items region item
  rw [hw, hitems]
  exact ⟨State.spillOf_setSpill_same hv .., fun c hc => State.spillOf_setSpill_ne hv cluster rest c hc, id⟩

/-- A token that is drained: its record holds it, and the others of its cluster stay. -/
theorem exec_spillDrain_spec {s : State} {cluster a e : Nat} {k : SpillTok} {rest : List SpillTok} {r : KvRec} (hs : s.wf = true)
    (hk : s.spillOf cluster = k :: rest) (hrec : s.recAt k.seq k.layer a r) (hv : r.valid = true) (hd : s.dieDown (kvHome k.seq) = false)
    (hm : k.index % 128 ≠ 0) (he : s.pte r.dir (k.index / 128) = some e) (h : r.len = k.index) (hb : k.index < 4194304)
    (hpos : k.pos < 2 ^ 32) : ∃ t : State, exec (.spillDrain cluster) s = .next t ∧ t.spillOf cluster = rest ∧
      t.recFields a (r.len + 1) k.pos (r.spill - 1) ∧ ∀ c, c ≠ cluster → t.spillOf c = s.spillOf c := by
  obtain ⟨haddr, hr, hthere, hup⟩ := id hrec
  obtain ⟨u, hu⟩ : ∃ u, u = s.writeTok (s.kvLay (kvHome k.seq) r.layout) (s.pageAddr (kvHome k.seq) e) k := ⟨_, rfl⟩
  have hwrite : placesKept dropWord u s := hu ▸ State.writeTok_places ..
  have hthis := hrec.here.kept hs (hwrite.mono dropWord_append)
  have hadv := (State.advanceRec_places u k.seq k.layer (r.len + 1) k.pos).trans hwrite
  obtain ⟨hlen, hlast⟩ := hthis.advanceRec_fields (hwrite.wf hs) (len := r.len + 1) (by omega) hpos
  have hfields := (hrec.here.kept hs (hadv.mono dropWord_append)).setSpill_fields (hadv.wf hs) hlen hlast
    (Nat.lt_of_le_of_lt (Nat.sub_le r.spill 1) hrec.spill_lt)
  have hrecord := (State.setRecField_places _ k.seq k.layer 0x14 2 (r.spill - 1)).trans hadv
  obtain ⟨hslot, hothers, hkept⟩ := State.drained_spec (hrecord.wf hs) (cluster := cluster) (region := k.region) (item := k.item) (rest := rest) rfl
  subst hu
  exact ⟨_, exec_spillDrain_page hk hr hv hd hm he rfl h, hslot, hkept hfields,
    fun c hc => (hothers c hc).trans (congrArg (tget dSpill · c) hrecord.spills)⟩

/-! ### The obligation -/

/-- Settles O37: an append and a drain leave the map and the place of records as they were, so each field they write reads back. -/
theorem appendsPlaceOrSpillTokensWhichDrain : Obligations.AppendsPlaceOrSpillTokensWhichDrain := by
  unfold Obligations.AppendsPlaceOrSpillTokensWhichDrain
  refine ⟨fun s t a r hs hrec hv h0 hheld hlast hb hpos hrises => ?_, fun s cluster a e k rest r hs hk hrec hv hd hm he => ?_,
    fun s region slot x hx hw => ?_⟩
  · obtain ⟨-, hr, -, -⟩ := id hrec
    have h : s.atEnd t r := ⟨hr, hv, h0, hheld, hlast, hb, hrises⟩
    refine ⟨fun e hm he => h.append_page hs hrec hpos hm he, fun coarse pte ring hm hc hring hp _ => ⟨?_, ?_, ?_⟩⟩
    · exact h.append_new hs hrec hm hc hring hp hpos
    · exact h.append_spilled hs hrec hm hc hring hp
    · exact h.append_full hs hm hc hring hp
  · obtain ⟨-, hr, -, -⟩ := id hrec
    exact ⟨exec_spillDrain_spec hs hk hrec hv hd hm he, exec_spillDrain_early hk hr⟩
  · refine ⟨fun d hd hst hreeve hspills => ⟨?_, fun m hm h hfirst => ?_⟩, fun r hst he hp hr hne => ?_⟩
    · subst hd
      exact exec_pageWaitTimeout hx hw hst hreeve hspills
    · refine hd.trans (State.pageWaitDetail_first hm h fun j hj ⟨t, ht, hseq, hindex⟩ => ?_)
      exact (hfirst j hj t ht).elim (· hseq) (· hindex)
    · exact exec_pinWaitTimeout hx hw hst he hp hr hne

end Sys2Proof.Machine
end

section
/-! Elements of HBM that are written at their controller (12 R373 to R384), and what a record of an error leaves in its place (14 R463). -/

namespace Sys2Proof.Machine

/-! ### The lines of a page of HBM (12 R373 to R375) -/

section
variable {s : State} {a b p q : Nat}

theorem State.pageStart_aligned (s : State) (n : Nat) : s.pageStart n % 64 = 0 := by
  unfold State.pageStart State.stackBytes State.localBytes
  dsimp only
  split_ifs <;> omega

/-- HBM is populated in whole pages. -/
theorem State.place_isSome_samePage (hbm : a < 2 ^ 41) (ha : s.place a = some p) (hpage : b / 4096 = a / 4096) : (s.place b).isSome = true := by
  have hstack : s.stackBytes % 4096 = 0 := by unfold State.stackBytes; split <;> decide
  have hlocal (k : Nat) : s.localBytes k % 4096 = 0 := by unfold State.localBytes; omega
  obtain ⟨hlo, -, hroom⟩ | ⟨hlo, -, d, c, k, hd, hc, hk, -, hroom⟩ | ⟨hlo, -⟩ | ⟨hlo, -⟩ := State.place_window ha
  · have := hlocal (foldPage4 (a / 4096))
    simp only [State.place]
    rw [if_pos (by omega), hpage, if_pos (by omega)]
    rfl
  · have := hlocal k
    have hdie : (b - 2 ^ 40) / 2 ^ 38 = d := by omega
    have hlocalPage : (b - 2 ^ 40) % 2 ^ 38 / 4096 = c / 4096 := by omega
    simp only [State.place]
    rw [if_neg (by omega), if_pos (by omega), hdie, hlocalPage, ← hk, if_pos (by omega)]
    rfl
  · omega
  · omega

/-- A line begins where its physical line does. -/
theorem State.place_lineStart (ha : s.place a = some p) (hq : s.place (a / 64 * 64) = some q) : q / 64 = p / 64 := by
  have hpage := State.place_page hq
  have haligned := s.pageStart_aligned (a / 64 * 64 / 4096)
  have hp : p = q + a % 64 := State.place_add_inLine (i := a % 64) (by omega) hq (by rw [Nat.div_add_mod' a 64]; exact ha)
  omega

end

/-! ### Poisoned data (12 R384) -/

/-- A line that poisoned data is written to carries the marking. -/
theorem Mem.marked_writeLine_bad {m : Mem} (h : m.wf = true) (p : Nat) (bs : List Byte) : (m.writeLine p bs true).marked (p / 64) = true := by
  have hmark : (m.writeLine p bs true).poisonAt (p / 64) = true :=
    Mem.poisonAt_setPoison_same (Mem.setBytes_wf h p bs) (p / 64) true
  rw [Mem.marked, hmark, Bool.true_or]

theorem State.poisoned_of_marked {s : State} {a q : Nat} (hq : s.place a = some q) (hm : s.mem.marked (q / 64) = true) : s.poisoned a = true := by
  simp [State.poisoned, hq, hm]

/-- Bytes whose first line reads poisoned read poisoned. -/
theorem State.poisonedIn_of_first {s : State} {a n : Nat} (hn : 0 < n) (h : s.poisoned (a / 64 * 64) = true) : s.poisonedIn a n = true := by
  simp only [State.poisonedIn, Bool.and_eq_true, bne_iff_ne, List.any_eq_true, List.mem_range]
  exact ⟨Nat.ne_of_gt hn, 0, Nat.succ_pos _, h⟩

/-! ### Words beside MEM_MAP (12 R373) -/

/-- Words of a die that are not MEM_MAP of one of its stacks, which lie 0x8000 words apart. -/
def besideMap (n : Nat) : Prop := n % 0x8000 ≠ 2

theorem dropWord_besideMap {n : Nat} (h : dropWord n) : besideMap n := by
  unfold dropWord at h
  unfold besideMap
  omega

/-- What leaves MEM_MAP and the far tier's devices leaves each address in its place. -/
theorem placesKept.place_eq_of_besideMap {t s : State} (h : placesKept besideMap t s) (hs : s.wf = true) (a : Nat) : t.place a = s.place a := by
  have hlocal (k : Nat) : t.localBytes k = s.localBytes k := by
    have hoff : (regDef .memMap).off = 8 := by decide
    have hkey : ¬ besideMap (regKey .memMap k 0 % 2 ^ 28) := by rw [regKey_memMap, hoff]; unfold besideMap; omega
    have hreg : t.reg .memMap k = s.reg .memMap k := h.regs hs _ hkey
    rw [State.localBytes, hreg]; rfl
  simp only [State.place, State.farPort, State.stackBytes, hlocal, h.small, h.far0, h.far1, h.interleave]
  rfl

theorem placesKept.rdByte_eq {t s : State} (h : placesKept besideMap t s) (hs : s.wf = true) (hm : t.mem = s.mem) (a : Nat) :
    t.rdByte a = s.rdByte a := by
  simp only [State.rdByte, h.place_eq_of_besideMap hs, hm]

/-! ### A record of a deferred error (14 R461 to R466) -/

section
variable (s : State) (die : Nat)

theorem besideMap_errB {r : Reg} {o : Nat} (hb : (regDef r).blk = .errB) (ho : (regDef r).off = 4 * o) (hne : besideMap o) (hlt : o < 0x4000) :
    besideMap (regKey r die 0 % 2 ^ 28) := by
  have hkey : regKey r die 0 % 2 ^ 28 = o := by
    simp only [regKey, regPlace, hb, ho, blkBase, offKey]
    omega
  rwa [hkey]

theorem State.setErrDie_places (K : Nat → Prop) (e : ErrDie) : placesKept K (s.setErrDie die e) s :=
  ⟨fun hs => State.setErrDie_wf hs .., rfl, rfl, rfl, rfl, rfl, fun _ _ _ => rfl⟩

/-- A record put into a die's ring, or lost there: the next SEQ is one more, and the controller's copy has it first. -/
theorem State.errPut_eq (r : ErrRec) : ∃ e : ErrDie, e.seq = (s.errDie die).seq + 1 ∧ e.copy.head? = some r ∧
    (s.errPut die r = (s.setErrDie die e).bump .errLostCnt die 0 1 ∨ s.errPut die r = (s.setErrDie die e).flag .errSts die 0 1) := by
  by_cases hfull : s.errFull die = true
  · refine ⟨_, ?_, ?_, .inl (if_pos hfull)⟩ <;> rfl
  · refine ⟨_, ?_, ?_, .inr (if_neg hfull)⟩ <;> rfl

theorem State.errPut_places (r : ErrRec) : placesKept besideMap (s.errPut die r) s := by
  have hlost : besideMap (regKey .errLostCnt die 0 % 2 ^ 28) := besideMap_errB die (o := 4) (by decide) (by decide) (by simp [besideMap]) (by decide)
  have hsts : besideMap (regKey .errSts die 0 % 2 ^ 28) := besideMap_errB die (o := 1) (by decide) (by decide) (by simp [besideMap]) (by decide)
  obtain ⟨e, -, -, hput | hput⟩ := s.errPut_eq die r <;> rw [hput]
  · exact (State.bump_places _ hlost 1).trans (State.setErrDie_places ..)
  · exact (State.flag_places _ hsts 1).trans (State.setErrDie_places ..)

theorem State.errPut_mem (r : ErrRec) : (s.errPut die r).mem = s.mem := by
  obtain ⟨e, -, -, hput | hput⟩ := s.errPut_eq die r <;> rw [hput]
  · rw [State.bump_mem, State.setErrDie_mem]
  · rw [State.flag_mem, State.setErrDie_mem]

theorem State.errPut_errDie {s : State} (hs : s.wf = true) (die : Nat) (r : ErrRec) :
    ((s.errPut die r).errDie die).seq = (s.errDie die).seq + 1 ∧ ((s.errPut die r).errDie die).copy.head? = some r := by
  obtain ⟨e, hseq, hcopy, hput⟩ := s.errPut_eq die r
  have he : (s.errPut die r).errDie die = e := by
    refine Eq.trans ?_ (State.errDie_setErrDie_same hs die e)
    obtain hput | hput := hput <;> rw [hput]
    · exact congrArg (tget dErr · die) (State.bump_err ..)
    · exact congrArg (tget dErr · die) (State.flag_err ..)
  rw [he]
  exact ⟨hseq, hcopy⟩

theorem State.irqBy_mem_err (cfg : Word) (cause detail : Nat) :
    (s.irqBy cfg cause detail).mem = s.mem ∧ (s.irqBy cfg cause detail).err = s.err := by
  rw [State.irqBy]
  split_ifs
  · exact ⟨State.emit_mem .., State.emit_err ..⟩
  · exact ⟨rfl, rfl⟩

/-- The record of an event of now (14 R461). -/
def State.eventRec (s : State) (die src sev level action index gen payload : Nat) : ErrRec :=
  ⟨s.lay.now, (s.errDie die).seq.toNat, src, sev, level, action, index, gen, payload⟩

/-- A deferred error is put into its die's ring; an interrupt may tell of it. -/
theorem State.record_deferred (src level action index gen payload : Nat) {t : State}
    (ht : t = s.errPut die (s.eventRec die src sevDeferred level action index gen payload)) :
    s.record die src sevDeferred level action index gen payload = t.irqBy (t.reg .errEvtCfg die) causeError die ∨
      s.record die src sevDeferred level action index gen payload = t := by
  have hcorrected : (sevDeferred == 0) = false := rfl
  have hrecover : ¬ 2 ≤ sevDeferred := by decide
  simp only [ht, State.eventRec, State.record, hcorrected, hrecover, Bool.false_and, Bool.false_eq_true, if_false]
  exact ite_eq_or_eq ..

variable {s} in
/-- What such a record leaves: one record more at its die, and memory where it was and as it was. -/
theorem State.record_deferred_spec (hs : s.wf = true) (src level action index gen payload : Nat) {t : State}
    (ht : t = s.record die src sevDeferred level action index gen payload) :
    t.recorded s die src 1 ∧ placesKept besideMap t s ∧ t.mem = s.mem := by
  obtain ⟨hseq, hcopy⟩ := State.errPut_errDie hs die (s.eventRec die src sevDeferred level action index gen payload)
  have hplaces := s.errPut_places die (s.eventRec die src sevDeferred level action index gen payload)
  have hmem := s.errPut_mem die (s.eventRec die src sevDeferred level action index gen payload)
  have hput := s.record_deferred die src level action index gen payload rfl
  rw [← ht] at hput
  generalize s.errPut die _ = u at hput hseq hcopy hplaces hmem
  obtain rfl | rfl := hput
  · obtain ⟨hirqMem, hirqErr⟩ := u.irqBy_mem_err (u.reg .errEvtCfg die) causeError die
    have herr : (u.irqBy (u.reg .errEvtCfg die) causeError die).errDie die = u.errDie die := congrArg (tget dErr · die) hirqErr
    refine ⟨?_, (State.irqBy_places ..).trans hplaces, hirqMem.trans hmem⟩
    rw [State.recorded, herr]
    exact ⟨hseq, _, hcopy, rfl, rfl⟩
  · exact ⟨⟨hseq, _, hcopy, rfl, rfl⟩, hplaces, hmem⟩

end

end Sys2Proof.Machine
end

section
/-! A near-memory operation (11 R362, R367, R368, R371; 14 R460, R475): where it is held or lost, and what it writes, counts
and tells where it is applied. -/

namespace Sys2Proof.Machine

/-- An operation that its controller takes: a TYPE and an OP that are defined, on an aligned element of stack `k`. -/
structure State.nmFits (s : State) (op : NmOp) (k : Nat) : Prop where
  type_le : op.ty ≤ 4
  op_le : op.op ≤ 2
  aligned : op.addr % nmBytes op.ty = 0
  stack : s.stackOf op.addr = some k

/-! ### The element (11 R362) -/

section
variable {s : State} {op : NmOp} {k : Nat}

theorem nmBytes_values (ty : Nat) : nmBytes ty = 2 ∨ nmBytes ty = 4 ∨ nmBytes ty = 8 ∨ nmBytes ty = 16 := by
  match ty with
  | 0 | 1 | 2 | 3 | 4 => decide
  | n + 5 => exact .inr (.inr (.inr rfl))

theorem nmBytes_pos (ty : Nat) : 0 < nmBytes ty := by
  have := nmBytes_values ty
  omega

variable (h : s.nmFits op k)
include h

theorem State.nmFits.hbm : op.addr < 2 ^ 41 := by
  by_contra hfar
  have hstack := h.stack
  rw [State.stackOf, isHbm, decide_eq_false hfar] at hstack
  cases hstack

theorem State.nmFits.place : ∃ p, s.place op.addr = some p := by
  have hstack := h.stack
  rw [State.stackOf, isHbm, decide_eq_true h.hbm, if_pos rfl] at hstack
  obtain ⟨p, hp, -⟩ := Option.map_eq_some_iff.1 hstack
  exact ⟨p, hp⟩

theorem State.nmFits.up : s.farDown op.addr = false := by
  have := h.hbm
  rw [State.farDown, decide_eq_false (by omega), Bool.false_and, Bool.false_and]

/-- An aligned element lies in one line. -/
theorem State.nmFits.inLine : op.addr % 64 + nmBytes op.ty ≤ 64 := by
  have haligned := h.aligned
  obtain hn | hn | hn | hn := nmBytes_values op.ty <;> rw [hn] at haligned ⊢ <;> omega

theorem State.nmFits.there : ∀ i < nmBytes op.ty, (s.place (op.addr + i)).isSome = true := by
  intro i hi
  obtain ⟨p, hp⟩ := h.place
  have := h.inLine
  exact State.place_isSome_samePage h.hbm hp (by omega)

theorem State.nmFits.lineStart : ∃ q, s.place (op.addr / 64 * 64) = some q := by
  obtain ⟨p, hp⟩ := h.place
  exact Option.isSome_iff_exists.1 (State.place_isSome_samePage h.hbm hp (by omega))

end

/-! ### The counters at its stack (11 R368) -/

/-- Operations and their saturations as the controller of stack `k` counts them. -/
def State.nmCounted (s : State) (k : Nat) (sat : Bool) : State :=
  if sat then ((s.bump .halNmCnt k 0 1).bump .halNmSatCnt k 0 1).flag .halSts k 0 2 else s.bump .halNmCnt k 0 1

section
variable (s : State) (k : Nat) (sat : Bool)

theorem regKey_halB {r : Reg} {o : Nat} (hb : (regDef r).blk = .halB) (ho : (regDef r).off = 4 * o) :
    regKey r k 0 = k / 4 * 2 ^ 28 + (0x14000 + k % 4 * 0x8000 + o) := by
  simp only [regKey, regPlace, hb, ho, blkBase, stackDie, offKey]
  omega

theorem regKey_halSts : regKey .halSts k 0 = k / 4 * 2 ^ 28 + (0x14000 + k % 4 * 0x8000 + 1) := regKey_halB k (by decide) (by decide)
theorem regKey_halNmCnt : regKey .halNmCnt k 0 = k / 4 * 2 ^ 28 + (0x14000 + k % 4 * 0x8000 + 6) := regKey_halB k (by decide) (by decide)
theorem regKey_halNmSatCnt : regKey .halNmSatCnt k 0 = k / 4 * 2 ^ 28 + (0x14000 + k % 4 * 0x8000 + 7) := regKey_halB k (by decide) (by decide)

theorem State.nmCounted_regs : regsFrom (s.nmCounted k sat) s := by
  unfold State.nmCounted
  split
  · exact (State.flag_regs ..).trans ((State.bump_regs ..).trans (State.bump_regs ..))
  · exact State.bump_regs ..

theorem State.nmCounted_places : placesKept besideMap (s.nmCounted k sat) s := by
  have hcnt := State.bump_places (K := besideMap) s (r := .halNmCnt) (i := k) (e := 0) (by rw [regKey_halNmCnt]; unfold besideMap; omega) 1
  refine .ite ?_ hcnt
  refine (State.flag_places _ (by rw [regKey_halSts]; unfold besideMap; omega) 2).trans ((State.bump_places _ ?_ 1).trans hcnt)
  rw [regKey_halNmSatCnt]; unfold besideMap; omega

variable {s} (hs : s.wf = true)
include hs

theorem State.nmCounted_ops : ((s.nmCounted k sat).reg .halNmCnt k).toNat = min ((s.reg .halNmCnt k).toNat + 1) 0xFFFFFFFF := by
  have hsts : regKey .halNmCnt k 0 ≠ regKey .halSts k 0 := by rw [regKey_halNmCnt, regKey_halSts]; omega
  have hsat : regKey .halNmCnt k 0 ≠ regKey .halNmSatCnt k 0 := by rw [regKey_halNmCnt, regKey_halNmSatCnt]; omega
  have hone := State.bump_wf hs .halNmCnt k 0 1
  rw [← countUp_one_toNat, ← State.reg_setReg_same hs .halNmCnt k 0 (countUp (s.reg .halNmCnt k) 1), State.nmCounted]
  split_ifs
  · rw [State.flag, State.reg_setReg_ne (State.bump_wf hone ..) _ _ _ _ _ _ _ hsts, State.bump, State.reg_setReg_ne hone _ _ _ _ _ _ _ hsat]
    rfl
  · rfl

theorem State.nmCounted_saturations : ((s.nmCounted k true).reg .halNmSatCnt k).toNat = min ((s.reg .halNmSatCnt k).toNat + 1) 0xFFFFFFFF := by
  have hsts : regKey .halNmSatCnt k 0 ≠ regKey .halSts k 0 := by rw [regKey_halNmSatCnt, regKey_halSts]; omega
  have hcnt : regKey .halNmSatCnt k 0 ≠ regKey .halNmCnt k 0 := by rw [regKey_halNmCnt, regKey_halNmSatCnt]; omega
  have hone := State.bump_wf hs .halNmCnt k 0 1
  rw [State.nmCounted, if_pos rfl, State.flag, State.reg_setReg_ne (State.bump_wf hone ..) _ _ _ _ _ _ _ hsts, State.bump,
    State.reg_setReg_same hone, countUp_one_toNat, State.bump, State.reg_setReg_ne hs _ _ _ _ _ _ _ hcnt]

end

/-! ### The operation at its controller (11 R362, R367; 14 R460) -/

/-- The code that a result is written as: a LONG128 of poisoned data is NaR (04 R156). -/
def nmCode (ty : Nat) (bad : Bool) (code : Nat) : Nat := if bad && ty == 4 then 2 ^ 127 else code

/-- The element's poison: its operand's, a residue mismatch, or the target's. -/
def State.nmBad (s : State) (op : NmOp) : Bool := op.poisoned || op.residue || s.poisonedIn op.addr (nmBytes op.ty)

/-- The operation's result on the element as it stands. -/
def State.nmValue (s : State) (op : NmOp) : Nat × Bool :=
  nmResult op.ty op.op (s.rd op.addr (nmBytes op.ty)) (op.value % 2 ^ (8 * nmBytes op.ty))

theorem State.nmCode_plain (s : State) {op : NmOp} (hr : op.residue = false) : nmCode op.ty (s.nmBad op) (s.nmValue op).1
    = if (op.poisoned = true ∨ s.poisonedIn op.addr (nmBytes op.ty) = true) ∧ op.ty = 4 then 2 ^ 127 else (s.nmValue op).1 := by
  simp [nmCode, State.nmBad, hr]

/-- The bytes that the element takes. -/
def State.nmData (s : State) (op : NmOp) : List Byte := leBytes (nmBytes op.ty) (nmCode op.ty (s.nmBad op) (s.nmValue op).1)

theorem State.nmData_length (s : State) (op : NmOp) : (s.nmData op).length = nmBytes op.ty := leBytes_length ..

theorem State.nmData_pos (s : State) (op : NmOp) : 0 < (s.nmData op).length := by
  rw [State.nmData_length]
  exact nmBytes_pos op.ty

/-- The element written, with its poison. -/
def State.nmWritten (s : State) (op : NmOp) : State := s.wr op.addr (s.nmData op) (s.nmBad op)

theorem State.nmWritten_places (s : State) (op : NmOp) : placesKept besideMap (s.nmWritten op) s :=
  (State.wr_places ..).mono dropWord_besideMap

/-- The operation as its controller performs it, for an item of a TAG. -/
def State.nmPerform (s : State) (op : NmOp) (tag : Nat) : NmDone := s.nmApply op.addr op.ty op.op op.value op.poisoned op.residue tag

section
variable {s : State} {op : NmOp} {k : Nat}

/-- The element is written, the operation counted, and a residue mismatch recorded. -/
theorem State.nmPerform_st (hk : s.stackOf op.addr = some k) (tag : Nat) {u : State} (hu : u = (s.nmWritten op).nmCounted k (s.nmValue op).2) :
    (s.nmPerform op tag).st = if op.residue then
      u.record (stackDie k) 4 sevDeferred 3 2 (stackDie k) (u.gen 3 (stackDie k)) (k * 2 ^ 120 + tag * 2 ^ 64) else u := by
  subst hu
  simp only [State.nmPerform, State.nmApply, hk, Option.getD_some]
  rfl

section
variable (h : s.nmFits op k)
include h

theorem State.nmFits.data_inLine : op.addr % 64 + (s.nmData op).length ≤ 64 := by
  rw [State.nmData_length]
  exact h.inLine

theorem State.nmFits.data_there : ∀ i < (s.nmData op).length, (s.place (op.addr + i)).isSome = true := by
  rw [State.nmData_length]
  exact h.there

/-- The write is one of a line. -/
theorem State.nmFits.nmWritten_eq : ∃ p, s.place op.addr = some p ∧
    s.nmWritten op = { s with mem := s.mem.writeLine p (s.nmData op) (s.nmBad op) } :=
  State.wr_inLine (s.nmData_pos op) h.data_inLine h.data_there h.up

theorem State.nmFits.nmWritten_frame : s.nmWritten op = { s with mem := (s.nmWritten op).mem } := by
  obtain ⟨p, -, hw⟩ := h.nmWritten_eq
  rw [hw]

theorem State.nmFits.nmWritten_reg (q : Reg) : (s.nmWritten op).reg q k = s.reg q k := by
  rw [h.nmWritten_frame]
  rfl

/-- The write and the counts leave the error records, and the counts memory. -/
theorem State.nmFits.counted_mem_err {sat : Bool} : ((s.nmWritten op).nmCounted k sat).mem = (s.nmWritten op).mem ∧
    ((s.nmWritten op).nmCounted k sat).err = s.err := by
  obtain ⟨_, hregs⟩ := (s.nmWritten op).nmCounted_regs k sat
  rw [hregs, h.nmWritten_frame]
  exact ⟨rfl, rfl⟩

variable (hs : s.wf = true)
include hs

/-- The element holds the result. -/
theorem State.nmFits.nmWritten_element : (s.nmWritten op).rdBytes op.addr (nmBytes op.ty) = s.nmData op := by
  rw [← s.nmData_length op]
  exact State.rdBytes_wr_inside (s.nmData_pos op) h.data_inLine h.data_there h.up (State.wf_mem hs)

/-- No other byte changes. -/
theorem State.nmFits.nmWritten_outside {b : Nat} (hb : b < op.addr ∨ op.addr + nmBytes op.ty ≤ b) : (s.nmWritten op).rdByte b = s.rdByte b := by
  rw [← s.nmData_length op] at hb
  exact State.rdByte_wr_outside (s.nmData_pos op) h.data_inLine h.data_there h.up (State.wf_mem hs) hb

/-- After the counts as well: the element, every other byte, and the two counters. -/
theorem State.nmFits.counted_spec (sat : Bool) {t : State} (ht : t = (s.nmWritten op).nmCounted k sat) :
    t.rdBytes op.addr (nmBytes op.ty) = s.nmData op ∧
    (∀ b, b < op.addr ∨ op.addr + nmBytes op.ty ≤ b → t.rdByte b = s.rdByte b) ∧
    (t.reg .halNmCnt k).toNat = min ((s.reg .halNmCnt k).toNat + 1) 0xFFFFFFFF ∧
    (sat = true → (t.reg .halNmSatCnt k).toNat = min ((s.reg .halNmSatCnt k).toNat + 1) 0xFFFFFFFF) := by
  have hwf := (s.nmWritten_places op).wf hs
  have hbyte (b : Nat) : t.rdByte b = (s.nmWritten op).rdByte b := ht ▸ (State.nmCounted_places ..).rdByte_eq hwf h.counted_mem_err.1 b
  refine ⟨?_, fun b hb => (hbyte b).trans (h.nmWritten_outside hs hb), ?_, fun hsat => ?_⟩
  · rw [← h.nmWritten_element hs]
    exact List.map_congr_left fun i _ => hbyte (op.addr + i)
  · rw [ht, State.nmCounted_ops k sat hwf, h.nmWritten_reg]
  · rw [ht, hsat, State.nmCounted_saturations k hwf, h.nmWritten_reg]

/-- A poisoned element's line carries the marking, in what leaves memory and the map as they are after the write. -/
theorem State.nmFits.poisonedIn_of_bad (hbad : s.nmBad op = true) {t : State} (ht : placesKept besideMap t s) (hm : t.mem = (s.nmWritten op).mem) :
    t.poisonedIn op.addr (nmBytes op.ty) = true := by
  obtain ⟨p, hp, hw⟩ := h.nmWritten_eq
  obtain ⟨q, hq⟩ := h.lineStart
  refine State.poisonedIn_of_first (nmBytes_pos _) (State.poisoned_of_marked (q := q) ((ht.place_eq_of_besideMap hs _).trans hq) ?_)
  rw [State.place_lineStart hp hq, hm, hw, hbad]
  exact Mem.marked_writeLine_bad (State.wf_mem hs) ..

end
end

/-! ### The command -/

/-- What becomes of the item of an operation that is lost (11 R371). -/
def State.nmLose (s : State) (op : NmOp) : State :=
  match s.item op.region op.slot with
  | some x =>
    if x.stage == .running then s.endRun op.region op.slot x { statuses := [(stReset, 0)], partialOut := x.wrote || x.nmIssued } else s
  | none => s

/-- The item of an operation that was performed is told (11 R363). -/
def State.nmTell (s : State) (op : NmOp) (d : NmDone) : State :=
  match s.item op.region op.slot with
  | some x =>
    if x.stage == .running then
      d.st.setItem op.region op.slot (some { x with nmIssued := true, nmPoison := x.nmPoison || d.poison, nmSats := x.nmSats + b2n d.sat })
    else d.st
  | none => d.st

/-- TAG of the item of an operation. -/
def State.nmTag (s : State) (op : NmOp) : Nat :=
  match s.item op.region op.slot with
  | some x => x.tag
  | none => 0

section
variable {s : State} {op : NmOp} {x : Item} {d : NmDone}

theorem State.nmLose_running (hx : s.item op.region op.slot = some x) (hrun : x.stage = .running) :
    s.nmLose op = s.endRun op.region op.slot x { statuses := [(stReset, 0)], partialOut := x.wrote || x.nmIssued } := by
  simp only [State.nmLose, hx, hrun, beq_self_eq_true, if_true]

theorem State.nmLose_items (s : State) (op : NmOp) : itemsFrom (s.nmLose op) s := by
  unfold State.nmLose
  split
  · split
    · exact State.endRun_items ..
    · exact ⟨_, _, rfl⟩
  · exact ⟨_, _, rfl⟩

theorem State.nmTell_running (hx : s.item op.region op.slot = some x) (hrun : x.stage = .running) : ∃ z,
    (s.nmTell op d).item op.region op.slot = some z ∧ z.nmIssued = true ∧ z.nmSats = x.nmSats + b2n d.sat := by
  simp only [State.nmTell, hx, hrun, beq_self_eq_true, if_true]
  exact ⟨_, State.item_setItem_some .., rfl, rfl⟩

theorem State.nmTell_frame (s : State) (op : NmOp) (d : NmDone) : ∃ items, s.nmTell op d = { d.st with items := items } := by
  unfold State.nmTell
  split
  · split
    · exact ⟨_, rfl⟩
    · exact ⟨_, rfl⟩
  · exact ⟨_, rfl⟩

end

section
variable {s : State} {op : NmOp} {k : Nat} (h : s.nmFits op k)
include h

/-- The command: lost under reset, held in recovery, performed otherwise (11 R362, R371; 14 R475). -/
theorem State.nmFits.exec_eq : exec (.nmOperation op) s = if s.dieReset (stackDie k) then .next (s.nmLose op)
    else if s.heldAt (regionDie op.region) op.addr then .next s else .next (s.nmTell op (s.nmPerform op (s.nmTag op))) := by
  obtain ⟨hty, hop, haligned, hstack⟩ := h
  show execNmOperation op s = _
  rw [execNmOperation, if_neg (by simp [hty, hop, haligned, hstack]), hstack]
  rfl

/-- Without a residue mismatch the element is written and the operation counted; then its item is told. -/
theorem State.nmFits.performed (hr : op.residue = false) {t : State} (ht : t = s.nmTell op (s.nmPerform op (s.nmTag op))) :
    t = { (s.nmWritten op).nmCounted k (s.nmValue op).2 with items := t.items } := by
  obtain ⟨_, htell⟩ := s.nmTell_frame op (s.nmPerform op (s.nmTag op))
  rw [State.nmPerform_st h.stack _ rfl, hr, if_neg Bool.false_ne_true, ← ht] at htell
  rw [htell]

/-- With one, the mismatch is recorded and the element poisoned. -/
theorem State.nmFits.mismatched (hs : s.wf = true) (hr : op.residue = true) {t : State} (ht : t = s.nmTell op (s.nmPerform op (s.nmTag op))) :
    t.recorded s (stackDie k) 4 1 ∧ t.poisonedIn op.addr (nmBytes op.ty) = true := by
  obtain ⟨v, hv⟩ : ∃ v, v = (s.nmWritten op).nmCounted k (s.nmValue op).2 := ⟨_, rfl⟩
  obtain ⟨hmem, herr⟩ := hv ▸ h.counted_mem_err
  obtain ⟨_, htell⟩ := s.nmTell_frame op (s.nmPerform op (s.nmTag op))
  rw [State.nmPerform_st h.stack _ hv, if_pos hr, ← ht] at htell
  have hplaces : placesKept besideMap v s := hv ▸ (State.nmCounted_places ..).trans (s.nmWritten_places op)
  obtain ⟨hrecorded, hkept, hrecMem⟩ := State.record_deferred_spec (stackDie k) (hplaces.wf hs) 4 3 2 (stackDie k) (v.gen 3 (stackDie k))
    (k * 2 ^ 120 + s.nmTag op * 2 ^ 64) rfl
  generalize v.record _ _ _ _ _ _ _ _ = w at htell hrecorded hkept hrecMem
  have hbad : s.nmBad op = true := by simp [State.nmBad, hr]
  have hpoison := h.poisonedIn_of_bad hs hbad (hkept.trans hplaces) (hrecMem.trans hmem)
  rw [State.recorded, show v.errDie (stackDie k) = s.errDie (stackDie k) from congrArg (tget dErr · (stackDie k)) herr] at hrecorded
  rw [htell]
  exact ⟨hrecorded, hpoison⟩

end

/-- Settles O34: an aligned element lies in one line of a page that is there, so one write replaces it; counts and records leave the map. -/
theorem nearMemoryOperationsReplaceTheirElement : Obligations.NearMemoryOperationsReplaceTheirElement := by
  intro s op k hs hty hop haligned hstack
  have h : s.nmFits op k := ⟨hty, hop, haligned, hstack⟩
  refine ⟨fun hheld hreset => ?_, fun hreset => ?_, fun hheld hreset hres => ?_, fun hheld hreset hres r hr => ?_⟩
  · rw [h.exec_eq, hreset, hheld]; rfl
  · rw [h.exec_eq, hreset]
    refine ⟨_, rfl, ?_, fun x hx hrun => ?_⟩
    · obtain ⟨_, _, hlost⟩ := s.nmLose_items op
      rw [hlost]
    · rw [State.nmLose_running hx hrun]
      exact ⟨_, State.endRun_item .., rfl, rfl⟩
  · rw [h.exec_eq, hreset, hheld]
    exact ⟨_, rfl, h.mismatched hs hres rfl⟩
  · obtain rfl : r = s.nmValue op := hr
    rw [h.exec_eq, hreset, hheld]
    have htell (x : Item) := State.nmTell_running (s := s) (op := op) (x := x) (d := s.nmPerform op (s.nmTag op))
    generalize ht : s.nmTell op (s.nmPerform op (s.nmTag op)) = t at htell
    have hframe := h.performed hres ht.symm
    obtain ⟨hread, hothers, hops, hsats⟩ := h.counted_spec hs (s.nmValue op).2 rfl
    refine ⟨t, rfl, ?_, ?_, ?_, ?_, ?_, htell⟩
    · obtain ⟨_, hregs⟩ := (s.nmWritten op).nmCounted_regs k (s.nmValue op).2
      rw [hframe, hregs, h.nmWritten_frame]
    · rw [← s.nmCode_plain hres, hframe]
      exact hread
    · rw [hframe]
      exact hothers
    · rw [hframe]
      exact hops
    · rw [hframe]
      exact hsats

end Sys2Proof.Machine
end

section
/-! What a read of a line of HBM may write besides the line: records of memory events, counters, and the corrections counted toward the
erasure of a pin (12 R382, R386 to R388; 14 R461 to R466). -/

namespace Sys2Proof.Machine

/-! ### The counters of a stack (12 R382, R387) -/

/-- The key of a register of a stack's memory block, by the word of its first element. -/
theorem regKey_memB {r : Reg} {o : Nat} (hb : (regDef r).blk = .memB) (ho : (regDef r).off = 4 * o) (hstride : (regDef r).stride = 4)
    (k e : Nat) : regKey r k e = k / 4 * 2 ^ 28 + (0x10000 + k % 4 * 0x8000 + o + e) := by
  simp only [regKey, regPlace, hb, ho, hstride, blkBase, stackDie, offKey]
  omega

/-- Words of a die that are not MEM_CE_CNT, MEM_UE_CNT or MEM_POISON_CNT of one of its stacks, whose blocks lie 0x8000 words apart from
0x10000 on. -/
def besideCounts (n : Nat) : Prop := ¬ (0x10000 ≤ n ∧ 4 ≤ n % 0x8000 ∧ n % 0x8000 ≤ 6)

theorem besideCounts_memB {r : Reg} {o : Nat} (hb : (regDef r).blk = .memB) (ho : (regDef r).off = 4 * o) (hstride : (regDef r).stride = 4)
    (k e : Nat) (hlt : o + e < 0x8000) (hne : o + e < 4 ∨ 6 < o + e) : besideCounts (regKey r k e % 2 ^ 28) := by
  rw [regKey_memB hb ho hstride]
  unfold besideCounts
  omega

theorem not_besideCounts {r : Reg} {o : Nat} (hb : (regDef r).blk = .memB) (ho : (regDef r).off = 4 * o) (hstride : (regDef r).stride = 4)
    (k : Nat) (hlo : 4 ≤ o) (hhi : o ≤ 6) : ¬ besideCounts (regKey r k 0 % 2 ^ 28) := by
  rw [regKey_memB hb ho hstride]
  unfold besideCounts
  omega

theorem besideCounts_errB {r : Reg} {o : Nat} (hb : (regDef r).blk = .errB) (ho : (regDef r).off = 4 * o) (hlt : o < 0x10000) (die : Nat) :
    besideCounts (regKey r die 0 % 2 ^ 28) := by
  have hkey : regKey r die 0 % 2 ^ 28 = o := by
    simp only [regKey, regPlace, hb, ho, blkBase, offKey]
    omega
  rw [hkey]
  unfold besideCounts
  omega

theorem besideCounts_memSts (k : Nat) : besideCounts (regKey .memSts k 0 % 2 ^ 28) :=
  besideCounts_memB (o := 1) (by decide) (by decide) (by decide) k 0 (by decide) (by decide)
theorem besideCounts_memSuppCnt (k : Nat) : besideCounts (regKey .memSuppCnt k 0 % 2 ^ 28) :=
  besideCounts_memB (o := 7) (by decide) (by decide) (by decide) k 0 (by decide) (by decide)
theorem besideCounts_memPin (k : Nat) {pc : Nat} (h : pc < 64) : besideCounts (regKey .memPin k pc % 2 ^ 28) :=
  besideCounts_memB (o := 0x40) (by decide) (by decide) (by decide) k pc (by omega) (by omega)
theorem not_besideCounts_memCeCnt (k : Nat) : ¬ besideCounts (regKey .memCeCnt k 0 % 2 ^ 28) :=
  not_besideCounts (o := 4) (by decide) (by decide) (by decide) k (by decide) (by decide)
theorem not_besideCounts_memUeCnt (k : Nat) : ¬ besideCounts (regKey .memUeCnt k 0 % 2 ^ 28) :=
  not_besideCounts (o := 5) (by decide) (by decide) (by decide) k (by decide) (by decide)
theorem not_besideCounts_memPoisonCnt (k : Nat) : ¬ besideCounts (regKey .memPoisonCnt k 0 % 2 ^ 28) :=
  not_besideCounts (o := 6) (by decide) (by decide) (by decide) k (by decide) (by decide)

theorem State.bump_countedAt {s : State} (hs : s.wf = true) (r : Reg) (i e : Nat) : (s.bump r i e 1).countedAt s r i e := by
  rw [State.countedAt, State.bump, State.reg_setReg_same hs, countUp_one_toNat]

/-- An event counted stays counted while none of the words `K` is its counter. -/
theorem placesKept.countedAt {K : Nat → Prop} {t v s : State} (h : placesKept K t v) (hv : v.wf = true) {r : Reg} {i e : Nat}
    (hr : ¬ K (regKey r i e % 2 ^ 28)) (hc : v.countedAt s r i e) : t.countedAt s r i e := by
  have hreg : t.reg r i e = v.reg r i e := h.regs hv _ hr
  rwa [State.countedAt, hreg]

/-! ### Records of memory events (12 R387, R388; 14 R461 to R466) -/

/-- `t` is `s` but for registers, error records and what goes out. -/
abbrev toldFrom (t s : State) : Prop := ∃ regs err out, t = { s with regs := regs, err := err, out := out }

/-- `t` is `s` but for those and the state of the rails and the sideband. -/
abbrev alertedFrom (t s : State) : Prop := ∃ regs err out power, t = { s with regs := regs, err := err, out := out, power := power }

theorem toldFrom.refl (s : State) : toldFrom s s := ⟨_, _, _, rfl⟩
theorem toldFrom.trans {u t s : State} (h : toldFrom u t) (k : toldFrom t s) : toldFrom u s := by
  obtain ⟨_, _, _, rfl⟩ := h; obtain ⟨_, _, _, rfl⟩ := k; exact ⟨_, _, _, rfl⟩
theorem alertedFrom.trans {u t s : State} (h : alertedFrom u t) (k : alertedFrom t s) : alertedFrom u s := by
  obtain ⟨_, _, _, _, rfl⟩ := h; obtain ⟨_, _, _, _, rfl⟩ := k; exact ⟨_, _, _, _, rfl⟩
theorem regsFrom.told {t s : State} (h : regsFrom t s) : toldFrom t s := by obtain ⟨_, rfl⟩ := h; exact ⟨_, _, _, rfl⟩
theorem toldFrom.alerted {t s : State} (h : toldFrom t s) : alertedFrom t s := by obtain ⟨_, _, _, rfl⟩ := h; exact ⟨_, _, _, _, rfl⟩

theorem toldFrom.foldl {α : Type} {f : State → α → State} (hf : ∀ s a, toldFrom (f s a) s) (l : List α) (s : State) :
    toldFrom (l.foldl f s) s := by
  induction l generalizing s with
  | nil => exact .refl s
  | cons a l ih => exact (ih (f s a)).trans (hf s a)

theorem State.emit_told (s : State) (o : Out) : toldFrom (s.emit o) s := ⟨_, _, _, rfl⟩

theorem State.irqBy_told (s : State) (cfg : Word) (cause detail : Nat) : toldFrom (s.irqBy cfg cause detail) s := by
  rw [State.irqBy]
  split
  · exact State.emit_told ..
  · exact .refl s

theorem State.errPut_told (s : State) (die : Nat) (r : ErrRec) : toldFrom (s.errPut die r) s := by
  have hset (e : ErrDie) : toldFrom (s.setErrDie die e) s := ⟨_, _, _, rfl⟩
  obtain ⟨e, -, -, hput | hput⟩ := s.errPut_eq die r <;> rw [hput]
  · exact (State.bump_regs ..).told.trans (hset e)
  · exact (State.flag_regs ..).told.trans (hset e)

theorem State.errPut_besideCounts (s : State) (die : Nat) (r : ErrRec) : placesKept besideCounts (s.errPut die r) s := by
  have hlost := besideCounts_errB (r := .errLostCnt) (o := 4) (by decide) (by decide) (by decide) die
  have hsts := besideCounts_errB (r := .errSts) (o := 1) (by decide) (by decide) (by decide) die
  obtain ⟨e, -, -, hput | hput⟩ := s.errPut_eq die r <;> rw [hput]
  · exact (State.bump_places _ hlost 1).trans (State.setErrDie_places ..)
  · exact (State.flag_places _ hsts 1).trans (State.setErrDie_places ..)

/-- What a record of severity RECOVER or FATAL sets beside (14 R466; 17 R558). -/
def State.severe (s : State) (die sev : Nat) : State :=
  if 2 ≤ sev then (s.flag .errSts die 0 2).alert (if sev == 3 then 3 else 1) else s

theorem State.severe_mild (s : State) (die : Nat) {sev : Nat} (h : sev < 2) : s.severe die sev = s := if_neg (by omega)

theorem State.alert_alerted (s : State) (m : Nat) : alertedFrom (s.alert m) s := by
  simp only [State.alert]
  split
  · exact ⟨_, _, _, _, rfl⟩
  · exact ⟨_, _, _, _, rfl⟩

theorem State.alert_err (s : State) (m : Nat) : (s.alert m).err = s.err := by
  simp only [State.alert]
  split
  · rfl
  · rw [State.emit_err]

theorem State.severe_alerted (s : State) (die sev : Nat) : alertedFrom (s.severe die sev) s := by
  rw [State.severe]
  split
  · exact (State.alert_alerted ..).trans (State.flag_regs ..).told.alerted
  · exact (toldFrom.refl s).alerted

theorem State.severe_err (s : State) (die sev : Nat) : (s.severe die sev).err = s.err := by
  rw [State.severe]
  split
  · rw [State.alert_err, State.flag_err]
  · rfl

section
variable (s : State) (stack sev action payload : Nat)

/-- A memory event is always recorded: R465 does not suppress it (12 R388). An interrupt may tell of it. -/
theorem State.memRecord_eq : ∃ (r : ErrRec) (t : State), r.src = 6 ∧ r.sev = sev ∧
    t = (s.errPut (stackDie stack) r).severe (stackDie stack) sev ∧
    (s.memRecord stack sev action payload = t.irqBy (t.reg .errEvtCfg (stackDie stack)) causeError (stackDie stack) ∨
      s.memRecord stack sev action payload = t) := by
  refine ⟨s.eventRec (stackDie stack) 6 sev 3 action (stackDie stack) (s.gen 3 (stackDie stack)) payload, _, rfl, rfl, rfl, ?_⟩
  have hsrc : ((6 : Nat) != 6) = false := rfl
  simp only [State.memRecord, State.record, hsrc, Bool.and_false, Bool.false_and, Bool.false_eq_true, if_false]
  exact ite_eq_or_eq ..

theorem State.memRecord_alerted : alertedFrom (s.memRecord stack sev action payload) s := by
  obtain ⟨r, t, -, -, rfl, hrec | hrec⟩ := s.memRecord_eq stack sev action payload <;> rw [hrec]
  · exact (State.irqBy_told ..).alerted.trans ((State.severe_alerted ..).trans (State.errPut_told ..).alerted)
  · exact (State.severe_alerted ..).trans (State.errPut_told ..).alerted

theorem State.memRecord_recorded {s : State} (hs : s.wf = true) :
    (s.memRecord stack sev action payload).recorded s (stackDie stack) 6 sev := by
  obtain ⟨r, t, hsrc, hsev, rfl, hrec⟩ := s.memRecord_eq stack sev action payload
  obtain ⟨hseq, hcopy⟩ := State.errPut_errDie hs (stackDie stack) r
  have herr : (s.memRecord stack sev action payload).errDie (stackDie stack) = (s.errPut (stackDie stack) r).errDie (stackDie stack) := by
    refine congrArg (tget dErr · (stackDie stack)) ?_
    obtain hrec | hrec := hrec <;> rw [hrec]
    · rw [(State.irqBy_mem_err ..).2, State.severe_err]
    · rw [State.severe_err]
  rw [State.recorded, herr]
  exact ⟨hseq, r, hcopy, hsrc, hsev⟩

variable {sev} (h : sev < 2)
include h

theorem State.memRecord_told : toldFrom (s.memRecord stack sev action payload) s := by
  obtain ⟨r, t, -, -, rfl, hrec | hrec⟩ := s.memRecord_eq stack sev action payload <;> rw [hrec, State.severe_mild _ _ h]
  · exact (State.irqBy_told ..).trans (State.errPut_told ..)
  · exact State.errPut_told ..

theorem State.memRecord_besideCounts : placesKept besideCounts (s.memRecord stack sev action payload) s := by
  obtain ⟨r, t, -, -, rfl, hrec | hrec⟩ := s.memRecord_eq stack sev action payload <;> rw [hrec, State.severe_mild _ _ h]
  · exact (State.irqBy_places ..).trans (State.errPut_besideCounts ..)
  · exact State.errPut_besideCounts ..

end

/-! ### Corrections (12 R386, R388) -/

/-- `t` is `s` but for registers, error records, what goes out, and what memory counts of corrected lines. -/
abbrev bookedFrom (t s : State) : Prop := ∃ regs err out ceSec pinLines pinDone,
  t = { s with regs := regs, err := err, out := out, mem := { s.mem with ceSec := ceSec, pinLines := pinLines, pinDone := pinDone } }

theorem bookedFrom.refl (s : State) : bookedFrom s s := ⟨_, _, _, _, _, _, rfl⟩
theorem bookedFrom.trans {u t s : State} (h : bookedFrom u t) (k : bookedFrom t s) : bookedFrom u s := by
  obtain ⟨_, _, _, _, _, _, rfl⟩ := h; obtain ⟨_, _, _, _, _, _, rfl⟩ := k; exact ⟨_, _, _, _, _, _, rfl⟩
theorem toldFrom.booked {t s : State} (h : toldFrom t s) : bookedFrom t s := by obtain ⟨_, _, _, rfl⟩ := h; exact ⟨_, _, _, _, _, _, rfl⟩

/-- `t` books a correction in `s`: only that, and no counter of line reads, changes. -/
abbrev books (t s : State) : Prop := bookedFrom t s ∧ placesKept besideCounts t s

theorem books.refl (s : State) : books s s := ⟨.refl s, .refl s⟩
theorem books.trans {u t s : State} (h : books u t) (k : books t s) : books u s := ⟨h.1.trans k.1, h.2.trans k.2⟩
theorem books.foldl {α : Type} {f : State → α → State} (hf : ∀ s a, books (f s a) s) (l : List α) (s : State) : books (l.foldl f s) s := by
  induction l generalizing s with
  | nil => exact .refl s
  | cons a l ih => exact (ih (f s a)).trans (hf s a)

section
variable (s : State) (stack : Nat)

theorem State.memRecord_books {sev : Nat} (h : sev < 2) (action payload : Nat) : books (s.memRecord stack sev action payload) s :=
  ⟨(State.memRecord_told s _ _ _ h).booked, State.memRecord_besideCounts s _ _ _ h⟩

theorem State.flag_memSts_books (m : Nat) : books (s.flag .memSts stack 0 m) s :=
  ⟨(State.flag_regs ..).told.booked, State.flag_places s (besideCounts_memSts stack) m⟩

theorem State.with_counts_books {ceSec : Sparse (Nat × Nat)} {pinLines : Sparse (List Nat)} {pinDone : Sparse Bool}
    (h : s.mem.wf = true → twf dCe ceSec = true ∧ twf dLines pinLines = true ∧ twf dF pinDone = true) :
    books { s with mem := { s.mem with ceSec := ceSec, pinLines := pinLines, pinDone := pinDone } } s := by
  refine ⟨⟨_, _, _, _, _, _, rfl⟩, fun hs => State.with_mem_wf hs ?_, rfl, rfl, rfl, rfl, rfl, fun _ _ _ => rfl⟩
  obtain ⟨hce, hlines, hdone⟩ := h (State.wf_mem hs)
  obtain ⟨hbytes, hpoison, htrained, hself, -, -, hscrub, -⟩ := (Mem.wf_iff _).1 (State.wf_mem hs)
  exact (Mem.wf_iff _).2 ⟨hbytes, hpoison, htrained, hself, hlines, hdone, hscrub, hce⟩

theorem State.recordCe_books (payload : Nat) : books (s.recordCe stack payload) s := by
  unfold State.recordCe
  extract_lets sec c n
  split
  · refine (State.memRecord_books _ _ (by decide) ..).trans (s.with_counts_books fun hm => ?_)
    obtain ⟨-, -, -, -, hlines, hdone, -, hce⟩ := (Mem.wf_iff _).1 hm
    exact ⟨twf_tset hce _ _, hlines, hdone⟩
  · exact ⟨(State.bump_regs ..).told.booked, State.bump_places s (besideCounts_memSuppCnt stack) 1⟩

theorem State.eraseRecorded_told (pc pin line : Nat) (scrub : Bool) : toldFrom (s.eraseRecorded stack pc pin line scrub) s :=
  (State.flag_regs ..).told.trans ((State.setReg_regs ..).told.trans (State.memRecord_told _ _ _ _ (by decide)))

variable {pc : Nat} (hpc : pc < 64)
include hpc

theorem State.eraseRecorded_books (pin line : Nat) (scrub : Bool) : books (s.eraseRecorded stack pc pin line scrub) s :=
  ⟨(State.eraseRecorded_told ..).booked, (State.flag_memSts_books ..).2.trans
    ((State.setReg_places _ (besideCounts_memPin stack hpc) _).trans (State.memRecord_besideCounts _ _ _ _ (by decide)))⟩

theorem State.notePin_books (line pin : Nat) (scrub : Bool) : books (s.notePin stack pc line pin scrub) s := by
  have hcounts {pinLines : Sparse (List Nat)} {pinDone : Sparse Bool} (hlines : twf dLines s.mem.pinLines = true → twf dLines pinLines = true)
      (hdone : twf dF s.mem.pinDone = true → twf dF pinDone = true) :
      books { s with mem := { s.mem with pinLines := pinLines, pinDone := pinDone } } s := by
    refine s.with_counts_books fun hm => ?_
    obtain ⟨-, -, -, -, hpinLines, hpinDone, -, hce⟩ := (Mem.wf_iff _).1 hm
    exact ⟨hce, hlines hpinLines, hdone hpinDone⟩
  unfold State.notePin
  dsimp only
  split_ifs
  · exact .refl s
  · exact (State.eraseRecorded_books _ _ hpc ..).trans (hcounts (twf_tset · _ _) (twf_tset · _ _))
  · exact (State.flag_memSts_books ..).trans ((State.memRecord_books _ _ (by decide) ..).trans (hcounts (twf_tset · _ _) (twf_tset · _ _)))
  · exact hcounts (twf_tset · _ _) id

end

end Sys2Proof.Machine
end

section
/-! Lines of HBM that are read, corrected and written (12 R382 to R388). -/

namespace Sys2Proof.Machine

/-! ### What a read leaves (12 R382 to R388) -/

/-- A corrected line written back: its bytes less the difference `d`, with no marking (12 R385). -/
def State.writeBack (s : State) (stack off : Nat) (d : List Byte) : State :=
  { s with mem := (s.mem.setBytes (placeHbm stack (off / 64 * 64)) (vxor (s.lineBytes stack off) d)).setPoison (lineNo stack off) false }

/-- A line left poisoned by the scrub (12 R389). -/
def State.markLine (s : State) (l : Nat) : State := { s with mem := s.mem.setPoison l true }

/-- Symbols of a correction on pins that are not erased. -/
def State.liveSyms (s : State) (stack off : Nat) (u : List Byte) : List Nat :=
  (vsyms u).filter fun j => !(s.erasedPins stack (bits off 11 6)).contains (j / 2)

/-- A corrected read counted, recorded, and noted at its pins (12 R386, R388). -/
def State.ceBooked (s : State) (stack off : Nat) (scrub : Bool) (u : List Byte) : State :=
  (((s.liveSyms stack off u).map (· / 2)).eraseDups).foldl (fun s pin => s.notePin stack (bits off 11 6) (off / 4096) pin scrub)
    (((s.bump .memCeCnt stack 0 1).flag .memSts stack 0 1).recordCe stack (memPayload 1 stack (bits off 11 6) scrub
      (!(s.liveSyms stack off u).isEmpty) (s.erasedPins stack (bits off 11 6)).length (off / 4096) ((vsyms u).map (2 ^ ·)).sum))

/-- An uncorrectable read counted and recorded (12 R387). -/
def State.ueBooked (s : State) (stack off : Nat) (scrub : Bool) : State :=
  ((s.bump .memUeCnt stack 0 1).flag .memSts stack 0 2).memRecord stack 1 2
    (memPayload 2 stack (bits off 11 6) scrub false (s.erasedPins stack (bits off 11 6)).length (off / 4096) 0)

/-- `t` is `s` but for registers, error records, what goes out, bytes and markings, and what memory counts of corrected lines. -/
abbrev lineFrom (t s : State) : Prop := ∃ regs err out bytes poison ceSec pinLines pinDone, t = { s with
  regs := regs, err := err, out := out
  mem := { s.mem with bytes := bytes, poison := poison, ceSec := ceSec, pinLines := pinLines, pinDone := pinDone } }

theorem lineFrom.trans {u t s : State} (h : lineFrom u t) (k : lineFrom t s) : lineFrom u s := by
  obtain ⟨_, _, _, _, _, _, _, _, rfl⟩ := h; obtain ⟨_, _, _, _, _, _, _, _, rfl⟩ := k; exact ⟨_, _, _, _, _, _, _, _, rfl⟩
theorem bookedFrom.line {t s : State} (h : bookedFrom t s) : lineFrom t s := by
  obtain ⟨_, _, _, _, _, _, rfl⟩ := h; exact ⟨_, _, _, _, _, _, _, _, rfl⟩

theorem errVec_length (errs : List (Nat × Nat)) : (errVec errs).length = 72 := by simp [errVec, tabulate]
theorem State.lineBytes_length (s : State) (stack off : Nat) : (s.lineBytes stack off).length = 64 := by simp [State.lineBytes]

/-- Without a difference the line stays as it is. -/
theorem vxor_self_right {a e : List Byte} (h : a.length ≤ e.length) : vxor a (vxor e e) = a :=
  List.ext_getElem (by simpa [vxor] using h) fun i _ _ => by simp [vxor]

theorem State.lineBytes_getD (s : State) (stack off : Nat) {i : Nat} (hi : i < 64) :
    (s.lineBytes stack off).getD i 0#8 = s.mem.byteAt (placeHbm stack (off / 64 * 64) + i) := by
  rw [List.getD_eq_getElem _ _ (by rwa [State.lineBytes_length])]
  simp [State.lineBytes]

theorem State.lineBytes_congr {t s : State} (h : ∀ p, t.mem.byteAt p = s.mem.byteAt p) (stack off : Nat) :
    t.lineBytes stack off = s.lineBytes stack off :=
  List.map_congr_left fun _ _ => h _

section
variable (s : State) (stack off : Nat) (errs : List (Nat × Nat)) (scrub : Bool)

theorem State.writeBack_line (d : List Byte) : lineFrom (s.writeBack stack off d) s := by
  rw [State.writeBack, Mem.setBytes_frame]
  exact ⟨_, _, _, _, _, _, _, _, rfl⟩

theorem State.byteAt_writeBack (d : List Byte) (p : Nat) : (s.writeBack stack off d).mem.byteAt p
    = (s.mem.setBytes (placeHbm stack (off / 64 * 64)) (vxor (s.lineBytes stack off) d)).byteAt p := rfl

theorem State.writeBack_wf {s : State} (hs : s.wf = true) (d : List Byte) : (s.writeBack stack off d).wf = true :=
  State.with_mem_wf hs (Mem.setPoison_wf (Mem.setBytes_wf (State.wf_mem hs) ..) ..)

/-- A correction that is the error of the cells writes the line back as it was. -/
theorem State.byteAt_writeBack_self {s : State} (hs : s.wf = true) {e : List Byte} (he : 64 ≤ e.length) (p : Nat) :
    (s.writeBack stack off (vxor e e)).mem.byteAt p = s.mem.byteAt p := by
  have hlen := s.lineBytes_length stack off
  rw [State.byteAt_writeBack, vxor_self_right (hlen ▸ he)]
  by_cases hin : placeHbm stack (off / 64 * 64) ≤ p ∧ p < placeHbm stack (off / 64 * 64) + 64
  · obtain ⟨i, rfl⟩ := Nat.exists_eq_add_of_le hin.1
    have hi : i < 64 := by omega
    exact (Mem.byteAt_setBytes (State.wf_mem hs) _ _ (hlen.symm ▸ hi)).trans (s.lineBytes_getD stack off hi)
  · exact Mem.byteAt_setBytes_outside (State.wf_mem hs) _ _ (by omega)

theorem State.markLine_line (l : Nat) : lineFrom (s.markLine l) s := ⟨_, _, _, _, _, _, _, _, rfl⟩

theorem State.markLine_spec {s : State} (hs : s.wf = true) (l : Nat) : (s.markLine l).wf = true ∧ (s.markLine l).mem.poisonAt l = true :=
  ⟨State.with_mem_wf hs (Mem.setPoison_wf (State.wf_mem hs) ..), Mem.poisonAt_setPoison_same (State.wf_mem hs) ..⟩

theorem State.byteAt_markLine (l p : Nat) : (s.markLine l).mem.byteAt p = s.mem.byteAt p := rfl

theorem State.markLine_regs (l : Nat) : (s.markLine l).regs = s.regs := rfl

theorem bits_pc_lt (off : Nat) : bits off 11 6 < 64 := Nat.mod_lt _ (by decide)

theorem State.afterRead_corrected (u : List Byte) : s.afterRead stack off errs scrub (.corrected u)
    = if !(s.liveSyms stack off u).isEmpty then
        (s.ceBooked stack off scrub u).writeBack stack off (vxor ((errVec errs).take 64) (u.take 64))
      else s.ceBooked stack off scrub u := rfl

theorem State.afterRead_poison : s.afterRead stack off errs scrub .poison = (s.bump .memPoisonCnt stack 0 1).flag .memSts stack 0 4 := rfl

theorem State.afterRead_uncorrectable : s.afterRead stack off errs scrub .uncorrectable
    = if scrub then (s.ueBooked stack off scrub).markLine (lineNo stack off) else s.ueBooked stack off scrub := rfl

theorem State.ceBooked_books (u : List Byte) : books (s.ceBooked stack off scrub u) (s.bump .memCeCnt stack 0 1) :=
  (books.foldl (fun _ _ => State.notePin_books _ _ (bits_pc_lt off) ..) ..).trans
    ((State.recordCe_books ..).trans (State.flag_memSts_books ..))

theorem State.ueBooked_books : books (s.ueBooked stack off scrub) (s.bump .memUeCnt stack 0 1) :=
  (State.memRecord_books _ _ (by decide) ..).trans (State.flag_memSts_books ..)

theorem State.ueBooked_told : toldFrom (s.ueBooked stack off scrub) s :=
  (State.memRecord_told _ _ _ _ (by decide)).trans ((State.flag_regs ..).trans (State.bump_regs ..)).told

theorem State.afterRead_line (r : LineRead) : lineFrom (s.afterRead stack off errs scrub r) s := by
  cases r with
  | clean => exact (bookedFrom.refl s).line
  | poison =>
    rw [State.afterRead_poison]
    exact ((State.flag_regs ..).trans (State.bump_regs ..)).told.booked.line
  | uncorrectable =>
    have hbooked := (s.ueBooked_told stack off scrub).booked.line
    rw [State.afterRead_uncorrectable]
    split
    · exact (State.markLine_line ..).trans hbooked
    · exact hbooked
  | corrected u =>
    have hbooked := (s.ceBooked_books stack off scrub u).1.line.trans (State.bump_regs ..).told.booked.line
    rw [State.afterRead_corrected]
    split
    · exact (State.writeBack_line ..).trans hbooked
    · exact hbooked

theorem countedAt_of_regs {t v s : State} {r : Reg} {i e : Nat} (h : v.countedAt s r i e) (hregs : t.regs = v.regs) : t.countedAt s r i e := by
  have hreg : t.reg r i e = v.reg r i e := congrArg (tget regReset · (regKey r i e)) hregs
  rwa [State.countedAt, hreg]

theorem recorded_of_err {t v s : State} {die src sev : Nat} (h : t.recorded v die src sev) (herr : v.err = s.err) : t.recorded s die src sev := by
  have hdie : v.errDie die = s.errDie die := congrArg (tget dErr · die) herr
  rwa [State.recorded, ← hdie]

variable {s} (hs : s.wf = true)
include hs

theorem State.afterRead_poison_counted : (s.afterRead stack off errs scrub .poison).wf = true ∧
    (s.afterRead stack off errs scrub .poison).countedAt s .memPoisonCnt stack 0 := by
  have hbump := State.bump_wf hs .memPoisonCnt stack 0 1
  have hkept := (State.flag_memSts_books (s.bump .memPoisonCnt stack 0 1) stack 4).2
  rw [State.afterRead_poison]
  exact ⟨hkept.wf hbump, hkept.countedAt hbump (not_besideCounts_memPoisonCnt stack) (State.bump_countedAt hs ..)⟩

theorem State.ueBooked_counted : (s.ueBooked stack off scrub).wf = true ∧ (s.ueBooked stack off scrub).countedAt s .memUeCnt stack 0 ∧
    (s.ueBooked stack off scrub).recorded s (stackDie stack) 6 1 := by
  have hbump := State.bump_wf hs .memUeCnt stack 0 1
  have hkept := (s.ueBooked_books stack off scrub).2
  exact ⟨hkept.wf hbump, hkept.countedAt hbump (not_besideCounts_memUeCnt stack) (State.bump_countedAt hs ..),
    recorded_of_err (State.memRecord_recorded _ _ _ _ (State.flag_wf hbump ..)) (by rw [State.flag_err, State.bump_err])⟩

theorem State.ceBooked_counted (u : List Byte) : (s.ceBooked stack off scrub u).wf = true ∧
    (s.ceBooked stack off scrub u).countedAt s .memCeCnt stack 0 := by
  have hbump := State.bump_wf hs .memCeCnt stack 0 1
  have hkept := (s.ceBooked_books stack off scrub u).2
  exact ⟨hkept.wf hbump, hkept.countedAt hbump (not_besideCounts_memCeCnt stack) (State.bump_countedAt hs ..)⟩

theorem State.afterRead_corrected_counted (u : List Byte) : (s.afterRead stack off errs scrub (.corrected u)).countedAt s .memCeCnt stack 0 := by
  have hcount := (State.ceBooked_counted stack off scrub hs u).2
  rw [State.afterRead_corrected]
  split <;> exact hcount

theorem State.afterRead_wf (r : LineRead) : (s.afterRead stack off errs scrub r).wf = true := by
  cases r with
  | clean => exact hs
  | poison => exact (State.afterRead_poison_counted stack off errs scrub hs).1
  | uncorrectable =>
    have hwf := (State.ueBooked_counted stack off scrub hs).1
    rw [State.afterRead_uncorrectable]
    split
    · exact (State.markLine_spec hwf _).1
    · exact hwf
  | corrected u =>
    have hwf := (State.ceBooked_counted stack off scrub hs u).1
    rw [State.afterRead_corrected]
    split
    · exact State.writeBack_wf _ _ hwf _
    · exact hwf

/-- A read leaves the bytes as they are, where a correction is the error of the cells. -/
theorem State.byteAt_afterRead {r : LineRead} (hr : ∀ u, r = .corrected u → u = errVec errs) (p : Nat) :
    (s.afterRead stack off errs scrub r).mem.byteAt p = s.mem.byteAt p := by
  cases r with
  | clean => rfl
  | poison => rw [State.afterRead_poison, State.flag_mem, State.bump_mem]
  | uncorrectable =>
    have hmem : (s.ueBooked stack off scrub).mem = s.mem := by obtain ⟨_, _, _, h⟩ := s.ueBooked_told stack off scrub; rw [h]
    rw [State.afterRead_uncorrectable]
    split
    · rw [State.byteAt_markLine, hmem]
    · rw [hmem]
  | corrected u =>
    have hbytes : (s.ceBooked stack off scrub u).mem.byteAt p = s.mem.byteAt p := by
      obtain ⟨_, _, _, _, _, _, h⟩ := (s.ceBooked_books stack off scrub u).1
      rw [h, State.bump_mem]
      rfl
    rw [State.afterRead_corrected, hr u rfl]
    split
    · rw [State.byteAt_writeBack_self _ _ (State.ceBooked_counted stack off scrub hs _).1 (by simp [errVec_length]), ← hr u rfl, hbytes]
    · rw [← hr u rfl, hbytes]

end

/-! ### Lines written (12 R384; 14 R470) -/

/-- Bytes written from a place on, and the marking that their line takes. -/
def Mem.putLine (m : Mem) (p : Nat) (bs : List Byte) (l : Nat) (bad : Bool) : Mem :=
  { (m.setBytes p bs).setPoison l bad with markDue := m.markDue.filter (· != l) }

section
variable {m : Mem} (h : m.wf = true) (p : Nat) (bs : List Byte) {l k : Nat} (bad : Bool)
include h

theorem Mem.marked_putLine_same : (m.putLine p bs l bad).marked l = bad := by
  have hmark : (m.putLine p bs l bad).poisonAt l = bad := Mem.poisonAt_setPoison_same (Mem.setBytes_wf h p bs) l bad
  have hdue : l ∉ (m.putLine p bs l bad).markDue := by simp [Mem.putLine]
  rw [Mem.marked, hmark, List.contains_eq_mem, decide_eq_false hdue, Bool.or_false]

theorem Mem.marked_putLine_ne (hk : k ≠ l) : (m.putLine p bs l bad).marked k = m.marked k := by
  have hmark : (m.putLine p bs l bad).poisonAt k = m.poisonAt k :=
    (Mem.poisonAt_setPoison_ne (Mem.setBytes_wf h p bs) bad hk).trans (congrArg (tget dF · k) (Mem.setBytes_poison ..))
  have hdue : k ∈ (m.putLine p bs l bad).markDue ↔ k ∈ m.markDue := by simp [Mem.putLine, hk]
  simp only [Mem.marked, hmark, List.contains_eq_mem, hdue]

end

section
variable {s t : State} {stack off c : Nat} {errs : List (Nat × Nat)} {data : List Byte} {poisoned : Bool}

theorem exec_memRead_clean (hr : s.readLine stack off errs = .clean) (hd : s.dieDown (stackDie stack) = false) :
    exec (.memRead none stack off errs) s = .next s := by
  change execMemRead none stack off errs s = _
  rw [execMemRead, hd, hr]
  rfl

theorem exec_memRead_data (hd : s.dieDown (stackDie stack) = false)
    (hr : s.readLine stack off errs ≠ .poison) (hr' : s.readLine stack off errs ≠ .uncorrectable)
    (ht : t = s.afterRead stack off errs false (s.readLine stack off errs)) :
    exec (.memRead (some c) stack off errs) s = .next (t.emit (.busData c (leNat (t.lineBytes stack off)))) := by
  change execMemRead (some c) stack off errs s = _
  rw [execMemRead, hd, ht]
  generalize s.readLine stack off errs = r at hr hr'
  cases r with
  | clean => rfl
  | corrected u => rfl
  | poison => exact absurd rfl hr
  | uncorrectable => exact absurd rfl hr'

theorem exec_memRead_error (hd : s.dieDown (stackDie stack) = false)
    (hr : s.readLine stack off errs = .poison ∨ s.readLine stack off errs = .uncorrectable)
    (ht : t = s.afterRead stack off errs false (s.readLine stack off errs)) :
    exec (.memRead (some c) stack off errs) s = .next (t.emit (.busError c)) := by
  change execMemRead (some c) stack off errs s = _
  rw [execMemRead, hd, ht]
  obtain hr | hr := hr <;> rw [hr] <;> rfl

theorem exec_memWrite (hlen : data.length = 64) : exec (.memWrite stack off data poisoned) s
    = .next { s with mem := s.mem.putLine (placeHbm stack (off / 64 * 64)) data (lineNo stack off) poisoned } := by
  change execMemWrite stack off data poisoned s = _
  rw [execMemWrite, List.take_of_length_le hlen.le]
  rfl

theorem exec_memPartialWrite (hlen : data.length ≤ 64 - off % 64) (ht : t = s.afterRead stack off errs false (s.readLine stack off errs))
    {bad : Bool} (hbad : bad = (poisoned || s.readLine stack off errs == .poison || s.readLine stack off errs == .uncorrectable)) :
    exec (.memPartialWrite stack off data errs poisoned) s
      = .next { t with mem := t.mem.putLine (placeHbm stack off) data (lineNo stack off) bad } := by
  change execMemPartialWrite stack off data errs poisoned s = _
  rw [execMemPartialWrite, List.take_of_length_le hlen, ht, hbad]
  rfl

end

/-! ### The obligation -/

theorem lineDecode_clean : lineDecode (errVec []) (pinSymbols []) = .clean := by decide +kernel
theorem lineDecode_marking : lineDecode (vxor (errVec []) poisonVec) (pinSymbols []) = .poison := by decide +kernel

/-- A line without errors, on pins that are not erased, reads as it is marked (12 R383). -/
theorem State.readLine_of_no_errors {s : State} {stack off : Nat} (h : s.erasedPins stack (bits off 11 6) = []) :
    s.readLine stack off [] = if s.mem.marked (lineNo stack off) then .poison else .clean := by
  rw [State.readLine, h]
  cases s.mem.marked (lineNo stack off)
  · exact lineDecode_clean
  · exact lineDecode_marking

theorem State.lineBytes_putLine {s : State} (hs : s.wf = true) {stack off : Nat} {data : List Byte} (hlen : data.length = 64) (l : Nat) (bad : Bool) :
    ({ s with mem := s.mem.putLine (placeHbm stack (off / 64 * 64)) data l bad } : State).lineBytes stack off = data := by
  refine List.ext_getElem (by rw [State.lineBytes_length, hlen]) fun i hi hi' => ?_
  rw [← List.getD_eq_getElem _ 0#8 hi, ← List.getD_eq_getElem _ 0#8 hi', State.lineBytes_getD _ _ _ (hlen ▸ hi')]
  exact Mem.byteAt_setBytes (State.wf_mem hs) _ _ hi'

/-- Settles O45: a read tells of itself in counters and records, and writes back what it read; a write leaves bytes and the marking of its line. -/
theorem memoryLinesAreReadAndWritten : Obligations.MemoryLinesAreReadAndWritten := by
  intro s stack off errs hs hd
  refine ⟨fun he hp => ?_, fun hr => ⟨exec_memRead_clean hr hd, fun c => ?_⟩, fun c hr => ?_, fun c hr => ?_, fun c u hr => ?_,
    fun data poisoned hlen => ?_, fun data poisoned hlen hu => ?_⟩
  · rw [he]
    exact State.readLine_of_no_errors hp
  · exact exec_memRead_data hd (by simp [hr]) (by simp [hr]) (by rw [hr]; rfl)
  · have hcount := (State.afterRead_poison_counted stack off errs false hs).2
    have hframe : regsFrom (s.afterRead stack off errs false .poison) s := (State.flag_regs ..).trans (State.bump_regs ..)
    refine ⟨_, exec_memRead_error hd (.inl hr) rfl, ?_⟩
    rw [hr]
    generalize s.afterRead stack off errs false .poison = t at hcount hframe
    obtain ⟨_, rfl⟩ := hframe
    exact ⟨rfl, hcount⟩
  · obtain ⟨-, hcount, hrec⟩ := State.ueBooked_counted stack off false hs
    have hframe := s.ueBooked_told stack off false
    have hread : s.afterRead stack off errs false .uncorrectable = s.ueBooked stack off false := by
      rw [State.afterRead_uncorrectable, if_neg Bool.false_ne_true]
    refine ⟨_, exec_memRead_error hd (.inr hr) rfl, ?_⟩
    rw [hr, hread]
    generalize s.ueBooked stack off false = t at hcount hrec hframe
    obtain ⟨_, _, _, rfl⟩ := hframe
    exact ⟨rfl, rfl, hcount, hrec⟩
  · have hcount := State.afterRead_corrected_counted stack off errs false hs u
    have hframe := s.afterRead_line stack off errs false (.corrected u)
    have hbytes (hu : u = errVec errs) := State.byteAt_afterRead stack off errs false hs (r := .corrected u) (fun v hv => by cases hv; exact hu)
    refine ⟨_, exec_memRead_data hd (by simp [hr]) (by simp [hr]) rfl, ?_⟩
    rw [hr]
    generalize s.afterRead stack off errs false (.corrected u) = t at hcount hbytes hframe
    refine ⟨?_, hcount, rfl, fun hu => State.lineBytes_congr (hbytes hu) stack off⟩
    obtain ⟨_, _, _, _, _, _, _, _, rfl⟩ := hframe
    rfl
  · refine ⟨_, exec_memWrite hlen, rfl, State.lineBytes_putLine hs hlen _ _, Mem.marked_putLine_same (State.wf_mem hs) ..,
      fun p hp => ⟨?_, ?_⟩⟩
    · refine Mem.byteAt_setBytes_outside (State.wf_mem hs) _ _ ?_
      unfold lineNo placeHbm at hp
      unfold placeHbm
      omega
    · exact Mem.marked_putLine_ne (State.wf_mem hs) _ _ _ hp
  · have hframe := s.afterRead_line stack off errs false (s.readLine stack off errs)
    have hmem := State.wf_mem (State.afterRead_wf stack off errs false hs (s.readLine stack off errs))
    have hbytes := State.byteAt_afterRead stack off errs false hs hu
    refine ⟨_, exec_memPartialWrite hlen rfl rfl, ?_⟩
    generalize s.afterRead stack off errs false (s.readLine stack off errs) = t at hframe hmem hbytes
    refine ⟨?_, fun i hi => Mem.byteAt_setBytes hmem _ _ hi, fun p hp => (Mem.byteAt_setBytes_outside hmem _ _ hp).trans (hbytes p), ?_⟩
    · obtain ⟨_, _, _, _, _, _, _, _, rfl⟩ := hframe
      rfl
    · rw [Mem.marked_putLine_same hmem]
      simp [or_assoc]

end Sys2Proof.Machine
end

section
/-! The patrol scrub, training, the markings of expired writes, and the lock of the map (12 R380, R386 to R393; 14 R470; 02 R36). -/

namespace Sys2Proof.Machine

/-! ### The patrol scrub (12 R389, R390) -/

/-- `t` is `s` but for progress objects. -/
abbrev progFrom (t s : State) : Prop := ∃ prog, t = { s with prog := prog }

theorem State.setProgress_progFrom (s : State) (i : Nat) (p : Progress) : progFrom (s.setProgress i p) s := ⟨_, rfl⟩

section
variable (s : State) (stack : Nat)

/-- The line that the patrol scrub reads after the present one (12 R390). -/
def State.scrubAfter : Nat := if s.scrubAt stack + 1 = s.stackLines then 0 else s.scrubAt stack + 1

/-- The patrol scrub of a stack starts, resumes, or runs already: its own progress object alone changes. -/
theorem State.scrubRuns_eq : (∃ p, s.scrubRuns stack = s.setProgress (progScrub stack) p) ∨ s.scrubRuns stack = s := by
  simp only [State.scrubRuns]
  split_ifs
  · exact .inl ⟨_, rfl⟩
  · exact .inl ⟨_, rfl⟩
  · exact .inr rfl

theorem State.scrubRuns_progFrom : progFrom (s.scrubRuns stack) s := by
  obtain ⟨p, h⟩ | h := s.scrubRuns_eq stack <;> rw [h]
  · exact State.setProgress_progFrom ..
  · exact ⟨_, rfl⟩

theorem State.scrubRuns_progress_ne {s : State} (h : twf dProg s.prog = true) {i : Nat} (hi : i ≠ progScrub stack) :
    (s.scrubRuns stack).progress i = s.progress i := by
  obtain ⟨p, hruns⟩ | hruns := s.scrubRuns_eq stack <;> rw [hruns]
  exact tget_tset_ne h _ hi

/-- The scrub's move in its parts: a new position, with the corrections counted in a pass that ends forgotten, and its progress. -/
theorem State.scrubNext_eq : ∃ pinLines pinDone p, p.state = 1 ∧ p.position = s.scrubAfter stack ∧
    s.scrubNext stack = ({ s with mem := { s.mem with
      scrubPos := tset d0 s.mem.scrubPos stack (s.scrubAfter stack)
      pinLines := pinLines, pinDone := pinDone } } : State).setProgress (progScrub stack) p := by
  have hpos : (if s.scrubAt stack + 1 == s.stackLines then 0 else s.scrubAt stack + 1) = s.scrubAfter stack := by
    simp only [State.scrubAfter, beq_iff_eq]
  rw [← hpos]
  exact ⟨_, _, _, rfl, rfl, rfl⟩

/-- A move of the scrub leaves markings and registers. -/
theorem State.scrubNext_frame : ∃ prog scrubPos pinLines pinDone, s.scrubNext stack = { s with
    prog := prog, mem := { s.mem with scrubPos := scrubPos, pinLines := pinLines, pinDone := pinDone } } := by
  obtain ⟨_, _, _, -, -, h⟩ := s.scrubNext_eq stack
  exact ⟨_, _, _, _, h⟩

variable {s} (hs : s.wf = true)
include hs

theorem State.scrubRuns_wf : (s.scrubRuns stack).wf = true := by
  obtain ⟨p, h⟩ | h := s.scrubRuns_eq stack <;> rw [h]
  · exact State.setProgress_wf hs ..
  · exact hs

theorem State.scrubAt_scrubNext : (s.scrubNext stack).scrubAt stack = s.scrubAfter stack := by
  obtain ⟨_, _, _, -, -, h⟩ := s.scrubNext_eq stack
  rw [State.scrubAt, h, State.setProgress_mem]
  obtain ⟨-, -, -, -, -, -, hscrub, -⟩ := (Mem.wf_iff _).1 (State.wf_mem hs)
  exact tget_tset_same hscrub _ _

theorem State.progress_scrubNext : ((s.scrubNext stack).progress (progScrub stack)).state = 1 ∧
    ((s.scrubNext stack).progress (progScrub stack)).position = s.scrubAfter stack := by
  obtain ⟨_, _, p, hstate, hpos, h⟩ := s.scrubNext_eq stack
  have hp : (s.scrubNext stack).progress (progScrub stack) = p := by
    rw [h]
    exact tget_tset_same (State.wf_prog hs) _ _
  rw [hp]
  exact ⟨hstate, hpos⟩

end

section
variable {s : State} {stack : Nat} {errs : List (Nat × Nat)}

theorem exec_scrubRead_paused (h : bit (s.reg .memScrubCfg stack).toNat 31 = false) : exec (.scrubRead stack errs) s = .next s := by
  change execScrubRead stack errs s = _
  rw [execScrubRead, h]
  rfl

theorem exec_scrubRead_reads (h : bit (s.reg .memScrubCfg stack).toNat 31 = true) (hd : s.dieDown (stackDie stack) = false) :
    exec (.scrubRead stack errs) s = .next (((s.scrubRuns stack).afterRead stack (s.scrubAt stack * 64) errs true
      (s.readLine stack (s.scrubAt stack * 64) errs)).scrubNext stack) := by
  have hline : (s.scrubRuns stack).readLine stack (s.scrubAt stack * 64) errs = s.readLine stack (s.scrubAt stack * 64) errs := by
    obtain ⟨_, hruns⟩ := s.scrubRuns_progFrom stack
    rw [hruns]
    rfl
  change execScrubRead stack errs s = _
  rw [execScrubRead, h, hd, ← hline]
  rfl

/-- An uncorrectable line that the scrub reads is counted, and left poisoned. -/
theorem State.afterRead_scrub_uncorrectable (hs : s.wf = true) (off : Nat) :
    (s.afterRead stack off errs true .uncorrectable).mem.poisonAt (lineNo stack off) = true ∧
      (s.afterRead stack off errs true .uncorrectable).countedAt s .memUeCnt stack 0 := by
  obtain ⟨hwf, hcount, -⟩ := State.ueBooked_counted stack off true hs
  rw [State.afterRead_uncorrectable, if_pos rfl]
  exact ⟨(State.markLine_spec hwf _).2, countedAt_of_regs hcount (State.markLine_regs ..)⟩

end

/-! ### Training (12 R386, R391, R392) -/

section
variable (s : State) (stack : Nat)

theorem State.setErasures_told (bad : List (Nat × Nat)) : toldFrom (s.setErasures stack bad) s :=
  (toldFrom.foldl (fun _ _ => State.eraseRecorded_told ..) ..).trans (toldFrom.foldl (fun _ _ => (State.setReg_regs ..).told) ..)

/-- A stack is trained: it is out of self-refresh, and the corrections counted toward erasures start afresh (12 R386). -/
def State.trainedUp : State :=
  { s with mem := { s.mem with
      trained := tset dF s.mem.trained stack true, selfRef := tset dF s.mem.selfRef stack false
      pinLines := tkeep (fun k => k / (64 * 36) != stack) s.mem.pinLines
      pinDone := tkeep (fun k => k / (64 * 36) != stack) s.mem.pinDone } }

/-- The progress of a training that ends for a reason of R392. -/
def State.failedTraining (reason : Nat) : Progress :=
  { s.progress (progTrain stack) with state := 3, lastError := reason, position := if reason == 0x20 then 0 else 64 }

theorem State.trainedUp_setErasures {s : State} (hs : s.wf = true) (bad : List (Nat × Nat)) : ∃ regs mem err out,
    (s.setErasures stack bad).trainedUp stack = { s with regs := regs, mem := mem, err := err, out := out } ∧ tget dF mem.trained stack = true := by
  obtain ⟨_, _, _, h⟩ := s.setErasures_told stack bad
  obtain ⟨-, -, htrained, -⟩ := (Mem.wf_iff _).1 (State.wf_mem hs)
  rw [h]
  exact ⟨_, _, _, _, rfl, tget_tset_same htrained stack true⟩

end

section
variable {s : State} {stack reason : Nat} {bad : List (Nat × Nat)} (hrun : (s.progress (progTrain stack)).state = 1)
include hrun

theorem exec_hbmTrainingDone_done {t : State} (hbad : tooManyPins bad = false) (ht : t = (s.setErasures stack bad).trainedUp stack) :
    exec (.hbmTrainingDone stack 0 bad) s = .next ((t.setProgress (progTrain stack) { t.progress (progTrain stack) with
      state := 2, position := 64 }).scrubRuns stack) := by
  change execHbmTrainingDone stack 0 bad s = _
  rw [execHbmTrainingDone, hrun, hbad, ht]
  rfl

theorem exec_hbmTrainingDone_failed (h : reason ≠ 0 ∨ tooManyPins bad = true) {code : Nat} (hcode : code = if reason = 0 then 0x21 else reason)
    {t : State} (ht : t = (s.setProgress (progTrain stack) (s.failedTraining stack code)).memRecord stack 3 0
      (memPayload 5 stack 0 false false 0 0 code)) :
    exec (.hbmTrainingDone stack reason bad) s = .next (if t.starting && t.boot.stage == 3 then t.startFails code else t) := by
  have hreason : (if reason == 0 && tooManyPins bad then 0x21 else reason) = code := by
    by_cases h0 : reason = 0
    · simp [hcode, h0, h.resolve_left (absurd h0)]
    · simp [hcode, h0]
  have hne : (code == 0) = false := by
    rw [hcode]
    split
    · rfl
    next h0 => exact beq_eq_false_iff_ne.2 h0
  change execHbmTrainingDone stack reason bad s = _
  simp only [execHbmTrainingDone, hrun, hreason, hne, ht]
  rfl

end

/-! ### Markings and the lock (14 R470; 12 R380; 02 R36) -/

/-- Lines that take the marking carry it, and the others keep theirs. -/
theorem Mem.foldl_setPoison {m : Mem} (h : m.wf = true) (l : List Nat) : ∃ poison,
    l.foldl (fun m k => m.setPoison k true) m = { m with poison := poison } ∧ ∀ k, tget dF poison k = (m.poisonAt k || l.contains k) := by
  induction l generalizing m with
  | nil => exact ⟨_, rfl, fun k => by simp [Mem.poisonAt]⟩
  | cons j l ih =>
    obtain ⟨poison, hfold, hread⟩ := ih (Mem.setPoison_wf h j true)
    refine ⟨poison, hfold, fun k => ?_⟩
    rw [hread]
    by_cases hk : k = j
    · simp [hk, Mem.poisonAt_setPoison_same h]
    · simp [hk, Mem.poisonAt_setPoison_ne h true hk]

/-- The markings that a stack writes leave each line reading poisoned as before, and those of its own lines are no longer to be written. -/
theorem exec_poisonMarkWrite {s : State} (hs : s.wf = true) (stack : Nat) : ∃ t : State, exec (.poisonMarkWrite stack) s = .next t ∧
    t = { s with mem := t.mem } ∧ t.mem.bytes = s.mem.bytes ∧ (∀ l, t.mem.marked l = s.mem.marked l) ∧
      ∀ l ∈ s.mem.markDue, lineHolder l = stack → t.mem.poisonAt l = true ∧ l ∉ t.mem.markDue := by
  obtain ⟨poison, hfold, hread⟩ := Mem.foldl_setPoison (State.wf_mem hs) (s.mem.markDue.filter fun l => lineHolder l == stack)
  have hexec : exec (.poisonMarkWrite stack) s = .next { s with mem := { s.mem with
      poison := poison, markDue := s.mem.markDue.filter fun l => lineHolder l != stack } } := by
    change execPoisonMarkWrite stack s = _
    rw [execPoisonMarkWrite, hfold]
  refine ⟨_, hexec, rfl, rfl, fun l => ?_, fun l hl hstack => ⟨(hread l).trans ?_, ?_⟩⟩
  · rw [Mem.marked, Mem.poisonAt, hread, Mem.marked, Bool.eq_iff_iff]
    by_cases hstack : lineHolder l = stack <;> simp [hstack]
  · simp [hl, hstack]
  · simp [hstack]

theorem State.lockMap_free {s : State} (h : ∀ d < 4, s.dieDown d = false) (ini : Nat) :
    (s.lockMap ini).1 = { s with mem := { s.mem with mapLocked := true } } := by
  have hfind : (List.range 4).find? s.dieDown = none := List.find?_eq_none.2 fun d hd => by simp [h d (List.mem_range.1 hd)]
  rw [State.lockMap, hfind]

theorem State.lockMap_refused {s : State} {d : Nat} (hlt : d < 4) (hd : s.dieDown d = true) (hfirst : ∀ e < d, s.dieDown e = false) (ini : Nat) :
    (s.lockMap ini).1 = s.refuse ini d 0x40008 := by
  have hfind : (List.range 4).find? s.dieDown = some d := by
    rw [List.find?_range_eq_some]
    exact ⟨hd, List.mem_range.2 hlt, fun e he => by simp [hfirst e he]⟩
  rw [State.lockMap, hfind]

/-! ### The obligation -/

/-- A read of the patrol scrub. -/
theorem scrubRead_scrubs {s : State} (hs : s.wf = true) {stack : Nat} (errs : List (Nat × Nat)) (hd : s.dieDown (stackDie stack) = false)
    (hen : bit (s.reg .memScrubCfg stack).toNat 31 = true) : ∃ t : State, exec (.scrubRead stack errs) s = .next t ∧
      t = { s with mem := t.mem, prog := t.prog, regs := t.regs, err := t.err, out := t.out } ∧ t.scrubAt stack = s.scrubAfter stack ∧
      (t.progress (progScrub stack)).state = 1 ∧ (t.progress (progScrub stack)).position = t.scrubAt stack ∧
      (s.readLine stack (s.scrubAt stack * 64) errs = .uncorrectable →
        t.mem.poisonAt (lineNo stack (s.scrubAt stack * 64)) = true ∧ t.countedAt s .memUeCnt stack 0) := by
  have hruns := State.scrubRuns_wf stack hs
  obtain ⟨_, hprog⟩ := s.scrubRuns_progFrom stack
  refine ⟨_, exec_scrubRead_reads hen hd, ?_⟩
  have hwf := State.afterRead_wf stack (s.scrubAt stack * 64) errs true hruns (s.readLine stack (s.scrubAt stack * 64) errs)
  have hline := (s.scrubRuns stack).afterRead_line stack (s.scrubAt stack * 64) errs true (s.readLine stack (s.scrubAt stack * 64) errs)
  have hue : s.readLine stack (s.scrubAt stack * 64) errs = .uncorrectable → _ := fun hr =>
    hr ▸ State.afterRead_scrub_uncorrectable (stack := stack) (errs := errs) hruns (s.scrubAt stack * 64)
  generalize (s.scrubRuns stack).afterRead stack (s.scrubAt stack * 64) errs true (s.readLine stack (s.scrubAt stack * 64) errs) = v at hwf hline hue
  have hat : (v.scrubNext stack).scrubAt stack = v.scrubAfter stack := State.scrubAt_scrubNext stack hwf
  obtain ⟨hstate, hpos⟩ := State.progress_scrubNext stack hwf
  obtain ⟨_, _, _, _, hnext⟩ := v.scrubNext_frame stack
  rw [hprog] at hline hue
  refine ⟨?_, ?_, hstate, hpos.trans hat.symm, fun hr => ?_⟩
  · rw [hnext]
    obtain ⟨_, _, _, _, _, _, _, _, rfl⟩ := hline
    rfl
  · rw [hat]
    obtain ⟨_, _, _, _, _, _, _, _, rfl⟩ := hline
    rfl
  · rw [hnext]
    exact hue hr

/-- A training that ends well. -/
theorem hbmTrainingDone_trains {s : State} (hs : s.wf = true) {stack : Nat} {bad : List (Nat × Nat)}
    (hrun : (s.progress (progTrain stack)).state = 1) (hbad : tooManyPins bad = false) :
    ∃ t : State, exec (.hbmTrainingDone stack 0 bad) s = .next t ∧
      t = { s with regs := t.regs, mem := t.mem, prog := t.prog, err := t.err, out := t.out } ∧ (t.progress (progTrain stack)).state = 2 ∧
      (t.progress (progTrain stack)).position = 64 ∧ tget dF t.mem.trained stack = true := by
  obtain ⟨_, _, _, _, herased, htrained⟩ := State.trainedUp_setErasures stack hs bad
  have hprog := State.wf_prog hs
  refine ⟨_, exec_hbmTrainingDone_done hrun hbad herased.symm, ?_⟩
  set t : State := _
  generalize hp : ({ t.progress (progTrain stack) with state := 2, position := 64 } : Progress) = p
  have htrain : ((t.setProgress (progTrain stack) p).scrubRuns stack).progress (progTrain stack) = p :=
    (State.scrubRuns_progress_ne stack (twf_tset hprog ..) (by unfold progTrain progScrub; omega)).trans (tget_tset_same hprog ..)
  obtain ⟨_, hruns⟩ := (t.setProgress (progTrain stack) p).scrubRuns_progFrom stack
  rw [htrain, hruns, ← hp]
  exact ⟨rfl, rfl, rfl, htrained⟩

/-- A training that fails, in a start or outside one. -/
theorem hbmTrainingDone_fails {s : State} (hs : s.wf = true) {stack reason code : Nat} {bad : List (Nat × Nat)}
    (hrun : (s.progress (progTrain stack)).state = 1) (h : reason ≠ 0 ∨ tooManyPins bad = true)
    (hcode : code = if reason = 0 then 0x21 else reason) :
    ∃ t : State, exec (.hbmTrainingDone stack reason bad) s = .next (if s.starting = true ∧ s.boot.stage = 3 then t.startFails code else t) ∧
      t = { s with prog := t.prog, regs := t.regs, err := t.err, out := t.out, power := t.power } ∧ t.recorded s (stackDie stack) 6 3 ∧
      (t.progress (progTrain stack)).state = 3 ∧ (t.progress (progTrain stack)).lastError = code := by
  have hexec := exec_hbmTrainingDone_failed hrun h hcode rfl
  have hrec := recorded_of_err (State.memRecord_recorded stack 3 0 (memPayload 5 stack 0 false false 0 0 code)
    (State.setProgress_wf hs (progTrain stack) (s.failedTraining stack code))) (State.setProgress_err ..)
  obtain ⟨_, _, _, _, hframe⟩ := State.memRecord_alerted (s.setProgress (progTrain stack) (s.failedTraining stack code)) stack 3 0
    (memPayload 5 stack 0 false false 0 0 code)
  have hread := State.progress_setProgress_same hs (progTrain stack) (s.failedTraining stack code)
  generalize State.memRecord _ _ _ _ _ = t at hexec hrec hframe
  have hprogress : t.progress (progTrain stack) = s.failedTraining stack code := by rw [← hread, hframe]; rfl
  have hstarting : t.starting = s.starting := by rw [hframe]; rfl
  have hboot : t.boot = s.boot := by rw [hframe]; rfl
  refine ⟨t, ?_, ?_, hrec, ?_⟩
  · rw [hexec, hstarting, hboot]
    simp only [Bool.and_eq_true, beq_iff_eq]
  · rw [hframe]
    rfl
  · rw [hprogress]
    exact ⟨rfl, rfl⟩

/-- Settles O46: the scrub's move, the two ends of a training, the markings of expired writes and the lock are each one rule. -/
theorem scrubTrainingAndMarksAct : Obligations.ScrubTrainingAndMarksAct := by
  intro s stack hs
  refine ⟨fun errs hd hen => scrubRead_scrubs hs errs hd hen, fun errs h => exec_scrubRead_paused h,
    fun reason bad hrun => ⟨fun h0 hbad => ?_, ?_⟩,
    exec_poisonMarkWrite hs stack, fun ini => ⟨fun h => ?_, fun d hlt hd hfirst => ?_⟩⟩
  · subst h0
    exact hbmTrainingDone_trains hs hrun hbad
  · exact fun code h hcode => hbmTrainingDone_fails hs hrun h hcode
  · exact congrArg Host.Outcome.next (State.lockMap_free h ini)
  · exact congrArg Host.Outcome.next (State.lockMap_refused hlt hd hfirst ini)

end Sys2Proof.Machine
end

section
/-! The Lay unit (13 R443 to R448, R453): what passes on an empty queue, measured offsets, and holdover. -/

namespace Sys2Proof.Machine

/-! ### One cycle on an empty queue (13 R443, R447) -/

/-- Lay time never runs back over a cycle. -/
theorem Lay.le_tick_now (l : Lay) : l.now ≤ l.tick.now := by
  simp only [Lay.tick]
  split
  · exact Nat.le_add_right ..
  · exact Nat.le_add_right ..

/-- With no offset to remove, a cycle is the full step of Lay time, its fraction kept. -/
theorem Lay.tick_full {l : Lay} (hback : l.back = 0) (hslew : l.slew = 0) :
    l.tick.now * layFine + l.tick.rem = l.now * layFine + l.rem + layStepFull := by
  have htick : l.tick = { l with now := l.now + (l.rem + layStepFull) / layFine, rem := (l.rem + layStepFull) % layFine } := by
    rw [Lay.tick, hback, hslew]
    rfl
  have hdiv := Nat.div_add_mod (l.rem + layStepFull) layFine
  rw [htick]
  dsimp only
  rw [Nat.add_mul, Nat.mul_comm (_ / _)]
  omega

/-- Settles O2: with nothing queued a step is `idleTick`, one tick of the Lay unit. -/
theorem emptyQueueIsOneCycle : Obligations.EmptyQueueIsOneCycle := by
  intro s hs
  have hstep : step s = .next (idleTick s) := by rw [step, hs]
  exact ⟨_, hstep, rfl, s.lay.le_tick_now, Lay.tick_full⟩

/-! ### Measured offsets (13 R447) -/

theorem toldFrom.ite {p : Prop} [Decidable p] {t t' s : State} (h : toldFrom t s) (h' : toldFrom t' s) :
    toldFrom (if p then t else t') s := by
  split
  · exact h
  · exact h'

/-- A record below RECOVER tells of its event: registers, error records and what goes out may change, nothing else. -/
theorem State.record_told (s : State) (die src : Nat) {sev : Nat} (h : sev < 2) (level action index gen payload : Nat) :
    toldFrom (s.record die src sev level action index gen payload) s := by
  have hmild : ¬ 2 ≤ sev := by omega
  have hput (r : ErrRec) (p : Prop) [Decidable p] (e : ErrDie) : toldFrom ((if p then s.setErrDie die e else s).errPut die r) s :=
    (State.errPut_told ..).trans (.ite ⟨_, _, _, rfl⟩ (.refl s))
  simp only [State.record, hmild, if_false]
  exact .ite (.refl s) (.ite ((State.irqBy_told ..).trans (hput ..)) (hput ..))

theorem State.layRecord_told (s : State) (kind : Nat) (ns : Int) : toldFrom (s.layRecord kind ns) s :=
  State.record_told s _ _ (by decide) _ _ _ _ _

theorem State.flag_layRecord_told (s : State) (r : Reg) (i e m kind : Nat) (ns : Int) : toldFrom ((s.flag r i e m).layRecord kind ns) s :=
  (State.layRecord_told ..).trans (State.flag_regs ..).told

theorem toldFrom.lay {t s : State} (h : toldFrom t s) : t.lay = s.lay := by obtain ⟨_, _, _, rfl⟩ := h; rfl
theorem toldFrom.mc {t s : State} (h : toldFrom t s) : t.mc = s.mc := by obtain ⟨_, _, _, rfl⟩ := h; rfl

theorem Lay.judge_eq (l : Lay) (ns : Int) (stepNs : Nat) :
    ∃ state good, l.judge ns stepNs = { l with state := state, good := good, offset := ns } := by
  simp only [Lay.judge]
  generalize (if ns.natAbs < 50 then min (l.good + 1) 16 else 0) = good
  split
  · exact ⟨_, _, rfl⟩
  · split
    · exact ⟨_, _, rfl⟩
    · split
      · exact ⟨_, _, rfl⟩
      · exact ⟨_, _, rfl⟩

theorem Lay.judge_now (l : Lay) (ns : Int) (stepNs : Nat) : (l.judge ns stepNs).now = l.now := by
  obtain ⟨_, _, h⟩ := l.judge_eq ns stepNs; rw [h]
theorem Lay.judge_offset (l : Lay) (ns : Int) (stepNs : Nat) : (l.judge ns stepNs).offset = ns := by
  obtain ⟨_, _, h⟩ := l.judge_eq ns stepNs; rw [h]

/-- An offset beyond LAY_STEP_NS is ACQUIRING. -/
theorem Lay.judge_state_of_step {l : Lay} {ns : Int} {stepNs : Nat} (h : stepNs < ns.natAbs) : (l.judge ns stepNs).state = 1 := by
  rw [Lay.judge, if_pos h]

/-- Within LAY_STEP_NS the unit is LOCKED when it was, or after sixteen offsets in a row below 50 ns. -/
theorem Lay.judge_locked_iff {l : Lay} {ns : Int} {stepNs : Nat} (h : ns.natAbs ≤ stepNs) :
    (l.judge ns stepNs).state = 2 ↔ l.state = 2 ∨ (ns.natAbs < 50 ∧ 15 ≤ l.good) := by
  have hgood : (if ns.natAbs < 50 then min (l.good + 1) 16 else 0) = 16 ↔ ns.natAbs < 50 ∧ 15 ≤ l.good := by
    split <;> omega
  simp only [Lay.judge, Nat.not_lt.2 h, if_false, beq_iff_eq, hgood]
  split
  · simp [*]
  · split <;> simp [*]

/-- An offset within LAY_STEP_NS is left to the slew. -/
theorem State.layOffsetBy_slewed {s : State} {d : Int} (h : (nsOfLayInt d).natAbs ≤ s.dv 0x2081 0) :
    s.layOffsetBy d = { s with lay := { s.lay.judge (nsOfLayInt d) (s.dv 0x2081 0) with slew := d * layFine, back := 0 } } :=
  if_pos h

/-- A positive offset beyond LAY_STEP_NS is stepped and counted, and told of. -/
theorem State.layOffsetBy_stepped {s : State} {d : Int} (h : s.dv 0x2081 0 < (nsOfLayInt d).natAbs) (hd : 0 ≤ d) :
    toldFrom (s.layOffsetBy d) (({ s with lay := { s.lay.judge (nsOfLayInt d) (s.dv 0x2081 0) with
      now := (s.lay.now + d.toNat) % 2 ^ 64, slew := 0, back := 0 } }).mcBump 0x4099 1 1) := by
  simp only [State.layOffsetBy, Nat.not_le.2 h, if_false, if_pos hd, Lay.judge_now]
  exact State.flag_layRecord_told ..

/-- A negative offset beyond LAY_STEP_NS is run out at half rate and counted, and told of. -/
theorem State.layOffsetBy_runOut {s : State} {d : Int} (h : s.dv 0x2081 0 < (nsOfLayInt d).natAbs) (hd : d < 0) :
    toldFrom (s.layOffsetBy d) (({ s with lay := { s.lay.judge (nsOfLayInt d) (s.dv 0x2081 0) with
      slew := 0, back := d.natAbs * layFine } }).mcBump 0x4099 2 1) := by
  simp only [State.layOffsetBy, Nat.not_le.2 h, if_false, Int.not_le.2 hd]
  exact State.flag_layRecord_told ..

/-- What a measured offset may change: the Lay unit, counters of the management controller, and what is told. -/
abbrev offsetFrom (t s : State) : Prop := ∃ lay mc regs err out, t = { s with lay := lay, mc := mc, regs := regs, err := err, out := out }

theorem toldFrom.offset {t u s : State} (h : toldFrom t u) (k : offsetFrom u s) : offsetFrom t s := by
  obtain ⟨_, _, _, rfl⟩ := h; obtain ⟨_, _, _, _, _, rfl⟩ := k; exact ⟨_, _, _, _, _, rfl⟩

theorem State.layOffsetBy_from (s : State) (d : Int) : offsetFrom (s.layOffsetBy d) s := by
  by_cases h : (nsOfLayInt d).natAbs ≤ s.dv 0x2081 0
  · exact ⟨_, _, _, _, _, State.layOffsetBy_slewed h⟩
  · obtain hd | hd := le_or_gt 0 d
    · exact (State.layOffsetBy_stepped (Nat.lt_of_not_le h) hd).offset ⟨_, _, _, _, _, rfl⟩
    · exact (State.layOffsetBy_runOut (Nat.lt_of_not_le h) hd).offset ⟨_, _, _, _, _, rfl⟩

theorem offsetFrom.eq_self {t s : State} (h : offsetFrom t s) :
    t = { s with lay := t.lay, mc := t.mc, regs := t.regs, err := t.err, out := t.out } := by
  obtain ⟨_, _, _, _, _, rfl⟩ := h; rfl

/-- Telling leaves the counters of the management controller. -/
theorem toldFrom.mcv_bump {t s : State} {i k : Nat} (h : toldFrom t (s.mcBump i k 1)) (hs : s.wf = true) :
    t.mcv i k = min (s.mcv i k + 1) 0xFFFFFFFF := by
  have hmcv : t.mcv i k = (s.mcBump i k 1).mcv i k := by rw [State.mcv, h.mc]; rfl
  rw [hmcv, State.mcBump_mcv hs, sat32]

theorem State.layOffsetBy_offset (s : State) (d : Int) : (s.layOffsetBy d).lay.offset = nsOfLayInt d := by
  have hj := s.lay.judge_offset (nsOfLayInt d) (s.dv 0x2081 0)
  by_cases h : (nsOfLayInt d).natAbs ≤ s.dv 0x2081 0
  · rw [State.layOffsetBy_slewed h]; exact hj
  · obtain hd | hd := le_or_gt 0 d
    · rw [(State.layOffsetBy_stepped (Nat.lt_of_not_le h) hd).lay]; exact hj
    · rw [(State.layOffsetBy_runOut (Nat.lt_of_not_le h) hd).lay]; exact hj

/-! ### PPS edges (13 R445; 17 R555, R564) -/

theorem exec_layPpsEdge (phase : Int) (s : State) : exec (.layPpsEdge phase) s = .next (s.ppsEdge phase).settle := rfl

theorem State.ppsEdge_ignored {s : State} {phase : Int} (h : s.laySource ≠ 0 ∨ s.lay.refLost = true) : s.ppsEdge phase = s := by
  have hc : (s.laySource != 0 || s.lay.refLost) = true := by simpa using h
  rw [State.ppsEdge, if_pos hc]

/-- The time of the edge, rounded to whole seconds, is at most half a second away; half a second rounds up. -/
theorem round_second (at' : Int) : -(2 ^ 31) < (at' + 2 ^ 31) / 2 ^ 32 * 2 ^ 32 - at' ∧ (at' + 2 ^ 31) / 2 ^ 32 * 2 ^ 32 - at' ≤ 2 ^ 31 ∧
    (at' + ((at' + 2 ^ 31) / 2 ^ 32 * 2 ^ 32 - at')) % 2 ^ 32 = 0 := by
  omega

/-- An edge measures the offset from the seconds written to LAY_SET, or from the nearest whole second. -/
theorem State.ppsEdge_measures {s : State} {phase at' : Int} (hsource : s.laySource = 0) (href : s.lay.refLost = false)
    (hat : at' = (s.lay.now : Int) + (phase * 2 ^ 32).tdiv (10 ^ 9) - layOfPs (sInt 32 (s.dv 0x2085 0))) :
    ∃ d : Int, s.ppsEdge phase = ({ s with lay := { s.lay with setSec := none, ppsCyc := s.cycle } }).layOffsetBy d ∧
      (∀ n, s.lay.setSec = some n → d = (n : Int) * 2 ^ 32 - at') ∧
      (s.lay.setSec = none → -(2 ^ 31) < d ∧ d ≤ 2 ^ 31 ∧ (at' + d) % 2 ^ 32 = 0) := by
  have hc : ¬ (s.laySource != 0 || s.lay.refLost) = true := by simp [hsource, href]
  rw [State.ppsEdge, if_neg hc, ← hat]
  cases s.lay.setSec with
  | some n => exact ⟨_, rfl, fun m hm => by rw [Option.some.inj hm], nofun⟩
  | none => exact ⟨_, rfl, nofun, fun _ => round_second at'⟩

/-- Settles O18: `ppsEdge_measures`, and the three ways an offset is removed. -/
theorem ppsEdgesMeasureOffsetsWhichAreRemoved : Obligations.PpsEdgesMeasureOffsetsWhichAreRemoved := by
  refine ⟨fun s phase => ⟨fun hsource href at' hat => ?_, fun h => ?_, fun _ _ => rfl⟩, fun s d =>
    ⟨_, rfl, s.layOffsetBy_offset d, (s.layOffsetBy_from d).eq_self, fun h => ?_, fun h => ?_⟩⟩
  · obtain ⟨d, hd, hmeasured⟩ := State.ppsEdge_measures hsource href hat
    exact ⟨d, hd ▸ exec_layPpsEdge .., hmeasured⟩
  · rw [exec_layPpsEdge, State.ppsEdge_ignored h]
  · rw [State.layOffsetBy_slewed h]
    exact ⟨Lay.judge_now .., rfl, rfl, rfl, rfl, Lay.judge_locked_iff h⟩
  · have hstate := Lay.judge_state_of_step (l := s.lay) h
    obtain hd | hd := le_or_gt 0 d
    · have htold := State.layOffsetBy_stepped h hd
      have hlay := htold.lay
      refine ⟨(congrArg Lay.state hlay).trans hstate, congrArg Lay.slew hlay, fun _ => ⟨congrArg Lay.now hlay, congrArg Lay.back hlay, ?_⟩,
        fun hneg => absurd hd (Int.not_le.2 hneg)⟩
      exact fun hs => htold.mcv_bump (i := 0x4099) hs
    · have htold := State.layOffsetBy_runOut h hd
      have hlay := htold.lay
      refine ⟨(congrArg Lay.state hlay).trans hstate, congrArg Lay.slew hlay, fun hpos => absurd hpos (Int.not_le.2 hd),
        fun _ => ⟨(congrArg Lay.now hlay).trans (Lay.judge_now ..), congrArg Lay.back hlay, ?_⟩⟩
      exact fun hs => htold.mcv_bump (i := 0x4099) hs

/-! ### Holdover and the exchange with the parent (13 R445, R446, R448) -/

theorem State.layHoldover_holdoverOf (s : State) : s.layHoldover.holdoverOf s s.lay.refLost := by
  rw [State.layHoldover]
  split
  next h => exact ⟨by simpa using h, rfl, rfl, fun hne => absurd (by simpa using h) hne, rfl⟩
  next h =>
    obtain ⟨regs, err, out, hin⟩ := State.flag_layRecord_told { s with lay := { s.lay with
      state := 3, errNs := s.layErrNs, errCyc := s.cycle, good := 0, parent := 0xFF } } .laySts 4 0 1 1 s.lay.offset
    rw [hin]
    exact ⟨rfl, rfl, rfl, fun _ => ⟨rfl, rfl⟩, rfl⟩

theorem exec_layPpsLoss {s : State} (hsource : s.laySource = 0) (hlate : s.lay.ppsCyc + 3150000000 ≤ s.cycle) :
    exec .layPpsLoss s = .next s.layHoldover := by
  have hc : (s.laySource == 0 && decide (s.lay.ppsCyc + 3150000000 ≤ s.cycle)) = true := by simp [hsource, hlate]
  exact congrArg Host.Outcome.next (if_pos hc)

theorem exec_layRefLoss {s : State} (hsource : s.laySource = 0) :
    exec .layRefLoss s = .next ({ s with lay := { s.lay with refLost := true } }).layHoldover :=
  congrArg Host.Outcome.next (if_pos (by simp [hsource]))

theorem exec_layRefReturn {s : State} (hlost : s.lay.refLost = true) :
    exec .layRefReturn s = .next { s with lay := { s.lay with
      refLost := false, good := 0, ppsCyc := s.cycle, state := if s.lay.state = 3 then 1 else s.lay.state } } := by
  have hstate : (if (s.lay.state == 3) = true then 1 else s.lay.state) = if s.lay.state = 3 then 1 else s.lay.state := by simp
  rw [← hstate]
  exact congrArg Host.Outcome.next (if_pos hlost)

/-- A port of which time is taken is up, and LAY_PORT_LIST lists it. -/
theorem State.layPort_listed {s : State} {p : Nat} (h : s.layPort = some p) : p < 18 ∧ s.portUp p = true ∧
    p ∈ [bits (s.reg .layCfg 4).toNat 4 0, bits (s.reg .layCfg 4).toNat 12 8] := by
  rw [State.layPort] at h
  have hgood := List.find?_some h
  simp only [Bool.and_eq_true, decide_eq_true_eq] at hgood
  obtain ⟨⟨⟨⟨hp, hup⟩, -⟩, -⟩, -⟩ := hgood
  exact ⟨hp, hup, List.mem_of_find?_eq_some h⟩

/-- The Lay unit of `s` once it has taken its parent at port `p`. -/
def State.layParented (s : State) (p : Nat) : Lay :=
  { s.lay with
    syncCyc := s.cycle
    state := if s.lay.state == 0 || s.lay.state == 3 then 1 else s.lay.state
    good := if s.lay.parent == p then s.lay.good else 0
    parent := p
    errNs := (s.port p).nbrErr }

section
variable {s : State} (hsource : s.laySource = 1) (hdue : s.lay.syncCyc + 2100000 ≤ s.cycle)
include hsource hdue

theorem State.laySyncTick_due : ¬ (s.laySource != 1 || decide (s.cycle < s.lay.syncCyc + cycOfMs 1)) = true := by
  simp [hsource, cycOfMs, hdue]

/-- With a port to take time from, the unit sends the port its time. -/
theorem exec_laySyncTick_some {p : Nat} (hp : s.layPort = some p) : ∃ pkt : Packet,
    exec .laySyncTick s = .next (({ s with lay := s.layParented p }).portSend p pkt) ∧ pkt.kind = 0x20 ∧ pkt.body = leBytes 8 s.lay.now := by
  have hp' : ({ s with lay := { s.lay with syncCyc := s.cycle } }).layPort = some p := hp
  have hexec : exec .laySyncTick s = .next s.laySyncTick := rfl
  rw [hexec, State.laySyncTick, if_neg (State.laySyncTick_due hsource hdue)]
  simp only [hp']
  exact ⟨_, rfl, rfl, rfl⟩

/-- With none it is in HOLDOVER. -/
theorem exec_laySyncTick_none (hp : s.layPort = none) :
    exec .laySyncTick s = .next ({ s with lay := { s.lay with syncCyc := s.cycle } }).layHoldover := by
  have hp' : ({ s with lay := { s.lay with syncCyc := s.cycle } }).layPort = none := hp
  have hexec : exec .laySyncTick s = .next s.laySyncTick := rfl
  rw [hexec, State.laySyncTick, if_neg (State.laySyncTick_due hsource hdue)]
  simp only [hp']

end

theorem State.layParented_state (s : State) (p : Nat) : (s.lay.state = 0 ∨ s.lay.state = 1 ∨ s.lay.state = 3 → (s.layParented p).state = 1) ∧
    (s.lay.state = 2 → (s.layParented p).state = 2) := by
  refine ⟨fun h => ?_, fun h => ?_⟩
  · obtain h | h | h := h <;> simp [State.layParented, h]
  · simp [State.layParented, h]

/-- An exchange with the parent gives the offset of its four times. -/
theorem exec_laySync {s : State} {port : Nat} (hsource : s.laySource = 1) (hparent : s.lay.parent = port) (hport : port < 18)
    (t1 t2 t3 t4 : Nat) : exec (.laySync port t1 t2 t3 t4) s
      = .next ((s.layOffsetBy ((((t2 : Int) - t1) - ((t4 : Int) - t3)).tdiv 2)).settle) :=
  congrArg Host.Outcome.next (if_pos (by simp [hsource, hparent, hport]))

/-- Settles O19: every loss is `layHoldover`, which is HOLDOVER with its error kept. -/
theorem losingTheReferenceIsHoldover : Obligations.LosingTheReferenceIsHoldover := by
  refine fun s => ⟨fun hsource hlate => ⟨_, exec_layPpsLoss hsource hlate, s.layHoldover_holdoverOf⟩,
    fun hsource => ⟨_, exec_layRefLoss hsource, State.layHoldover_holdoverOf { s with lay := { s.lay with refLost := true } }⟩,
    exec_layRefReturn, fun hsource hdue => ⟨fun p hp => ?_, fun hp => ⟨_, exec_laySyncTick_none hsource hdue hp,
      State.layHoldover_holdoverOf { s with lay := { s.lay with syncCyc := s.cycle } }⟩⟩,
    fun port t1 t2 t3 t4 hsource hparent hport => exec_laySync hsource hparent hport t1 t2 t3 t4⟩
  obtain ⟨hp18, hup, hlisted⟩ := State.layPort_listed hp
  obtain ⟨hacquire, hlocked⟩ := s.layParented_state p
  obtain ⟨pkt, hexec, hkind, hbody⟩ := exec_laySyncTick_some hsource hdue hp
  exact ⟨hp18, hup, hlisted, s.layParented p, pkt, hexec, rfl, rfl, rfl, hacquire, hlocked, hkind, hbody⟩

end Sys2Proof.Machine
end

section
/-! The modes of the state that have codes, the Lay STATE and BOOT_STAGE: what every operation of the model beside starts, resets and the
Lay unit does to them, which is nothing (13 R453; 15 R508). -/

namespace Sys2Proof.Machine

/-- The modes of the state that have codes: the Lay STATE and BOOT_STAGE (13 R453; 15 R508). -/
def State.modes (s : State) : Nat × Nat := (s.lay.state, s.boot.stage)

@[simp] theorem State.modes_mk (a₁ a₂ a₃ a₄ a₅ a₆ a₇ a₈ a₉ b₀ b₁ b₂ b₃ b₄ b₅ b₆ b₇ b₈ b₉ c₀ c₁ c₂ c₃ c₄ c₅ c₆ c₇ c₈ c₉ d₀ d₁ d₂ d₃ d₄ d₅ d₆ d₇ d₈ d₉
    e₀ e₁ e₂ e₃ e₄ e₅ e₆ e₇ e₈ e₉ f₀ f₁ f₂ f₃ f₄ f₅) (lay : Lay) (boot : Boot) (power out freeCtr) :
    State.modes ⟨a₁, a₂, a₃, a₄, a₅, a₆, a₇, a₈, a₉, b₀, b₁, b₂, b₃, b₄, b₅, b₆, b₇, b₈, b₉, c₀, c₁, c₂, c₃, c₄, c₅, c₆, c₇, c₈, c₉, d₀, d₁, d₂, d₃, d₄, d₅,
      d₆, d₇, d₈, d₉, e₀, e₁, e₂, e₃, e₄, e₅, e₆, e₇, e₈, e₉, f₀, f₁, f₂, f₃, f₄, f₅, lay, boot, power, out, freeCtr⟩ = (lay.state, boot.stage) := by
  rw [State.modes]

theorem State.modes_of {t s : State} (hl : t.lay = s.lay) (hb : t.boot = s.boot) : t.modes = s.modes := by
  rw [State.modes, hl, hb, State.modes]

@[simp] theorem State.modes_pair (s : State) : (s.lay.state, s.boot.stage) = s.modes := by rw [State.modes]
@[simp] theorem State.modes_ite (p : Prop) [Decidable p] (t u : State) : (if p then t else u).modes = if p then t.modes else u.modes := apply_ite ..

@[simp] theorem State.modes_foldl {α : Type} {f : State → α → State} (hf : ∀ s a, (f s a).modes = s.modes) (l : List α) (s : State) :
    (l.foldl f s).modes = s.modes := by
  induction l generalizing s with
  | nil => rfl
  | cons a l ih => exact (ih (f s a)).trans (hf s a)

@[simp] theorem State.setReg_modes (s : State) (r : Reg) (i e : Nat) (v : Word) : (s.setReg r i e v).modes = s.modes :=
  State.modes_of (State.setReg_lay ..) (State.setReg_boot ..)

@[simp] theorem State.bump_modes (s : State) (r : Reg) (i e n : Nat) : (s.bump r i e n).modes = s.modes :=
  State.modes_of (State.bump_lay ..) (State.bump_boot ..)

@[simp] theorem State.flag_modes (s : State) (r : Reg) (i e m : Nat) : (s.flag r i e m).modes = s.modes :=
  State.modes_of (State.flag_lay ..) (State.flag_boot ..)

@[simp] theorem State.setDv_modes (s : State) (i j v : Nat) : (s.setDv i j v).modes = s.modes :=
  State.modes_of (State.setDv_lay ..) (State.setDv_boot ..)

@[simp] theorem State.setMc_modes (s : State) (i j v : Nat) : (s.setMc i j v).modes = s.modes :=
  State.modes_of (State.setMc_lay ..) (State.setMc_boot ..)

@[simp] theorem State.mcBump_modes (s : State) (i j n : Nat) : (s.mcBump i j n).modes = s.modes :=
  State.modes_of (State.mcBump_lay ..) (State.mcBump_boot ..)

@[simp] theorem State.emit_modes (s : State) (o : Out) : (s.emit o).modes = s.modes := State.modes_of (State.emit_lay ..) (State.emit_boot ..)

@[simp] theorem State.bumpGen_modes (s : State) (l i : Nat) : (s.bumpGen l i).modes = s.modes :=
  State.modes_of (State.bumpGen_lay ..) (State.bumpGen_boot ..)

@[simp] theorem State.setErrDie_modes (s : State) (d : Nat) (x : ErrDie) : (s.setErrDie d x).modes = s.modes :=
  State.modes_of (State.setErrDie_lay ..) (State.setErrDie_boot ..)

@[simp] theorem State.setFid_modes (s : State) (f : Nat) (x : Fid) : (s.setFid f x).modes = s.modes :=
  State.modes_of (State.setFid_lay ..) (State.setFid_boot ..)

@[simp] theorem State.setSnarl_modes (s : State) (a k : Nat) (x : Option Snarl) : (s.setSnarl a k x).modes = s.modes :=
  State.modes_of (State.setSnarl_lay ..) (State.setSnarl_boot ..)

@[simp] theorem State.putCleat_modes (s : State) (d i : Nat) (v : Word) : (s.putCleat d i v).modes = s.modes :=
  State.modes_of (State.putCleat_lay ..) (State.putCleat_boot ..)

@[simp] theorem State.setItem_modes (s : State) (r k : Nat) (x : Option Item) : (s.setItem r k x).modes = s.modes :=
  State.modes_of (State.setItem_lay ..) (State.setItem_boot ..)

@[simp] theorem State.setGuard_modes (s : State) (i d : Nat) (g : Option Guard) : (s.setGuard i d g).modes = s.modes :=
  State.modes_of (State.setGuard_lay ..) (State.setGuard_boot ..)

@[simp] theorem State.setMbx_modes (s : State) (i d : Nat) (b : MbxBank) : (s.setMbx i d b).modes = s.modes :=
  State.modes_of (State.setMbx_lay ..) (State.setMbx_boot ..)

@[simp] theorem State.setDic_modes (s : State) (i : Nat) (b : DicBank) : (s.setDic i b).modes = s.modes :=
  State.modes_of (State.setDic_lay ..) (State.setDic_boot ..)

@[simp] theorem State.setObs_modes (s : State) (i j v : Nat) : (s.setObs i j v).modes = s.modes :=
  State.modes_of (State.setObs_lay ..) (State.setObs_boot ..)

@[simp] theorem State.setProgress_modes (s : State) (i : Nat) (p : Progress) : (s.setProgress i p).modes = s.modes :=
  State.modes_of (State.setProgress_lay ..) (State.setProgress_boot ..)

@[simp] theorem State.setStep_modes (s : State) (k : Nat) (x : StepSlot) : (s.setStep k x).modes = s.modes :=
  State.modes_of (State.setStep_lay ..) (State.setStep_boot ..)

@[simp] theorem State.setTracker_modes (s : State) (t : Nat) (x : Tracker) : (s.setTracker t x).modes = s.modes :=
  State.modes_of (State.setTracker_lay ..) (State.setTracker_boot ..)

@[simp] theorem State.setPort_modes (s : State) (p : Nat) (x : Port) : (s.setPort p x).modes = s.modes :=
  State.modes_of (State.setPort_lay ..) (State.setPort_boot ..)

@[simp] theorem State.setColl_modes (s : State) (k : Nat) (c : Option Coll) : (s.setColl k c).modes = s.modes :=
  State.modes_of (State.setColl_lay ..) (State.setColl_boot ..)

@[simp] theorem State.setSpill_modes (s : State) (c : Nat) (l : List SpillTok) : (s.setSpill c l).modes = s.modes :=
  State.modes_of (State.setSpill_lay ..) (State.setSpill_boot ..)

@[simp] theorem State.setLayer_modes (s : State) (l : Nat) (x : LayerRec) : (s.setLayer l x).modes = s.modes :=
  State.modes_of (State.setLayer_lay ..) (State.setLayer_boot ..)

@[simp] theorem State.putSession_modes (s : State) (x : Session) : (s.putSession x).modes = s.modes :=
  State.modes_of (State.putSession_lay ..) (State.putSession_boot ..)

/-! ### Updates already told apart -/
theorem regsFrom.modes {t s : State} (h : regsFrom t s) : t.modes = s.modes := by obtain ⟨_, rfl⟩ := h; rfl
theorem itemsFrom.modes {t s : State} (h : itemsFrom t s) : t.modes = s.modes := by obtain ⟨_, _, rfl⟩ := h; rfl
theorem ranFrom.modes {t s : State} (h : ranFrom t s) : t.modes = s.modes := by obtain ⟨_, _, _, _, rfl⟩ := h.frame; rfl
/-- Steps that each keep the modes keep them in sequence; `st` gives the state of what is carried from step to step. -/
theorem State.modes_foldl_of {α β : Type} {st : β → State} {f : β → α → β} (hf : ∀ b a, (st (f b a)).modes = (st b).modes) (l : List α) (b : β) :
    (st (l.foldl f b)).modes = (st b).modes := by
  induction l generalizing b with
  | nil => rfl
  | cons a l ih => exact (ih (f b a)).trans (hf b a)

@[simp] theorem State.modes_foldl_fst {α β : Type} {f : State × β → α → State × β} (hf : ∀ p a, (f p a).1.modes = p.1.modes) (l : List α)
    (p : State × β) : (l.foldl f p).1.modes = p.1.modes := State.modes_foldl_of (st := Prod.fst) hf l p

/-! ### The operations of the model keep the modes, each by those it is made of -/

@[simp] theorem State.reply_modes (s : State) (d : Datagram) (key : List Byte) (opcode session seq status flags : Nat) (payload : List Byte) :
    (s.reply d key opcode session seq status flags payload).modes = s.modes := by
  simp [State.reply]

@[simp] theorem State.agOpen_modes (s : State) (d : Datagram) : (s.agOpen d).modes = s.modes := by
  unfold State.agOpen; split <;> simp

@[simp] theorem State.endSession_modes (s : State) (id : Nat) : (s.endSession id).modes = s.modes := by simp [State.endSession]
@[simp] theorem State.lapse_modes (s : State) (id : Nat) : (s.lapse id).modes = s.modes := by simp [State.lapse]

@[simp] theorem State.agClaim_modes (s : State) (id : Nat) (p : List Byte) : (s.agClaim id p).2.modes = s.modes := by
  unfold State.agClaim; dsimp only; repeat' split
  all_goals simp

@[simp] theorem State.agRelease_modes (s : State) : (s.agRelease).2.modes = s.modes := by simp [State.agRelease]
@[simp] theorem State.wr_modes (s : State) (a : Nat) (bs : List Byte) (bad : Bool) : (s.wr a bs bad).modes = s.modes := (State.wr_ran ..).modes

@[simp] theorem State.setRecField_modes (s : State) (seq layer off n v : Nat) : (s.setRecField seq layer off n v).modes = s.modes := by
  unfold State.setRecField; split <;> simp

@[simp] theorem State.advanceRec_modes (s : State) (seq layer len pos : Nat) : (s.advanceRec seq layer len pos).modes = s.modes := by
  simp [State.advanceRec]

@[simp] theorem State.wrMarks_modes (s : State) (a : Nat) (l : List (Byte × Bool)) : (s.wrMarks a l).modes = s.modes := (State.wrMarks_ran ..).modes
@[simp] theorem State.mergeLine_modes (s : State) (m : LineMerge) : (s.mergeLine m).modes = s.modes := (State.mergeLine_ran ..).modes

@[simp] theorem State.writeHalf_modes (s : State) (l : KvLay) (dat sl out tag slot : Nat) (bytes : List Byte) (blocks : List
    (Nat × List Nat)) (bad : Bool) :
    (s.writeHalf l dat sl out tag slot bytes blocks bad).modes = s.modes := by
  simp [State.writeHalf]

@[simp] theorem State.writeTok_modes (s : State) (l : KvLay) (page : Nat) (t : SpillTok) : (s.writeTok l page t).modes = s.modes := by
  simp [State.writeTok]

@[simp] theorem State.irqBy_modes (s : State) (cfg : Word) (cause detail : Nat) : (s.irqBy cfg cause detail).modes = s.modes := by
  simp [State.irqBy]

@[simp] theorem State.ateEvent_modes (s : State) (die m : Nat) : (s.ateEvent die m).modes = s.modes := by simp [State.ateEvent]
@[simp] theorem State.atePop_modes (s : State) (die : Nat) : (s.atePop die).2.modes = s.modes := by simp [State.atePop]

@[simp] theorem State.takePage_modes (s : State) (r : KvRec) (home seq layer p pte ring coarse pos : Nat) :
    (s.takePage r home seq layer p pte ring coarse pos).1.modes = s.modes := by
  simp only [State.takePage, State.wr_modes, State.atePop_modes]

theorem State.drainOne_modes {s t : State} {cluster : Nat} {k : SpillTok} (h : s.drainOne cluster = some (t, k)) : t.modes = s.modes := by
  unfold State.drainOne at h
  split at h
  · cases h
  · split at h
    · cases h
    · extract_lets home l p ring done at h
      have hdone (u : State) (page : Nat) : (done u page).1.modes = u.modes := by simp [done]
      split at h
      · cases h
      · split at h
        · obtain ⟨e, -, he⟩ := Option.map_eq_some_iff.1 h
          exact (congrArg (fun r => r.1.modes) he).symm.trans (hdone ..)
        · split at h
          · split at h
            · cases h
            · exact (congrArg (fun r => r.1.modes) (Option.some.inj h)).symm.trans ((hdone ..).trans (State.takePage_modes ..))
          · cases h

@[simp] theorem State.putPiece_modes (s : State) (p : Piece) (v : Nat) : (s.putPiece p v).modes = s.modes := by simp [State.putPiece]

@[simp] theorem State.homeClear_modes (s : State) (d : DEntry) (idx sub : Nat) : (s.homeClear d idx sub).modes = s.modes := by
  unfold State.homeClear; split <;> simp

@[simp] theorem State.entryRead_modes (s : State) (d : DEntry) (idx sub : Nat) (clear : Bool) :
    (s.entryRead d idx sub clear).2.2.modes = s.modes := by
  unfold State.entryRead; dsimp only; split
  · simp
  · split <;> simp

@[simp] theorem State.dictRead_modes (s : State) (idx sub : Nat) (clear : Bool) : (s.dictRead idx sub clear).2.modes = s.modes := by
  unfold State.dictRead; repeat' split
  all_goals simp

@[simp] theorem State.agReadOne_modes (s : State) (owner : Bool) (idx sub : Nat) : (s.agReadOne owner idx sub).2.modes = s.modes := by
  unfold State.agReadOne; split <;> simp

@[simp] theorem State.agRead_modes (s : State) (owner : Bool) (p : List Byte) : (s.agRead owner p).2.modes = s.modes := by
  unfold State.agRead; dsimp only; split
  · simp
  · split <;> simp

@[simp] theorem State.agReadMulti_modes (s : State) (owner : Bool) (p : List Byte) : (s.agReadMulti owner p).2.modes = s.modes := by
  unfold State.agReadMulti
  dsimp only
  split
  · rfl
  · split
    · rfl
    · exact State.modes_foldl_of (st := fun a : List Byte × Bool × State => a.2.2) (fun _ _ => State.agReadOne_modes ..) ..

@[simp] theorem State.refuse_modes (s : State) (ini die off : Nat) : (s.refuse ini die off).modes = s.modes := by simp [State.refuse]

@[simp] theorem State.entryRefuse_modes (s : State) (ini : Nat) (d : DEntry) (idx sub : Nat) : (s.entryRefuse ini d idx sub).1.modes = s.modes := by
  simp [State.entryRefuse]

@[simp] theorem State.snarlWords_modes (s : State) (area : Nat) (ws : List (Nat × Nat)) : (s.snarlWords area ws).modes = s.modes := by
  simp [State.snarlWords]

@[simp] theorem State.putSnarl_modes (s : State) (area slot : Nat) (x : Snarl) : (s.putSnarl area slot x).modes = s.modes := by
  simp [State.putSnarl]

@[simp] theorem State.modSnarl_modes (s : State) (key : Nat) (f : Snarl → Snarl) : (s.modSnarl key f).modes = s.modes := by
  unfold State.modSnarl; split <;> simp

@[simp] theorem State.snarlAckAll_modes (s : State) (area mask : Nat) : (s.snarlAckAll area mask).modes = s.modes := by simp [State.snarlAckAll]
@[simp] theorem State.rampFlag_modes (s : State) (e set clear : Nat) : (s.rampFlag e set clear).modes = s.modes := by simp [State.rampFlag]
@[simp] theorem State.errPut_modes (s : State) (die : Nat) (r : ErrRec) : (s.errPut die r).modes = s.modes := by simp [State.errPut]
@[simp] theorem State.alert_modes (s : State) (m : Nat) : (s.alert m).modes = s.modes := by simp [State.alert]

@[simp] theorem State.record_modes (s : State) (die src sev level action index gen payload : Nat) :
    (s.record die src sev level action index gen payload).modes = s.modes := by
  simp [State.record]

@[simp] theorem State.pwrRecord_modes (s : State) (kind sev action level index region unit value limit : Nat) :
    (s.pwrRecord kind sev action level index region unit value limit).modes = s.modes := by
  simp [State.pwrRecord]

@[simp] theorem State.rampStart_modes (s : State) (e : Nat) : (s.rampStart e).modes = s.modes := by
  unfold State.rampStart; split <;> simp

@[simp] theorem State.rampSweep_modes (s : State) : s.rampSweep.modes = s.modes := by simp [State.rampSweep]
@[simp] theorem State.routeDrop_modes (s : State) (die : Nat) : (s.routeDrop die).modes = s.modes := by simp [State.routeDrop]

@[simp] theorem State.frameOut_modes (s : State) (p seq : Nat) (nak retrain : Bool) (cells : List (Packet × Nat)) :
    (s.frameOut p seq nak retrain cells).modes = s.modes := by
  simp [State.frameOut]

@[simp] theorem State.newFrame_modes (s : State) (p : Nat) (nak retrain : Bool) (cells : List (Packet × Nat)) :
    (s.newFrame p nak retrain cells).modes = s.modes := by
  simp [State.newFrame]

@[simp] theorem State.pump_modes (s : State) (p : Nat) : (s.pump p).modes = s.modes := by simp [State.pump]
@[simp] theorem State.portSend_modes (s : State) (p : Nat) (q : Packet) : (s.portSend p q).modes = s.modes := by simp [State.portSend]

@[simp] theorem State.sendFrom_modes (s : State) (die : Nat) (p : Packet) : (s.sendFrom die p).modes = s.modes := by
  unfold State.sendFrom; split <;> simp

@[simp] theorem State.sendPacket_modes (s : State) (p : Packet) : (s.sendPacket p).modes = s.modes := by simp [State.sendPacket]

@[simp] theorem State.sendControl_modes (s : State) (kind dst : Nat) (body : List Byte) : (s.sendControl kind dst body).modes = s.modes := by
  simp [State.sendControl]

@[simp] theorem State.abortColl_modes (s : State) (c : Coll) : (s.abortColl c).modes = s.modes := by simp [State.abortColl]

@[simp] theorem State.collSweep_modes (s : State) : s.collSweep.modes = s.modes := by
  refine State.modes_foldl (fun s e => ?_) ..
  split
  · split <;> simp
  · rfl

@[simp] theorem State.contribute_modes (s : State) (x : Item) (st : Nat) : (s.contribute x st).modes = s.modes := by simp [State.contribute]

@[simp] theorem State.flagUnits_modes (s : State) (r : Reg) (region units m : Nat) : (s.flagUnits r region units m).modes = s.modes := by
  simp [State.flagUnits]

@[simp] theorem State.putResult_modes (s : State) (slot : Nat) (v : Quad × Bool) : (s.putResult slot v).modes = s.modes := by simp [State.putResult]
@[simp] theorem State.fireArms_modes (s : State) (die i v : Nat) : (s.fireArms die i v).modes = s.modes := by simp [State.fireArms]
@[simp] theorem State.wakeHolds_modes (s : State) (die i v : Nat) : (s.wakeHolds die i v).modes = s.modes := by simp [State.wakeHolds]
@[simp] theorem State.wakeItems_modes (s : State) (die i v : Nat) : (s.wakeItems die i v).modes = s.modes := by simp [State.wakeItems]

@[simp] theorem State.cleatApply_modes (s : State) (die i : Nat) (o : CleatOp) : (s.cleatApply die i o).modes = s.modes := by
  simp [State.cleatApply]

@[simp] theorem State.holdOp_modes (s : State) (issuer die i : Nat) (o : CleatOp) : (s.holdOp issuer die i o).modes = s.modes := by
  simp [State.holdOp]

@[simp] theorem State.zeroNotice_modes (s : State) (die i before : Nat) : (s.zeroNotice die i before).modes = s.modes := by
  unfold State.zeroNotice; dsimp only; repeat' split
  all_goals simp

@[simp] theorem State.cleatOp_modes (s : State) (issuer die i : Nat) (o : CleatOp) : (s.cleatOp issuer die i o).modes = s.modes := by
  unfold State.cleatOp; repeat' split
  all_goals simp

@[simp] theorem State.refOp_modes (s : State) (home w : Nat) (o : CleatOp) : (s.refOp home w o).modes = s.modes := by simp [State.refOp]
@[simp] theorem State.releasePin_modes (s : State) (seq : Nat) (p : Pin) : (s.releasePin seq p).modes = s.modes := by simp [State.releasePin]

@[simp] theorem State.dropPin_modes (s : State) (x : Item) : (s.dropPin x).1.modes = s.modes := by
  unfold State.dropPin; split <;> simp

@[simp] theorem State.sendTracked_modes (s : State) (kind dst region slot sig : Nat) (body : List Byte) (bad : Bool) :
    (s.sendTracked kind dst region slot sig body bad).modes = s.modes := by
  simp [State.sendTracked]

@[simp] theorem State.issueSignal_modes (s : State) (region slot k w : Nat) : (s.issueSignal region slot k w).modes = s.modes := by
  simp [State.issueSignal]

@[simp] theorem State.releaseSlot_modes (s : State) (region slot : Nat) (x : Item) (status : Nat) :
    (s.releaseSlot region slot x status).modes = s.modes := by
  simp [State.releaseSlot]

@[simp] theorem State.putRecord_modes (s : State) (region ring r : Nat) : (s.putRecord region ring r).modes = s.modes := by
  unfold State.putRecord; dsimp only; split <;> simp

@[simp] theorem State.deliver_modes (s : State) (region slot : Nat) (x : Item) (r : Nat) (hold : Bool) :
    (s.deliver region slot x r hold).modes = s.modes := by
  unfold State.deliver
  split
  · simp
  · split <;> simp

@[simp] theorem State.finish_modes (s : State) (region slot : Nat) (x : Item) (noFlag hold : Bool) :
    (s.finish region slot x noFlag hold).modes = s.modes := by
  unfold State.finish
  extract_lets _ _ _ contributed _ _ _ flagged _ _ _ _ _ _ _ _ _ _ _ _ charged _ _ _ _ stepped resulted _ _ counted item
  have hstep : stepped.modes = s.modes := by simp [stepped, charged, flagged, contributed]
  have hresult : resulted.modes = s.modes := by unfold resulted; split <;> simp [hstep]
  have hcount : counted.modes = s.modes := by simp [counted, hresult]
  cases hold <;> simp [hcount]

@[simp] theorem State.finishAs_modes (s : State) (region slot : Nat) (x : Item) (st detail : Nat) (noFlag hold : Bool) :
    (s.finishAs region slot x st detail noFlag hold).modes = s.modes := by
  simp [State.finishAs]

@[simp] theorem State.settleOne_modes (s : State) (k : Nat) (x : Item) (r : Ready) : (s.settleOne k x r).modes = s.modes := by
  unfold State.settleOne; split <;> simp

@[simp] theorem State.settleN_modes (s : State) (n : Nat) : (s.settleN n).modes = s.modes := by
  induction n generalizing s with
  | zero => rfl
  | succ n ih =>
    rw [State.settleN]
    split
    · rfl
    · rw [ih, State.settleOne_modes]

@[simp] theorem State.settle_modes (s : State) : s.settle.modes = s.modes := by simp [State.settle]

@[simp] theorem State.fidRecord_modes (s : State) (sev level action index payload : Nat) :
    (s.fidRecord sev level action index payload).modes = s.modes := by
  simp [State.fidRecord]

@[simp] theorem State.fenceNow_modes (s : State) (level i : Nat) : (s.fenceNow level i).modes = s.modes := by simp [State.fenceNow]
@[simp] theorem State.fence_modes (s : State) (level i : Nat) : (s.fence level i).modes = s.modes := by simp [State.fence]

@[simp] theorem State.fenceUnits_modes (s : State) (sub mask : Nat) : (s.fenceUnits sub mask).modes = s.modes := by
  rw [State.fenceUnits, State.settle_modes]
  exact State.modes_foldl (fun s u => by split <;> simp) ..

@[simp] theorem State.homePut_modes (s : State) (d : DEntry) (idx sub v : Nat) : (s.homePut d idx sub v).modes = s.modes := by simp [State.homePut]

@[simp] theorem State.rewriteInst_modes (s : State) (u : Nat) : (s.rewriteInst u).modes = s.modes := by
  refine State.modes_foldl (fun s d => ?_) ..
  split
  · rfl
  · split <;> simp

@[simp] theorem State.snarlClear_modes (s : State) (area x n : Nat) : (s.snarlClear area x n).modes = s.modes :=
  (fun m => (rfl : ({ s with mem := m } : State).modes = s.modes)) _

@[simp] theorem State.writeSnarl_modes (s : State) (area slot : Nat) (x : Snarl) (sec : Sections) :
    (s.writeSnarl area slot x sec).modes = s.modes := by
  simp [State.writeSnarl]

@[simp] theorem State.capture_modes (s : State) (die : Nat) (d : Dom) (genBefore causeSeq causeSrc : Nat) (fromHbm : Bool) :
    (s.capture die d genBefore causeSeq causeSrc fromHbm).1.modes = s.modes := by
  unfold State.capture; dsimp only; repeat' split
  all_goals simp

@[simp] theorem State.takeCaptures_modes (s : State) (d : Dom) (genBefore : Nat) (c : Cause) :
    (s.takeCaptures d genBefore c).1.modes = s.modes := by
  unfold State.takeCaptures; split <;> simp

@[simp] theorem State.startRecovery_modes (s : State) (r : Recovery) : (s.startRecovery r).modes = s.modes := by simp [State.startRecovery]
@[simp] theorem State.failSteps_modes (s : State) : s.failSteps.modes = s.modes := by simp [State.failSteps]

@[simp] theorem State.showItem_modes (s : State) (x : Item) (region units : Nat) : (s.showItem x region units).modes = s.modes :=
  (State.showItem_regs ..).modes

@[simp] theorem State.finishStopped_modes (s : State) (region slot : Nat) (x : Item) (st detail : Nat) (hold : Bool) :
    (s.finishStopped region slot x st detail hold).modes = s.modes := by
  simp [State.finishStopped]

@[simp] theorem State.stopItem_modes (s : State) (region slot : Nat) (x : Item) (st : Nat) (hold : Bool) :
    (s.stopItem region slot x st hold).modes = s.modes := by
  simp [State.stopItem]

@[simp] theorem State.abortItems_modes (s : State) (d : Dom) : (s.abortItems d).modes = s.modes := by
  refine State.modes_foldl (fun s e => ?_) ..
  split
  · split <;> simp
  · rfl

@[simp] theorem State.freeze_modes (s : State) (d : Dom) : (s.freeze d).modes = s.modes := by simp [State.freeze]

@[simp] theorem State.fidEvent_modes (s : State) (kind action : Nat) (d : Dom) (a b us slot : Nat) :
    (s.fidEvent kind action d a b us slot).modes = s.modes := by
  simp [State.fidEvent]

@[simp] theorem State.abandonWithin_modes (s : State) (d : Dom) : (s.abandonWithin d).modes = s.modes := by
  refine State.modes_foldl (fun s f => ?_) ..
  rw [State.setFid_modes, State.modes_foldl fun _ _ => State.fidEvent_modes ..]
  split
  · split
    · exact State.modes_foldl (fun _ _ => State.modSnarl_modes ..) ..
    · rfl
  · rfl

@[simp] theorem State.beginRecovery_modes (s : State) (d : Dom) (c : Cause) : (s.beginRecovery d c).modes = s.modes := by simp [State.beginRecovery]
@[simp] theorem State.queueRecovery_modes (s : State) (d : Dom) (c : Cause) : (s.queueRecovery d c).modes = s.modes := by simp [State.queueRecovery]
@[simp] theorem State.noteFault_modes (s : State) (level i : Nat) : (s.noteFault level i).modes = s.modes := by simp [State.noteFault]
@[simp] theorem State.strapDefaults_modes (s : State) : s.strapDefaults.modes = s.modes := by simp [State.strapDefaults]
@[simp] theorem State.bootRecord_modes (s : State) (sev kind low : Nat) : (s.bootRecord sev kind low).modes = s.modes := by simp [State.bootRecord]

@[simp] theorem State.modRec_modes (s : State) (f : BootRec → BootRec) : (s.modRec f).modes = s.modes := by
  simp only [State.modRec, Boot.write]
  split <;> simp

@[simp] theorem State.recoverOnHub_modes (s : State) (d : Dom) (c : Cause) : (s.recoverOnHub d c).modes = s.modes := by
  unfold State.recoverOnHub; split <;> simp

@[simp] theorem State.activeSlot_modes (s : State) (v : Nat) : (s.activeSlot v).modes = s.modes := by simp [State.activeSlot]

@[simp] theorem onTrue_modes (v : Nat) (s : State) (r : State × Nat) (h : r.1.modes = s.modes) : (onTrue v s r).1.modes = s.modes := by
  unfold onTrue; split <;> simp [h]

@[simp] theorem State.bootRecordClear_modes (s : State) : s.bootRecordClear.modes = s.modes := by simp [State.bootRecordClear]
@[simp] theorem State.laySetWrite_modes (s : State) (seconds : Nat) : (s.laySetWrite seconds).modes = s.modes := by simp [State.laySetWrite]
@[simp] theorem State.notCounted_modes (s : State) : s.notCounted.modes = s.modes := by simp [State.notCounted]
@[simp] theorem State.powerOff_modes (s : State) : s.powerOff.modes = s.modes := by simp [State.powerOff]

@[simp] theorem State.counted_modes (r : State × Nat) (ini : Nat) : (State.counted r ini).1.modes = r.1.modes := by
  unfold State.counted; split <;> simp

@[simp] theorem State.startProgress_modes (s : State) (i op total : Nat) : (s.startProgress i op total).modes = s.modes := by
  simp [State.startProgress]

@[simp] theorem State.ctxSave_modes (s : State) : (s.ctxSave).1.modes = s.modes := by
  unfold State.ctxSave; split <;> simp

@[simp] theorem State.ctxRestore_modes (s : State) : (s.ctxRestore).1.modes = s.modes := by
  unfold State.ctxRestore; split <;> simp

@[simp] theorem State.setClass_modes (s : State) (v : Nat) : (s.setClass v).modes = s.modes := by simp [State.setClass]
@[simp] theorem State.rampHeld_modes (s : State) (e : Nat) : (s.rampHeld e).modes = s.modes := by simp [State.rampHeld]
@[simp] theorem State.rampStore_modes (s : State) (e v : Nat) : (s.rampStore e v).modes = s.modes := by simp [State.rampStore]

@[simp] theorem State.rampWrite_modes (s : State) (ini e v : Nat) : (s.rampWrite ini e v).1.modes = s.modes := by
  unfold State.rampWrite; split <;> simp

@[simp] theorem State.setAge_modes (s : State) (u : Nat) (a : UnitAge) : (s.setAge u a).modes = s.modes := by simp [State.setAge]
@[simp] theorem State.ageRestore_modes (s : State) (l : List Byte) : (s.ageRestore l).modes = s.modes := by simp [State.ageRestore]

@[simp] theorem State.ageWrite_modes (s : State) (sub : Nat) (data : List Byte) : (s.ageWrite sub data).1.modes = s.modes := by
  unfold State.ageWrite; dsimp only; split
  · simp
  · split <;> simp

@[simp] theorem State.putPortStat_modes (s : State) (p st good : Nat) : (s.putPortStat p st good).modes = s.modes := by simp [State.putPortStat]

@[simp] theorem State.putLane_modes (s : State) (p l : Nat) (lock failed : Bool) : (s.putLane p l lock failed).modes = s.modes := by
  simp [State.putLane]

@[simp] theorem State.portTrain_modes (s : State) (p : Nat) : (s.portTrain p).modes = s.modes := by simp [State.portTrain]
@[simp] theorem State.portDown_modes (s : State) (p st : Nat) : (s.portDown p st).modes = s.modes := by simp [State.portDown]

@[simp] theorem State.portEnableOne_modes (s : State) (p : Nat) (on : Bool) : (s.portEnableOne p on).modes = s.modes := by
  simp [State.portEnableOne]

@[simp] theorem State.portRetrainOne_modes (s : State) (p : Nat) : (s.portRetrainOne p).modes = s.modes := by simp [State.portRetrainOne]

@[simp] theorem State.lockMap_modes (s : State) (ini : Nat) : (s.lockMap ini).1.modes = s.modes := by
  unfold State.lockMap; split <;> simp

@[simp] theorem State.endProgress_modes (s : State) (i st err : Nat) : (s.endProgress i st err).modes = s.modes := by simp [State.endProgress]

@[simp] theorem State.startDrain_modes (s : State) : (s.startDrain).1.modes = s.modes := by
  unfold State.startDrain; dsimp only; repeat' split
  all_goals simp

@[simp] theorem Boot.setInfo_stage (b : Boot) (slot : Nat) (x : SlotInfo) : (b.setInfo slot x).stage = b.stage := by
  unfold Boot.setInfo; split <;> rfl

theorem Boot.stage_foldl {α : Type} {f : Boot → α → Boot} (hf : ∀ b a, (f b a).stage = b.stage) (l : List α) (b : Boot) :
    (l.foldl f b).stage = b.stage := by
  induction l generalizing b with
  | nil => rfl
  | cons a l ih => exact (ih (f b a)).trans (hf b a)

theorem State.modes_with_boot {s : State} {b : Boot} (h : b.stage = s.boot.stage) : ({ s with boot := b } : State).modes = s.modes :=
  congrArg (Prod.mk s.lay.state) h

@[simp] theorem State.rollbackCommit_modes (s : State) : s.rollbackCommit.1.modes = s.modes := by
  unfold State.rollbackCommit
  split
  · rfl
  · exact State.modes_with_boot (Boot.stage_foldl (fun b n => by split <;> simp) ..)

@[simp] theorem State.ownerFuse_modes (s : State) (data : List Byte) : (s.ownerFuse data).1.modes = s.modes := by
  unfold State.ownerFuse; split <;> simp

@[simp] theorem State.attestNonce_modes (s : State) (data : List Byte) : (s.attestNonce data).modes = s.modes := by simp [State.attestNonce]

@[simp] theorem State.writeKey_modes (s : State) (slot : Nat) (data : List Byte) : (s.writeKey slot data).modes = s.modes := by
  simp [State.writeKey]

@[simp] theorem State.debugToken_modes (s : State) (sub : Nat) (data : List Byte) : (s.debugToken sub data).modes = s.modes := by
  simp [State.debugToken]

@[simp] theorem State.fwData_modes (s : State) (data : List Byte) : (s.fwData data).1.modes = s.modes := by
  unfold State.fwData
  dsimp only
  split
  · rfl
  · split
    · rfl
    · rw [State.setDv_modes, State.setProgress_modes]
      exact State.modes_with_boot (Boot.setInfo_stage ..)

@[simp] theorem State.fwCommit_modes (s : State) : (s.fwCommit).1.modes = s.modes := by
  unfold State.fwCommit; split <;> simp

@[simp] theorem State.policyEvent_modes (s : State) (detail : Nat) : (s.policyEvent detail).modes = s.modes := by simp [State.policyEvent]
@[simp] theorem State.globalCheck_modes (s : State) (slot : Nat) : (s.globalCheck slot).modes = s.modes := by simp [State.globalCheck]
@[simp] theorem State.abort_modes (s : State) (ini die reason off : Nat) : (s.abort ini die reason off).modes = s.modes := by simp [State.abort]

@[simp] theorem State.expire_modes (s : State) (ini die : Nat) (due : Bool) : (s.expire ini die due).modes = s.modes := by
  unfold State.expire; split <;> simp

@[simp] theorem State.intervene_modes (s : State) (ini die : Nat) (off : Option Nat) : (s.intervene ini die off).modes = s.modes := by
  unfold State.intervene; dsimp only; split <;> simp

@[simp] theorem State.dicGo_modes (s : State) (ini : Nat) {f : State → DicBank → State} (hf : ∀ u b, (f u b).modes = u.modes) :
    (s.dicGo ini f).modes = s.modes := by
  unfold State.dicGo; dsimp only; split <;> simp [hf]

@[simp] theorem State.dicStart_modes (s : State) (ini status len : Nat) (stale : Bool) (v : Option (Nat × Bool)) :
    (s.dicStart ini status len stale v).modes = s.modes := by
  simp [State.dicStart]

@[simp] theorem State.dicReadOp_modes (s : State) (ini idx sub : Nat) : (s.dicReadOp ini idx sub).modes = s.modes := by
  refine State.dicGo_modes _ _ fun u b => ?_
  dsimp only
  split
  · simp
  · split <;> simp

@[simp] theorem State.dicReserved_modes (s : State) (ini : Nat) : (s.dicReserved ini).modes = s.modes := by simp [State.dicReserved]

@[simp] theorem State.memStoreCore_modes (s : State) (ini a width value : Nat) : (s.memStoreCore ini a width value).modes = s.modes := by
  simp [State.memStoreCore]

@[simp] theorem State.writeSqTail_modes (s : State) (region value : Nat) : (s.writeSqTail region value).modes = s.modes := by
  simp [State.writeSqTail]

@[simp] theorem State.flushRing_modes (s : State) (region ring : Nat) : (s.flushRing region ring).modes = s.modes := by
  refine State.modes_foldl (fun s e => ?_) ..
  split
  · rfl
  · split <;> simp

@[simp] theorem State.writeCqHead_modes (s : State) (region ring value : Nat) : (s.writeCqHead region ring value).modes = s.modes := by
  simp [State.writeCqHead]

@[simp] theorem State.writeTrkCfg_modes (s : State) (ini t value : Nat) : (s.writeTrkCfg ini t value).modes = s.modes := by simp [State.writeTrkCfg]

@[simp] theorem State.armWait_modes (s : State) (core die index threshold : Nat) : (s.armWait core die index threshold).modes = s.modes := by
  simp [State.armWait]

@[simp] theorem State.setWidened_modes (s : State) (l : Nat) (b : Bool) : (s.setWidened l b).modes = s.modes := by simp [State.setWidened]
@[simp] theorem State.narrow_modes (s : State) (n : Nat) : (s.narrow n).modes = s.modes := by simp [State.narrow]
@[simp] theorem State.globalFall_modes (s : State) (slot : Nat) : (s.globalFall slot).modes = s.modes := by simp [State.globalFall]
@[simp] theorem State.openStep_modes (s : State) (slot : Nat) : (s.openStep slot).modes = s.modes := by simp [State.openStep]

@[simp] theorem State.mapHeld_modes (s : State) (slot : Nat) (f : State → Nat → Tracker → Tracker) : (s.mapHeld slot f).modes = s.modes := by
  simp [State.mapHeld]

@[simp] theorem State.reopenStep_modes (s : State) (slot : Nat) : (s.reopenStep slot).modes = s.modes := by simp [State.reopenStep]
@[simp] theorem State.widen_modes (s : State) (slot l n : Nat) : (s.widen slot l n).modes = s.modes := by simp [State.widen]
@[simp] theorem State.recordLayer_modes (s : State) (slot n l : Nat) : (s.recordLayer slot n l).modes = s.modes := by simp [State.recordLayer]
@[simp] theorem State.recordAttempt_modes (s : State) (slot : Nat) : (s.recordAttempt slot).modes = s.modes := by simp [State.recordAttempt]
@[simp] theorem State.signalWord_modes (s : State) (w : Nat) : (s.signalWord w).modes = s.modes := by simp [State.signalWord]
@[simp] theorem State.abandonStep_modes (s : State) (slot : Nat) : (s.abandonStep slot).modes = s.modes := by simp [State.abandonStep]
@[simp] theorem State.freeStep_modes (s : State) (slot : Nat) : (s.freeStep slot).modes = s.modes := by simp [State.freeStep]
@[simp] theorem State.stepCommand_modes (s : State) (ini slot op : Nat) : (s.stepCommand ini slot op).modes = s.modes := by simp [State.stepCommand]
@[simp] theorem State.errClear_modes (s : State) (die value : Nat) : (s.errClear die value).modes = s.modes := by simp [State.errClear]

theorem State.storeCommand_modes (s : State) (ini : Nat) (r : Reg) (i e m v : Nat) :
    ∀ t, s.storeCommand ini r i e m v = some t → t.modes = s.modes := by
  unfold State.storeCommand
  split <;> simp
  split <;> simp

@[simp] theorem State.homeStore_modes (old : Word) (s : State) (h : DEntry × Nat × Nat × Piece) : (State.homeStore old s h).modes = s.modes := by
  unfold State.homeStore; dsimp only; split <;> simp

@[simp] theorem State.ringLowFit_modes (s : State) (die : Nat) : (s.ringLowFit die).modes = s.modes := by simp [State.ringLowFit]

@[simp] theorem State.guardWrite_modes (s : State) (ini die off width value : Nat) : (s.guardWrite ini die off width value).modes = s.modes := by
  simp [State.guardWrite]

@[simp] theorem State.mbxCapture_modes (s : State) (ini die : Nat) (r : Nat ⊕ List Nat) : (s.mbxCapture ini die r).modes = s.modes := by
  simp [State.mbxCapture]

@[simp] theorem State.mbxSelect_modes (s : State) (ini die v : Nat) : (s.mbxSelect ini die v).modes = s.modes := by simp [State.mbxSelect]
@[simp] theorem State.mbxStore_modes (s : State) (ini die x v : Nat) : (s.mbxStore ini die x v).modes = s.modes := by simp [State.mbxStore]

@[simp] theorem State.guardPass_modes (s : State) (ini die off width value : Nat) : (s.guardPass ini die off width value).2.modes = s.modes := by
  unfold State.guardPass; dsimp only; repeat' split
  all_goals simp

@[simp] theorem State.farRecord_modes (s : State) (root sev action kind line syms : Nat) :
    (s.farRecord root sev action kind line syms).modes = s.modes := by
  simp [State.farRecord]

@[simp] theorem State.corePoison_modes (s : State) (a : Nat) : (s.corePoison a).modes = s.modes := by
  unfold State.corePoison; split <;> simp

@[simp] theorem State.memLoadCore_modes (s : State) (ini a width : Nat) : (s.memLoadCore ini a width).modes = s.modes := by simp [State.memLoadCore]

@[simp] theorem State.observe_modes (s : State) (r : Reg) (i e : Nat) : (s.observe r i e).modes = s.modes := by
  unfold State.observe; split <;> simp

@[simp] theorem State.loadWord_modes (s : State) (die off m : Nat) : (s.loadWord die off m).2.modes = s.modes := by
  unfold State.loadWord; split <;> simp

@[simp] theorem State.free_modes (s : State) : (s.free).2.modes = s.modes := by simp [State.free]

@[simp] theorem State.loadOff_modes (s : State) (ini die off : Nat) : (s.loadOff ini die off).2.modes = s.modes := by
  unfold State.loadOff; repeat' split
  all_goals simp

@[simp] theorem State.busLoad_modes (s : State) (ini addr width : Nat) : (s.busLoad ini addr width).modes = s.modes := by
  unfold State.busLoad; repeat' split
  all_goals simp

@[simp] theorem State.seeLayer_modes (s : State) (x : Item) : (s.seeLayer x).modes = s.modes := by simp [State.seeLayer]
@[simp] theorem State.holdTracker_modes (s : State) (t slot : Nat) : (s.holdTracker t slot).modes = s.modes := by simp [State.holdTracker]

@[simp] theorem State.admitColl_modes (s : State) (k : Nat) (x : Item) : (s.admitColl k x).modes = s.modes := by
  unfold State.admitColl; split <;> simp

@[simp] theorem State.takeItem_modes (s : State) (region slot : Nat) (x : Item) : (s.takeItem region slot x).modes = s.modes := by
  simp [State.takeItem]

@[simp] theorem State.admitRaw_modes (s : State) (region slot raw : Nat) (bad : Bool) : (s.admitRaw region slot raw bad).modes = s.modes := by
  unfold State.admitRaw
  dsimp only
  split
  · simp
  · split
    · simp
    · split
      · simp
      · split <;> simp

theorem State.startItem_modes {s u : State} {region slot : Nat} {x y : Item} (h : s.startItem region slot x = some (u, y)) :
    u.modes = s.modes := (State.startItem_spec h).2.2.2.1.modes

@[simp] theorem State.chain_modes (s : State) (region : Nat) (x : Item) : (s.chain region x).modes = s.modes := by
  unfold State.chain; split
  · simp
  · split <;> simp

@[simp] theorem State.takeBlock_modes (s : State) (region slot : Nat) (x : Item) (k entry block : Nat) (poisoned : Bool) :
    (s.takeBlock region slot x k entry block poisoned).modes = s.modes := by
  unfold State.takeBlock; dsimp only; split
  · simp
  · split <;> simp

@[simp] theorem State.coreStore_modes (s : State) (src die : Nat) : (s.coreStore src die).modes = s.modes := by simp [State.coreStore]

@[simp] theorem State.reeveWait_modes (s : State) (region slot : Nat) : (s.reeveWait region slot).modes = s.modes := by
  unfold State.reeveWait; split <;> simp

@[simp] theorem State.endRun_modes (s : State) (region slot : Nat) (x : Item) (r : Result) : (s.endRun region slot x r).modes = s.modes :=
  (State.endRun_items ..).modes

@[simp] theorem State.flagEach_modes (s : State) (r : Reg) (l : List Nat) (m : Nat) : (s.flagEach r l m).modes = s.modes := by simp [State.flagEach]
@[simp] theorem State.bumpEach_modes (s : State) (r : Reg) (l : List Nat) (n : Nat) : (s.bumpEach r l n).modes = s.modes := by simp [State.bumpEach]

@[simp] theorem State.skewRun_modes (s : State) (region slot : Nat) (x : Item) (cause k entry : Nat) :
    (s.skewRun region slot x cause k entry).modes = s.modes := (State.skewRun_items ..).modes

/-- A run that runs through leaves the modes as they were. -/
def runKeepsModes (f : State → Nat → Item → RunOut) : Prop := ∀ u region y amax go, f u region y = .ok amax go → (go u y).1.modes = u.modes

@[simp] theorem State.runItem_modes (s : State) (region slot : Nat) (takes : Item → Bool) {f : State → Nat → Item → RunOut} (hf : runKeepsModes f) :
    (s.runItem region slot takes f).modes = s.modes := by
  unfold State.runItem
  split
  · rfl
  · split
    · rfl
    · dsimp only
      split
      · rfl
      next u y hstart =>
        have hu : u.modes = s.modes := State.startItem_modes hstart
        split
        · exact hu
        · split
          · simp [hu]
          · split
            · rfl
            · simp [hu]
            · simp [hu]
            next amax go hrun =>
              have hgo : (go u y).1.modes = s.modes := (hf u region y amax go hrun).trans hu
              split <;> simp [hgo]

@[simp] theorem State.reeveCoarse_modes (s : State) (x : Item) : (s.reeveCoarse x).2.modes = s.modes := by
  unfold State.reeveCoarse; split <;> simp

@[simp] theorem State.spillTok_modes (s : State) (cluster : Nat) (r : KvRec) (t : SpillTok) : (s.spillTok cluster r t).modes = s.modes := by
  simp [State.spillTok]

@[simp] theorem State.exhForget_modes (s : State) (t : Token) : (s.exhForget t).modes = s.modes := by simp [State.exhForget]

@[simp] theorem State.spillOr_modes (s : State) (t : Token) (r : KvRec) (l : KvLay) (coarse : Nat) (exh : Bool) :
    (s.spillOr t r l coarse exh).1.modes = s.modes := by
  unfold State.spillOr; split <;> simp

@[simp] theorem State.pageExhausted_modes (s : State) (seq layer cause ring : Nat) : (s.pageExhausted seq layer cause ring).modes = s.modes := by
  simp [State.pageExhausted]

@[simp] theorem State.exhaustedOnce_modes (s : State) (t : Token) (cause ring : Nat) : (s.exhaustedOnce t cause ring).modes = s.modes := by
  simp [State.exhaustedOnce]

@[simp] theorem State.kvAppend_modes (s : State) (t : Token) : (s.kvAppend t).1.modes = s.modes := by
  unfold State.kvAppend; dsimp only; repeat' split
  all_goals simp

@[simp] theorem State.residueEvent_modes (s : State) (src : Nat) (cnt sts : Reg) (unit tag tile : Nat) :
    (s.residueEvent src cnt sts unit tag tile).modes = s.modes := by
  simp [State.residueEvent]

@[simp] theorem State.twnCount_modes (s : State) (x : Item) (region : Nat) (cyc : List (Nat × Nat × Nat × Nat)) (marks nf : List Nat)
    (sparse : Nat) :
    (s.twnCount x region cyc marks nf sparse).modes = s.modes := by
  simp [State.twnCount]

@[simp] theorem State.outCoarse_modes (s : State) (x : Item) (m : Strm) : (s.outCoarse x m).2.modes = s.modes := (State.outCoarse_ran ..).modes

@[simp] theorem State.mergeBlocks_modes (s : State) (m : Strm) (e : Ent) (blocks : List (Nat × Nat × List Nat)) :
    (s.mergeBlocks m e blocks).modes = s.modes := (State.mergeBlocks_ran ..).modes

@[simp] theorem State.nmApply_modes (s : State) (addr ty op value : Nat) (poisoned residue : Bool) (tag : Nat) :
    (s.nmApply addr ty op value poisoned residue tag).st.modes = s.modes := by
  unfold State.nmApply
  dsimp only
  split <;> split <;> simp

@[simp] theorem State.writeStream_modes (s : State) (m : Strm) (mode cf : Nat) (els : List OutEl) (tag : Nat) :
    (s.writeStream m mode cf els tag).st.modes = s.modes := (State.writeStream_ran ..).modes

@[simp] theorem State.writeProduct_modes (s : State) (x : Item) (p : ProdOut) (second : Bool) (nonfin zeroBlocks : Nat) :
    (s.writeProduct x p second nonfin zeroBlocks).1.modes = s.modes := (State.writeProduct_ran ..).modes

@[simp] theorem State.hwsSats_modes (s : State) (us : List Nat) (sats : List (Nat × Bool)) : (s.hwsSats us sats).modes = s.modes := by
  simp [State.hwsSats]

@[simp] theorem State.hwsCount_modes (s : State) (x : Item) (region : Nat) (o : HwsOp) (i : HwsIn) (cyc : List (Nat × Nat))
    (marks : List Nat) (sats : List (Nat × Bool)) (nf : List Nat) :
    (s.hwsCount x region o i cyc marks sats nf).modes = s.modes := by
  simp [State.hwsCount]

@[simp] theorem State.writeByteStream_modes (s : State) (m : Strm) (bs : List (Byte × Bool)) : (s.writeByteStream m bs).modes = s.modes :=
  (State.writeByteStream_ran ..).modes

@[simp] theorem State.releaseOf_modes (s : State) (region slot : Nat) : (s.releaseOf region slot).modes = s.modes := by
  unfold State.releaseOf
  split
  · split
    · split <;> simp
    · rfl
  · rfl

@[simp] theorem State.writeNodes_modes (s : State) (x : Item) (hd nc level index : Nat) (ns : List Node) (nonfin zeroBlocks : Nat) :
    (s.writeNodes x hd nc level index ns nonfin zeroBlocks).1.modes = s.modes := by
  unfold State.writeNodes; dsimp only; split
  · simp
  · split <;> simp

@[simp] theorem State.spreadPages_modes (s : State) (cs : List Nat) (r : Reg) (l : List Nat) : (s.spreadPages cs r l).1.modes = s.modes :=
  State.modes_foldl_of (st := Prod.fst) (fun _ _ => by simp) ..

@[simp] theorem State.countPages_modes (s : State) (cs : List Nat) (r : Reg) (n : Nat) : (s.countPages cs r n).modes = s.modes := by
  simp [State.countPages]

@[simp] theorem State.pinWait_modes (s : State) (region slot : Nat) (x : Item) : (s.pinWait region slot x).modes = s.modes := by
  simp [State.pinWait]

@[simp] theorem State.pinRec_modes (s : State) (seq : Nat) (r : KvRec) (bad : Bool) : (s.pinRec seq r bad).1.modes = s.modes := by
  simp [State.pinRec]

@[simp] theorem State.peerLost_modes (s : State) (region slot cause peer : Nat) : (s.peerLost region slot cause peer).modes = s.modes := by
  unfold State.peerLost; split <;> simp

@[simp] theorem State.treeFinish_modes (s : State) (x : Item) (v : List (Nat × Bool)) (lims : List Bool) :
    (s.treeFinish x v lims).1.modes = s.modes := by
  simp [State.treeFinish]

@[simp] theorem State.nearRaw_modes (s : State) (e : Ent) (tag : Nat) (l : List RawBlk) : (s.nearRaw e tag l).st.modes = s.modes :=
  State.modes_foldl_of (st := Wrote.st) (fun _ _ => State.nmApply_modes ..) ..

@[simp] theorem State.writeRaw_modes (s : State) (m : Strm) (tag : Nat) (l : List RawBlk) : (s.writeRaw m tag l).st.modes = s.modes := by
  refine State.modes_foldl_of (st := fun acc : Wrote × List RawBlk => acc.1.st) (fun acc e => ?_) m.ents _
  dsimp only
  split
  · simp
  · split <;> simp

@[simp] theorem State.redFinish_modes (s : State) (x : Item) (c : Coll) (o : RedCtx) (ys : List (XV × Bool)) :
    (s.redFinish x c o ys).1.modes = s.modes := by
  unfold State.redFinish; dsimp only; repeat' split
  all_goals simp

@[simp] theorem State.collTry_modes (s : State) (k : Nat) (c : Coll) : (s.collTry k c).modes = s.modes := by
  unfold State.collTry
  dsimp only
  split
  · simp
  · split
    · simp
    · rw [State.endRun_modes]
      split
      · simp
      · split <;> simp

@[simp] theorem State.sendReady_modes (s : State) (c : Coll) : (s.sendReady c).modes = s.modes := by simp [State.sendReady]
@[simp] theorem State.noteWire_modes (s : State) (die : Nat) (w : WireLine) : (s.noteWire die w).modes = s.modes := by simp [State.noteWire]

@[simp] theorem redValue_modes (o : RedCtx) (level line : Nat) (v : List (Nat × Bool)) (fuel : Nat) (sc : State × Coll) :
    (redValue o level line v fuel sc).1.modes = sc.1.modes := by
  induction fuel generalizing level v sc with
  | zero => rfl
  | succ n ih =>
    rw [redValue]
    dsimp only
    split
    · split <;> simp
    · split
      · rw [ih]
      · split <;> simp

@[simp] theorem State.collFill_modes (s : State) (region : Nat) (x : Item) (c : Coll) : (s.collFill region x c).1.modes = s.modes := by
  unfold State.collFill
  split
  · rfl
  · split
    · rfl
    · exact State.modes_foldl_fst (fun _ _ => by rw [redValue_modes]) _ (s, c)

@[simp] theorem State.flushColl_modes (s : State) (k : Nat) (c : Coll) : (s.flushColl k c).1.modes = s.modes := by simp [State.flushColl]

@[simp] theorem State.collStart_modes (s : State) (op region slot : Nat) : (s.collStart op region slot).modes = s.modes := by
  unfold State.collStart
  split
  · rfl
  · split
    · rfl
    · split
      · simp
      · extract_lets k bad admitted
        have hadmit : admitted.modes = s.modes := by unfold admitted; split <;> simp
        split
        · simp [hadmit]
        · exact hadmit
        · split
          · simp [hadmit]
          · split
            · simp [hadmit]
            · split
              · exact hadmit
              next u y hstart =>
                have hu : u.modes = s.modes := (State.startItem_modes hstart).trans hadmit
                split
                · simp [hu]
                · split
                  · simp [hu]
                  · split <;> simp [hu]

@[simp] theorem State.passVote_modes (s : State) (v : VoteX) (sum : Nat) : (s.passVote v sum).modes = s.modes := by simp [State.passVote]

@[simp] theorem State.keepVote_modes (s : State) (epoch num attempt sum : Nat) : (s.keepVote epoch num attempt sum).modes = s.modes := by
  simp [State.keepVote]

@[simp] theorem State.voteMove_modes (s : State) (v : VoteX) : (s.voteMove v).modes = s.modes := by simp [State.voteMove]

@[simp] theorem State.passDone_modes (s : State) (region slot : Nat) (x : Item) (amax : Nat) : (s.passDone region slot x amax).modes = s.modes := by
  simp [State.passDone]

@[simp] theorem State.prepassRelease_modes (s : State) (region slot : Nat) : (s.prepassRelease region slot).modes = s.modes := by
  unfold State.prepassRelease; repeat' split
  all_goals simp

@[simp] theorem State.prepassRun_modes (s : State) (region slot : Nat) : (s.prepassRun region slot).modes = s.modes := by
  unfold State.prepassRun
  split
  · rfl
  · split
    · rfl
    next u y hstart =>
      have hu : u.modes = s.modes := State.startItem_modes hstart
      split <;> simp [hu]

@[simp] theorem State.prepassPin_modes (s : State) (region slot : Nat) (x : Item) : (s.prepassPin region slot x).modes = s.modes := by
  unfold State.prepassPin; dsimp only; repeat' split
  all_goals simp

@[simp] theorem State.endVoteItem_modes (s : State) (v : VoteX) : (s.endVoteItem v).modes = s.modes := by
  unfold State.endVoteItem; split <;> simp

@[simp] theorem State.commitStep_modes (s : State) (slot : Nat) : (s.commitStep slot).modes = s.modes := by simp [State.commitStep]
@[simp] theorem State.failStep_modes (s : State) (slot : Nat) : (s.failStep slot).modes = s.modes := by simp [State.failStep]

@[simp] theorem State.applyVote_modes (s : State) (slot sum : Nat) : (s.applyVote slot sum).modes = s.modes := by
  unfold State.applyVote
  extract_lets ended _ counted decided
  have hended : ended.modes = s.modes := by unfold ended; split <;> simp
  simp [decided, counted, hended]

@[simp] theorem State.onVoteResult_modes (s : State) (epoch step attempt sum : Nat) : (s.onVoteResult epoch step attempt sum).modes = s.modes := by
  unfold State.onVoteResult
  dsimp only
  split
  · rw [State.applyVote_modes]
    split <;> simp
  · simp

@[simp] theorem State.askMore_modes (s : State) (slot : Nat) : (s.askMore slot).modes = s.modes := by simp [State.askMore]

@[simp] theorem State.filterSuspect_modes (s : State) (id pgen cause carried own : Nat) :
    (s.filterSuspect id pgen cause carried own).1.modes = s.modes := by
  unfold State.filterSuspect; dsimp only; split
  · simp
  · split <;> simp

@[simp] theorem State.forward_modes (s : State) (port : Nat) (p : Packet) : (s.forward port p).modes = s.modes := by
  unfold State.forward; dsimp only; repeat' split
  all_goals simp

theorem State.arrive_modes {s t : State} {port kind : Nat} {p : Packet} (h : s.arrive port kind p = .other t) : t.modes = s.modes := by
  unfold State.arrive at h
  split at h
  · cases h
  · split at h
    · cases h; simp
    · split at h
      · cases h; simp
      · cases h

@[simp] theorem State.onPacket_modes (s : State) (port kind : Nat) (p : Packet) {f : State → State} (hf : ∀ u, (f u).modes = u.modes) :
    (s.onPacket port kind p f).modes = s.modes := by
  unfold State.onPacket
  split
  · rfl
  next harrive => exact State.arrive_modes harrive
  · exact hf s

@[simp] theorem State.onVoteQuery_modes (s : State) (p : Packet) : (s.onVoteQuery p).modes = s.modes := by
  unfold State.onVoteQuery; dsimp only; split <;> simp

@[simp] theorem State.onVoteAnswer_modes (s : State) (p : Packet) : (s.onVoteAnswer p).modes = s.modes := by
  unfold State.onVoteAnswer
  dsimp only
  split
  · split
    · rfl
    · split
      · simp
      · split <;> simp
  · rfl

@[simp] theorem State.wakeSpill_modes (s : State) (region item : Nat) : (s.wakeSpill region item).modes = s.modes := by simp [State.wakeSpill]

@[simp] theorem State.memRecord_modes (s : State) (stack sev action payload : Nat) : (s.memRecord stack sev action payload).modes = s.modes := by
  simp [State.memRecord]

@[simp] theorem State.recordCe_modes (s : State) (stack payload : Nat) : (s.recordCe stack payload).modes = s.modes := by simp [State.recordCe]
@[simp] theorem State.erasePin_modes (s : State) (stack pc pin : Nat) : (s.erasePin stack pc pin).modes = s.modes := by simp [State.erasePin]

@[simp] theorem State.eraseRecorded_modes (s : State) (stack pc pin line : Nat) (scrub : Bool) :
    (s.eraseRecorded stack pc pin line scrub).modes = s.modes := by
  simp [State.eraseRecorded]

@[simp] theorem State.notePin_modes (s : State) (stack pc line pin : Nat) (scrub : Bool) : (s.notePin stack pc line pin scrub).modes = s.modes := by
  simp [State.notePin]

@[simp] theorem State.afterRead_modes (s : State) (stack off : Nat) (errs : List (Nat × Nat)) (scrub : Bool) (r : LineRead) :
    (s.afterRead stack off errs scrub r).modes = s.modes := by
  unfold State.afterRead; split <;> simp

@[simp] theorem State.scrubRuns_modes (s : State) (stack : Nat) : (s.scrubRuns stack).modes = s.modes := by simp [State.scrubRuns]
@[simp] theorem State.scrubNext_modes (s : State) (stack : Nat) : (s.scrubNext stack).modes = s.modes := by simp [State.scrubNext]

@[simp] theorem State.setErasures_modes (s : State) (stack : Nat) (bad : List (Nat × Nat)) : (s.setErasures stack bad).modes = s.modes := by
  simp [State.setErasures]

@[simp] theorem State.setFarPort_modes (s : State) (p : Nat) (f : FarPort) : (s.setFarPort p f).modes = s.modes := by simp [State.setFarPort]
@[simp] theorem State.failDrain_modes (s : State) (err : Nat) : (s.failDrain err).modes = s.modes := by simp [State.failDrain]
@[simp] theorem State.copyLine_modes (s : State) (src dst : Nat) : (s.copyLine src dst).modes = s.modes := by simp [State.copyLine]

@[simp] theorem State.drainLines_modes (s : State) (src dst n : Nat) : (s.drainLines src dst n).modes = s.modes := by
  induction n generalizing s src dst with
  | zero => rfl
  | succ n ih => rw [State.drainLines, ih]; simp

@[simp] theorem State.fabRecord_modes (s : State) (die kind port lane : Nat) : (s.fabRecord die kind port lane).modes = s.modes := by
  simp [State.fabRecord]

@[simp] theorem State.portLost_modes (s : State) (p st : Nat) : (s.portLost p st).modes = s.modes := by simp [State.portLost]
@[simp] theorem State.resend_modes (s : State) (p : Nat) (ask : Bool) : (s.resend p ask).modes = s.modes := by simp [State.resend]
@[simp] theorem State.linkRetrain_modes (s : State) (p : Nat) (ask : Bool) : (s.linkRetrain p ask).modes = s.modes := by simp [State.linkRetrain]

@[simp] theorem State.dropLanes_modes (s : State) (p lost : Nat) (failed : Bool) : (s.dropLanes p lost failed).modes = s.modes := by
  simp [State.dropLanes]

@[simp] theorem State.countWords_modes (s : State) (port : Nat) (l : List (Nat × Option Nat)) : (s.countWords port l).modes = s.modes := by
  simp [State.countWords]

@[simp] theorem State.replay_modes (s : State) (p : Nat) : (s.replay p).modes = s.modes := by simp [State.replay]
@[simp] theorem State.onHello_modes (s : State) (port : Nat) (p : Packet) : (s.onHello port p).modes = s.modes := by simp [State.onHello]
@[simp] theorem State.layRecord_modes (s : State) (kind : Nat) (ns : Int) : (s.layRecord kind ns).modes = s.modes := by simp [State.layRecord]
@[simp] theorem State.dropLost_modes (s : State) : s.dropLost.modes = s.modes := State.modes_foldl (fun _ _ => State.peerLost_modes ..) ..

@[simp] theorem State.onMembership_modes (s : State) (port : Nat) (p : Packet) : (s.onMembership port p).modes = s.modes := by
  unfold State.onMembership
  dsimp only
  split
  · simp
  · split <;> simp

@[simp] theorem State.putRoute_modes (s : State) (i v : Nat) : (s.putRoute i v).modes = s.modes := by simp [State.putRoute]
@[simp] theorem State.onRouteSet_modes (s : State) (port : Nat) (p : Packet) : (s.onRouteSet port p).modes = s.modes := by simp [State.onRouteSet]
@[simp] theorem State.ack_modes (s : State) (p : Packet) : (s.ack p).modes = s.modes := by simp [State.ack]
@[simp] theorem State.onPut_modes (s : State) (p : Packet) : (s.onPut p).modes = s.modes := by simp [State.onPut]

@[simp] theorem redFrame_modes (o : RedCtx) (level h : Nat) (frame : List Byte) (sc : State × Coll) :
    (redFrame o level h frame sc).1.modes = sc.1.modes := by
  unfold redFrame
  dsimp only
  split
  · rfl
  · split <;> simp

@[simp] theorem State.collReceive_modes (s : State) (k : Nat) (x : Item) (c : Coll) (p : Packet) (residue : Bool) :
    (s.collReceive k x c p residue).modes = s.modes := by
  unfold State.collReceive
  extract_lets level dir hop region amiss noted
  have hnoted : noted.modes = s.modes := by simp [noted]
  dsimp only
  rw [State.ack_modes, State.collTry_modes, State.flushColl_modes]
  split
  · exact hnoted
  · split
    · split <;> exact hnoted
    · split
      · exact hnoted
      · rw [redFrame_modes, hnoted]

@[simp] theorem State.onCollData_modes (s : State) (p : Packet) (residue : Bool) : (s.onCollData p residue).modes = s.modes := by
  unfold State.onCollData
  dsimp only
  split
  · split
    · split <;> simp
    · rfl
  · split
    · split <;> simp
    · rfl

@[simp] theorem State.onDelivered_modes (s : State) (p : Packet) : (s.onDelivered p).modes = s.modes := by
  unfold State.onDelivered; split <;> simp

@[simp] theorem State.onCleatOp_modes (s : State) (port : Nat) (p : Packet) : (s.onCleatOp port p).modes = s.modes := by simp [State.onCleatOp]

@[simp] theorem State.onCollReady_modes (s : State) (p : Packet) : (s.onCollReady p).modes = s.modes := by
  unfold State.onCollReady
  dsimp only
  split
  · split
    · rfl
    · split
      · split <;> simp
      · rfl
  · split
    · split <;> simp
    · simp

@[simp] theorem State.onCollAbort_modes (s : State) (p : Packet) : (s.onCollAbort p).modes = s.modes := by
  unfold State.onCollAbort
  split
  · split
    · split <;> simp
    · rfl
  · rfl

@[simp] theorem State.refuseFrame_modes (s : State) (port : Nat) : (s.refuseFrame port).modes = s.modes := by simp [State.refuseFrame]

@[simp] theorem State.reportSuspect_modes (s : State) (id pgen cause : Nat) : (s.reportSuspect id pgen cause).modes = s.modes := by
  unfold State.reportSuspect; dsimp only; split <;> simp

@[simp] theorem State.poisonQueued_modes (s : State) (u : Nat) : (s.poisonQueued u).modes = s.modes := by
  unfold State.poisonQueued; dsimp only; repeat' split
  all_goals simp

@[simp] theorem State.resetRegs_modes (s : State) (d : Dom) : (s.resetRegs d).modes = s.modes := by simp [State.resetRegs]

@[simp] theorem State.dropSpill_modes (s : State) (t : SpillTok) : (s.dropSpill t).modes = s.modes := by
  unfold State.dropSpill; split <;> simp

@[simp] theorem State.dropSpills_modes (s : State) (d : Dom) : (s.dropSpills d).modes = s.modes := by simp [State.dropSpills]
@[simp] theorem State.clearSram_modes (s : State) (d : Dom) : (s.clearSram d).modes = s.modes := by simp [State.clearSram]
@[simp] theorem State.dropPorts_modes (s : State) (die : Nat) : (s.dropPorts die).modes = s.modes := by simp [State.dropPorts]
@[simp] theorem State.resetDie_modes (s : State) (die : Nat) : (s.resetDie die).modes = s.modes := by simp [State.resetDie]
@[simp] theorem State.retrain_modes (s : State) (l : List Nat) : (s.retrain l).modes = s.modes := by simp [State.retrain]

@[simp] theorem State.rewriteHomes_modes (s : State) (dom : Dom) : (s.rewriteHomes dom).modes = s.modes := by
  refine State.modes_foldl (fun s d => ?_) ..
  split
  · rfl
  · exact State.modes_foldl (fun s n => State.modes_foldl (fun s sub => State.modes_foldl (fun _ _ => State.putPiece_modes ..) ..) ..) ..

@[simp] theorem State.releasePins_modes (s : State) : s.releasePins.modes = s.modes := by
  refine State.modes_foldl (fun s e => ?_) ..
  split <;> simp

@[simp] theorem State.closeCaptures_modes (s : State) (r : Recovery) (us : Nat) : (s.closeCaptures r us).modes = s.modes := by
  simp [State.closeCaptures]

@[simp] theorem State.releaseOps_modes (s : State) : s.releaseOps.modes = s.modes := by simp [State.releaseOps]
@[simp] theorem State.flushRings_modes (s : State) : s.flushRings.modes = s.modes := State.modes_foldl (fun _ _ => State.flushRing_modes ..) ..
@[simp] theorem State.deliverHeld_modes (s : State) : s.deliverHeld.modes = s.modes := State.modes_foldl (fun _ _ => State.deliver_modes ..) ..
@[simp] theorem State.enumFar_modes (s : State) : s.enumFar.modes = s.modes := by simp [State.enumFar]
@[simp] theorem State.trainStage_modes (s : State) : s.trainStage.modes = s.modes := by simp [State.trainStage]
@[simp] theorem State.clearStage_modes (s : State) : s.clearStage.modes = s.modes := by simp [State.clearStage]

@[simp] theorem State.putEntry_modes (s : State) (d : DEntry) (idx sub v : Nat) : (s.putEntry d idx sub v).modes = s.modes := by
  simp [State.putEntry]

@[simp] theorem State.restoreTracker_modes (s : State) (l : List Byte) (t : Nat) : (s.restoreTracker l t).modes = s.modes := by
  simp [State.restoreTracker]

@[simp] theorem State.restoreLayer_modes (s : State) (l : List Byte) (i : Nat) : (s.restoreLayer l i).modes = s.modes := by
  simp [State.restoreLayer]

@[simp] theorem State.applyCtx_modes (s : State) (t : List (Nat × List Byte)) : (s.applyCtx t).modes = s.modes := by
  unfold State.applyCtx
  extract_lets draws trackers layers widened opened
  have hdraws : draws.modes = s.modes := by unfold draws; split <;> simp
  have htrackers : trackers.modes = s.modes := by unfold trackers; split <;> simp [hdraws]
  have hlayers : layers.modes = s.modes := by unfold layers; split <;> simp [htrackers]
  have hwidened : widened.modes = s.modes := by
    unfold widened
    split
    · rw [State.modes_foldl fun s i => by split <;> simp]
      simp [hlayers]
    · exact hlayers
  have hopened : opened.modes = s.modes := by unfold opened; split <;> simp [hwidened]
  split
  · rw [State.modes_foldl fun s e => by split <;> simp]
    exact hopened
  · exact hopened

@[simp] theorem State.measureRails_modes (s : State) (m : PowerSample) : (s.measureRails m).modes = s.modes := by simp [State.measureRails]
@[simp] theorem State.countStep_modes (s : State) : s.countStep.modes = s.modes := by simp [State.countStep]
@[simp] theorem State.setFailed_modes (s : State) (k : Nat) (b : Bool) : (s.setFailed k b).modes = s.modes := by simp [State.setFailed]
@[simp] theorem State.setSensor_modes (s : State) (k : Nat) (t : Int) : (s.setSensor k t).modes = s.modes := by simp [State.setSensor]

@[simp] theorem State.readSensor_modes (s : State) (temps : List (Option Int)) (k : Nat) : (s.readSensor temps k).modes = s.modes := by
  unfold State.readSensor; split <;> simp

@[simp] theorem State.setRpwr_modes (s : State) (r : Nat) (x : RegionPwr) : (s.setRpwr r x).modes = s.modes := by simp [State.setRpwr]
@[simp] theorem State.thermalStep_modes (s : State) (r : Nat) : (s.thermalStep r).modes = s.modes := by simp [State.thermalStep]

@[simp] theorem State.floorStep_modes (s : State) : s.floorStep.modes = s.modes := by
  unfold State.floorStep; split <;> simp

@[simp] theorem State.tripNow_modes (s : State) (draw : Nat) : (s.tripNow draw).modes = s.modes := by simp [State.tripNow]
@[simp] theorem State.ballastStep_modes (s : State) (draw : Nat) : (s.ballastStep draw).modes = s.modes := by simp [State.ballastStep]
@[simp] theorem State.critGates_modes (s : State) : s.critGates.modes = s.modes := by simp [State.critGates]
@[simp] theorem State.clockStep_modes (s : State) (before : Nat) : (s.clockStep before).modes = s.modes := by simp [State.clockStep]
@[simp] theorem State.governor_modes (s : State) (m : PowerSample) : (s.governor m).modes = s.modes := by simp [State.governor]
@[simp] theorem State.setSpwr_modes (s : State) (k : Nat) (x : StackPwr) : (s.setSpwr k x).modes = s.modes := by simp [State.setSpwr]

@[simp] theorem State.readStack_modes (s : State) (temps : List (Option Int)) (k : Nat) : (s.readStack temps k).modes = s.modes := by
  simp [State.readStack]

@[simp] theorem State.setMonitor_modes (s : State) (m : Nat) (x : Nat × Nat) : (s.setMonitor m x).modes = s.modes := by simp [State.setMonitor]
@[simp] theorem State.replan_modes (s : State) (r : Nat) : (s.replan r).modes = s.modes := by simp [State.replan]

@[simp] theorem State.ageSample_modes (s : State) (delays : List Nat) : (s.ageSample delays).modes = s.modes := by
  unfold State.ageSample
  simp only [State.settle_modes, State.modes_foldl fun _ _ => State.replan_modes .., State.modes_mk, State.modes_pair,
    State.modes_foldl fun _ _ => State.setAge_modes .., State.modes_foldl fun _ _ => State.setMonitor_modes ..]

@[simp] theorem State.sidebandPut_modes (s : State) (x : Nat) (b : Byte) : (s.sidebandPut x b).modes = s.modes := by simp [State.sidebandPut]

/-! ### Runs of items keep the modes -/

theorem onlyOutputs.modes {f : State → Nat → Item → RunOut} (h : onlyOutputs f) : runKeepsModes f :=
  fun u region y amax go hrun => (h u region y amax go hrun).modes

@[simp] theorem runKeepsModes_twnRun (marks : List Nat) : runKeepsModes (State.twnRun marks) := by
  intro u region y amax go h
  unfold State.twnRun at h
  obtain ⟨-, rfl⟩ := RunOut.ok.inj (State.gated_ok h)
  simp

@[simp] theorem runKeepsModes_hwsRun (marks : List Nat) : runKeepsModes (State.hwsRun marks) := by
  intro u region y amax go h
  unfold State.hwsRun at h
  obtain ⟨-, rfl⟩ := RunOut.ok.inj (State.gated_ok h)
  simp

theorem State.reeveStep_modes (x : Item) (region fresh : Nat) (ys : List OutEl) (acc : Reeved) (m : Nat) :
    (State.reeveStep x region fresh ys acc m).st.modes = acc.st.modes := by
  unfold State.reeveStep
  split
  · rfl
  · dsimp only
    split
    · rfl
    · split
      · rfl
      · split <;> simp

@[simp] theorem State.foldl_reeveStep_modes (x : Item) (region fresh : Nat) (ys : List OutEl) (l : List Nat) (acc : Reeved) :
    (l.foldl (State.reeveStep x region fresh ys) acc).st.modes = acc.st.modes :=
  State.modes_foldl_of (st := Reeved.st) (State.reeveStep_modes x region fresh ys) l acc

@[simp] theorem runKeepsModes_reeveRun (marks : List Nat) : runKeepsModes (State.reeveRun marks) := by
  intro u region y amax go h
  unfold State.reeveRun at h
  obtain ⟨-, rfl⟩ := RunOut.ok.inj (State.gated_ok h)
  dsimp only
  split
  · simp
  · split
    · simp
    · split
      · simp
      · dsimp only
        split <;> simp

@[simp] theorem runKeepsModes_attRun (k : Pin) : runKeepsModes (State.attRun k) := by
  intro u region y amax go h
  unfold State.attRun at h
  have h := State.gated_ok h
  extract_lets at h
  split at h
  · cases h
  · split at h
    · cases h
    · obtain ⟨-, rfl⟩ := RunOut.ok.inj h
      simp

@[simp] theorem runKeepsModes_mergeRun : runKeepsModes State.mergeRun := by
  intro u region y amax go h
  unfold State.mergeRun at h
  have h := State.gated_ok h
  extract_lets at h
  split at h
  · cases h
  · obtain ⟨-, rfl⟩ := RunOut.ok.inj h
    dsimp only
    split <;> split <;> simp

theorem State.publishRec_modes {s t : State} {seq layer image flags expect : Nat} (h : s.publishRec seq layer image flags expect = some (.ok t)) :
    t.modes = s.modes := by
  unfold State.publishRec at h
  split at h
  · extract_lets n same count img written home pruned signalled at h
    split at h
    · nomatch Option.some.inj h
    · split at h
      · rw [← Except.ok.inj (Option.some.inj h)]
        exact State.wr_modes ..
      · rw [← Except.ok.inj (Option.some.inj h)]
        simp [signalled, pruned, written]
  · cases h

@[simp] theorem runKeepsModes_publishRun : runKeepsModes State.publishRun := by
  intro u region y amax go h
  unfold State.publishRun at h
  have h := State.gated_ok h
  extract_lets at h
  split at h
  · obtain ⟨-, rfl⟩ := RunOut.ok.inj h
    rfl
  · split at h
    · cases h
    · obtain ⟨-, rfl⟩ := RunOut.ok.inj h
      dsimp only
      split
      next t hpub => simp [State.publishRec_modes hpub]
      · rfl
      · rfl

@[simp] theorem runKeepsModes_pteRun : runKeepsModes State.pteRun := by
  intro u region y amax go h
  unfold State.pteRun at h
  extract_lets at h
  split at h
  · cases h
  · obtain ⟨-, rfl⟩ := RunOut.ok.inj h
    dsimp only
    split <;> simp

@[simp] theorem runKeepsModes_copyRun : runKeepsModes State.copyRun := by
  intro u region y amax go h
  unfold State.copyRun at h
  obtain ⟨-, rfl⟩ := RunOut.ok.inj (State.gated_ok h)
  simp

@[simp] theorem runKeepsModes_fromMxRun : runKeepsModes State.fromMxRun := by
  intro u region y amax go h
  unfold State.fromMxRun at h
  have h := State.gated_ok h
  extract_lets at h
  split at h
  · cases h
  · obtain ⟨-, rfl⟩ := RunOut.ok.inj h
    exact State.modes_foldl (fun s i => by simp) ..

@[simp] theorem runKeepsModes_toMxRun : runKeepsModes State.toMxRun := by
  intro u region y amax go h
  unfold State.toMxRun at h
  have h := State.gated_ok h
  extract_lets at h
  split at h
  · cases h
  · obtain ⟨-, rfl⟩ := RunOut.ok.inj h
    simp

@[simp] theorem runKeepsModes_gatherRun : runKeepsModes State.gatherRun := by
  intro u region y amax go h
  unfold State.gatherRun at h
  have h := State.gated_ok h
  extract_lets at h
  split at h
  · cases h
  · obtain ⟨-, rfl⟩ := RunOut.ok.inj h
    simp

@[simp] theorem runKeepsModes_snarlCopyRun : runKeepsModes State.snarlCopyRun := by
  intro u region y amax go h
  unfold State.snarlCopyRun at h
  extract_lets at h
  split at h
  · cases h
  · obtain ⟨-, rfl⟩ := RunOut.ok.inj (State.gated_ok h)
    simp

@[simp] theorem runKeepsModes_rebRun : runKeepsModes State.rebRun := onlyOutputs_rebRun.modes
@[simp] theorem runKeepsModes_rtrRun : runKeepsModes State.rtrRun := onlyOutputs_rtrRun.modes
@[simp] theorem runKeepsModes_segRun : runKeepsModes State.segRun := onlyOutputs_segRun.modes
@[simp] theorem runKeepsModes_halRun : runKeepsModes State.halRun := onlyOutputs_halRun.modes
@[simp] theorem runKeepsModes_nmRun : runKeepsModes State.nmRun := onlyOutputs_nmRun.modes
@[simp] theorem runKeepsModes_drwRun : runKeepsModes State.drwRun := onlyOutputs_drwRun.modes
@[simp] theorem runKeepsModes_packRun : runKeepsModes State.packRun := onlyOutputs_packRun.modes

end Sys2Proof.Machine
end

section
/-! Starts, recoveries, resets and fences leave the Lay STATE and BOOT_STAGE within their codes (13 R453; 14; 15 R508 to R513). -/

namespace Sys2Proof.Machine

/-! ### Modes within their codes -/

/-- The Lay STATE is one of 0 to 3 and BOOT_STAGE one of 0 to 7. -/
def legalModes (m : Nat × Nat) : Prop := m.1 ≤ 3 ∧ m.2 ≤ 7

theorem legalModes_mk {a b : Nat} (ha : a ≤ 3) (hb : b ≤ 7) : legalModes (a, b) := ⟨ha, hb⟩
theorem legalModes.state {s : State} (h : legalModes s.modes) : s.lay.state ≤ 3 := h.1
theorem legalModes.stage {s : State} (h : legalModes s.modes) : s.boot.stage ≤ 7 := h.2
@[simp] theorem legalModes_ite (p : Prop) [Decidable p] (m n : Nat × Nat) :
    legalModes (if p then m else n) ↔ if p then legalModes m else legalModes n := by
  split
  · exact Iff.rfl
  · exact Iff.rfl
theorem legalModes.ite {p : Prop} [Decidable p] {t u : State} (ht : legalModes t.modes) (hu : legalModes u.modes) :
    legalModes (if p then t else u).modes := by
  split
  · exact ht
  · exact hu
theorem legalModes.foldl {α : Type} {f : State → α → State} (hf : ∀ s a, legalModes s.modes → legalModes (f s a).modes) (l : List α) {s : State}
    (h : legalModes s.modes) : legalModes (l.foldl f s).modes := by
  induction l generalizing s with
  | nil => exact h
  | cons a l ih => exact ih (hf s a h)

/-! ### Starts (15 R509 to R513) -/

theorem State.enterBitter_modes (s : State) (cause : Nat) : (s.enterBitter cause).modes = (s.lay.state, 0) := by
  rw [State.enterBitter, State.alert_modes, State.modes_mk]

/-- A start begins with stage 0. -/
theorem State.stage0_modes (s : State) : s.stage0.modes = (s.lay.state, 0) := by
  unfold State.stage0
  extract_lets _ begun current _ noted _ counted
  have hbegun : begun.modes = (s.lay.state, 0) := by simp [begun]
  have hcurrent : current.modes = (s.lay.state, 0) := by simp [current, hbegun]
  have hnoted : noted.modes = (s.lay.state, 0) := by simp [noted, hcurrent]
  obtain ⟨hlay, hstage⟩ := Prod.mk.inj hnoted
  have hcounted : counted.modes = (s.lay.state, 0) := by simp [counted, hnoted]
  split
  · rw [State.enterBitter_modes, hlay]
  · split
    · rw [State.enterBitter_modes, hlay]
    · rw [State.modes_mk]
      exact hcounted

theorem State.coldState_modes (s : State) (straps : Nat) : (s.coldState straps).modes = (0, 0) := by
  rw [State.coldState, State.modes_mk]; rfl
theorem State.warmState_modes (s : State) : s.warmState.modes = (0, 0) := by
  rw [State.warmState, State.modes_mk]
theorem State.allReset_modes (s : State) : s.allReset.modes = (0, 0) := by
  rw [State.allReset, State.modes_mk]; rfl

theorem State.stage0_legal {s : State} (h : legalModes s.modes) : legalModes s.stage0.modes := by
  rw [State.stage0_modes]
  exact legalModes_mk h.state (Nat.zero_le 7)

@[simp] theorem State.coldStart_legal (s : State) (straps : Nat) : legalModes (s.coldStart straps).modes := by
  unfold State.coldStart
  refine State.stage0_legal ?_
  have h : legalModes (s.coldState straps).strapDefaults.modes := by
    rw [State.strapDefaults_modes, State.coldState_modes]
    exact legalModes_mk (by decide) (by decide)
  exact .ite (by rwa [State.bootRecord_modes]) h

@[simp] theorem State.startFails_legal (s : State) (reason : Nat) : legalModes (s.startFails reason).modes := State.coldStart_legal ..

@[simp] theorem State.warmStart_legal (s : State) : legalModes s.warmStart.modes := by
  unfold State.warmStart
  refine State.stage0_legal ?_
  rw [State.strapDefaults_modes]
  rw [State.modes_mk, State.modes_pair, State.warmState_modes]
  exact legalModes_mk (by decide) (by decide)

theorem State.allReset_legal (s : State) : legalModes s.allReset.modes := by
  rw [State.allReset_modes]
  exact legalModes_mk (by decide) (by decide)

/-! ### Recoveries and fences (14 R467 to R489) -/

@[simp] theorem State.escalate_legal {s : State} (h : legalModes s.modes) (k : Dom) (c : Cause) : legalModes (s.escalate k c).modes := by
  unfold State.escalate
  dsimp only
  split
  · exact State.coldStart_legal ..
  · simpa using h

@[simp] theorem State.actOn_legal {s : State} (h : legalModes s.modes) (d : Dom) (p : Dispose) (c : Cause) : legalModes (s.actOn d p c).modes := by
  unfold State.actOn
  split
  case h_5 => exact State.escalate_legal h ..
  all_goals simpa using h

@[simp] theorem State.unfenceNow_legal {s : State} (h : legalModes s.modes) (u : Nat) : legalModes (s.unfenceNow u).modes := by
  unfold State.unfenceNow
  exact State.actOn_legal (by simpa using h) ..

@[simp] theorem State.unfenceUnits_legal {s : State} (h : legalModes s.modes) (sub mask : Nat) : legalModes (s.unfenceUnits sub mask).modes := by
  unfold State.unfenceUnits
  rw [State.settle_modes]
  refine legalModes.foldl (fun s u h => ?_) _ h
  refine .ite h (.ite ?_ (State.unfenceNow_legal h u))
  rwa [State.modes_mk, State.modes_pair]

@[simp] theorem State.requestReset_legal {s : State} (h : legalModes s.modes) (d : Dom) : legalModes (s.requestReset d).modes := by
  unfold State.requestReset
  dsimp only
  split
  case h_4 =>
    rw [State.settle_modes]
    exact State.actOn_legal (by simpa using h) ..
  all_goals exact h

@[simp] theorem State.resetRequest_legal {s : State} (h : legalModes s.modes) (level index : Nat) : legalModes (s.resetRequest level index).modes := by
  unfold State.resetRequest
  refine .ite h (.ite (State.coldStart_legal ..) (.ite (.ite h ?_) (.ite h ?_)))
  · exact State.requestReset_legal (by simpa using h) _
  · exact State.requestReset_legal h _

@[simp] theorem State.recoverEvent_legal {s : State} (h : legalModes s.modes) (src : Nat) (d : Dom) (payload : Nat) (fromHbm : Bool)
    {before : State → Dispose → State} (hb : ∀ u p, (before u p).modes = u.modes) :
    legalModes (s.recoverEvent src d payload fromHbm before).modes := by
  unfold State.recoverEvent
  dsimp only
  rw [State.settle_modes]
  exact State.actOn_legal (by simpa [hb] using h) ..

@[simp] theorem State.resetDomain_legal {s : State} (h : legalModes s.modes) (d : Dom) : legalModes (s.resetDomain d).modes := by
  unfold State.resetDomain
  split
  · exact State.warmStart_legal _
  · simpa using h

@[simp] theorem State.dueFences_legal {s : State} (h : legalModes s.modes) : legalModes s.dueFences.modes := by
  unfold State.dueFences
  refine legalModes.foldl (fun s u h => State.unfenceNow_legal h u) _ ?_
  simpa using h

@[simp] theorem State.endRecovery_legal {s : State} (h : legalModes s.modes) (f : Nat) (r : Recovery) : legalModes (s.endRecovery f r).modes := by
  unfold State.endRecovery
  dsimp only
  rw [State.settle_modes]
  refine State.dueFences_legal ?_
  simpa using h

end Sys2Proof.Machine
end

section
/-! Measured offsets, holdover and writes of the dictionary and of registers leave the Lay STATE and BOOT_STAGE within their codes (02; 13 R444 to R448). -/

namespace Sys2Proof.Machine

/-! ### The Lay unit (13 R444 to R448) -/

theorem Lay.judge_state (l : Lay) (ns : Int) (stepNs : Nat) (h : l.state ≤ 3) : (l.judge ns stepNs).state ≤ 3 := by
  simp only [Lay.judge]
  generalize (if ns.natAbs < 50 then min (l.good + 1) 16 else 0) = good
  split
  · exact (by decide : 1 ≤ 3)
  · split
    · exact h
    · split
      · exact (by decide : 2 ≤ 3)
      · exact (by decide : 1 ≤ 3)

@[simp] theorem State.layOffsetBy_legal {s : State} (h : legalModes s.modes) (d : Int) : legalModes (s.layOffsetBy d).modes := by
  have hjudge := legalModes_mk (s.lay.judge_state (nsOfLayInt d) (s.dv 0x2081 0) h.state) h.stage
  unfold State.layOffsetBy
  refine .ite ?_ (.ite ?_ ?_)
  · rwa [State.modes_mk]
  · rwa [State.layRecord_modes, State.flag_modes, State.mcBump_modes, State.modes_mk]
  · rwa [State.layRecord_modes, State.flag_modes, State.mcBump_modes, State.modes_mk]

@[simp] theorem State.layHoldover_legal {s : State} (h : legalModes s.modes) : legalModes s.layHoldover.modes := by
  unfold State.layHoldover
  refine .ite h ?_
  rw [State.layRecord_modes, State.flag_modes, State.modes_mk]
  exact legalModes_mk (Nat.le_refl 3) h.stage

@[simp] theorem State.ppsEdge_legal {s : State} (h : legalModes s.modes) (phase : Int) : legalModes (s.ppsEdge phase).modes := by
  unfold State.ppsEdge
  refine .ite h (State.layOffsetBy_legal ?_ _)
  rwa [State.modes_mk]

@[simp] theorem State.layExchange_legal {s : State} (h : legalModes s.modes) (port t1 t2 t3 t4 : Nat) :
    legalModes (s.layExchange port t1 t2 t3 t4).modes := by
  unfold State.layExchange
  refine .ite ?_ h
  rw [State.settle_modes]
  exact State.layOffsetBy_legal h _

@[simp] theorem State.onLaySync_legal {s : State} (h : legalModes s.modes) (port : Nat) (p : Packet) : legalModes (s.onLaySync port p).modes := by
  unfold State.onLaySync
  refine .ite (State.layExchange_legal h ..) (.ite h ?_)
  rwa [State.portSend_modes]

@[simp] theorem State.laySyncTick_legal {s : State} (h : legalModes s.modes) : legalModes s.laySyncTick.modes := by
  have hstate (l : Lay) (hl : l.state ≤ 3) : (if (l.state == 0 || l.state == 3) = true then 1 else l.state) ≤ 3 := by
    split
    · decide
    · exact hl
  unfold State.laySyncTick
  refine .ite h ?_
  dsimp only
  split
  · exact State.layHoldover_legal (by rwa [State.modes_mk])
  · rw [State.portSend_modes, State.modes_mk]
    exact legalModes_mk (hstate s.lay h.state) h.stage

@[simp] theorem State.layReselect_legal {s : State} (h : legalModes s.modes) (old : Nat) : legalModes (s.layReselect old).modes := by
  unfold State.layReselect
  refine .ite h ?_
  rw [State.modes_mk]
  refine legalModes_mk ?_ h.stage
  dsimp only
  split
  · decide
  · split
    · decide
    · decide

/-! ### Writes of the dictionary and of registers (02 R37 to R79) -/

@[simp] theorem State.debugEnable_legal {s : State} (h : legalModes s.modes) : legalModes s.debugEnable.1.modes := by
  unfold State.debugEnable
  split
  · exact h
  · split
    · exact h
    · exact State.resetRequest_legal (by rwa [State.modes_mk]) _ _

@[simp] theorem legalModes_ite_fst (p : Prop) [Decidable p] (r q : State × Nat) :
    legalModes (if p then r else q).1.modes ↔ if p then legalModes r.1.modes else legalModes q.1.modes := by
  split
  · exact Iff.rfl
  · exact Iff.rfl

@[simp] theorem onTrue_legal {s : State} {r : State × Nat} (h : legalModes s.modes) (hr : legalModes r.1.modes) (v : Nat) :
    legalModes (onTrue v s r).1.modes := by
  simp [onTrue, h, hr]

theorem legalModes.ite_fst {p : Prop} [Decidable p] {r q : State × Nat} (hr : legalModes r.1.modes) (hq : legalModes q.1.modes) :
    legalModes (if p then r else q).1.modes := by
  simp [hr, hq]

theorem legalModes.ite_snd {α : Type} {p : Prop} [Decidable p] {r q : α × State} (hr : legalModes r.2.modes) (hq : legalModes q.2.modes) :
    legalModes (if p then r else q).2.modes := by
  split
  · exact hr
  · exact hq

theorem effect_ite {p : Prop} [Decidable p] {r : State × Nat} {o : Option (State × Nat)} (hr : legalModes r.1.modes)
    (ho : ∀ q ∈ o, legalModes q.1.modes) : ∀ q ∈ (if p then some r else o), legalModes q.1.modes := by
  split
  · rintro q ⟨⟩
    exact hr
  · exact ho

theorem State.entryEffect_legal {s : State} (h : legalModes s.modes) (ini idx sub v : Nat) (data : List Byte) :
    ∀ r ∈ s.entryEffect ini idx sub v data, legalModes r.1.modes := by
  unfold State.entryEffect
  repeat' refine effect_ite ?_ ?_
  any_goals simp [h]
  split
  · simpa using h
  · simpa using h

@[simp] theorem State.entryAfter_legal {s t : State} (h : legalModes t.modes) (idx v : Nat) : legalModes (State.entryAfter s t idx v).modes := by
  unfold State.entryAfter
  refine .ite (State.layReselect_legal h _) (.ite ?_ (.ite ?_ (.ite ?_ h)))
  · rwa [State.modes_mk]
  · rwa [State.modes_mk]
  · rwa [State.globalCheck_modes]

@[simp] theorem State.entryWrite_legal {s : State} (h : legalModes s.modes) (ini : Nat) (d : DEntry) (idx sub v : Nat) (data : List Byte) :
    legalModes (s.entryWrite ini d idx sub v data).1.modes := by
  unfold State.entryWrite
  split
  · rwa [State.entryRefuse_modes]
  · split
    next r hr => exact s.entryEffect_legal h ini idx sub v data r hr
    · exact State.entryAfter_legal (.ite (by rwa [State.setDv_modes]) (by rwa [State.homePut_modes, State.setDv_modes])) _ _

@[simp] theorem State.dictWrite_legal {s : State} (h : legalModes s.modes) (ini : Nat) (agrex : Bool) (idx sub : Nat) (ty : Option Nat)
    (data : List Byte) (comp : Option Bool) : legalModes (s.dictWrite ini agrex idx sub ty data comp).1.modes := by
  unfold State.dictWrite
  split
  · exact h
  · refine .ite_fst h (.ite_fst h (.ite_fst h (.ite_fst h (.ite_fst h (.ite_fst h ?_)))))
    split
    · exact State.entryWrite_legal h ..
    · exact legalModes.foldl (fun _ _ h => State.entryWrite_legal h ..) _ h

@[simp] theorem State.agWrite_legal {s : State} (h : legalModes s.modes) (guarded : Bool) (p : List Byte) :
    legalModes (s.agWrite guarded p).2.modes := by
  unfold State.agWrite
  exact .ite_snd h (.ite_snd h (State.dictWrite_legal h ..))

theorem State.agSession_legal {s : State} (h : legalModes s.modes) (d : Datagram) (roleOwner close : Bool)
    {f : State → Bool → Nat → Answer × State} (hf : ∀ u o i, legalModes u.modes → legalModes (f u o i).2.modes) :
    legalModes (s.agSession d roleOwner f close).modes := by
  unfold State.agSession
  extract_lets live
  have hlive : legalModes live.modes := by
    unfold live
    split
    · exact .ite (by simpa using h) h
    · exact h
  split
  · simpa using hlive
  · split
    · simpa using hlive
    next x _ _ =>
      extract_lets known put prev owner r a advanced stored replied
      have hput : legalModes put.modes := by simpa [put] using hlive
      have hr : legalModes r.2.modes := by
        unfold r
        split
        · exact hput
        · exact hf _ _ _ hput
      split
      · have hreplied : legalModes replied.modes := by simpa [replied, stored] using hr
        exact .ite (by simpa using hreplied) hreplied
      · split
        · simpa using hput
        · simpa using hput

theorem State.agReceive_legal {s : State} (h : legalModes s.modes) (d : Datagram) (opcode : Nat) {f : State → State}
    (hf : ∀ u, legalModes u.modes → legalModes (f u).modes) : legalModes (s.agReceive d opcode f).modes := by
  unfold State.agReceive
  exact .ite (hf s h) h

theorem State.dicGo_legal {s : State} (h : legalModes s.modes) (ini : Nat) {f : State → DicBank → State}
    (hf : ∀ u b, legalModes u.modes → legalModes (f u b).modes) : legalModes (s.dicGo ini f).modes := by
  have hi : legalModes (s.intervene ini hubDie none).modes := by rwa [State.intervene_modes]
  unfold State.dicGo
  exact .ite hi (hf _ _ hi)

@[simp] theorem State.dicWriteOp_legal {s : State} (h : legalModes s.modes) (ini idx sub : Nat) (guarded : Bool) :
    legalModes (s.dicWriteOp ini idx sub guarded).modes := by
  refine State.dicGo_legal h ini fun u b hu => ?_
  refine .ite (by rwa [State.dicStart_modes]) ?_
  rw [State.dicStart_modes]
  exact State.dictWrite_legal hu ..

@[simp] theorem State.storeOpen_legal {s : State} (h : legalModes s.modes) (ini die off m v : Nat) :
    legalModes (s.storeOpen ini die off m v).modes := by
  unfold State.storeOpen
  split
  · exact h
  · refine .ite h ?_
    dsimp only
    split
    next t hcmd => rwa [State.storeCommand_modes _ _ _ _ _ _ _ t hcmd]
    · have hstored (old new : Word) (r : Reg) (i e : Nat) (l : List (DEntry × Nat × Nat × Piece)) :
          legalModes (l.foldl (fun s h => State.homeStore old s h) (s.setReg r i e new)).modes := by
        rwa [State.modes_foldl fun _ _ => State.homeStore_modes .., State.setReg_modes]
      exact .ite (State.layReselect_legal (hstored ..) _) (.ite (by rw [State.ringLowFit_modes]; exact hstored ..) (hstored ..))

@[simp] theorem State.storeBits_legal {s : State} (h : legalModes s.modes) (ini die off m v : Nat) :
    legalModes (s.storeBits ini die off m v).modes := by
  unfold State.storeBits
  exact State.storeOpen_legal (.ite (by rwa [State.refuse_modes]) h) ..

@[simp] theorem State.aliasWrite_legal {s : State} (h : legalModes s.modes) (ini die off value : Nat) :
    legalModes (s.aliasWrite ini die off value).modes := by
  have hi : legalModes (s.intervene ini die none).modes := by rwa [State.intervene_modes]
  unfold State.aliasWrite
  exact .ite hi (.ite (by rwa [State.abort_modes]) (State.storeBits_legal hi ..))

@[simp] theorem State.dicCommand_legal {s : State} (h : legalModes s.modes) (ini v : Nat) : legalModes (s.dicCommand ini v).modes := by
  unfold State.dicCommand
  exact .ite (by rwa [State.dicReadOp_modes]) (.ite (by rwa [State.dicReserved_modes]) (State.dicWriteOp_legal h ..))

@[simp] theorem State.dicStore_legal {s : State} (h : legalModes s.modes) (ini x v : Nat) : legalModes (s.dicStore ini x v).modes := by
  have hi : legalModes (s.intervene ini hubDie none).modes := by rwa [State.intervene_modes]
  unfold State.dicStore
  refine .ite (State.dicCommand_legal hi ..) (.ite ?_ (.ite ?_ (.ite ?_ hi))) <;> rwa [State.setDic_modes]

@[simp] theorem State.bankStore_legal {s : State} (h : legalModes s.modes) (ini die off v : Nat) :
    legalModes (s.bankStore ini die off v).modes := by
  unfold State.bankStore
  exact .ite (State.dicStore_legal h ..) (by rwa [State.mbxStore_modes])

@[simp] theorem State.regStore_legal {s : State} (h : legalModes s.modes) (ini die off width v : Nat) :
    legalModes (s.regStore ini die off width v).modes := by
  have hg : legalModes (s.guardPass ini die off width v).2.modes := by rwa [State.guardPass_modes]
  unfold State.regStore
  refine .ite (State.storeOpen_legal (State.storeOpen_legal ?_ ..) ..) (State.storeBits_legal hg ..)
  exact .ite (by rwa [State.refuse_modes]) hg

@[simp] theorem State.busStore_legal {s : State} (h : legalModes s.modes) (ini addr width value : Nat) :
    legalModes (s.busStore ini addr width value).modes := by
  unfold State.busStore
  refine .ite h ?_
  split
  · rwa [State.memStoreCore_modes]
  · split
    · exact h
    next die off _ =>
      have halias := State.aliasWrite_legal h ini die off (value % 2 ^ 32)
      have hbank := State.bankStore_legal h ini die off (value % 2 ^ 32)
      refine .ite ?_ (.ite (.ite (State.aliasWrite_legal halias ..) halias) (.ite (.ite ?_ ?_)
        (.ite (.ite (State.bankStore_legal hbank ..) hbank) (State.regStore_legal h ..))))
      · rwa [State.emit_modes]
      · rwa [State.guardWrite_modes]
      · rwa [State.intervene_modes]

end Sys2Proof.Machine
end

section
/-! Frames, watchdogs, recoveries and stages leave the Lay STATE and BOOT_STAGE within their codes (13 to 15). -/

namespace Sys2Proof.Machine

/-! ### Frames and packets (13 R411 to R417) -/

@[simp] theorem State.deliverPacket_legal {s : State} (h : legalModes s.modes) (port : Nat) (p : Packet) :
    legalModes (s.deliverPacket port p).modes := by
  unfold State.deliverPacket
  refine .ite (by rwa [State.routeDrop_modes]) (.ite (by rwa [State.onHello_modes]) (.ite (State.onLaySync_legal h ..) ?_))
  rw [State.onPacket_modes]
  · exact h
  · intro u
    split
    · exact State.onMembership_modes ..
    · exact State.onRouteSet_modes ..
    · exact State.onVoteResult_modes ..
    · split
      · exact State.onVoteQuery_modes ..
      · exact State.onVoteAnswer_modes ..
    · exact State.onPut_modes ..
    · exact State.onCollData_modes ..
    · exact State.onDelivered_modes ..
    · exact State.onCleatOp_modes ..
    · exact State.onCollReady_modes ..
    · exact State.onCollAbort_modes ..
    · rfl

@[simp] theorem State.takeFrame_legal {s : State} (h : legalModes s.modes) (port : Nat) (hdr : LinkHdr) (cells : List (List Byte)) :
    legalModes (s.takeFrame port hdr cells).modes := by
  unfold State.takeFrame
  extract_lets x t came heard replayed retrained pumped n delivered
  have hpumped : pumped.modes = s.modes := by simp [pumped, retrained, replayed, heard]
  have hdelivered : legalModes delivered.modes := legalModes.foldl (fun _ _ h => State.deliverPacket_legal h ..) _ (by rwa [hpumped])
  exact .ite hdelivered (by rwa [State.newFrame_modes])

/-! ### What a command answers -/

/-- A command that answers with a state leaves the modes of that state within their codes. -/
def answersLegal (o : Host.Outcome State Fault Refusal) : Prop := ∀ t, o = .next t → legalModes t.modes

@[simp] theorem answersLegal_next (t : State) : answersLegal (.next t) ↔ legalModes t.modes :=
  ⟨fun h => h t rfl, fun h _ ht => Host.Outcome.next.inj ht ▸ h⟩

theorem answersLegal.ite {p : Prop} [Decidable p] {o q : Host.Outcome State Fault Refusal} (ho : answersLegal o) (hq : answersLegal q) :
    answersLegal (if p then o else q) := by
  split
  · exact ho
  · exact hq

theorem execPwrGoodFall_legal (s : State) : answersLegal (execPwrGoodFall s) := by
  rw [execPwrGoodFall, answersLegal_next]
  dsimp only
  rw [State.modes_mk]
  exact s.allReset_legal

section
variable {s : State} (h : legalModes s.modes)
include h

theorem execFrameReceive_legal (port : Nat) (f : Frame) : answersLegal (execFrameReceive port f s) := by
  rw [execFrameReceive, answersLegal_next]
  refine .ite h ?_
  extract_lets r bad ucw _ counted taken
  have hcounted : legalModes counted.modes := by simpa [counted] using h
  have htaken : legalModes taken.modes := by
    unfold taken
    split
    · exact .ite (State.takeFrame_legal hcounted ..) (by rwa [State.refuseFrame_modes])
    · rwa [State.refuseFrame_modes]
  rwa [State.dropLanes_modes]

theorem execPacketForward_legal (port : Nat) (p : Packet) : answersLegal (execPacketForward port p s) := by
  rw [execPacketForward, answersLegal_next]
  exact .ite (State.deliverPacket_legal h ..) (by rwa [State.forward_modes])

/-! ### Watchdogs, recoveries and fences (14) -/

theorem execWdProgressExpiry_legal (region slot : Nat) : answersLegal (execWdProgressExpiry region slot s) := by
  rw [execWdProgressExpiry, answersLegal_next]
  split
  · exact h
  next x _ =>
    refine .ite h ?_
    have hrecovered (src : Nat) (d : Dom) (payload : Nat) : legalModes (s.recoverEvent src d payload false fun s p =>
          (s.mcBump 0x40A4 0 1).stopItem region slot x stWatchdog (p != .none)).modes :=
      State.recoverEvent_legal h _ _ _ _ fun u p => by simp
    exact .ite (by rw [State.noteFault_modes]; exact hrecovered ..) (hrecovered ..)

theorem execWdHbmExpiry_legal (stack line : Nat) (write : Bool) : answersLegal (execWdHbmExpiry stack line write s) := by
  rw [execWdHbmExpiry, answersLegal_next]
  refine .ite h ?_
  extract_lets limit again l counted _ noted payload
  have hnoted : legalModes noted.modes := by simpa [noted, counted] using h
  refine .ite (State.recoverEvent_legal hnoted _ _ _ _ fun _ _ => rfl) (.ite ?_ ?_)
  · rwa [State.record_modes]
  · rwa [State.record_modes]

theorem execSramSweep_legal (ev : SramEvent) : answersLegal (execSramSweep ev s) := by
  rw [execSramSweep, answersLegal_next]
  refine .ite (.ite (by rwa [State.mcBump_modes]) h) (.ite h (.ite (by rwa [State.record_modes]) ?_))
  extract_lets recorded told
  have hrecorded : legalModes recorded.modes := by simpa [recorded] using h
  have htold : legalModes told.modes := by
    unfold told
    refine .ite (State.recoverEvent_legal h _ _ _ _ fun _ _ => rfl) ?_
    split
    · rwa [State.modes_mk, State.modes_pair]
    · exact .ite (by rwa [State.poisonQueued_modes]) hrecorded
  rw [State.settle_modes]
  exact .ite (by rwa [State.noteFault_modes]) htold

theorem execFidDrainDone_legal (fid : Nat) : answersLegal (execFidDrainDone fid s) := by
  rw [execFidDrainDone, answersLegal_next]
  split
  · exact .ite h (State.resetDomain_legal (by rwa [State.setFid_modes]) _)
  · exact h

theorem execFidRecoveryDone_legal (fid : Nat) (badStacks : List Nat) : answersLegal (execFidRecoveryDone fid badStacks s) := by
  have hretrained (bad : List Nat) (x : Fid) : legalModes ((s.retrain bad).setFid fid x).modes := by
    rwa [State.setFid_modes, State.retrain_modes]
  rw [execFidRecoveryDone, answersLegal_next]
  split
  · exact h
  · exact .ite h (.ite (.ite (hretrained ..) h) (.ite (hretrained ..) (.ite h (State.endRecovery_legal h ..))))

theorem execMcTelltaleExpiry_legal (imageOk : Bool) : answersLegal (execMcTelltaleExpiry imageOk s) := by
  rw [execMcTelltaleExpiry, answersLegal_next]
  have hrecorded : legalModes ((({ s.mcBump 0x4012 2 s.sessions.length with sessions := [], ownerSession := 0 } : State).setProgress 0x7030
      (State.progress { s.mcBump 0x4012 2 s.sessions.length with sessions := [], ownerSession := 0 } 0x7030).abort).record hubDie 11 sevCorrected 7
        1 0 0 (1 * 2 ^ 120)).modes := by
    simpa using h
  exact .ite hrecorded (State.recoverEvent_legal hrecorded _ _ _ _ fun _ _ => rfl)

/-! ### Starts and stages (15 R508 to R513; 12 R382; 17 R556 to R560) -/

@[simp] theorem State.ready_legal : legalModes s.ready.modes := by
  unfold State.ready
  extract_lets slot counted _ up ended
  have hup : legalModes up.modes := by
    have hlay : counted.lay.state = s.lay.state := congrArg Prod.fst (State.modRec_modes ..)
    rw [State.modes_mk]
    exact legalModes_mk (hlay ▸ h.state) (Nat.le_refl 7)
  have hended : legalModes ended.modes := by
    unfold ended
    split
    · exact .ite (State.endRecovery_legal hup ..) hup
    · exact hup
  rwa [State.modes_foldl fun _ _ => State.portRetrainOne_modes ..]

@[simp] theorem State.nextStage_legal : legalModes s.nextStage.modes := by
  unfold State.nextStage
  by_cases hn : 7 ≤ s.boot.stage + 1
  · rw [if_pos hn]
    exact State.ready_legal h
  · rw [if_neg hn]
    have hmodes : legalModes (s.lay.state, s.boot.stage + 1) := legalModes_mk h.state (by omega)
    simp [hmodes]

theorem execHbmTrainingDone_legal (stack reason : Nat) (badPins : List (Nat × Nat)) :
    answersLegal (execHbmTrainingDone stack reason badPins s) := by
  unfold execHbmTrainingDone
  refine .ite (by rwa [answersLegal_next]) (.ite ?_ ?_)
  · rw [answersLegal_next]
    simpa using h
  · rw [answersLegal_next]
    exact .ite (State.startFails_legal ..) (by simpa using h)

theorem execBootStageDone_legal (reason : Nat) : answersLegal (execBootStageDone reason s) := by
  rw [execBootStageDone, answersLegal_next]
  refine .ite h (.ite (.ite (State.nextStage_legal h) h) (.ite ?_ (State.startFails_legal ..)))
  rw [State.modes_mk]
  exact legalModes_mk h.state (Nat.zero_le 7)

theorem execSelfTestDone_legal (bad : List Dom) : answersLegal (execSelfTestDone bad s) := by
  rw [execSelfTestDone, answersLegal_next]
  refine .ite h (.ite (State.startFails_legal ..) ?_)
  rwa [State.setProgress_modes, State.modes_foldl fun s d => by simp]

theorem execRailRangeFault_legal (rail : Nat) : answersLegal (execRailRangeFault rail s) := by
  rw [execRailRangeFault, answersLegal_next]
  refine .ite h ?_
  dsimp only
  rw [State.powerOff_modes, State.alert_modes, State.pwrRecord_modes, State.mcBump_modes]
  exact .ite (State.startFails_legal ..) h

theorem execBrdRstNLow_legal : answersLegal (execBrdRstNLow s) := by
  rw [execBrdRstNLow, answersLegal_next]
  refine .ite h ?_
  rw [State.modes_mk]
  exact s.allReset_legal

theorem execLayRefReturn_legal : answersLegal (execLayRefReturn s) := by
  rw [execLayRefReturn, answersLegal_next]
  refine .ite ?_ h
  rw [State.modes_mk]
  refine legalModes_mk ?_ h.stage
  dsimp only
  split
  · decide
  · exact h.state

end
end Sys2Proof.Machine
end

section
/-! Every step leaves the Lay STATE and BOOT_STAGE within their codes (13 R453; 15 R508). -/

namespace Sys2Proof.Machine

/-! ### Every command leaves the modes within their codes -/

section
variable {s : State} (h : legalModes s.modes)
include h

/-! #### The management port (02 R41 to R79) -/

/-- A command of a session whose work keeps the modes. -/
theorem agCommand_legal (dg : Datagram) (opcode : Nat) (roleOwner close : Bool) {f : State → Bool → Nat → Answer × State}
    (hf : ∀ u o i, (f u o i).2.modes = u.modes) :
    answersLegal (.next (s.agReceive dg opcode fun u => u.agSession dg roleOwner f close)) := by
  rw [answersLegal_next]
  exact State.agReceive_legal h _ _ fun u hu => State.agSession_legal hu _ _ _ fun u o i hu => by rwa [hf]

theorem execAgxOpen_legal (dg : Datagram) : answersLegal (execAgxOpen dg s) := by
  rw [execAgxOpen, answersLegal_next]
  exact State.agReceive_legal h _ _ fun u hu => by rwa [State.agOpen_modes]
theorem execAgxClose_legal (dg : Datagram) : answersLegal (execAgxClose dg s) := agCommand_legal h _ _ _ _ fun _ _ _ => rfl
theorem execAgxClaim_legal (dg : Datagram) : answersLegal (execAgxClaim dg s) := agCommand_legal h _ _ _ _ fun _ _ _ => State.agClaim_modes ..
theorem execAgxRelease_legal (dg : Datagram) : answersLegal (execAgxRelease dg s) := agCommand_legal h _ _ _ _ fun _ _ _ => State.agRelease_modes ..
theorem execAgxKeepalive_legal (dg : Datagram) : answersLegal (execAgxKeepalive dg s) := agCommand_legal h _ _ _ _ fun _ _ _ => rfl
theorem execAgxRead_legal (dg : Datagram) : answersLegal (execAgxRead dg s) := agCommand_legal h _ _ _ _ fun _ _ _ => State.agRead_modes ..
theorem execAgxReadMulti_legal (dg : Datagram) : answersLegal (execAgxReadMulti dg s) :=
  agCommand_legal h _ _ _ _ fun _ _ _ => State.agReadMulti_modes ..
theorem execAgxWrite_legal (dg : Datagram) : answersLegal (execAgxWrite dg s) := by
  rw [execAgxWrite, answersLegal_next]
  exact State.agReceive_legal h _ _ fun u hu => State.agSession_legal hu _ _ _ fun u o i hu => State.agWrite_legal hu ..
theorem execAgxGuardedWrite_legal (dg : Datagram) : answersLegal (execAgxGuardedWrite dg s) := by
  rw [execAgxGuardedWrite, answersLegal_next]
  exact State.agReceive_legal h _ _ fun u hu => State.agSession_legal hu _ _ _ fun u o i hu => State.agWrite_legal hu ..

/-! #### Commands that begin by taking or starting an item -/

theorem execFetchBlockArrive_legal (region slot stream entry block gen : Nat) (poisoned : Bool) :
    answersLegal (execFetchBlockArrive region slot stream entry block gen poisoned s) := by
  rw [execFetchBlockArrive, answersLegal_next]
  refine .ite (by rwa [State.bump_modes]) ?_
  split
  · exact h
  · refine .ite h ?_
    split
    · exact h
    next u y hstart =>
      have hu : legalModes u.modes := by rwa [State.startItem_modes hstart]
      exact .ite (by rwa [State.takeBlock_modes]) hu

theorem execSend_legal (region slot : Nat) : answersLegal (execSend region slot s) := by
  rw [execSend, answersLegal_next]
  split
  · exact h
  · refine .ite h (.ite (by simpa using h) (.ite (by simpa using h) ?_))
    split
    · exact h
    next u y hstart =>
      have hu : legalModes u.modes := by rwa [State.startItem_modes hstart]
      split
      · rwa [State.endRun_modes]
      · split
        · rwa [State.skewRun_modes]
        · dsimp only
          rwa [State.endRun_modes, State.modes_foldl fun _ _ => State.sendTracked_modes ..]

theorem execVote_legal (region slot : Nat) : answersLegal (execVote region slot s) := by
  rw [execVote, answersLegal_next]
  split
  · exact h
  next x _ =>
    refine .ite h (.ite (by simpa using h) ?_)
    extract_lets k bad admitted p
    have hadmitted : legalModes admitted.modes := by
      unfold admitted
      split
      · exact h
      · rwa [State.admitColl_modes]
    split
    · rwa [State.endRun_modes]
    · exact hadmitted
    · refine .ite hadmitted (.ite (by rwa [State.endRun_modes]) ?_)
      split
      · exact hadmitted
      next u y hstart =>
        have hu : legalModes u.modes := by rwa [State.startItem_modes hstart]
        simpa using hu

theorem execAttend_legal (region slot : Nat) : answersLegal (execAttend region slot s) := by
  have hbad (c r m : Nat) : legalModes (s.runItem region slot (·.engine == 4) fun _ _ _ => .bad (c, r, m)).modes := by
    rwa [State.runItem_modes]
    intro u region y amax go hrun
    cases hrun
  rw [execAttend, answersLegal_next]
  split
  · exact h
  · refine .ite h ?_
    split
    · simpa using h
    · refine .ite ?_ ?_
      · rwa [State.runItem_modes]
        intro u region y amax go hrun
        cases hrun
        rfl
      · split
        · exact hbad ..
        · refine .ite (hbad ..) (.ite (by rwa [State.pinWait_modes]) (.ite h ?_))
          dsimp only
          split <;> simpa using h

theorem execSpillDrain_legal (cluster : Nat) : answersLegal (execSpillDrain cluster s) := by
  rw [execSpillDrain, answersLegal_next]
  split
  · exact h
  next t k hdrain => rwa [State.wakeSpill_modes, State.drainOne_modes hdrain]

theorem execRecordPublish_legal (op : RecOp) : answersLegal (execRecordPublish op s) := by
  rw [execRecordPublish, answersLegal_next]
  refine .ite h ?_
  extract_lets stop
  have hstop (t : State) (r : Result) : (stop t r).modes = t.modes := by
    unfold stop
    split
    · split
      · exact State.endRun_modes ..
      · rfl
    · rfl
  split
  · rwa [hstop]
  · rwa [hstop]
  next t hpub => rwa [State.settle_modes, hstop, State.publishRec_modes hpub]

theorem execTwineMatmul_legal (region slot : Nat) (residue : List Nat) : answersLegal (execTwineMatmul region slot residue s) := by
  have hrun (p : Prop) [Decidable p] : runKeepsModes (if p then State.reeveRun residue else State.twnRun residue) := by
    split
    · exact runKeepsModes_reeveRun residue
    · exact runKeepsModes_twnRun residue
  rw [execTwineMatmul, answersLegal_next]
  rwa [State.reeveWait_modes, State.runItem_modes _ _ _ _ (hrun _)]

/-! #### The other commands -/

theorem execDicCmdDone_legal (ini : Nat) : answersLegal (execDicCmdDone ini s) := by
  rw [execDicCmdDone, answersLegal_next]
  exact .ite h (by rwa [State.setDic_modes])

theorem execLayRefLoss_legal : answersLegal (execLayRefLoss s) := by
  rw [execLayRefLoss, answersLegal_next]
  exact .ite (State.layHoldover_legal (by rwa [State.modes_mk])) h


theorem execAgxSessionLapse_legal (session : Nat) : answersLegal (execAgxSessionLapse session s) := by
  unfold execAgxSessionLapse
  repeat' split
  all_goals simp [h]

theorem execDescriptorAdmit_legal (region : Nat) : answersLegal (execDescriptorAdmit region s) := by
  unfold execDescriptorAdmit
  dsimp only
  repeat' split
  all_goals simp [h]

theorem execLayGateOpen_legal (region slot : Nat) : answersLegal (execLayGateOpen region slot s) := by
  unfold execLayGateOpen
  repeat' split
  all_goals simp [h]

theorem execItemComplete_legal (region slot : Nat) : answersLegal (execItemComplete region slot s) := by
  unfold execItemComplete
  repeat' split
  all_goals simp [h]

theorem execNmOperation_legal (op : NmOp) : answersLegal (execNmOperation op s) := by
  unfold execNmOperation
  dsimp only
  repeat' split
  all_goals simp [h]

theorem execSnarlCopy_legal (region slot : Nat) : answersLegal (execSnarlCopy region slot s) := by
  unfold execSnarlCopy
  repeat' split
  all_goals simp [h]

theorem execScaleLineMerge_legal (m : LineMerge) : answersLegal (execScaleLineMerge m s) := by
  unfold execScaleLineMerge
  repeat' split
  all_goals simp [h]

theorem execPrepassPassDone_legal (region slot : Nat) : answersLegal (execPrepassPassDone region slot s) := by
  unfold execPrepassPassDone
  repeat' split
  all_goals simp [h]

theorem execVoteDoubtTimeout_legal (slot : Nat) : answersLegal (execVoteDoubtTimeout slot s) := by
  unfold execVoteDoubtTimeout
  dsimp only
  repeat' split
  all_goals simp [h]

theorem execRecordPin_legal (op : RecOp) : answersLegal (execRecordPin op s) := by
  unfold execRecordPin
  dsimp only
  repeat' split
  all_goals simp [h]

theorem execRecordRelease_legal (op : RecOp) : answersLegal (execRecordRelease op s) := by
  unfold execRecordRelease
  repeat' split
  all_goals simp [h]

theorem execRecordAppend_legal (op : RecOp) : answersLegal (execRecordAppend op s) := by
  unfold execRecordAppend
  dsimp only
  repeat' split
  all_goals simp [h]

theorem execPageWaitTimeout_legal (region slot : Nat) : answersLegal (execPageWaitTimeout region slot s) := by
  unfold execPageWaitTimeout
  repeat' split
  all_goals simp [h]

theorem execPinWaitTimeout_legal (region slot : Nat) : answersLegal (execPinWaitTimeout region slot s) := by
  unfold execPinWaitTimeout
  dsimp only
  repeat' split
  all_goals simp [h]

theorem execAteRingTailWrite_legal (ini die value : Nat) : answersLegal (execAteRingTailWrite ini die value s) := by
  unfold execAteRingTailWrite
  dsimp only
  repeat' split
  all_goals simp [h]

theorem execMemRead_legal (core : Option Nat) (stack off : Nat) (errs : List (Nat × Nat)) : answersLegal (execMemRead core stack off errs s) := by
  unfold execMemRead
  dsimp only
  repeat' split
  all_goals simp [h]

theorem execScrubRead_legal (stack : Nat) (errs : List (Nat × Nat)) : answersLegal (execScrubRead stack errs s) := by
  unfold execScrubRead
  dsimp only
  repeat' split
  all_goals simp [h]

theorem execFarRead_legal (core : Option Nat) (addr : Nat) (cxlPoison : Bool) : answersLegal (execFarRead core addr cxlPoison s) := by
  unfold execFarRead
  dsimp only
  repeat' split
  all_goals simp [h]

theorem execFarWrite_legal (addr : Nat) (data : List Byte) (poisoned : Bool) : answersLegal (execFarWrite addr data poisoned s) := by
  unfold execFarWrite
  repeat' split
  all_goals simp [h]

theorem execFarLinkDown_legal (root : Nat) : answersLegal (execFarLinkDown root s) := by
  unfold execFarLinkDown
  dsimp only
  repeat' split
  all_goals simp [h]

theorem execFarLinkRetrain_legal (root lanes gts : Nat) : answersLegal (execFarLinkRetrain root lanes gts s) := by
  unfold execFarLinkRetrain
  dsimp only
  repeat' split
  all_goals simp [h]

theorem execDrainAtReached_legal : answersLegal (execDrainAtReached s) := by
  unfold execDrainAtReached
  dsimp only
  repeat' split
  all_goals simp [h]

theorem execDrainComplete_legal : answersLegal (execDrainComplete s) := by
  unfold execDrainComplete
  dsimp only
  repeat' split
  all_goals simp [h]

theorem execSendTimeout_legal (seq : Nat) : answersLegal (execSendTimeout seq s) := by
  unfold execSendTimeout
  dsimp only
  repeat' split
  all_goals simp [h]

theorem execWdCleatExpiry_legal (region slot : Nat) : answersLegal (execWdCleatExpiry region slot s) := by
  unfold execWdCleatExpiry
  dsimp only
  repeat' split
  all_goals simp [h]

theorem execFidQueuedStart_legal (fid : Nat) : answersLegal (execFidQueuedStart fid s) := by
  unfold execFidQueuedStart
  dsimp only
  repeat' split
  all_goals simp [h]

theorem execAttestReportReady_legal : answersLegal (execAttestReportReady s) := by
  unfold execAttestReportReady
  dsimp only
  repeat' split
  all_goals simp [h]

theorem execFastTripEnd_legal : answersLegal (execFastTripEnd s) := by
  unfold execFastTripEnd
  dsimp only
  repeat' split
  all_goals simp [h]

theorem execCritTempTimeout_legal (stack : Bool) (index : Nat) : answersLegal (execCritTempTimeout stack index s) := by
  unfold execCritTempTimeout
  repeat' split
  all_goals simp [h]

/-- Every command leaves the modes within their codes. -/
theorem exec_legal (c : Instr) : answersLegal (exec c s) := by
  cases c with
  | agxOpen dg => exact execAgxOpen_legal h dg
  | agxClose dg => exact execAgxClose_legal h dg
  | agxClaim dg => exact execAgxClaim_legal h dg
  | agxRelease dg => exact execAgxRelease_legal h dg
  | agxKeepalive dg => exact execAgxKeepalive_legal h dg
  | agxRead dg => exact execAgxRead_legal h dg
  | agxReadMulti dg => exact execAgxReadMulti_legal h dg
  | agxWrite dg => exact execAgxWrite_legal h dg
  | agxGuardedWrite dg => exact execAgxGuardedWrite_legal h dg
  | agxSessionLapse session => exact execAgxSessionLapse_legal h session
  | dicCmdDone ini => exact execDicCmdDone_legal h ini
  | descriptorAdmit region => exact execDescriptorAdmit_legal h region
  | layGateOpen region slot => exact execLayGateOpen_legal h region slot
  | fetchBlockArrive region slot stream entry block gen poisoned => exact execFetchBlockArrive_legal h region slot stream entry block gen poisoned
  | itemComplete region slot => exact execItemComplete_legal h region slot
  | twineMatmul region slot residue => exact execTwineMatmul_legal h region slot residue
  | attend region slot => exact execAttend_legal h region slot
  | nmOperation op => exact execNmOperation_legal h op
  | send region slot => exact execSend_legal h region slot
  | vote region slot => exact execVote_legal h region slot
  | snarlCopy region slot => exact execSnarlCopy_legal h region slot
  | scaleLineMerge m => exact execScaleLineMerge_legal h m
  | prepassPassDone region slot => exact execPrepassPassDone_legal h region slot
  | voteDoubtTimeout slot => exact execVoteDoubtTimeout_legal h slot
  | recordPin op => exact execRecordPin_legal h op
  | recordRelease op => exact execRecordRelease_legal h op
  | recordAppend op => exact execRecordAppend_legal h op
  | recordPublish op => exact execRecordPublish_legal h op
  | spillDrain cluster => exact execSpillDrain_legal h cluster
  | pageWaitTimeout region slot => exact execPageWaitTimeout_legal h region slot
  | pinWaitTimeout region slot => exact execPinWaitTimeout_legal h region slot
  | ateRingTailWrite ini die value => exact execAteRingTailWrite_legal h ini die value
  | memRead core stack off errs => exact execMemRead_legal h core stack off errs
  | scrubRead stack errs => exact execScrubRead_legal h stack errs
  | hbmTrainingDone stack reason badPins => exact execHbmTrainingDone_legal h stack reason badPins
  | farRead core addr cxlPoison => exact execFarRead_legal h core addr cxlPoison
  | farWrite addr data poisoned => exact execFarWrite_legal h addr data poisoned
  | farLinkDown root => exact execFarLinkDown_legal h root
  | farLinkRetrain root lanes gts => exact execFarLinkRetrain_legal h root lanes gts
  | drainAtReached => exact execDrainAtReached_legal h
  | drainComplete => exact execDrainComplete_legal h
  | frameReceive port f => exact execFrameReceive_legal h port f
  | packetForward port pkt => exact execPacketForward_legal h port pkt
  | sendTimeout seq => exact execSendTimeout_legal h seq
  | layRefLoss => exact execLayRefLoss_legal h
  | wdProgressExpiry region slot => exact execWdProgressExpiry_legal h region slot
  | wdCleatExpiry region slot => exact execWdCleatExpiry_legal h region slot
  | wdHbmExpiry stack line write => exact execWdHbmExpiry_legal h stack line write
  | sramSweep ev => exact execSramSweep_legal h ev
  | fidQueuedStart fid => exact execFidQueuedStart_legal h fid
  | fidDrainDone fid => exact execFidDrainDone_legal h fid
  | fidRecoveryDone fid badStacks => exact execFidRecoveryDone_legal h fid badStacks
  | mcTelltaleExpiry imageOk => exact execMcTelltaleExpiry_legal h imageOk
  | bootStageDone reason => exact execBootStageDone_legal h reason
  | selfTestDone bad => exact execSelfTestDone_legal h bad
  | attestReportReady => exact execAttestReportReady_legal h
  | fastTripEnd => exact execFastTripEnd_legal h
  | critTempTimeout stack index => exact execCritTempTimeout_legal h stack index
  | railRangeFault rail => exact execRailRangeFault_legal h rail
  | pwrGoodFall => exact execPwrGoodFall_legal s
  | brdRstNLow => exact execBrdRstNLow_legal h
  | layRefReturn => exact execLayRefReturn_legal h
  | _ =>
    simp [exec, h,
      execDicRead, execDicWrite, execDicGuardedWrite, execDicReservedOp, execRegisterWrite, execRcRegisterRead, execGuardWrite, execGwFieldWrite,
      execGuardTimeout, execBitAliasWrite, execBitAliasRead, execMbxCaptureLong128, execMbxCaptureLay, execMbxCaptureSnarl, execMbxCaptureWide,
      execMbxCaptureDone, execWrkSqTailWrite, execWrkCqHeadWrite, execCleatSignal, execCleatDecrement, execCleatSet, execCleatArm,
      execHawserMatmul, execSegMatmul, execReblock, execMask, execDropout, execFillUniform, execFillNormal4, execPackSparse, execRoute,
      execGateRoute, execMerge, execPublish, execPteWrite, execPassA, execPassB, execPassC, execPassCDelayed, execSeed, execNmBatch, execAllreduce,
      execReduceScatter, execAllgather, execSumL128, execMaxF32, execCopy, execScalesFromMx, execScalesToMx, execGatherRows, execGatherSlots,
      execStepOpen, execStepReopen, execStepAbandon, execStepFree, execStepCmdReserved, execSplTrkCfgWrite, execVoteResult, execVoteQuery,
      execVoteQueryAnswer, execVoteQueryTimeout, execMemWrite, execMemPartialWrite, execMapLock, execFarEvent, execDrainStart, execPortEnable,
      execPortRetrain, execLinkUp, execPortTrainTimeout, execLaneFail, execHello, execMembership, execEpochReply, execRouteSet, execSuspectReport,
      execLaySync, execPut, execCollData, execDelivered, execCleatOp, execCollReady, execCollAbort, execNeighbourSilent, execLayPpsEdge,
      execLaySetSeconds, execLayPpsLoss, execLaySyncTick, execWdCreditExpiry, execPoisonMarkWrite, execResetRequest, execFenceSet, execFenceClear,
      execSnarlAck, execErrClear, execPowerOffRequest, execColdBoot, execBootStageTimeout, execFwData, execFwCommit, execFwVerifyDone,
      execActiveSlot, execBootRecordClear, execRollbackCommit, execOwnerDigest, execKeySlot, execFmKey, execAttestNonce, execDebugToken,
      execDebugEnable, execCtxSave, execCtxSaveDone, execCtxRestore, execCtxRestoreDone, execGovernorTick, execRampAtReached, execRampEntryWrite,
      execPowerClass, execThermalTrip, execHbmTempSample, execAgeSample, execAgeState, execBrdRstNRise, execI3cDynamicAddress, execI3cRead,
      execI3cWrite, execDieToDieLinkError]

end

/-- A tick of the Lay unit keeps its STATE. -/
theorem Lay.tick_state (l : Lay) : l.tick.state = l.state := by
  simp only [Lay.tick]
  split
  · rfl
  · rfl

/-- Settles O6: every command answers with legal modes (`exec_legal`), and a cycle on an empty queue keeps them. -/
theorem everyStepKeepsTheModesLegal : Obligations.EveryStepKeepsTheModesLegal := by
  intro s t hstate hstage hstep
  have h : legalModes s.modes := legalModes_mk hstate hstage
  have hlegal : answersLegal (step s) := by
    unfold step
    split
    · rw [answersLegal_next, idleTick, State.modes_mk, Lay.tick_state]
      exact h
    next c rest _ => exact exec_legal (s := { s with pending := rest }) (by rwa [State.modes_mk]) c
  have ht := hlegal t hstep
  exact ⟨ht.state, ht.stage⟩

end Sys2Proof.Machine
end

section
/-! Ports: enabled, trained, up, narrowed, lost, and the report of a silent neighbour (13 R408 to R410, R423). -/

namespace Sys2Proof.Machine

/-! ### The words of a port (13 R452) -/

/-- Word `o` of the registers of a port, of all the words of registers. -/
def portKey (p o : Nat) : Nat := portDie p * 2 ^ 28 + (0xC0000 + 0x400 * portEl p + o)

/-- The key of a register of the fabric block, by the word of its first element. -/
theorem regKey_fabB {r : Reg} {o k : Nat} (hb : (regDef r).blk = .fabB) (ho : (regDef r).off = 4 * o) (hk : (regDef r).stride = 4 * k)
    (die e : Nat) : regKey r die e = die * 2 ^ 28 + (0xC0000 + o + k * e) := by
  simp only [regKey, regPlace, hb, ho, hk, blkBase, offKey, Nat.mul_assoc]
  omega

/-- The key of a register that each port has. -/
theorem regKey_port {r : Reg} {o : Nat} (hb : (regDef r).blk = .fabB) (ho : (regDef r).off = 4 * o) (hk : (regDef r).stride = 4 * 0x400)
    (p : Nat) : regKey r (portDie p) (portEl p) = portKey p o := by
  rw [regKey_fabB hb ho hk, portKey]
  omega

theorem regKey_fabPortStat (p : Nat) : regKey .fabPortStat (portDie p) (portEl p) = portKey p 0 := regKey_port (by decide) (by decide) (by decide) p
theorem regKey_fabPortSts (p : Nat) : regKey .fabPortSts (portDie p) (portEl p) = portKey p 1 := regKey_port (by decide) (by decide) (by decide) p
theorem regKey_fabPortCfg (p : Nat) : regKey .fabPortCfg (portDie p) (portEl p) = portKey p 2 := regKey_port (by decide) (by decide) (by decide) p
theorem regKey_fabPortNbr (p : Nat) : regKey .fabPortNbr (portDie p) (portEl p) = portKey p 3 := regKey_port (by decide) (by decide) (by decide) p
theorem regKey_fabReplayCnt (p : Nat) : regKey .fabReplayCnt (portDie p) (portEl p) = portKey p 6 := regKey_port (by decide) (by decide) (by decide) p
theorem regKey_fabWidthCnt (p : Nat) : regKey .fabWidthCnt (portDie p) (portEl p) = portKey p 7 := regKey_port (by decide) (by decide) (by decide) p

theorem portEl_le (p : Nat) : portEl p ≤ 4 := by
  rw [portEl]
  split <;> omega

/-- The words of two ports are apart. -/
theorem portKey_ne_of_port {p q : Nat} (hp : p < 18) (hq : q < 18) (hpq : p ≠ q) {o n : Nat} (ho : o < 16) (hn : n < 16) :
    portKey p o ≠ portKey q n := by
  have hplace : ∀ p < 18, ∀ q < 18, p ≠ q → portDie p ≠ portDie q ∨ portEl p ≠ portEl q := by decide
  have := hplace p hp q hq hpq
  have := portEl_le p
  have := portEl_le q
  rw [portKey, portKey]
  omega

theorem portKey_ne_of_word {p o n : Nat} (h : o ≠ n) : portKey p o ≠ portKey p n := by
  rw [portKey, portKey]
  omega

/-- A word of a die that is none of a port's. -/
def besidePorts (n : Nat) : Prop := n % 2 ^ 28 < 0xC0000 ∨ 0xC2000 ≤ n % 2 ^ 28

theorem portKey_ne_of_beside {p o n : Nat} (ho : o < 16) (hn : besidePorts n) : portKey p o ≠ n := by
  have := portEl_le p
  rintro rfl
  rw [besidePorts, portKey] at hn
  omega

theorem besidePorts_errB {r : Reg} {o : Nat} (hb : (regDef r).blk = .errB) (ho : (regDef r).off = 4 * o) (hlt : o < 0x10000) (die : Nat) :
    besidePorts (regKey r die 0) := by
  simp only [regKey, regPlace, hb, ho, blkBase, offKey, besidePorts]
  omega
theorem besidePorts_errSts (die : Nat) : besidePorts (regKey .errSts die 0) := besidePorts_errB (o := 1) (by decide) (by decide) (by decide) die
theorem besidePorts_errLostCnt (die : Nat) : besidePorts (regKey .errLostCnt die 0) :=
  besidePorts_errB (o := 4) (by decide) (by decide) (by decide) die

theorem besidePorts_fabB {r : Reg} {o : Nat} (hb : (regDef r).blk = .fabB) (ho : (regDef r).off = 4 * o) (hk : (regDef r).stride = 4 * 1)
    (hle : 0x2000 ≤ o) (hlt : o < 0x10000) (die : Nat) : besidePorts (regKey r die 0) := by
  rw [regKey_fabB hb ho hk, besidePorts]
  omega
theorem besidePorts_fabSts (die : Nat) : besidePorts (regKey .fabSts die 0) :=
  besidePorts_fabB (o := 0x4002) (by decide) (by decide) (by decide) (by decide) (by decide) die
theorem besidePorts_fabRouteDropCnt (die : Nat) : besidePorts (regKey .fabRouteDropCnt die 0) :=
  besidePorts_fabB (o := 0x4003) (by decide) (by decide) (by decide) (by decide) (by decide) die

theorem regKey_fabLaneStat (die lane : Nat) : regKey .fabLaneStat die lane = die * 2 ^ 28 + (0xC2000 + 0x10 * lane) :=
  regKey_fabB (o := 0x2000) (by decide) (by decide) (by decide) die lane

theorem laneAt_lt (p : Nat) {l : Nat} (h : l < 8) : (laneAt p l).2 < 64 := by
  simp only [laneAt]
  split
  · dsimp only; omega
  · split <;> (dsimp only; omega)

theorem besidePorts_laneAt (p : Nat) {l : Nat} (h : l < 8) : besidePorts (regKey .fabLaneStat (laneAt p l).1 (laneAt p l).2) := by
  have := laneAt_lt p h
  rw [regKey_fabLaneStat, besidePorts]
  omega

/-! ### What a view of the state keeps -/

/-- Canonical form is kept, and with it what `v` shows of the state. -/
structure viewKept {α : Type} (v : State → α) (t s : State) : Prop where
  keeps : s.wf = true → t.wf = true ∧ v t = v s

section
variable {α : Type} {v : State → α} {u t s : State}

theorem viewKept.wf (h : viewKept v t s) (hs : s.wf = true) : t.wf = true := (h.keeps hs).1
theorem viewKept.eq (h : viewKept v t s) (hs : s.wf = true) : v t = v s := (h.keeps hs).2
theorem viewKept.refl (s : State) : viewKept v s s := ⟨fun hs => ⟨hs, rfl⟩⟩
theorem viewKept.trans (h : viewKept v u t) (k : viewKept v t s) : viewKept v u s :=
  ⟨fun hs => ⟨h.wf (k.wf hs), (h.eq (k.wf hs)).trans (k.eq hs)⟩⟩
theorem viewKept.ite {p : Prop} [Decidable p] (h : viewKept v t s) (h' : viewKept v u s) : viewKept v (if p then t else u) s := by
  split
  · exact h
  · exact h'
theorem viewKept.foldl {β : Type} {f : State → β → State} (l : List β) (hf : ∀ b ∈ l, ∀ s, viewKept v (f s b) s) (s : State) :
    viewKept v (l.foldl f s) s := by
  induction l generalizing s with
  | nil => exact .refl s
  | cons b l ih => exact (ih (fun c hc => hf c (.tail b hc)) (f s b)).trans (hf b (.head l) s)
end

/-- Word `k` of the registers is kept. -/
abbrev keyKept (k : Nat) (t s : State) : Prop := viewKept (fun s => s.regK k) t s

/-- The record of a port is kept. -/
abbrev recordKept (port : Nat) (t s : State) : Prop := viewKept (fun s => s.port port) t s

/-- The cycle at which a port began to train is kept. -/
abbrev trainKept (port : Nat) (t s : State) : Prop := viewKept (fun s => (s.port port).trainCyc) t s

theorem recordKept.train {port : Nat} {t s : State} (h : recordKept port t s) : trainKept port t s :=
  ⟨fun hs => ⟨h.wf hs, congrArg Port.trainCyc (h.eq hs)⟩⟩

section
variable {k port : Nat} (s : State)

theorem State.setReg_keyKept {r : Reg} {i e : Nat} (h : k ≠ regKey r i e) (w : Word) : keyKept k (s.setReg r i e w) s :=
  ⟨fun hs => ⟨State.setReg_wf hs .., State.regK_setRegK_ne hs _ _ _ h⟩⟩
theorem State.setReg_recordKept (r : Reg) (i e : Nat) (w : Word) : recordKept port (s.setReg r i e w) s :=
  ⟨fun hs => ⟨State.setReg_wf hs .., congrArg (tget dPort · port) (State.setReg_ports ..)⟩⟩

theorem State.setPort_keyKept (p : Nat) (x : Port) : keyKept k (s.setPort p x) s :=
  ⟨fun hs => ⟨State.setPort_wf hs .., congrArg (tget regReset · k) (State.setPort_regs ..)⟩⟩
theorem State.setPort_recordKept {p : Nat} (h : port ≠ p) (x : Port) : recordKept port (s.setPort p x) s :=
  ⟨fun hs => ⟨State.setPort_wf hs .., State.port_setPort_ne hs _ _ _ h⟩⟩
theorem State.setPort_trainKept {p : Nat} {x : Port} (h : x.trainCyc = (s.port p).trainCyc) : trainKept port (s.setPort p x) s := by
  by_cases hp : port = p
  · subst hp
    exact ⟨fun hs => ⟨State.setPort_wf hs .., (congrArg Port.trainCyc (State.port_setPort_same hs ..)).trans h⟩⟩
  · exact (State.setPort_recordKept s hp x).train

theorem State.emit_keyKept (o : Out) : keyKept k (s.emit o) s := ⟨fun hs => ⟨hs, congrArg (tget regReset · k) (State.emit_regs ..)⟩⟩
theorem State.emit_recordKept (o : Out) : recordKept port (s.emit o) s :=
  ⟨fun hs => ⟨hs, congrArg (tget dPort · port) (State.emit_ports ..)⟩⟩
theorem State.irqBy_keyKept (cfg : Word) (cause detail : Nat) : keyKept k (s.irqBy cfg cause detail) s := .ite (State.emit_keyKept ..) (.refl s)
theorem State.irqBy_recordKept (cfg : Word) (cause detail : Nat) : recordKept port (s.irqBy cfg cause detail) s :=
  .ite (State.emit_recordKept ..) (.refl s)

/-- A lane's register is no word of a port. -/
theorem State.putLane_keyKept {o : Nat} (ho : o < 16) (p : Nat) {l : Nat} (hl : l < 8) (lock failed : Bool) :
    keyKept (portKey port o) (s.putLane p l lock failed) s := State.setReg_keyKept s (portKey_ne_of_beside ho (besidePorts_laneAt p hl)) _

/-! ### What sending keeps -/

theorem Port.wordsOut_trainCyc (x : Port) (good : List Nat) (b : List Byte) : (x.wordsOut good b).1.trainCyc = x.trainCyc := by
  rw [Port.wordsOut]
  generalize chunks 200 8 b = l
  suffices h : ∀ acc : Port × List (List Byte), acc.1.trainCyc = x.trainCyc → (l.foldl (fun (acc : Port × List (List Byte)) part =>
      let x := acc.1
      let lane := laneOf good x.txCw
      let r := scramble (x.txScr.getD lane 0) part
      ({ x with txScr := x.txScr.set lane r.2, txCw := x.txCw + 1 }, acc.2 ++ [fabEncode r.1])) acc).1.trainCyc = x.trainCyc from h _ rfl
  induction l with
  | nil => exact fun acc h => h
  | cons part l ih => exact fun acc h => ih _ h

theorem State.frameOut_keyKept (p seq : Nat) (nak retrain : Bool) (cells : List (Packet × Nat)) :
    keyKept k (s.frameOut p seq nak retrain cells) s := (State.emit_keyKept ..).trans (State.setPort_keyKept ..)
theorem State.frameOut_trainKept (p seq : Nat) (nak retrain : Bool) (cells : List (Packet × Nat)) :
    trainKept port (s.frameOut p seq nak retrain cells) s :=
  (State.emit_recordKept ..).train.trans (State.setPort_trainKept _ (Port.wordsOut_trainCyc ..))
theorem State.frameOut_recordKept {p : Nat} (h : port ≠ p) (seq : Nat) (nak retrain : Bool) (cells : List (Packet × Nat)) :
    recordKept port (s.frameOut p seq nak retrain cells) s := (State.emit_recordKept ..).trans (State.setPort_recordKept _ h _)

theorem State.newFrame_keyKept (p : Nat) (nak retrain : Bool) (cells : List (Packet × Nat)) : keyKept k (s.newFrame p nak retrain cells) s :=
  (State.frameOut_keyKept ..).trans (State.setPort_keyKept ..)
theorem State.newFrame_trainKept (p : Nat) (nak retrain : Bool) (cells : List (Packet × Nat)) : trainKept port (s.newFrame p nak retrain cells) s :=
  (State.frameOut_trainKept ..).trans (State.setPort_trainKept _ rfl)
theorem State.newFrame_recordKept {p : Nat} (h : port ≠ p) (nak retrain : Bool) (cells : List (Packet × Nat)) :
    recordKept port (s.newFrame p nak retrain cells) s := (State.frameOut_recordKept _ h ..).trans (State.setPort_recordKept _ h _)

theorem State.pump_keyKept (p : Nat) : keyKept k (s.pump p) s :=
  .ite (.refl s) ((viewKept.foldl _ (fun _ _ _ => State.emit_keyKept ..) _).trans
    ((viewKept.foldl _ (fun _ _ _ => State.newFrame_keyKept ..) _).trans (State.setPort_keyKept ..)))
theorem State.pump_trainKept (p : Nat) : trainKept port (s.pump p) s :=
  .ite (.refl s) ((viewKept.foldl _ (fun _ _ _ => (State.emit_recordKept ..).train) _).trans
    ((viewKept.foldl _ (fun _ _ _ => State.newFrame_trainKept ..) _).trans (State.setPort_trainKept _ rfl)))
theorem State.pump_recordKept {p : Nat} (h : port ≠ p) : recordKept port (s.pump p) s :=
  .ite (.refl s) ((viewKept.foldl _ (fun _ _ _ => State.emit_recordKept ..) _).trans
    ((viewKept.foldl _ (fun _ _ _ => State.newFrame_recordKept _ h ..) _).trans (State.setPort_recordKept _ h _)))

theorem State.portSend_keyKept (p : Nat) (q : Packet) : keyKept k (s.portSend p q) s := (State.pump_keyKept ..).trans (State.setPort_keyKept ..)
theorem State.portSend_trainKept (p : Nat) (q : Packet) : trainKept port (s.portSend p q) s :=
  (State.pump_trainKept ..).trans (State.setPort_trainKept _ rfl)
theorem State.portSend_recordKept {p : Nat} (h : port ≠ p) (q : Packet) : recordKept port (s.portSend p q) s :=
  (State.pump_recordKept _ h).trans (State.setPort_recordKept _ h _)

theorem State.routeDrop_keyKept {o : Nat} (ho : o < 16) (die : Nat) : keyKept (portKey port o) (s.routeDrop die) s :=
  (State.setReg_keyKept _ (portKey_ne_of_beside ho (besidePorts_fabSts die)) _).trans
    (State.setReg_keyKept _ (portKey_ne_of_beside ho (besidePorts_fabRouteDropCnt die)) _)

/-- A packet sent on its route leaves the words of every port. -/
theorem State.sendFrom_keyKept {o : Nat} (ho : o < 16) (die : Nat) (q : Packet) : keyKept (portKey port o) (s.sendFrom die q) s := by
  rw [State.sendFrom]
  split
  · exact State.routeDrop_keyKept s ho die
  · exact State.portSend_keyKept ..
theorem State.sendFrom_trainKept (die : Nat) (q : Packet) : trainKept port (s.sendFrom die q) s := by
  rw [State.sendFrom]
  split
  · exact recordKept.train ((State.setReg_recordKept ..).trans (State.setReg_recordKept ..))
  · exact State.portSend_trainKept ..

/-- A route has no port that is not up. -/
theorem State.routePorts_up {die dst p : Nat} (h : p ∈ s.routePorts die dst) : s.portUp p = true := by
  simp only [State.routePorts] at h
  split at h
  · have hused : p < 18 ∧ s.portUp p = true := by simpa using (List.mem_filter.1 h).2
    exact hused.2
  · cases h

/-- No packet is handed to a port that is not up. -/
theorem State.sendFrom_recordKept (hdown : s.portUp port = false) (die : Nat) (q : Packet) : recordKept port (s.sendFrom die q) s := by
  rw [State.sendFrom]
  split
  · exact (State.setReg_recordKept ..).trans (State.setReg_recordKept ..)
  next p l hroute =>
    have hup : s.portUp p = true := s.routePorts_up (die := die) (dst := q.dst) (hroute ▸ List.mem_cons_self ..)
    exact State.portSend_recordKept s (by rintro rfl; simp [hup] at hdown) q

end

/-! ### A port trains, or goes down (13 R408, R417) -/

/-- The status word of a port reads its STATE and its lanes. -/
theorem setPortStat_state {st : Nat} (h : st < 8) (good : Nat) : bits (setPortStat st good).toNat 31 29 = st := by
  have hcount : ((List.range 8).filter (bit good ·)).length ≤ 8 := (List.length_filter_le ..).trans_eq List.length_range
  rw [setPortStat, bits, BitVec.toNat_ofNat]
  omega
theorem setPortStat_good {st good : Nat} (_ : st < 8) (hgood : good < 256) : bits (setPortStat st good).toNat 23 16 = good := by
  have hcount : ((List.range 8).filter (bit good ·)).length ≤ 8 := (List.length_filter_le ..).trans_eq List.length_range
  rw [setPortStat, bits, BitVec.toNat_ofNat]
  omega

/-- A port's status, read at its word. -/
theorem State.portStat_eq (s : State) (p : Nat) : s.portStat p = (s.regK (portKey p 0)).toNat := by
  rw [State.portStat, State.reg, regKey_fabPortStat]
theorem State.portEnabled_eq (s : State) (p : Nat) : s.portEnabled p = bit (s.regK (portKey p 2)).toNat 31 := by
  rw [State.portEnabled, State.reg, regKey_fabPortCfg]

theorem keyKept.portStat {port : Nat} {t s : State} (h : keyKept (portKey port 0) t s) (hs : s.wf = true) : t.portStat port = s.portStat port := by
  rw [State.portStat_eq, State.portStat_eq]
  exact congrArg BitVec.toNat (h.eq hs)
theorem keyKept.portState {port : Nat} {t s : State} (h : keyKept (portKey port 0) t s) (hs : s.wf = true) : t.portState port = s.portState port :=
  congrArg (bits · 31 29) (h.portStat hs)
theorem keyKept.portGood {port : Nat} {t s : State} (h : keyKept (portKey port 0) t s) (hs : s.wf = true) : t.portGood port = s.portGood port :=
  congrArg (bits · 23 16) (h.portStat hs)
theorem keyKept.portUp {port : Nat} {t s : State} (h : keyKept (portKey port 0) t s) (hs : s.wf = true) : t.portUp port = s.portUp port := by
  rw [State.portUp, State.portUp, h.portState hs]
theorem keyKept.portEnabled {port : Nat} {t s : State} (h : keyKept (portKey port 2) t s) (hs : s.wf = true) :
    t.portEnabled port = s.portEnabled port := by
  rw [State.portEnabled_eq, State.portEnabled_eq]
  exact congrArg (fun w => bit (BitVec.toNat w) 31) (h.eq hs)

theorem State.putPortStat_stat {s : State} (hs : s.wf = true) (p st good : Nat) :
    (s.putPortStat p st good).portStat p = (setPortStat st good).toNat := by
  rw [State.portStat, State.putPortStat, State.reg_setReg_same hs]
theorem State.putPortStat_state {s : State} (hs : s.wf = true) (p : Nat) {st : Nat} (h : st < 8) (good : Nat) :
    (s.putPortStat p st good).portState p = st := by
  rw [State.portState, State.putPortStat_stat hs, setPortStat_state h]
theorem State.putPortStat_good {s : State} (hs : s.wf = true) (p : Nat) {st good : Nat} (h : st < 8) (hgood : good < 256) :
    (s.putPortStat p st good).portGood p = good := by
  rw [State.portGood, State.putPortStat_stat hs, setPortStat_good h hgood]

/-- `t` is `s` but for registers and ports. -/
abbrev linkFrom (t s : State) : Prop := ∃ regs ports, t = { s with regs := regs, ports := ports }

theorem linkFrom.refl (s : State) : linkFrom s s := ⟨_, _, rfl⟩
theorem linkFrom.trans {u t s : State} (h : linkFrom u t) (k : linkFrom t s) : linkFrom u s := by
  obtain ⟨_, _, rfl⟩ := h; obtain ⟨_, _, rfl⟩ := k; exact ⟨_, _, rfl⟩
theorem linkFrom.ite {p : Prop} [Decidable p] {t t' s : State} (h : linkFrom t s) (h' : linkFrom t' s) : linkFrom (if p then t else t') s := by
  split
  · exact h
  · exact h'
theorem linkFrom.sent {t s : State} (h : linkFrom t s) : sentFrom t s := by obtain ⟨_, _, rfl⟩ := h; exact ⟨_, _, _, rfl⟩
theorem linkFrom.eq_self {t s : State} (h : linkFrom t s) : t = { s with regs := t.regs, ports := t.ports } := by obtain ⟨_, _, rfl⟩ := h; rfl

/-- The registers of a port that is not up: its status `st`, no neighbour, its lanes unlocked. -/
def State.portIdle (s : State) (p st : Nat) : State :=
  (List.range 8).foldl (fun s l => s.putLane p l false false) ((s.putPortStat p st 0).setReg .fabPortNbr (portDie p) (portEl p) 0#32)

section
variable (s : State) (p : Nat)

theorem State.putLane_regs (l : Nat) (lock failed : Bool) : regsFrom (s.putLane p l lock failed) s := State.setReg_regs ..

theorem State.portIdle_regs (st : Nat) : regsFrom (s.portIdle p st) s :=
  (regsFrom.foldl (fun _ _ => State.putLane_regs ..) _ _).trans ((State.setReg_regs ..).trans (State.setReg_regs ..))

theorem State.putLanes_keyKept {port o : Nat} (ho : o < 16) (f : Nat → Bool) (lock failed : Bool) :
    keyKept (portKey port o) ((List.range 8).foldl (fun s l => if f l then s.putLane p l lock failed else s) s) s :=
  viewKept.foldl _ (fun _ hl _ => .ite (State.putLane_keyKept _ ho p (List.mem_range.1 hl) ..) (.refl _)) _

/-- It changes the words STAT and NBR of its port. -/
theorem State.portIdle_keyKept (st : Nat) {port o : Nat} (ho : o < 16) (hstat : portKey port o ≠ portKey p 0)
    (hnbr : portKey port o ≠ portKey p 3) : keyKept (portKey port o) (s.portIdle p st) s :=
  (viewKept.foldl _ (fun _ hl _ => State.putLane_keyKept _ ho p (List.mem_range.1 hl) ..) _).trans
    ((State.setReg_keyKept _ (by rwa [regKey_fabPortNbr]) _).trans (State.setReg_keyKept _ (by rwa [regKey_fabPortStat]) _))

theorem State.portIdle_recordKept (st port : Nat) : recordKept port (s.portIdle p st) s :=
  (viewKept.foldl _ (fun _ _ _ => State.setReg_recordKept ..) _).trans ((State.setReg_recordKept ..).trans (State.setReg_recordKept ..))

theorem State.portIdle_state {s : State} (hs : s.wf = true) (p : Nat) {st : Nat} (h : st < 8) : (s.portIdle p st).portState p = st := by
  have hkept : keyKept (portKey p 0) (s.portIdle p st) (s.putPortStat p st 0) :=
    (viewKept.foldl _ (fun _ hl _ => State.putLane_keyKept _ (by decide) p (List.mem_range.1 hl) ..) _).trans
      (State.setReg_keyKept _ (by rw [regKey_fabPortNbr]; exact portKey_ne_of_word (by decide)) _)
  rw [hkept.portState (State.setReg_wf hs ..), State.putPortStat_state hs p h]

/-- A bring-up that starts is the port idle in training, and its record. -/
theorem State.portTrain_eq : s.portTrain p = (s.portIdle p 1).setPort p { (s.portIdle p 1).port p with
    starts := 0, trainCyc := (s.portIdle p 1).cycle, failed := [], rxWait := false, replays := 0, kept := []
    queue := ((s.portIdle p 1).port p).unsent, rxBuf := [], ucw := [] } := rfl

theorem State.portTrain_link : linkFrom (s.portTrain p) s := by
  obtain ⟨regs, hidle⟩ := s.portIdle_regs p 1
  rw [State.portTrain_eq, hidle]
  exact ⟨_, _, rfl⟩

theorem State.portTrain_keyKept {port o : Nat} (ho : o < 16) (hstat : portKey port o ≠ portKey p 0) (hnbr : portKey port o ≠ portKey p 3) :
    keyKept (portKey port o) (s.portTrain p) s := (State.setPort_keyKept ..).trans (s.portIdle_keyKept p 1 ho hstat hnbr)

theorem State.portTrain_recordKept {port : Nat} (h : port ≠ p) : recordKept port (s.portTrain p) s :=
  (State.setPort_recordKept _ h _).trans (s.portIdle_recordKept p 1 port)

/-- Its port is in training from now, with no start failed. -/
theorem State.portTrain_spec {s : State} (hs : s.wf = true) (p : Nat) : (s.portTrain p).portState p = 1 ∧
    ((s.portTrain p).port p).trainCyc = s.cycle ∧ ((s.portTrain p).port p).starts = 0 := by
  have hidle : (s.portIdle p 1).wf = true := (s.portIdle_recordKept p 1 p).wf hs
  have hcycle : (s.portIdle p 1).cycle = s.cycle := by
    obtain ⟨_, h⟩ := s.portIdle_regs p 1
    rw [h]
  have hstate : (s.portTrain p).portState p = (s.portIdle p 1).portState p :=
    keyKept.portState (State.setPort_keyKept (s.portIdle p 1) p _) hidle
  refine ⟨hstate.trans (State.portIdle_state hs p (by decide)), ?_, ?_⟩
  · rw [State.portTrain_eq, State.port_setPort_same hidle, hcycle]
  · rw [State.portTrain_eq, State.port_setPort_same hidle]

/-- The registers of a port that goes down: as in `portIdle`, and flagged. -/
def State.portUnlinked (s : State) (p st : Nat) : State :=
  (List.range 8).foldl (fun s l => s.putLane p l false false)
    (((s.putPortStat p st 0).setReg .fabPortNbr (portDie p) (portEl p) 0#32).flag .fabPortSts (portDie p) (portEl p) 4)

/-- The record of a port that is down: nothing sent, nothing that waits, nothing received in part. -/
def Port.cleared (x : Port) : Port := { x with kept := [], queue := [], rxBuf := [], rxWait := false, replays := 0, ucw := [] }

/-- A port that goes down, before what it has not delivered is sent on other routes. -/
def State.portCleared (s : State) (p st : Nat) : State :=
  ((s.portUnlinked p st).setPort p ((s.portUnlinked p st).port p).cleared).irqBy ((s.portUnlinked p st).reg .fabEvtCfg (portDie p)) causeFabric p

theorem State.portDown_eq (st : Nat) :
    s.portDown p st = (s.port p).unsent.foldl (fun s q => s.sendFrom (portDie p) q) (s.portCleared p st) := rfl

theorem State.irqBy_sent (cfg : Word) (cause detail : Nat) : sentFrom (s.irqBy cfg cause detail) s := by
  rw [State.irqBy]
  split
  · exact State.emit_sent ..
  · exact .refl s

theorem State.portUnlinked_recordKept (st port : Nat) : recordKept port (s.portUnlinked p st) s :=
  (viewKept.foldl _ (fun _ _ _ => State.setReg_recordKept ..) _).trans
    ((State.setReg_recordKept ..).trans ((State.setReg_recordKept ..).trans (State.setReg_recordKept ..)))

theorem State.portCleared_sent (st : Nat) : sentFrom (s.portCleared p st) s :=
  (State.irqBy_sent ..).trans ((State.setPort_sent ..).trans ((sentFrom.foldl (fun _ _ => State.setReg_sent ..) _ _).trans
    ((State.flag_sent ..).trans ((State.setReg_sent ..).trans (State.setReg_sent ..)))))

theorem State.portDown_sent (st : Nat) : sentFrom (s.portDown p st) s :=
  (sentFrom.foldl (fun _ _ => State.sendFrom_sent ..) _ _).trans (s.portCleared_sent p st)

/-- It changes the words STAT, STS and NBR of its port. -/
theorem State.portCleared_keyKept (st : Nat) {port o : Nat} (ho : o < 16) (hstat : portKey port o ≠ portKey p 0)
    (hsts : portKey port o ≠ portKey p 1) (hnbr : portKey port o ≠ portKey p 3) : keyKept (portKey port o) (s.portCleared p st) s :=
  (State.irqBy_keyKept ..).trans ((State.setPort_keyKept ..).trans
    ((viewKept.foldl _ (fun _ hl _ => State.putLane_keyKept _ ho p (List.mem_range.1 hl) ..) _).trans
      ((State.setReg_keyKept _ (by rwa [regKey_fabPortSts]) _).trans
        ((State.setReg_keyKept _ (by rwa [regKey_fabPortNbr]) _).trans (State.setReg_keyKept _ (by rwa [regKey_fabPortStat]) _)))))

theorem State.portDown_keyKept (st : Nat) {port o : Nat} (ho : o < 16) (hstat : portKey port o ≠ portKey p 0)
    (hsts : portKey port o ≠ portKey p 1) (hnbr : portKey port o ≠ portKey p 3) : keyKept (portKey port o) (s.portDown p st) s :=
  (viewKept.foldl _ (fun _ _ _ => State.sendFrom_keyKept _ ho ..) _).trans (s.portCleared_keyKept p st ho hstat hsts hnbr)

theorem State.portCleared_trainKept (st port : Nat) : trainKept port (s.portCleared p st) s :=
  (State.irqBy_recordKept ..).train.trans
    ((State.setPort_trainKept (x := ((s.portUnlinked p st).port p).cleared) _ rfl).trans (s.portUnlinked_recordKept p st port).train)

theorem State.portDown_trainKept (st port : Nat) : trainKept port (s.portDown p st) s := by
  rw [State.portDown_eq]
  exact (viewKept.foldl _ (fun _ _ _ => State.sendFrom_trainKept ..) _).trans (s.portCleared_trainKept p st port)

end

section
variable {s : State} (hs : s.wf = true) (p : Nat) {st : Nat}
include hs

theorem State.portCleared_spec (h : st < 8) : (s.portCleared p st).wf = true ∧ (s.portCleared p st).portState p = st ∧
    ((s.portCleared p st).port p).kept = [] := by
  have hset : keyKept (portKey p 0) (s.portCleared p st) (s.putPortStat p st 0) :=
    (State.irqBy_keyKept ..).trans ((State.setPort_keyKept ..).trans
      ((viewKept.foldl _ (fun _ hl _ => State.putLane_keyKept _ (by decide) p (List.mem_range.1 hl) ..) _).trans
        ((State.setReg_keyKept _ (by rw [regKey_fabPortSts]; exact portKey_ne_of_word (by decide)) _).trans
          (State.setReg_keyKept _ (by rw [regKey_fabPortNbr]; exact portKey_ne_of_word (by decide)) _))))
  have hput : (s.putPortStat p st 0).wf = true := State.setReg_wf hs ..
  have hlinked : (s.portUnlinked p st).wf = true := (s.portUnlinked_recordKept p st p).wf hs
  have hrecord : (s.portCleared p st).port p = ((s.portUnlinked p st).port p).cleared :=
    ((State.irqBy_recordKept ..).eq (State.setPort_wf hlinked ..)).trans (State.port_setPort_same hlinked ..)
  exact ⟨hset.wf hput, by rw [hset.portState hput, State.putPortStat_state hs p h], congrArg Port.kept hrecord⟩

end

end Sys2Proof.Machine
end

section
/-! What commands to ports do, and the loss of ports, lanes and neighbours (13 R408 to R410, R423). -/

namespace Sys2Proof.Machine

/-! ### Commands to a mask of ports (13 R408, R454) -/

/-- Where each other part of a fold leaves what `R` tells, the fold has at `port` the effect of one part. -/
theorem foldl_range_at {R : State → State → Prop} (hrefl : ∀ s, R s s) (htrans : ∀ {u t s}, R u t → R t s → R u s)
    {f : State → Nat → State} {n port : Nat} (hport : port < n) (hf : ∀ s p, p < n → port ≠ p → R (f s p) s) (s : State) :
    ∃ u, R u s ∧ R ((List.range n).foldl f s) (f u port) := by
  have hfold (l : List Nat) (hl : ∀ p ∈ l, p < n ∧ port ≠ p) (s : State) : R (l.foldl f s) s := by
    induction l generalizing s with
    | nil => exact hrefl s
    | cons p l ih =>
      obtain ⟨hp, hne⟩ := hl p (.head l)
      exact htrans (ih (fun q hq => hl q (.tail p hq)) (f s p)) (hf s p hp hne)
  obtain ⟨before, after, hrange⟩ := List.append_of_mem (List.mem_range.2 hport)
  have hnodup : (before ++ port :: after).Nodup := hrange ▸ List.nodup_range
  have hlt : ∀ p ∈ before ++ port :: after, p < n := fun p hp => List.mem_range.1 (hrange ▸ hp)
  obtain ⟨-, hafter, hbefore⟩ := List.nodup_append.1 hnodup
  refine ⟨before.foldl f s, hfold before (fun p hp => ⟨hlt p (List.mem_append_left _ hp), ?_⟩) s, ?_⟩
  · exact fun h => hbefore p hp port (.head after) h.symm
  · rw [hrange, List.foldl_append, List.foldl_cons]
    refine hfold after (fun p hp => ⟨hlt p (List.mem_append_right _ (.tail port hp)), ?_⟩) _
    rintro rfl
    exact (List.nodup_cons.1 hafter).1 hp

theorem sentFrom.cycle {t s : State} (h : sentFrom t s) : t.cycle = s.cycle := by obtain ⟨_, _, _, rfl⟩ := h; rfl
theorem sentFrom.mem {t s : State} (h : sentFrom t s) : t.mem = s.mem := by obtain ⟨_, _, _, rfl⟩ := h; rfl
theorem sentFrom.items {t s : State} (h : sentFrom t s) : t.items = s.items := by obtain ⟨_, _, _, rfl⟩ := h; rfl
theorem sentFrom.cleats {t s : State} (h : sentFrom t s) : t.cleats = s.cleats := by obtain ⟨_, _, _, rfl⟩ := h; rfl
theorem sentFrom.err {t s : State} (h : sentFrom t s) : t.err = s.err := by obtain ⟨_, _, _, rfl⟩ := h; rfl

/-- What a command to another port leaves of a port; it may send packets there. -/
structure portKept (port : Nat) (t s : State) : Prop where
  stat : keyKept (portKey port 0) t s
  cfg : keyKept (portKey port 2) t s
  train : trainKept port t s
  sent : sentFrom t s

/-- What a retrain of another port leaves of a port, which is all. -/
structure portUntouched (port : Nat) (t s : State) : Prop where
  stat : keyKept (portKey port 0) t s
  cfg : keyKept (portKey port 2) t s
  record : recordKept port t s
  link : linkFrom t s

section
variable {port : Nat} {u t s : State}

theorem portKept.refl (s : State) : portKept port s s := ⟨.refl s, .refl s, .refl s, .refl s⟩
theorem portKept.trans (h : portKept port u t) (k : portKept port t s) : portKept port u s :=
  ⟨h.stat.trans k.stat, h.cfg.trans k.cfg, h.train.trans k.train, h.sent.trans k.sent⟩
theorem portKept.ite {p : Prop} [Decidable p] (h : portKept port t s) (h' : portKept port u s) : portKept port (if p then t else u) s := by
  split
  · exact h
  · exact h'

theorem portUntouched.refl (s : State) : portUntouched port s s := ⟨.refl s, .refl s, .refl s, .refl s⟩
theorem portUntouched.trans (h : portUntouched port u t) (k : portUntouched port t s) : portUntouched port u s :=
  ⟨h.stat.trans k.stat, h.cfg.trans k.cfg, h.record.trans k.record, h.link.trans k.link⟩
theorem portUntouched.kept (h : portUntouched port t s) : portKept port t s := ⟨h.stat, h.cfg, h.record.train, h.link.sent⟩
end

section
variable {port p : Nat} (hport : port < 18) (hp : p < 18) (hne : port ≠ p) (s : State)
include hport hp hne

theorem State.portTrain_untouched : portUntouched port (s.portTrain p) s :=
  have hwords {o n : Nat} (ho : o < 16) (hn : n < 16) := portKey_ne_of_port hport hp hne ho hn
  ⟨s.portTrain_keyKept p (by decide) (hwords (by decide) (by decide)) (hwords (by decide) (by decide)),
    s.portTrain_keyKept p (by decide) (hwords (by decide) (by decide)) (hwords (by decide) (by decide)),
    s.portTrain_recordKept p hne, s.portTrain_link p⟩

theorem State.portDown_kept (st : Nat) : portKept port (s.portDown p st) s :=
  have hwords {o n : Nat} (ho : o < 16) (hn : n < 16) := portKey_ne_of_port hport hp hne ho hn
  ⟨s.portDown_keyKept p st (by decide) (hwords (by decide) (by decide)) (hwords (by decide) (by decide)) (hwords (by decide) (by decide)),
    s.portDown_keyKept p st (by decide) (hwords (by decide) (by decide)) (hwords (by decide) (by decide)) (hwords (by decide) (by decide)),
    s.portDown_trainKept p st port, s.portDown_sent p st⟩

theorem State.setPortCfg_kept (w : Word) : portKept port (s.setReg .fabPortCfg (portDie p) (portEl p) w) s :=
  have hwords {o : Nat} (ho : o < 16) : portKey port o ≠ regKey .fabPortCfg (portDie p) (portEl p) := by
    rw [regKey_fabPortCfg]
    exact portKey_ne_of_port hport hp hne ho (by decide)
  ⟨State.setReg_keyKept s (hwords (by decide)) w, State.setReg_keyKept s (hwords (by decide)) w, (State.setReg_recordKept ..).train,
    State.setReg_sent ..⟩

theorem State.portEnableOne_kept (on : Bool) : portKept port (s.portEnableOne p on) s := by
  rw [State.portEnableOne]
  have hset := s.setPortCfg_kept hport hp hne
  exact .ite ((State.portTrain_untouched hport hp hne _).kept.trans (hset _)) (.ite ((State.portDown_kept hport hp hne _ _).trans (hset _)) (hset _))

theorem State.portRetrainOne_untouched : portUntouched port (s.portRetrainOne p) s := by
  rw [State.portRetrainOne]
  split
  · exact s.portTrain_untouched hport hp hne
  · exact .refl s

end

/-! ### The effect on the port itself -/

theorem State.portDown_wf_state {s : State} (hs : s.wf = true) (p : Nat) {st : Nat} (h : st < 8) :
    (s.portDown p st).wf = true ∧ (s.portDown p st).portState p = st := by
  obtain ⟨hwf, hstate, -⟩ := State.portCleared_spec hs p h
  have hsent : keyKept (portKey p 0) (s.portDown p st) (s.portCleared p st) :=
    viewKept.foldl _ (fun _ _ _ => State.sendFrom_keyKept _ (by decide) ..) _
  exact ⟨hsent.wf hwf, (hsent.portState hwf).trans hstate⟩

section
variable {s : State} (hs : s.wf = true) (port : Nat) (on : Bool)
include hs

/-- The ENABLE bit is as written, and the port trains, goes down, or stays. -/
theorem State.portEnableOne_spec : (s.portEnableOne port on).wf = true ∧ (s.portEnableOne port on).portEnabled port = on ∧
    (on = true → s.portEnabled port = false →
      (s.portEnableOne port on).portState port = 1 ∧ ((s.portEnableOne port on).port port).trainCyc = s.cycle) ∧
    (on = false → s.portEnabled port = true → (s.portEnableOne port on).portState port = 0) ∧
    (on = s.portEnabled port → (s.portEnableOne port on).portStat port = s.portStat port) ∧ sentFrom (s.portEnableOne port on) s := by
  obtain ⟨t, ht⟩ : ∃ t, t = s.setReg .fabPortCfg (portDie port) (portEl port) (BitVec.ofNat 32 (b2n on * 2 ^ 31)) := ⟨_, rfl⟩
  have hwf : t.wf = true := ht ▸ State.setReg_wf hs ..
  have henabled : t.portEnabled port = on := by
    rw [ht, State.portEnabled, State.reg_setReg_same hs]
    cases on <;> rfl
  have hcycle : t.cycle = s.cycle := ht ▸ State.setReg_cycle ..
  have hstat : keyKept (portKey port 0) t s :=
    ht ▸ State.setReg_keyKept s (by rw [regKey_fabPortCfg]; exact portKey_ne_of_word (by decide)) _
  have hsent : sentFrom t s := ht ▸ State.setReg_sent ..
  have heq : s.portEnableOne port on =
      if on && !s.portEnabled port then t.portTrain port else if !on && s.portEnabled port then t.portDown port 0 else t := by
    rw [ht]; rfl
  rw [heq]
  cases on <;> cases s.portEnabled port
  · exact ⟨hwf, henabled, nofun, nofun, fun _ => hstat.portStat hs, hsent⟩
  · obtain ⟨hdownWf, hdown⟩ := State.portDown_wf_state hwf port (st := 0) (by decide)
    have hcfg : keyKept (portKey port 2) (t.portDown port 0) t := t.portDown_keyKept port 0 (by decide) (portKey_ne_of_word (by decide))
      (portKey_ne_of_word (by decide)) (portKey_ne_of_word (by decide))
    exact ⟨hdownWf, (hcfg.portEnabled hwf).trans henabled, nofun, fun _ _ => hdown, nofun, (t.portDown_sent port 0).trans hsent⟩
  · obtain ⟨hstate, htrain, -⟩ := State.portTrain_spec hwf port
    have hcfg : keyKept (portKey port 2) (t.portTrain port) t :=
      t.portTrain_keyKept port (by decide) (portKey_ne_of_word (by decide)) (portKey_ne_of_word (by decide))
    exact ⟨hcfg.wf hwf, (hcfg.portEnabled hwf).trans henabled, fun _ _ => ⟨hstate, htrain.trans hcycle⟩, nofun, nofun,
      (t.portTrain_link port).sent.trans hsent⟩
  · exact ⟨hwf, henabled, nofun, nofun, fun _ => hstat.portStat hs, hsent⟩

end

/-- PORT_ENABLE does at a port what the port's bit says. -/
theorem exec_portEnable {s : State} (hs : s.wf = true) (ini mask : Nat) {port : Nat} (hport : port < 18) :
    ∃ t : State, exec (.portEnable ini mask) s = .next t ∧ t.portEnabled port = bit mask port ∧
      (bit mask port = true → s.portEnabled port = false → t.portState port = 1 ∧ (t.port port).trainCyc = s.cycle) ∧
      (bit mask port = false → s.portEnabled port = true → t.portState port = 0) ∧
      (bit mask port = s.portEnabled port → t.portStat port = s.portStat port) ∧ t.mem = s.mem ∧ t.items = s.items ∧ t.cleats = s.cleats := by
  obtain ⟨u, hu, ht⟩ := foldl_range_at (R := portKept port) .refl .trans hport
    (fun s p hp hne => s.portEnableOne_kept hport hp hne (bit mask p)) (s.setDv 0x5007 0 (mask % 2 ^ 18))
  obtain ⟨r, hr⟩ : ∃ r, r = s.setDv 0x5007 0 (mask % 2 ^ 18) := ⟨_, rfl⟩
  rw [← hr] at hu ht
  have hrwf : r.wf = true := hr ▸ State.setDv_wf hs ..
  have hregs : r.regs = s.regs := hr ▸ State.setDv_regs ..
  have hstat : r.portStat port = s.portStat port := congrArg (fun m => (tget regReset m (regKey .fabPortStat _ _)).toNat) hregs
  have hwas : u.portEnabled port = s.portEnabled port :=
    (hu.cfg.portEnabled hrwf).trans (congrArg (fun m => bit (tget regReset m (regKey .fabPortCfg _ _)).toNat 31) hregs)
  obtain ⟨hwf, henabled, hstart, hdown, hsame, hsent⟩ := State.portEnableOne_spec (hu.stat.wf hrwf) port (bit mask port)
  rw [hwas] at hstart hdown hsame
  have hframe := ht.sent.trans (hsent.trans hu.sent)
  have hcycle : u.cycle = s.cycle := hu.sent.cycle.trans (hr ▸ State.setDv_cycle ..)
  have hexec : exec (.portEnable ini mask) s = .next ((List.range 18).foldl (fun s p => s.portEnableOne p (bit mask p)) r) := hr ▸ rfl
  refine ⟨_, hexec, (ht.cfg.portEnabled hwf).trans henabled, fun hon hoff => ?_, fun hoff hon => ?_, fun h => ?_, ?_⟩
  · obtain ⟨hstate, htrain⟩ := hstart hon hoff
    exact ⟨(ht.stat.portState hwf).trans hstate, (ht.train.eq hwf).trans (htrain.trans hcycle)⟩
  · exact (ht.stat.portState hwf).trans (hdown hoff hon)
  · exact (ht.stat.portStat hwf).trans ((hsame h).trans ((hu.stat.portStat hrwf).trans hstat))
  · exact ⟨hframe.mem.trans (hr ▸ State.setDv_mem ..), hframe.items.trans (hr ▸ State.setDv_items ..),
      hframe.cleats.trans (hr ▸ State.setDv_cleats ..)⟩

/-- PORT_RETRAIN starts a full bring-up of the ports of its mask that are enabled. -/
theorem exec_portRetrain {s : State} (hs : s.wf = true) (ini mask : Nat) {port : Nat} (hport : port < 18) :
    ∃ t : State, exec (.portRetrain ini mask) s = .next t ∧ t = { s with regs := t.regs, ports := t.ports } ∧
      (bit mask port = true → s.portEnabled port = true → t.portState port = 1 ∧ (t.port port).starts = 0) ∧
      (bit mask port = false ∨ s.portEnabled port = false → t.portStat port = s.portStat port) := by
  have hstep (s : State) (p : Nat) (hp : p < 18) (hne : port ≠ p) :
      portUntouched port (if bit mask p = true then s.portRetrainOne p else s) s := by
    split
    · exact s.portRetrainOne_untouched hport hp hne
    · exact .refl s
  obtain ⟨u, hu, ht⟩ := foldl_range_at (R := portUntouched port) .refl .trans hport hstep s
  have huwf : u.wf = true := hu.stat.wf hs
  have hwas : u.portEnabled port = s.portEnabled port := hu.cfg.portEnabled hs
  have hone : linkFrom (if bit mask port = true then u.portRetrainOne port else u) u := .ite (.ite (u.portTrain_link port) (.refl u)) (.refl u)
  refine ⟨_, rfl, (ht.link.trans (hone.trans hu.link)).eq_self, fun hmask hon => ?_, fun h => ?_⟩
  · have hrun : (if bit mask port = true then u.portRetrainOne port else u) = u.portTrain port := by
      rw [if_pos hmask, State.portRetrainOne, if_pos (hwas.trans hon)]
    rw [hrun] at ht
    obtain ⟨hstate, -, hstarts⟩ := State.portTrain_spec huwf port
    have hwf : (u.portTrain port).wf = true := State.setPort_wf ((u.portIdle_recordKept port 1 port).wf huwf) ..
    exact ⟨(ht.stat.portState hwf).trans hstate, (congrArg Port.starts (ht.record.eq hwf)).trans hstarts⟩
  · have hrun : (if bit mask port = true then u.portRetrainOne port else u) = u := by
      obtain hoff | hoff := h
      · rw [if_neg (by simp [hoff])]
      · rw [State.portRetrainOne, hwas, hoff]
        simp
    rw [hrun] at ht
    exact (ht.stat.portStat huwf).trans (hu.stat.portStat hs)

end Sys2Proof.Machine
end

section
/-! A link that comes up, starts and lanes that fail, and a silent neighbour (13 R408 to R410, R423). -/

namespace Sys2Proof.Machine

/-! ### Records of fabric events leave the words of ports (14 R462) -/

section
variable (s : State) (die : Nat)

theorem State.setErrDie_keyKept {k : Nat} (e : ErrDie) : keyKept k (s.setErrDie die e) s :=
  ⟨fun hs => ⟨State.setErrDie_wf hs .., congrArg (tget regReset · k) (State.setErrDie_regs ..)⟩⟩

theorem State.errPut_keyKept {port o : Nat} (ho : o < 16) (r : ErrRec) : keyKept (portKey port o) (s.errPut die r) s := by
  obtain ⟨e, -, -, hput | hput⟩ := s.errPut_eq die r <;> rw [hput]
  · exact (State.setReg_keyKept _ (portKey_ne_of_beside ho (besidePorts_errLostCnt die)) _).trans (State.setErrDie_keyKept ..)
  · exact (State.setReg_keyKept _ (portKey_ne_of_beside ho (besidePorts_errSts die)) _).trans (State.setErrDie_keyKept ..)

theorem State.record_keyKept {port o : Nat} (ho : o < 16) (src : Nat) {sev : Nat} (h : sev < 2) (level action index gen payload : Nat) :
    keyKept (portKey port o) (s.record die src sev level action index gen payload) s := by
  have hmild : ¬ 2 ≤ sev := by omega
  have hput (r : ErrRec) (p : Prop) [Decidable p] (e : ErrDie) :
      keyKept (portKey port o) ((if p then s.setErrDie die e else s).errPut die r) s :=
    (State.errPut_keyKept _ _ ho _).trans (.ite (State.setErrDie_keyKept ..) (.refl s))
  simp only [State.record, hmild, if_false]
  exact .ite (.refl s) (.ite ((State.irqBy_keyKept ..).trans (hput ..)) (hput ..))

/-- A fabric record is DEFERRED or corrected. -/
theorem fabRecord_mild (kind : Nat) : (if kind == 2 || kind == 3 then sevDeferred else sevCorrected) < 2 := by
  split <;> decide

theorem State.fabRecord_keyKept {port o : Nat} (ho : o < 16) (kind p lane : Nat) : keyKept (portKey port o) (s.fabRecord die kind p lane) s :=
  s.record_keyKept die ho 7 (fabRecord_mild kind) ..

theorem State.fabRecord_told (kind p lane : Nat) : toldFrom (s.fabRecord die kind p lane) s := s.record_told die 7 (fabRecord_mild kind) ..
end

/-! ### A port lost (13 R408, R417) -/

section
variable {s : State} (hs : s.wf = true) {port : Nat}
include hs

/-- Packets sent leave the record of a port that is not up. -/
theorem State.sendAll_record (hdown : s.portUp port = false) (die : Nat) (l : List Packet) :
    (l.foldl (fun s q => s.sendFrom die q) s).port port = s.port port := by
  induction l generalizing s with
  | nil => rfl
  | cons q l ih =>
    have hkept := s.sendFrom_keyKept (port := port) (o := 0) (by decide) die q
    rw [List.foldl_cons, ih (hkept.wf hs) ((hkept.portUp hs).trans hdown)]
    exact (s.sendFrom_recordKept hdown die q).eq hs

theorem State.portDown_kept_nil {st : Nat} (hst : st = 0 ∨ st = 4) : ((s.portDown port st).port port).kept = [] := by
  obtain ⟨hwf, hstate, hnil⟩ := State.portCleared_spec hs port (st := st) (by omega)
  have hdown : (s.portCleared port st).portUp port = false := by
    rw [State.portUp, hstate]
    obtain rfl | rfl := hst <;> rfl
  rw [State.portDown_eq, State.sendAll_record hwf hdown, hnil]

/-- A port that failed to start is FAILED and recorded, and nothing is kept there. -/
theorem State.portLost_failed : (s.portLost port 4).portState port = 4 ∧ (s.portLost port 4).recorded s (portDie port) 7 1 ∧
    ((s.portLost port 4).port port).kept = [] ∧ (s.portLost port 4).mem = s.mem ∧ (s.portLost port 4).items = s.items := by
  obtain ⟨hwf, hstate⟩ := State.portDown_wf_state hs port (st := 4) (by decide)
  have hsent := s.portDown_sent port 4
  obtain ⟨⟨hseq, hcopy⟩, -, -⟩ := State.record_deferred_spec hwf (die := portDie port) 7 7 1 0 0
    (3 * 2 ^ 120 + port % 256 * 2 ^ 112 + 0 % 256 * 2 ^ 104) (t := s.portLost port 4) rfl
  have hkey : keyKept (portKey port 0) (s.portLost port 4) (s.portDown port 4) := State.fabRecord_keyKept _ _ (by decide) ..
  have herr : (s.portDown port 4).errDie (portDie port) = s.errDie (portDie port) := congrArg (tget dErr · (portDie port)) hsent.err
  obtain ⟨_, _, _, htold⟩ := (s.portDown port 4).fabRecord_told (portDie port) 3 port 0
  have hlost : s.portLost port 4 = (s.portDown port 4).fabRecord (portDie port) 3 port 0 := rfl
  refine ⟨(hkey.portState hwf).trans hstate, ⟨herr ▸ hseq, hcopy⟩, ?_, ?_, ?_⟩
  · rw [hlost, htold]
    exact State.portDown_kept_nil hs (.inr rfl)
  · rw [hlost, htold]
    exact hsent.mem
  · rw [hlost, htold]
    exact hsent.items

theorem State.portLost_state {st : Nat} (h : st < 8) : (s.portLost port st).portState port = st := by
  obtain ⟨hwf, hstate⟩ := State.portDown_wf_state hs port h
  exact (keyKept.portState (State.fabRecord_keyKept _ _ (by decide) ..) hwf).trans hstate

end

/-- Losing a port leaves its words beside STAT, STS and NBR. -/
theorem State.portLost_keyKept (s : State) (port st : Nat) {o : Nat} (ho : o < 16) (h : o ≠ 0 ∧ o ≠ 1 ∧ o ≠ 3) :
    keyKept (portKey port o) (s.portLost port st) s :=
  (State.fabRecord_keyKept _ _ ho ..).trans (s.portDown_keyKept port st ho (portKey_ne_of_word h.1) (portKey_ne_of_word h.2.1)
    (portKey_ne_of_word h.2.2))

/-- PORT_TRAIN_TIMEOUT: a start that failed is repeated, and the third leaves the port FAILED. -/
theorem exec_portTrainTimeout {s : State} {port : Nat} (hs : s.wf = true) (hport : port < 18) (hstate : s.portState port = 1)
    (hlate : (s.port port).trainCyc + cycOfMs 100 ≤ s.cycle) :
    ((s.port port).starts < 2 → exec (.portTrainTimeout port) s
      = .next (s.setPort port { s.port port with starts := (s.port port).starts + 1, trainCyc := s.cycle })) ∧
    (2 ≤ (s.port port).starts → ∃ t : State, exec (.portTrainTimeout port) s = .next t ∧ t.portState port = 4 ∧
      t.recorded s (portDie port) 7 1 ∧ (t.port port).kept = [] ∧ t.mem = s.mem ∧ t.items = s.items) := by
  have hdue : ¬ (decide (18 ≤ port) || s.portState port != 1 || decide (s.cycle < (s.port port).trainCyc + cycOfMs 100)) = true := by
    simp [hport, hstate, hlate]
  have hexec : exec (.portTrainTimeout port) s = .next (if (s.port port).starts + 1 < 3 then
      s.setPort port { s.port port with starts := (s.port port).starts + 1, trainCyc := s.cycle }
    else (s.setPort port { s.port port with starts := 3 }).portLost port 4) := congrArg Host.Outcome.next (if_neg hdue)
  refine ⟨fun h => ?_, fun h => ⟨(s.setPort port { s.port port with starts := 3 }).portLost port 4, ?_, ?_⟩⟩
  · rw [hexec, if_pos (by omega)]
  · rw [hexec, if_neg (by omega)]
  · exact State.portLost_failed (State.setPort_wf hs port { s.port port with starts := 3 })

/-! ### A lane lost (13 R409, R410) -/

/-- The port with a lane failed, before its width is set. -/
def State.laneLost (s : State) (port lane : Nat) : State :=
  let t := ((s.putLane port lane false true).bump .fabWidthCnt (portDie port) (portEl port) 1).flag .fabPortSts (portDie port) (portEl port) 2
  (t.setPort port { t.port port with failed := [lane] ++ (t.port port).failed }).fabRecord (laneAt port lane).1 1 port (laneAt port lane).2

/-- A lane in use that fails is the one that leaves. -/
theorem lanes_lost {good lane : Nat} (hlane : lane < 8) (hgood : bit good lane = true) :
    ((List.range 8).filter fun l => bit (2 ^ lane) l && bit good l) = [lane] := by
  have hone : ∀ lane < 8, ∀ l < 8, bit (2 ^ lane) l = (l == lane) := by decide
  have hlist : ∀ lane < 8, (List.range 8).filter (· == lane) = [lane] := by decide
  rw [← hlist lane hlane]
  refine List.filter_congr fun l hl => ?_
  rw [hone lane hlane l (List.mem_range.1 hl)]
  cases hl : l == lane
  · rfl
  · rw [beq_iff_eq.1 hl, hgood]
    rfl

theorem two_pow_le_of_bit {x i : Nat} (h : bit x i = true) : 2 ^ i ≤ x := by
  by_contra hlt
  rw [bit, Nat.div_eq_of_lt (by omega)] at h
  cases h

/-- The port is lost with its last lane, and else goes on at the width left. -/
theorem State.dropLanes_one {s : State} {port lane : Nat} (hlane : lane < 8) (hup : s.portUp port = true)
    (hgood : bit (s.portGood port) lane = true) : s.dropLanes port (2 ^ lane) true =
      if s.portGood port = 2 ^ lane then (s.laneLost port lane).portLost port 0
      else ((s.laneLost port lane).putPortStat port 3 (s.portGood port - 2 ^ lane)).linkRetrain port true := by
  have hle := two_pow_le_of_bit hgood
  have hleft : (s.portGood port - 2 ^ lane == 0) = decide (s.portGood port = 2 ^ lane) := by
    rw [beq_eq_decide]
    exact decide_eq_decide.2 (by omega)
  simp only [State.dropLanes, lanes_lost hlane hgood, hup, List.isEmpty_cons, Bool.not_true, Bool.or_self, Bool.false_eq_true, if_false,
    List.map_cons, List.map_nil, List.sum_cons, List.sum_nil, Nat.add_zero, List.foldl_cons, List.foldl_nil, if_true, hleft, decide_eq_true_eq]
  rfl

section
variable {s : State} (hs : s.wf = true) (port : Nat) {lane : Nat} (hlane : lane < 8)
include hs hlane

/-- The loss is counted. -/
theorem State.laneLost_counted :
    (s.laneLost port lane).wf = true ∧ (s.laneLost port lane).countedAt s .fabWidthCnt (portDie port) (portEl port) := by
  have hlaneKept : keyKept (portKey port 7) (s.putLane port lane false true) s := State.putLane_keyKept s (by decide) port hlane ..
  have hwf := hlaneKept.wf hs
  obtain ⟨u, hu⟩ : ∃ u, u = (s.putLane port lane false true).bump .fabWidthCnt (portDie port) (portEl port) 1 := ⟨_, rfl⟩
  have huwf : u.wf = true := hu ▸ State.bump_wf hwf ..
  have hcount : u.countedAt (s.putLane port lane false true) .fabWidthCnt (portDie port) (portEl port) := hu ▸ State.bump_countedAt hwf ..
  have hrest : keyKept (portKey port 7) (s.laneLost port lane) u :=
    hu ▸ (State.fabRecord_keyKept _ _ (by decide) ..).trans ((State.setPort_keyKept ..).trans
      (State.setReg_keyKept _ (by rw [regKey_fabPortSts]; exact portKey_ne_of_word (by decide)) _))
  have hbefore : (s.putLane port lane false true).reg .fabWidthCnt (portDie port) (portEl port)
      = s.reg .fabWidthCnt (portDie port) (portEl port) := by
    rw [State.reg, State.reg, regKey_fabWidthCnt]
    exact hlaneKept.eq hs
  have hafter : (s.laneLost port lane).reg .fabWidthCnt (portDie port) (portEl port) = u.reg .fabWidthCnt (portDie port) (portEl port) := by
    rw [State.reg, State.reg, regKey_fabWidthCnt]
    exact hrest.eq huwf
  refine ⟨hrest.wf huwf, ?_⟩
  rwa [State.countedAt, hafter, ← hbefore]
end

/-- What is sent again leaves the words of a port beside STS and REPLAYS. -/
theorem State.linkRetrain_keyKept (s : State) (port : Nat) (ask : Bool) {o : Nat} (hsts : o ≠ 1) (hcnt : o ≠ 6) :
    keyKept (portKey port o) (s.linkRetrain port ask) s := by
  have hresend (u : State) : keyKept (portKey port o) (u.resend port ask) u :=
    (viewKept.foldl _ (fun _ _ _ => State.frameOut_keyKept ..) _).trans
      ((State.setReg_keyKept _ (by rw [regKey_fabPortSts]; exact portKey_ne_of_word hsts) _).trans
        (State.setReg_keyKept _ (by rw [regKey_fabReplayCnt]; exact portKey_ne_of_word hcnt) _))
  rw [State.linkRetrain]
  exact .ite (.ite ((State.newFrame_keyKept ..).trans (State.setPort_keyKept ..)) (State.setPort_keyKept ..))
    ((hresend _).trans (State.setPort_keyKept ..))

theorem countedAt_of_keyKept {t u s : State} {port : Nat} (h : keyKept (portKey port 7) t u) (hu : u.wf = true)
    (hc : u.countedAt s .fabWidthCnt (portDie port) (portEl port)) : t.countedAt s .fabWidthCnt (portDie port) (portEl port) := by
  have hreg : t.reg .fabWidthCnt (portDie port) (portEl port) = u.reg .fabWidthCnt (portDie port) (portEl port) := by
    rw [State.reg, State.reg, regKey_fabWidthCnt]
    exact h.eq hu
  rwa [State.countedAt, hreg]

/-- LANE_FAIL narrows its port, or takes it DOWN, and is counted. -/
theorem exec_laneFail {s : State} (hs : s.wf = true) {port lane : Nat} (hport : port < 18) (hlane : lane < 8) (hup : s.portUp port = true)
    (hgood : bit (s.portGood port) lane = true) : ∃ t : State, exec (.laneFail port lane) s = .next t ∧
      t.countedAt s .fabWidthCnt (portDie port) (portEl port) ∧
      (s.portGood port ≠ 2 ^ lane → t.portState port = 3 ∧ t.portGood port = s.portGood port - 2 ^ lane) ∧
      (s.portGood port = 2 ^ lane → t.portState port = 0) := by
  obtain ⟨hwf, hcount⟩ := State.laneLost_counted hs port hlane
  have hexec : exec (.laneFail port lane) s = .next (s.dropLanes port (2 ^ lane) true) := congrArg Host.Outcome.next (if_neg (by simp; omega))
  rw [hexec, State.dropLanes_one hlane hup hgood]
  refine ⟨_, rfl, ?_⟩
  split
  next hlast =>
    exact ⟨countedAt_of_keyKept (State.portLost_keyKept _ _ _ (by decide) (by decide)) hwf hcount, fun h => absurd hlast h,
      fun _ => State.portLost_state hwf (by decide)⟩
  next hmore =>
    obtain ⟨u, hu⟩ : ∃ u, u = (s.laneLost port lane).putPortStat port 3 (s.portGood port - 2 ^ lane) := ⟨_, rfl⟩
    have huwf : u.wf = true := hu ▸ State.setReg_wf hwf ..
    have hwidth : keyKept (portKey port 7) u (s.laneLost port lane) :=
      hu ▸ State.setReg_keyKept _ (by rw [regKey_fabPortStat]; exact portKey_ne_of_word (by decide)) _
    have hlt : s.portGood port < 256 := Nat.mod_lt _ (by decide)
    have hstat : keyKept (portKey port 0) (u.linkRetrain port true) u := u.linkRetrain_keyKept port true (by decide) (by decide)
    rw [← hu]
    refine ⟨countedAt_of_keyKept ((u.linkRetrain_keyKept port true (by decide) (by decide)).trans hwidth) hwf hcount, fun _ => ⟨?_, ?_⟩,
      fun hlast => absurd hlast hmore⟩
    · rw [hstat.portState huwf, hu, State.putPortStat_state hwf port (by decide)]
    · rw [hstat.portGood huwf, hu, State.putPortStat_good hwf port (by decide) ((Nat.sub_le ..).trans_lt hlt)]

/-! ### A link up (13 R408, R410, R416) -/

/-- The registers of a port whose link is up on the lanes `good`, with neighbour `w`. -/
def State.linked (s : State) (port good : Nat) (w : Word) : State :=
  ((List.range 8).foldl (fun s l => if bit good l then s.putLane port l true false else s)
    (s.putPortStat port (if good == 255 then 2 else 3) good)).setReg .fabPortNbr (portDie port) (portEl port) w

/-- LAY_CFG is no register of the fabric. -/
theorem regKey_layCfg_lt : regKey .layCfg 4 0 % 2 ^ 28 < 0xC0000 := by decide

section
variable (s : State) (port good : Nat) (w : Word)

theorem State.linked_regs : regsFrom (s.linked port good w) s := by
  refine (State.setReg_regs ..).trans ((regsFrom.foldl (fun s l => ?_) _ _).trans (State.setReg_regs ..))
  split
  · exact State.putLane_regs ..
  · exact .refl s

theorem State.linked_recordKept (p : Nat) : recordKept p (s.linked port good w) s :=
  (State.setReg_recordKept ..).trans ((viewKept.foldl _ (fun _ _ _ => .ite (State.setReg_recordKept ..) (.refl _)) _).trans
    (State.setReg_recordKept ..))

/-- Words beside those of ports and lanes are kept. -/
theorem State.linked_keyKept {k : Nat} (h : k % 2 ^ 28 < 0xC0000) : keyKept k (s.linked port good w) s := by
  have hport (o : Nat) : k ≠ portKey port o ∨ 2 ^ 27 ≤ o := by
    have := portEl_le port
    rw [portKey]
    omega
  have hlane (l : Nat) (hl : l < 8) : k ≠ regKey .fabLaneStat (laneAt port l).1 (laneAt port l).2 := by
    have := laneAt_lt port hl
    rw [regKey_fabLaneStat]
    omega
  refine (State.setReg_keyKept _ ?_ _).trans ((viewKept.foldl _
    (fun l hl _ => .ite (State.setReg_keyKept _ (hlane l (List.mem_range.1 hl)) _) (.refl _)) _).trans (State.setReg_keyKept _ ?_ _))
  · rw [regKey_fabPortNbr]; exact (hport 3).resolve_right (by decide)
  · rw [regKey_fabPortStat]; exact (hport 0).resolve_right (by decide)

theorem State.linked_stat {s : State} (hs : s.wf = true) {good : Nat} (hgood : good < 256) :
    (s.linked port good w).portState port = (if good = 255 then 2 else 3) ∧ (s.linked port good w).portGood port = good := by
  have hst : (if good == 255 then 2 else 3) < 8 := by split <;> decide
  have hput : (s.putPortStat port (if good == 255 then 2 else 3) good).wf = true := State.setReg_wf hs ..
  have hkept : keyKept (portKey port 0) (s.linked port good w) (s.putPortStat port (if good == 255 then 2 else 3) good) :=
    (State.setReg_keyKept _ (by rw [regKey_fabPortNbr]; exact portKey_ne_of_word (by decide)) _).trans
      (State.putLanes_keyKept _ port (by decide) ..)
  refine ⟨?_, ?_⟩
  · rw [hkept.portState hput, State.putPortStat_state hs port hst]
    simp
  · rw [hkept.portGood hput, State.putPortStat_good hs port hst hgood]

theorem State.linked_nbr {s : State} (hs : s.wf = true) : (s.linked port good w).reg .fabPortNbr (portDie port) (portEl port) = w := by
  have hput : (s.putPortStat port (if good == 255 then 2 else 3) good).wf = true := State.setReg_wf hs ..
  exact State.reg_setReg_same ((State.putLanes_keyKept (port := port) (o := 0) _ port (by decide) (bit good) true false).wf hput) ..
end

/-- HELLO tells nothing of the fabric's registers. -/
theorem State.helloPacket_of_link {t s : State} (h : linkFrom t s) (hcfg : t.reg .layCfg 4 = s.reg .layCfg 4) (port id gen : Nat) :
    t.helloPacket port id gen = s.helloPacket port id gen := by
  have hsource : t.laySource = s.laySource := by rw [State.laySource, State.laySource, hcfg]
  obtain ⟨_, _, rfl⟩ := h
  simp only [State.helloPacket, State.layErrNs, hsource]
  rfl

/-- The record of a port whose link begins afresh. -/
def Port.begun (x : Port) (cycle : Nat) (seeds : Seeds) (credit : Vcs) (nbr : Hello) : Port :=
  { x with nbrGen := nbr.gen, nbrParent := nbr.parent, nbrLay := nbr.lay, nbrErr := nbr.err, rxCyc := cycle, starts := 0
           txSeq := 0, rxSeq := 0, txCw := 0, rxCw := 0, txScr := seeds.tx, rxScr := seeds.rx, txLim := credit, txCells := {}
           rxCells := {}, since := ⟨cycle, cycle, cycle⟩ }

/-- The state of a port whose link is up, before HELLO goes out. -/
def State.linkBegun (s : State) (port good : Nat) (seeds : Seeds) (credit : Vcs) (nbr : Hello) : State :=
  let t := s.linked port good (BitVec.ofNat 32 (2 ^ 31 + nbr.port % 32 * 2 ^ 17 + nbr.id % 2 ^ 17))
  t.setPort port ((t.port port).begun t.cycle seeds credit nbr)

/-- LINK_UP: the port is up on the lanes that locked, its link begins afresh, and HELLO goes out. -/
theorem exec_linkUp {s : State} (hs : s.wf = true) {port lanes good : Nat} (hport : port < 18) (seeds : Seeds) (credit : Vcs) (nbr : Hello)
    (hstate : s.portState port = 1) (hgood : good = (BitVec.ofNat 8 lanes &&& ~~~BitVec.ofNat 8 (s.lanesOut port)).toNat) (hlocked : good ≠ 0)
    (hdie : s.dieDown (portDie port) = false) :
    ∃ u : State, exec (.linkUp port lanes seeds credit nbr) s = .next (u.portSend port (s.helloPacket port nbr.id nbr.gen)) ∧
      u = { s with regs := u.regs, ports := u.ports } ∧
      u.portState port = (if good = 255 then 2 else 3) ∧ u.portGood port = good ∧ (u.port port).nbrGen = nbr.gen ∧
      (u.port port).rxSeq = 0 ∧ (u.port port).txSeq = 0 ∧ (u.port port).txLim = credit ∧ (u.port port).queue = (s.port port).queue ∧
      u.reg .fabPortNbr (portDie port) (portEl port) = BitVec.ofNat 32 (2 ^ 31 + nbr.port % 32 * 2 ^ 17 + nbr.id % 2 ^ 17) := by
  obtain ⟨w, hw⟩ : ∃ w, w = BitVec.ofNat 32 (2 ^ 31 + nbr.port % 32 * 2 ^ 17 + nbr.id % 2 ^ 17) := ⟨_, rfl⟩
  have hlt : good < 256 := hgood ▸ BitVec.isLt _
  have hready : ¬ (decide (18 ≤ port) || s.portState port != 1 || good == 0 || s.dieDown (portDie port)) = true := by
    simp [hport, hstate, hlocked, hdie]
  have hexec : exec (.linkUp port lanes seeds credit nbr) s = .next ((s.linkBegun port good seeds credit nbr).portSend port
      ((s.linkBegun port good seeds credit nbr).helloPacket port nbr.id nbr.gen)) := by
    subst hgood
    exact congrArg Host.Outcome.next (if_neg hready)
  have hwf : (s.linked port good w).wf = true := (s.linked_recordKept port good w port).wf hs
  have hlink : linkFrom (s.linkBegun port good seeds credit nbr) s := by
    obtain ⟨_, h⟩ := s.linked_regs port good w
    rw [State.linkBegun, ← hw, h]
    exact ⟨_, _, rfl⟩
  have hset : keyKept (portKey port 0) (s.linkBegun port good seeds credit nbr) (s.linked port good w) := hw ▸ State.setPort_keyKept ..
  have hrecord : (s.linkBegun port good seeds credit nbr).port port =
      ((s.linked port good w).port port).begun (s.linked port good w).cycle seeds credit nbr :=
    hw ▸ State.port_setPort_same (hw ▸ hwf) ..
  have hcfg : (s.linkBegun port good seeds credit nbr).reg .layCfg 4 = s.reg .layCfg 4 :=
    ((State.setPort_keyKept (k := regKey .layCfg 4 0) ..).trans (s.linked_keyKept port good _ regKey_layCfg_lt)).eq hs
  have hqueue : ((s.linked port good w).port port).queue = (s.port port).queue := congrArg Port.queue ((s.linked_recordKept port good w port).eq hs)
  obtain ⟨hst, hwidth⟩ := State.linked_stat port w hs hlt
  refine ⟨_, hexec.trans (by rw [State.helloPacket_of_link hlink hcfg]), hlink.eq_self, (hset.portState hwf).trans hst,
    (hset.portGood hwf).trans hwidth, by rw [hrecord]; rfl, by rw [hrecord]; rfl, by rw [hrecord]; rfl, by rw [hrecord]; rfl,
    by rw [hrecord]; exact hqueue, ?_⟩
  rw [← hw]
  have hnbr : keyKept (regKey .fabPortNbr (portDie port) (portEl port)) (s.linkBegun port good seeds credit nbr) (s.linked port good w) :=
    hw ▸ State.setPort_keyKept ..
  exact (hnbr.eq hwf).trans (State.linked_nbr port good w hs)

/-! ### Suspects (13 R423; 14 R489) -/

/-- NEIGHBOUR_SILENT reports the neighbour. -/
theorem exec_neighbourSilent {s : State} {port nbr : Nat} (hport : port < 18) (hnbr : nbr = (s.reg .fabPortNbr (portDie port) (portEl port)).toNat)
    (hup : s.portUp port = true) (hvalid : bit nbr 31 = true) (hlate : (s.port port).rxCyc + cycOfMs 1 ≤ s.cycle) :
    exec (.neighbourSilent port) s = .next (s.reportSuspect (bits nbr 16 0) (s.port port).nbrGen 2) := by
  subst hnbr
  exact congrArg Host.Outcome.next (if_neg (by simp [hport, hup, hvalid, hlate]))

/-- With no live suspect, a report makes one of now. -/
theorem State.reportSuspect_head {s : State} (hnone : s.liveSuspects = []) (id pgen cause : Nat) :
    ∃ e, (s.reportSuspect id pgen cause).suspects.head? = some e ∧ e.id = id ∧ e.pgen = pgen ∧ e.at' = s.lay.now := by
  obtain ⟨rest, held, hfilter⟩ : ∃ rest held, s.filterSuspect id pgen cause 0 1 =
      ({ s with suspects := ⟨id, pgen, s.lay.now, 0, cause⟩ :: rest }, some held) := by
    simp only [State.filterSuspect, hnone, List.any_nil, List.length_nil, Bool.false_eq_true, if_false, show ¬ 1024 ≤ 0 by decide]
    exact ⟨_, _, rfl⟩
  simp only [State.reportSuspect, hfilter]
  obtain ⟨_, _, _, hsent⟩ := State.sendControl_sent
    (({ s with suspects := ⟨id, pgen, s.lay.now, 0, cause⟩ :: rest } : State).mcBump 0x40A5 0 1) 0x13
    (State.fmNode { s with suspects := ⟨id, pgen, s.lay.now, 0, cause⟩ :: rest }) (suspectBody id pgen cause held)
  rw [hsent]
  exact ⟨_, rfl, rfl, rfl, rfl⟩

/-- Settles O48: one lemma for each command. -/
theorem portsTrainNarrowAndFail : Obligations.PortsTrainNarrowAndFail := fun _ ini mask _ hs hport =>
  ⟨exec_portEnable hs ini mask hport, exec_portRetrain hs ini mask hport,
    fun _ _ seeds credit nbr hstate hgood hlocked hdie => exec_linkUp hs hport seeds credit nbr hstate hgood hlocked hdie,
    exec_portTrainTimeout hs hport, fun _ hlane hup hgood => exec_laneFail hs hport hlane hup hgood,
    fun _ hnbr hup hvalid hlate => exec_neighbourSilent hport hnbr hup hvalid hlate,
    fun id pgen cause hnone => State.reportSuspect_head hnone id pgen cause⟩

end Sys2Proof.Machine
end

section
/-! Data packets for this package: PUT, COLL_DATA, COLL_READY, COLL_ABORT, DELIVERED and CLEAT_OP, and sends not delivered (13 R418, R422 to R424,
R428, R441, R442). -/

namespace Sys2Proof.Machine

/-! ### PUT (13 R422) -/

/-- The blocks that a PUT carries, with or without a scale line. -/
def putRawBlks (p : Packet) (scaled : Bool) : List RawBlk :=
  unrawFrame scaled (fmtBits (leNat ((p.body.drop 26).take 1) % 16) *
    (if bit (leNat ((p.body.drop 26).take 1)) 4 then 32 else 16) / 8) (p.body.drop 32)

/-- The scale line that a PUT merges at `line`. -/
def putLineMerge (p : Packet) (line : Nat) : LineMerge :=
  let out := leNat ((p.body.drop 16).take 8)
  let first := leNat ((p.body.drop 32).take 4)
  { addr := line, outAddr := if out = 0 then none else some out, tag := leNat ((p.body.drop 24).take 2), first := first / 56 * 56
    total := leNat ((p.body.drop 28).take 4), blocks := ((putRawBlks p true).zipIdx).map fun q => (first % 56 + q.2, q.1.byte, q.1.outs) }

theorem State.onPut_plain (s : State) {p : Packet} (h : leNat ((p.body.drop 8).take 8) = 2 ^ 64 - 1) :
    s.onPut p = (s.wrMarks (leNat (p.body.take 8)) ((putRawBlks p false).flatMap (·.bytes))).ack p := by
  have hscaled : (leNat ((p.body.drop 8).take 8) != 2 ^ 64 - 1) = false := by rw [h]; exact bne_self_eq_false _
  simp only [State.onPut, hscaled, Bool.false_eq_true, if_false]
  rfl

theorem State.onPut_scaled (s : State) {p : Packet} (h : leNat ((p.body.drop 8).take 8) ≠ 2 ^ 64 - 1) :
    s.onPut p = ((s.wrMarks (leNat (p.body.take 8)) ((putRawBlks p true).flatMap (·.bytes))).mergeLine
      (putLineMerge p (leNat ((p.body.drop 8).take 8)))).ack p := by
  have hscaled : (leNat ((p.body.drop 8).take 8) != 2 ^ 64 - 1) = true := bne_iff_ne.2 h
  simp only [State.onPut, hscaled, if_true, beq_iff_eq]
  rfl

/-! ### Packets that reach this package -/

section
variable {s : State} {p : Packet} (hd : p.dst = s.pkgId) (ht : p.tgen = s.pkgGen) (port : Nat)
include hd ht

/-- A packet of its TYPE for this package and its generation has its effect. -/
theorem State.onPacket_taken {kind : Nat} (hk : p.kind = kind) (f : State → State) : s.onPacket port kind p f = f s := by
  have hmine : s.arrive port kind p = .mine := by simp [State.arrive, hk, hd, ht]
  rw [State.onPacket, hmine]

theorem exec_put (hk : p.kind = 0x40) : exec (.put port p) s = .next (s.onPut p) :=
  congrArg Host.Outcome.next (State.onPacket_taken hd ht port hk _)
theorem exec_collData (hk : p.kind = 0x41) (residue : Bool) : exec (.collData port ⟨p, residue⟩) s = .next (s.onCollData p residue) :=
  congrArg Host.Outcome.next (State.onPacket_taken hd ht port hk _)
theorem exec_collReady (hk : p.kind = 0x52) : exec (.collReady port p) s = .next (s.onCollReady p) :=
  congrArg Host.Outcome.next (State.onPacket_taken hd ht port hk _)
theorem exec_collAbort (hk : p.kind = 0x53) : exec (.collAbort port p) s = .next (s.onCollAbort p) :=
  congrArg Host.Outcome.next (State.onPacket_taken hd ht port hk _)
theorem exec_delivered (hk : p.kind = 0x50) : exec (.delivered port p) s = .next (s.onDelivered p) :=
  congrArg Host.Outcome.next (State.onPacket_taken hd ht port hk _)
theorem exec_cleatOp (hk : p.kind = 0x51) : exec (.cleatOp port p) s = .next (s.onCleatOp port p) :=
  congrArg Host.Outcome.next (State.onPacket_taken hd ht port hk _)

end

/-! ### Collectives (13 R428, R441, R442) -/

section
variable {s : State} {p : Packet} {k : Nat} {c : Coll} {x : Item} (hc : s.collOf (leNat (p.body.take 4)) = some (k, c))
  (hx : tget dItem s.items k = some x) (hrun : x.stage = .running)
include hc hx hrun

theorem State.onCollData_running (hmember : p.src ∈ c.plan.members) (residue : Bool) : s.onCollData p residue = s.collReceive k x c p residue := by
  have htaken : (x.stage == .running && c.plan.members.contains p.src) = true := by simp [hrun, hmember]
  simp only [State.onCollData, hc, hx, htaken, if_true]

theorem State.onCollReady_running (hmember : p.src ∈ c.plan.members) {w : State × Coll}
    (hw : w = s.flushColl k { c with ready := (leNat ((p.body.drop 4).take 1), c.plan.rankOf p.src) :: c.ready }) :
    s.onCollReady p = w.1.collTry k w.2 := by
  have hmine : (!c.plan.members.contains p.src) = false := by simp [hmember]
  have hstage : (x.stage == .running) = true := by simp [hrun]
  simp only [State.onCollReady, hc, hx, hmine, hstage, Bool.false_eq_true, if_false, if_true, hw]

theorem State.onCollAbort_running (hvote : x.isVote = false) : s.onCollAbort p = (s.peerLost (k / 256) (k % 256) 3 p.src).settle := by
  have hends : (x.stage == .running && !x.isVote) = true := by simp [hrun, hvote]
  simp only [State.onCollAbort, hc, hx, hends, if_true]

end

/-- COLL_READY of a collective not yet known is kept. -/
theorem State.onCollReady_early {s : State} {p : Packet} (hc : s.collOf (leNat (p.body.take 4)) = none)
    (hv : ∀ v ∈ s.votes, v.collId ≠ leNat (p.body.take 4)) :
    s.onCollReady p = { s with earlyReady := (leNat (p.body.take 4), leNat ((p.body.drop 4).take 1), p.src) :: s.earlyReady } := by
  have hnone : s.votes.find? (fun v => v.collId == leNat (p.body.take 4)) = none := List.find?_eq_none.2 fun v h => by simpa using hv v h
  simp only [State.onCollReady, hc, hnone]

/-! ### DELIVERED and CLEAT_OP (13 R418, R424) -/

section
variable {s : State} {p : Packet} {q : Send} (hq : s.sends.find? (fun q => q.seq == leNat (p.body.take 8) && q.dst == p.src) = some q)
include hq

theorem State.onDelivered_ends (h : p.igen = s.gen 2 q.region) : s.onDelivered p = { s with sends := s.sends.filter fun r => r.seq != q.seq } := by
  have hlive : (p.igen != s.gen 2 q.region) = false := by simp [h]
  simp only [State.onDelivered, hq, hlive, Bool.false_eq_true, if_false]

theorem State.onDelivered_stale (h : p.igen ≠ s.gen 2 q.region) : s.onDelivered p = s.bump .errStaleCnt (regionDie q.region) 0 1 := by
  have hstale : (p.igen != s.gen 2 q.region) = true := bne_iff_ne.2 h
  simp only [State.onDelivered, hq, hstale, if_true]

end

/-- A signal or decrement that no zero notice follows moves its Cleat. -/
theorem State.cleatOp_sigOp {s : State} (hs : s.wf = true) {issuer d i : Nat} (w : Nat) (hx : cleatExists d i = true)
    (hway : s.cleatWay issuer d i = .open) (hz : bit (s.reg .cltCfg (cleatKey d i)).toNat 31 = false) :
    (s.cleatOp issuer d i (sigOp w)).cleatMoved s d i ∧ ((s.cleatOp issuer d i (sigOp w)).cleat d i).toNat =
      if sigDec w then (s.cleat d i).toNat - sigAmount w else min ((s.cleat d i).toNat + sigAmount w) 0xFFFFFFFF := by
  have hvalue (o : CleatOp) := State.cleatApply_cleat_same (die := d) (i := i) (o := o) (State.wf_cleats hs)
  rw [sigOp]
  cases sigDec w
  · simp only [Bool.false_eq_true, if_false, State.cleatOp_signal hway]
    exact ⟨State.cleatApply_moved hs hx _, hvalue _⟩
  · simp only [if_true, State.cleatOp_decrement hway]
    rw [State.zeroNotice_off (by rw [State.cleatApply_cltCfg hs hx, hz])]
    exact ⟨State.cleatApply_moved hs hx _, hvalue _⟩

theorem State.onCleatOp_mine {s : State} {p : Packet} (port : Nat) {w : Nat} (hw : w = leNat (p.body.take 8))
    (hx : cleatExists (sigDie w) (sigIdx w) = true) (hdie : s.dieDown (sigDie w) = false) :
    s.onCleatOp port p = ((s.cleatOp (portDie port) (sigDie w) (sigIdx w) (sigOp w)).settle).ack p := by
  have hthere : (cleatExists (sigDie w) (sigIdx w) && !s.dieDown (sigDie w)) = true := by simp [hx, hdie]
  subst hw
  simp only [State.onCleatOp, hthere, if_true]

/-! ### Sends not delivered (13 R423) -/

section
variable {s u : State} {q : Send} (hq : s.sends.find? (fun r => r.seq == q.seq) = some q) (hlate : q.at' + cycOfMs (s.dv 0x5003 0) ≤ s.cycle)
  (hu : u = { s with sends := s.sends.filter fun r => r.seq != q.seq })
include hq hlate hu

/-- A Cleat operation not delivered is counted, and its peer reported. -/
theorem exec_sendTimeout_cleat (hk : q.kind = 0x51) : exec (.sendTimeout q.seq) s
    = .next ((u.bump .cltUndelCnt (regionDie q.region) 0 1).reportSuspect q.dst (s.peer q.dst).pgen 1) := by
  have hcleat : (q.kind == 0x51) = true := by simp [hk]
  have hpeer : (u.bump .cltUndelCnt (regionDie q.region) 0 1).peer q.dst = s.peer q.dst := by
    obtain ⟨_, hregs⟩ := State.bump_regs u .cltUndelCnt (regionDie q.region) 0 1
    rw [State.peer, hregs, hu, State.peer]
  have hexec : exec (.sendTimeout q.seq) s = execSendTimeout q.seq s := rfl
  rw [hexec, ← hpeer, hu]
  simp only [execSendTimeout, hq, if_neg (Nat.not_lt.2 hlate), hcleat, if_true]

/-- A packet of a movement that runs, or has ended, ends it with PEER_LOST, and its peer is reported. -/
theorem exec_sendTimeout_item {x : Item} (hk : q.kind ≠ 0x51) (hx : s.item q.region q.slot = some x) (hengine : x.engine = 7)
    (hstage : x.stage = .running ∨ x.stage = .finished) : ∃ v : State, v = (u.peerLost q.region q.slot 2 q.dst).settle ∧
      exec (.sendTimeout q.seq) s = .next (v.reportSuspect q.dst (v.peer q.dst).pgen 1) := by
  have hcleat : (q.kind == 0x51) = false := by simp [hk]
  have hitem : u.item q.region q.slot = some x := by rw [hu]; exact hx
  have hends : (x.engine == 7 && (x.stage == Stage.running || x.stage == Stage.finished)) = true := by
    obtain h | h := hstage <;> simp [hengine, h]
  have hexec : exec (.sendTimeout q.seq) s = execSendTimeout q.seq s := rfl
  refine ⟨_, rfl, ?_⟩
  subst hu
  rw [hexec]
  simp only [execSendTimeout, hq, if_neg (Nat.not_lt.2 hlate), hcleat, Bool.false_eq_true, if_false, hitem, hends, if_true]

end

/-- Settles O51: the effect of each packet, as `onPacket_taken` gives it to this package. -/
theorem dataPacketsTakeEffect : Obligations.DataPacketsTakeEffect := by
  intro s port p hs hd ht
  refine ⟨?_, ?_, ?_, ?_, ?_, ?_, ?_⟩
  · rintro hk _ _ hline rfl rfl
    rw [exec_put hd ht port hk, State.onPut_plain s hline]
    rfl
  · rintro hk _ _ _ _ _ rfl hline rfl rfl rfl rfl
    rw [exec_put hd ht port hk, State.onPut_scaled s hline]
    rfl
  · intro k c x hc hx hrun hmember
    refine ⟨fun hk residue => ?_, fun hk w hw => ?_, fun hk hvote => ?_⟩
    · rw [exec_collData hd ht port hk, State.onCollData_running hc hx hrun hmember]
    · rw [exec_collReady hd ht port hk, State.onCollReady_running hc hx hrun hmember hw]
    · rw [exec_collAbort hd ht port hk, State.onCollAbort_running hc hx hrun hvote]
  · intro hk hc hv
    rw [exec_collReady hd ht port hk, State.onCollReady_early hc hv]
  · intro hk q hq
    refine ⟨fun h => ?_, fun h => ?_⟩
    · rw [exec_delivered hd ht port hk, State.onDelivered_ends hq h]
    · rw [exec_delivered hd ht port hk, State.onDelivered_stale hq h]
  · rintro hk w _ _ rfl rfl rfl hx hdie hpath hz
    obtain ⟨hmoved, hvalue⟩ := State.cleatOp_sigOp hs (leNat (p.body.take 8)) hx (State.cleatWay_open hx hdie hpath) hz
    exact ⟨_, by rw [exec_cleatOp hd ht port hk, State.onCleatOp_mine port rfl hx hdie], hmoved, hvalue⟩
  · intro q hq hlate u hu
    exact ⟨exec_sendTimeout_cleat hq hlate hu, fun x hk hx hengine hstage => exec_sendTimeout_item hq hlate hu hk hx hengine hstage⟩

end Sys2Proof.Machine
end
